-- ==== Sys2Proof/Word.lean ====
section
/-! DEFINITION. The machine's words: 64-bit registers and addresses, bytes, and their plainest conversions. -/
namespace Sys2Proof

/-- A 64-bit register, address or memory word (R98, R231). -/
abbrev Word := BitVec 64

/-- One byte of memory or of a register image. -/
abbrev Byte := BitVec 8

/-- The bytes of a number, least significant first (R5). -/
def leBytes : Nat → Nat → List Byte
  | 0, _ => []
  | n + 1, v => BitVec.ofNat 8 v :: leBytes n (v / 256)

/-- The number that a list of bytes stands for, least significant first (R5). -/
def ofLeBytes : List Byte → Nat
  | [] => 0
  | b :: bs => b.toNat + 256 * ofLeBytes bs

end Sys2Proof
end

