-- ==== Sys2Proof/Syntax.lean ====
section
/-! DEFINITION. The operations of the eight slots, with their decoded fields, and the events of the machine's other agents. -/
namespace Sys2Proof

/-- The slots of a bundle in slot order (R69). -/
inductive Slot where
  | y | s | v0 | v1 | m | l | w | c
  deriving DecidableEq, Repr

/-- The vector slot an operation stands in (R79). -/
inductive VSlot where
  | v0 | v1
  deriving DecidableEq, Repr

/-- The format codes of R116: what a register's tag holds and what FMT and FMT6 name. -/
inductive Fmt where
  | raw | fp32 | bf16 | fp16 | e4m3 | e5m2 | e3m2 | e2m3 | e2m1 | e8m10
  | e4m3b32 | e5m2b32 | e3m2b32 | e2m3b32 | e2m1b32 | e4m3b16 | e2m1b16 | e2m1q16
  | e4m3row | e2m1row | int8 | uint8 | int4 | uint4 | int2
  | int8b32 | int4b32 | int4b16 | int8row | int4row | res8 | res4 | lat8
  | acc32f | acc32i | resa | kps | mask1 | e8m0 | int32 | int16 | uint32 | poison
  deriving DecidableEq, Repr

/-- The common header's predicate: N and PRED (R70, R71). -/
structure Pred where
  neg : Bool
  reg : BitVec 7
  deriving DecidableEq, Repr

/-- The SR body (R72). -/
structure SR where
  d : BitVec 6
  a : BitVec 6
  b : BitVec 6
  c : BitVec 6
  ha : BitVec 2
  hb : BitVec 2
  hc : BitVec 2
  fmt : BitVec 6
  rnd : BitVec 3
  sat : BitVec 1
  fn9 : BitVec 9
  deriving DecidableEq, Repr

/-- The SI body (R73). -/
structure SI where
  d : BitVec 6
  a : BitVec 6
  imm : BitVec 32
  fn5 : BitVec 5
  deriving DecidableEq, Repr

/-- The MEM body (R75). -/
structure MEM where
  d : BitVec 6
  base : BitVec 6
  idx : BitVec 6
  ord : BitVec 3
  scope : BitVec 3
  scl : BitVec 3
  disp : BitVec 22
  deriving DecidableEq, Repr

/-- The MX body (R76). -/
structure MX where
  a : BitVec 6
  b : BitVec 6
  bm : BitVec 1
  acc : BitVec 3
  hr : BitVec 3
  kv : BitVec 2
  xs : BitVec 2
  mrg : BitVec 1
  za : BitVec 1
  ha : BitVec 2
  hb : BitVec 2
  cm : BitVec 3
  kb : BitVec 3
  disp : BitVec 14
  deriving DecidableEq, Repr

/-- What a message carries (R316): two words, or a whole vector (its tag and 288 bytes). -/
inductive Payload where
  | words (w0 w1 : Word)
  | vec (tag : Fmt) (bytes : List Byte)
  deriving DecidableEq, Repr

/-- A message of a peer package as it reaches the port (R316, R317): the endpoint it comes from, the job
slot it names here, its sender, its target core, handler entry, payload and the sender's WID, widths and priority. -/
structure WireMsg where
  endpoint : BitVec 128
  slot : Nat
  chip : Nat
  core : Nat
  bank : Nat
  target : Nat
  entry : Word
  payload : Payload
  wid : Word
  widths : List Nat
  prio : Nat
  deriving DecidableEq, Repr

/-- A child's reply in a cross-package wave (R362); `failed` is a failed reply. -/
structure WaveReply where
  child : Nat
  wave : Nat
  second : Bool
  failed : Bool
  inj : Word
  con : Word
  act : Bool
  deriving DecidableEq, Repr

/-- Whose TLBI registers a TLB invalidation goes through (R241). -/
inductive TlbiUnit where
  | core (n : Nat)
  | job (n : Nat)
  deriving DecidableEq, Repr

/-- What start-up finds at a stage (R425, R427, R304): the error code (0: none), the positions whose
core fails, per cluster, and the vector units that fail, per core, as bit masks, and the flash health scan, per stack:
SPARE_BLOCKS, BAD_BLOCKS, ERASE_MAX and ERASE_MEAN. -/
structure StageReport where
  err : Nat
  coreBad : List (Nat × Nat)
  vuBad : List (Nat × Nat)
  health : List (Nat × Nat × Nat × Nat)
  deriving DecidableEq, Repr

/-- One reading of the power and temperature sensors (R426): mW over the last ms, and °C of each die. -/
structure PowerSample where
  mw : Nat
  temps : List Nat
  deriving DecidableEq, Repr

/-- A unit that collimation tests (R427). -/
inductive HwUnit where
  | core (n : Nat)
  | vector (core unit : Nat)
  | ldmBank (core bank : Nat)
  deriving DecidableEq, Repr

/-- The management controller's daily ageing estimates (R429). -/
structure AgeSample where
  eolDays : Nat
  rodrift : Nat
  hours : Nat
  /-- of an HBM stack: its correctable errors of the last 24 h, and physical addresses of 32-byte sectors that have become
  uncorrectable (R430) -/
  errors : Nat := 0
  lost : List Nat := []
  deriving DecidableEq, Repr


/-- What an event is about: the operands of the events, put beside the event by the agenda.  Each
event's docstring says which of these it reads; an event whose operands name nothing that can happen
in the state changes nothing. -/
structure EventArg where
  core : Nat
  bank : Nat
  n : Nat
  m : Nat
  k : Nat
  flag : Bool
  v : Word
  data : List Byte
  msg : Option WireMsg
  reply : Option WaveReply
  tlbi : TlbiUnit
  unit : HwUnit
  report : Option StageReport
  power : Option PowerSample
  age : Option AgeSample
  deriving DecidableEq, Repr

/-- No operands. -/
def EventArg.none : EventArg where
  core := 0
  bank := 0
  n := 0
  m := 0
  k := 0
  flag := false
  v := 0
  data := []
  msg := Option.none
  reply := Option.none
  tlbi := .core 0
  unit := .core 0
  report := Option.none
  power := Option.none
  age := Option.none

/-- One step of the machine: an operation of one slot, with the fields of its body (R70 to R76), or an
event of one of the machine's other agents, whose operands are an EventArg.  One constructor for each
row of the opcode table; the docstring gives the row's rule.  The predicate of the common header
(R70, R71) is not part of it: decode answers it beside the operation. -/
inductive Instr where
  /-- BR (R142). -/
  | br (f : SI)
  /-- BRX (R142). -/
  | brx (f : SR)
  /-- CALL (R142). -/
  | call (f : SI)
  /-- CALLX (R142). -/
  | callx (f : SR)
  /-- RET (R142). -/
  | ret (f : SR)
  /-- LOOP (R84). -/
  | loop (f : SI)
  /-- LOOPI (R84). -/
  | loopi (f : SI)
  /-- LBRK (R144). -/
  | lbrk (f : SR)
  /-- LIDX (R145). -/
  | lidx (f : SR)
  /-- REP (R88). -/
  | rep (f : SI)
  /-- POST (R147). -/
  | post (f : SR)
  /-- POSTN (R147). -/
  | postn (f : SR)
  /-- POSTI (R147). -/
  | posti (f : SR)
  /-- JADD (R148). -/
  | jadd (f : SI)
  /-- ENDP (R150). -/
  | endp (f : SR)
  /-- WHWAIT (R153). -/
  | whwait (f : SR)
  /-- WHTEST (R153). -/
  | whtest (f : SR)
  /-- BINIT (R155). -/
  | binit (f : SR)
  /-- BARV (R155). -/
  | barv (f : SR)
  /-- BEXP (R155). -/
  | bexp (f : SR)
  /-- BWAIT (R156). -/
  | bwait (f : SR)
  /-- BTEST (R156). -/
  | btest (f : SR)
  /-- BWANY (R156). -/
  | bwany (f : SR)
  /-- WAITA (R157). -/
  | waita (f : SR)
  /-- FENCE (R159). -/
  | fence (f : SR)
  /-- DRAIN (R159). -/
  | drain (f : SR)
  /-- QTEST (R160). -/
  | qtest (f : SR)
  /-- QINIT (R161). -/
  | qinit (f : SI)
  /-- QADVH (R106). -/
  | qadvh (f : SI)
  /-- QADVT (R106). -/
  | qadvt (f : SI)
  /-- TRAP (R162). -/
  | trap (f : SI)
  /-- SVC (R162). -/
  | svc (f : SI)
  /-- MFS (R164). -/
  | mfs (f : SI)
  /-- MTS (R164). -/
  | mts (f : SI)
  /-- CSAVE (R165). -/
  | csave (f : SR)
  /-- CLOAD (R165). -/
  | cload (f : SR)
  /-- CTXSW (R165). -/
  | ctxsw (f : SR)
  /-- EVT (R152). -/
  | evt (f : SI)
  /-- EVT_TR (R152). -/
  | evtTr (f : SI)
  /-- ADD (R168). -/
  | add (f : SR)
  /-- SUB (R168). -/
  | sub (f : SR)
  /-- ADDI (R168). -/
  | addi (f : SI)
  /-- MUL (R168). -/
  | mul (f : SR)
  /-- MULH (R168). -/
  | mulh (f : SR)
  /-- MULHU (R168). -/
  | mulhu (f : SR)
  /-- DIV (R169). -/
  | div (f : SR)
  /-- DIVU (R169). -/
  | divu (f : SR)
  /-- REM (R169). -/
  | rem (f : SR)
  /-- AND (R170). -/
  | and (f : SR)
  /-- OR (R170). -/
  | or (f : SR)
  /-- XOR (R170). -/
  | xor (f : SR)
  /-- ANDI (R170). -/
  | andi (f : SI)
  /-- ORI (R170). -/
  | ori (f : SI)
  /-- SHL (R170). -/
  | shl (f : SR)
  /-- SHR (R170). -/
  | shr (f : SR)
  /-- SAR (R170). -/
  | sar (f : SR)
  /-- SHLI (R170). -/
  | shli (f : SI)
  /-- SHRI (R170). -/
  | shri (f : SI)
  /-- SARI (R170). -/
  | sari (f : SI)
  /-- CLZ (R168). -/
  | clz (f : SR)
  /-- CTZ (R168). -/
  | ctz (f : SR)
  /-- POPC (R168). -/
  | popc (f : SR)
  /-- MIN (R168). -/
  | min (f : SR)
  /-- MAX (R168). -/
  | max (f : SR)
  /-- MINU (R168). -/
  | minu (f : SR)
  /-- MAXU (R168). -/
  | maxu (f : SR)
  /-- SEL (R168). -/
  | sel (f : SR)
  /-- LI (R171). -/
  | li (f : SI)
  /-- LIH (R171). -/
  | lih (f : SI)
  /-- ADDSH (R168). -/
  | addsh (f : SR)
  /-- BFX (R172). -/
  | bfx (f : SI)
  /-- BFI (R172). -/
  | bfi (f : SI)
  /-- WIDF (R173). -/
  | widf (f : SI)
  /-- CMPEQ (R174). -/
  | cmpeq (f : SR)
  /-- CMPNE (R174). -/
  | cmpne (f : SR)
  /-- CMPLT (R174). -/
  | cmplt (f : SR)
  /-- CMPLTU (R174). -/
  | cmpltu (f : SR)
  /-- CMPLE (R174). -/
  | cmple (f : SR)
  /-- CMPLEU (R174). -/
  | cmpleu (f : SR)
  /-- CMPEQI (R174). -/
  | cmpeqi (f : SI)
  /-- CMPLTI (R174). -/
  | cmplti (f : SI)
  /-- CMPLTUI (R174). -/
  | cmpltui (f : SI)
  /-- PAND (R175). -/
  | pand (f : SR)
  /-- POR (R175). -/
  | por (f : SR)
  /-- PXOR (R175). -/
  | pxor (f : SR)
  /-- PANDN (R175). -/
  | pandn (f : SR)
  /-- PSET (R175). -/
  | pset (f : SR)
  /-- PGET (R175). -/
  | pget (f : SR)
  /-- PCNT (R175). -/
  | pcnt (f : SR)
  /-- PFIRST (R175). -/
  | pfirst (f : SR)
  /-- FADD (R176). -/
  | fadd (f : SR)
  /-- FSUB (R176). -/
  | fsub (f : SR)
  /-- FMUL (R176). -/
  | fmul (f : SR)
  /-- FFMA (R176). -/
  | ffma (f : SR)
  /-- FMIN (R176). -/
  | fmin (f : SR)
  /-- FMAX (R176). -/
  | fmax (f : SR)
  /-- FCLT (R174). -/
  | fclt (f : SR)
  /-- FCLE (R174). -/
  | fcle (f : SR)
  /-- FCVTI (R177). -/
  | fcvti (f : SR)
  /-- FCVTF (R177). -/
  | fcvtf (f : SR)
  /-- RNDQ (R178). -/
  | rndq (f : SR)
  /-- RNDF (R178). -/
  | rndf (f : SR)
  /-- VADD (R184). -/
  | vadd (v : VSlot) (f : SR)
  /-- VSUB (R184). -/
  | vsub (v : VSlot) (f : SR)
  /-- VMUL (R184). -/
  | vmul (v : VSlot) (f : SR)
  /-- VFMA (R184). -/
  | vfma (v : VSlot) (f : SR)
  /-- VFMS (R184). -/
  | vfms (v : VSlot) (f : SR)
  /-- VMIN (R184). -/
  | vmin (v : VSlot) (f : SR)
  /-- VMAX (R184). -/
  | vmax (v : VSlot) (f : SR)
  /-- VABS (R185). -/
  | vabs (v : VSlot) (f : SR)
  /-- VNEG (R185). -/
  | vneg (v : VSlot) (f : SR)
  /-- VDIV (R186). -/
  | vdiv (f : SR)
  /-- VRCP (R187). -/
  | vrcp (v : VSlot) (f : SR)
  /-- VRSQ (R187). -/
  | vrsq (v : VSlot) (f : SR)
  /-- VEXP2 (R187). -/
  | vexp2 (v : VSlot) (f : SR)
  /-- VLOG2 (R187). -/
  | vlog2 (v : VSlot) (f : SR)
  /-- VAND (R188). -/
  | vand (v : VSlot) (f : SR)
  /-- VOR (R188). -/
  | vor (v : VSlot) (f : SR)
  /-- VXOR (R188). -/
  | vxor (v : VSlot) (f : SR)
  /-- VSHL (R188). -/
  | vshl (v : VSlot) (f : SR)
  /-- VSHR (R188). -/
  | vshr (v : VSlot) (f : SR)
  /-- VSAR (R188). -/
  | vsar (v : VSlot) (f : SR)
  /-- VCEQ (R189). -/
  | vceq (v : VSlot) (f : SR)
  /-- VCNE (R189). -/
  | vcne (v : VSlot) (f : SR)
  /-- VCLT (R189). -/
  | vclt (v : VSlot) (f : SR)
  /-- VCLE (R189). -/
  | vcle (v : VSlot) (f : SR)
  /-- VSEL (R190). -/
  | vsel (v : VSlot) (f : SR)
  /-- VMOV (R190). -/
  | vmov (v : VSlot) (f : SR)
  /-- VBCST (R190). -/
  | vbcst (v : VSlot) (f : SR)
  /-- VIOTA (R190). -/
  | viota (v : VSlot) (f : SR)
  /-- VXTR (R191). -/
  | vxtr (v : VSlot) (f : SR)
  /-- VINS (R191). -/
  | vins (v : VSlot) (f : SR)
  /-- VRADD (R193). -/
  | vradd (f : SR)
  /-- VRMAX (R193). -/
  | vrmax (f : SR)
  /-- VRMIN (R193). -/
  | vrmin (f : SR)
  /-- VSCAN (R194). -/
  | vscan (f : SR)
  /-- VARGMX (R195). -/
  | vargmx (f : SR)
  /-- VPERM (R192). -/
  | vperm (f : SR)
  /-- VROT (R192). -/
  | vrot (v : VSlot) (f : SR)
  /-- VCMPR (R196). -/
  | vcmpr (f : SR)
  /-- VSORTK (R197). -/
  | vsortk (f : SR)
  /-- VMRGK (R198). -/
  | vmrgk (f : SR)
  /-- VCVT (R199). -/
  | vcvt (v : VSlot) (f : SR)
  /-- VQNT (R199). -/
  | vqnt (v : VSlot) (f : SR)
  /-- VDQNT (R199). -/
  | vdqnt (v : VSlot) (f : SR)
  /-- VTAG (R201). -/
  | vtag (v : VSlot) (f : SR)
  /-- VGTAG (R202). -/
  | vgtag (v : VSlot) (f : SR)
  /-- MMA (R209). -/
  | mma (f : MX)
  /-- MMA_ABS (R210). -/
  | mmaAbs (f : MX)
  /-- MMAM (R223). -/
  | mmam (f : MX)
  /-- TTRN (R213). -/
  | ttrn (f : MX)
  /-- TPRM (R214). -/
  | tprm (f : MX)
  /-- TRED (R215). -/
  | tred (f : MX)
  /-- AZERO (R216). -/
  | azero (f : MX)
  /-- AADD (R217). -/
  | aadd (f : MX)
  /-- ASCL (R218). -/
  | ascl (f : MX)
  /-- ACVT (R218). -/
  | acvt (f : MX)
  /-- AFOLD (R219). -/
  | afold (f : MX)
  /-- AROW (R220). -/
  | arow (f : MX)
  /-- AWROW (R220). -/
  | awrow (f : MX)
  /-- TZERO (R216). -/
  | tzero (f : MX)
  /-- TMOV (R220). -/
  | tmov (f : MX)
  /-- TROW (R220). -/
  | trow (f : MX)
  /-- TWROW (R220). -/
  | twrow (f : MX)
  /-- TTAG (R216). -/
  | ttag (f : MX)
  /-- LXLD (R221). -/
  | lxld (f : MX)
  /-- LXINV (R221). -/
  | lxinv (f : MX)
  /-- LDB (R261). -/
  | ldb (f : MEM)
  /-- LDBU (R261). -/
  | ldbu (f : MEM)
  /-- LDH (R261). -/
  | ldh (f : MEM)
  /-- LDHU (R261). -/
  | ldhu (f : MEM)
  /-- LDW (R261). -/
  | ldw (f : MEM)
  /-- LDWU (R261). -/
  | ldwu (f : MEM)
  /-- LDD (R261). -/
  | ldd (f : MEM)
  /-- LDQ (R261). -/
  | ldq (f : MEM)
  /-- VLD (R262). -/
  | vld (f : MEM)
  /-- VLDS (R263). -/
  | vlds (f : MEM)
  /-- VGTH (R265). -/
  | vgth (f : SR)
  /-- PLD (R271). -/
  | pld (f : MEM)
  /-- TLD (R266). -/
  | tld (f : SR)
  /-- TLDK_LAT8 (R268). -/
  | tldkLat8 (f : SR)
  /-- TLDK_EXPAND (R268). -/
  | tldkExpand (f : SR)
  /-- LDBLK (R270). -/
  | ldblk (f : MEM)
  /-- LBWAIT (R270). -/
  | lbwait (f : MEM)
  /-- PREF (R271). -/
  | pref (f : MEM)
  /-- AMADD (R272). -/
  | amadd (f : MEM)
  /-- AMSWP (R272). -/
  | amswp (f : MEM)
  /-- AMCAS (R272). -/
  | amcas (f : MEM)
  /-- AMCAS16 (R272). -/
  | amcas16 (f : MEM)
  /-- AMMIN (R272). -/
  | ammin (f : MEM)
  /-- AMMAX (R272). -/
  | ammax (f : MEM)
  /-- AMMINU (R272). -/
  | amminu (f : MEM)
  /-- AMMAXU (R272). -/
  | ammaxu (f : MEM)
  /-- AMAND (R272). -/
  | amand (f : MEM)
  /-- AMOR (R272). -/
  | amor (f : MEM)
  /-- AMXOR (R272). -/
  | amxor (f : MEM)
  /-- AMFADD (R272). -/
  | amfadd (f : MEM)
  /-- STB (R261). -/
  | stb (f : MEM)
  /-- STH (R261). -/
  | sth (f : MEM)
  /-- STW (R261). -/
  | stw (f : MEM)
  /-- STD (R261). -/
  | std (f : MEM)
  /-- STQ (R261). -/
  | stq (f : MEM)
  /-- VST (R262). -/
  | vst (f : MEM)
  /-- VSTS (R263). -/
  | vsts (f : MEM)
  /-- VSCT (R265). -/
  | vsct (f : SR)
  /-- PST (R264). -/
  | pst (f : MEM)
  /-- TST (R267). -/
  | tst (f : MEM)
  /-- TSTK (R269). -/
  | tstk (f : SR)
  /-- RDADD (R274). -/
  | rdadd (f : MEM)
  /-- RDMIN (R274). -/
  | rdmin (f : MEM)
  /-- RDMAX (R274). -/
  | rdmax (f : MEM)
  /-- RDAND (R274). -/
  | rdand (f : MEM)
  /-- RDOR (R274). -/
  | rdor (f : MEM)
  /-- RDXOR (R274). -/
  | rdxor (f : MEM)
  /-- RDFADD (R274). -/
  | rdfadd (f : MEM)
  /-- LINV (R275). -/
  | linv (f : MEM)
  /-- LWB (R275). -/
  | lwb (f : MEM)
  /-- LZERO (R275). -/
  | lzero (f : MEM)
  /-- BLKREL (R270). -/
  | blkrel (f : MEM)
  /-- CSRC (R308). -/
  | csrc (f : SR)
  /-- CDST (R308). -/
  | cdst (f : SR)
  /-- CDIM (R308). -/
  | cdim (f : SR)
  /-- CELT (R308). -/
  | celt (f : SR)
  /-- CMODE (R308). -/
  | cmode (f : SI)
  /-- CBAR (R308). -/
  | cbar (f : SR)
  /-- CFLAG (R308). -/
  | cflag (f : SR)
  /-- CGO (R309). -/
  | cgo (f : SR)
  /-- CSTAT (R310). -/
  | cstat (f : SR)
  /-- CCAN (R311). -/
  | ccan (f : SR)
  /-- CCAN_ALL (R311). -/
  | ccanAll (f : SR)
  /-- WHREQ (R312). -/
  | whreq (f : SR)
  /-- WHDMD (R312). -/
  | whdmd (f : SR)
  /-- WHDMD_UP (R313). -/
  | whdmdUp (f : SR)
  /-- WHREL (R314). -/
  | whrel (f : SR)
  /-- MSEND (R316). -/
  | msend (f : SR)
  /-- MSENDV (R316). -/
  | msendv (f : SR)
  /-- LSEND (R321). -/
  | lsend (f : SR)
  /-- LRECV (R321). -/
  | lrecv (f : SR)
  /-- RBKEY (R322). -/
  | rbkey (f : SR)
  /-- NOP (R70); any slot. -/
  | nop
  /-- END (R149). -/
  | endTask
  /-- YIELD (R151). -/
  | yield
  /-- PARK (R152). -/
  | park
  /-- SLIPW (R159). -/
  | slipw
  /-- QUIET (R160). -/
  | quiet
  /-- ERET (R163). -/
  | eret
  /-- MWAIT (R222). -/
  | mwait
  /-- WAITA_TIMEOUT (R157); core, bank. -/
  | waitaTimeout
  /-- LONG_WAIT_PARK (R158); core, bank. -/
  | longWaitPark
  /-- SLOT_QUEUE_ISSUE (R110); core, bank, n: slot. -/
  | slotQueueIssue
  /-- LOAD_DATA_RETURN (R276); core, bank, n. -/
  | loadDataReturn
  /-- TILE_LOAD_COMPLETE (R106); core, bank, n. -/
  | tileLoadComplete
  /-- MATRIX_RESULT_WRITE (R212); core, bank, n. -/
  | matrixResultWrite
  /-- EXPANDER_LOAD_COMPLETE (R221); core, n: xs. -/
  | expanderLoadComplete
  /-- LOAD_BLOCK_FILLED (R246); core, bank, n: blk. -/
  | loadBlockFilled
  /-- GENERATOR_REFILL (R128); core, bank. -/
  | generatorRefill
  /-- SC_STAMP (R348); core, bank. -/
  | scStamp
  /-- SC_PERFORM (R349); core, bank. -/
  | scPerform
  /-- REDUCTION_PERFORM (R274); n. -/
  | reductionPerform
  /-- PLACEMENT (R57); core. -/
  | placement
  /-- GATING_TIMEOUT (R58); n: rec. -/
  | gatingTimeout
  /-- AGING (R61); n: rec. -/
  | aging
  /-- STAGE_ALLOCATION (R62). -/
  | stageAllocation
  /-- BLOCKED_POST_ADMIT (R63); n: job, m: pipe, k: stage. -/
  | blockedPostAdmit
  /-- PROBE_SEND (R64); core, bank. -/
  | probeSend
  /-- PROBE_GRANT (R64); core, bank. -/
  | probeGrant
  /-- EXPANSION_SELECT (R44); core, n: rec. -/
  | expansionSelect
  /-- HOST_POST (R46); n: slot, m: off, data. -/
  | hostPost
  /-- HOST_POST_ENTER (R48); n: job. -/
  | hostPostEnter
  /-- LAUNCH (R25); n: job, v: va. -/
  | launch
  /-- GRID_TASK_POST (R30); n: launchId. -/
  | gridTaskPost
  /-- STACK_DEADLINE_RELEASE (R225); n: cluster, m: stack. -/
  | stackDeadlineRelease
  /-- STACK_ENGINE_START (R226); n: cluster, core. -/
  | stackEngineStart
  /-- STACK_SPLIT (R227); n: cluster, m: stack. -/
  | stackSplit
  /-- STACK_DISSOLVE (R228); n: cluster, m: stack. -/
  | stackDissolve
  /-- COPY_START (R278); core. -/
  | copyStart
  /-- COPY_ELEMENT_WRITE (R279); core. -/
  | copyElementWrite
  /-- DRAMLOC_FRAME (R289); core. -/
  | dramlocFrame
  /-- COPY_FAULT (R287); core. -/
  | copyFault
  /-- COPY_COMPLETE (R286); core. -/
  | copyComplete
  /-- HANDLE_PAGE_LAND (R297); n: h, m: page. -/
  | handlePageLand
  /-- HANDLE_READY (R297); n: h. -/
  | handleReady
  /-- HANDLE_ERROR (R297); n: h. -/
  | handleError
  /-- HANDLE_RELEASE_FREE (R297); n: h. -/
  | handleReleaseFree
  /-- FLASH_PAGE_READ (R302); n. -/
  | flashPageRead
  /-- RELOCATION_REMAP (R302); n: stack, m: block. -/
  | relocationRemap
  /-- BLOCK_ERASE_COMPLETE (R302); n: stack, m: block, flag: failed. -/
  | blockEraseComplete
  /-- MESSAGE_ARRIVAL (R318); n. -/
  | messageArrival
  /-- MESSAGE_HANDOVER (R356); n. -/
  | messageHandover
  /-- HANDOVER_ACK (R356); n. -/
  | handoverAck
  /-- RETIREMENT_NOTICE (R355); n. -/
  | retirementNotice
  /-- REDUCTION_ACK (R355); n. -/
  | reductionAck
  /-- REMOTE_MESSAGE_RECEIVE (R317); msg. -/
  | remoteMessageReceive
  /-- SWEEP_WAVE_START (R358). -/
  | sweepWaveStart
  /-- SWEEP_PASS2 (R358). -/
  | sweepPass2
  /-- SWEEP_VERDICT (R359). -/
  | sweepVerdict
  /-- XWAVE_START (R362); n: job. -/
  | xwaveStart
  /-- XWAVE_REQUEST_RECEIVE (R362); n: job, m: wave, flag: second. -/
  | xwaveRequestReceive
  /-- XWAVE_REPLY_RECEIVE (R362); n: job, reply. -/
  | xwaveReplyReceive
  /-- XWAVE_REPLY_TIMEOUT (R362); n: job, m: child. -/
  | xwaveReplyTimeout
  /-- XWAVE_VERDICT_RECEIVE (R362); n: job, m: wave, flag: quiet, v: start. -/
  | xwaveVerdictReceive
  /-- UE_RETRANSMIT (R365); n. -/
  | ueRetransmit
  /-- UE_ACK_RECEIVE (R365); n. -/
  | ueAckReceive
  /-- UE_ABANDON (R363); n. -/
  | ueAbandon
  /-- LINK_ARRIVAL (R366); n: job, m: peer, k: queue, data. -/
  | linkArrival
  /-- TIMER (R391); core, bank. -/
  | timer
  /-- PREEMPT_OVERDUE (R401); core, bank. -/
  | preemptOverdue
  /-- FAULT_RECORD_WRITE (R245); n: job. -/
  | faultRecordWrite
  /-- FQTAIL_WRITE (R245); n: job, v. -/
  | fqtailWrite
  /-- LOSSTAIL_WRITE (R364); n: job, v. -/
  | losstailWrite
  /-- ORTAIL_REPLAY (R396); n: job, v. -/
  | ortailReplay
  /-- ORTAIL_DISCARD (R396); n: job, v. -/
  | ortailDiscard
  /-- REPLAY (R394); n: job. -/
  | replay
  /-- PREEMPT_REQ (R400); n: job. -/
  | preemptReq
  /-- PREEMPT_REL (R400); n: job. -/
  | preemptRel
  /-- PREQ_REQUEST (R400); core, v. -/
  | preqRequest
  /-- PREQ_HELD_RELEASE (R400); core, v. -/
  | preqHeldRelease
  /-- KILL (R407); n: job. -/
  | kill
  /-- KILL_COMPLETE (R407); n: job. -/
  | killComplete
  /-- JOB_CREATE (R424); n: job, v, data: the link table that the host driver opens (R41). -/
  | jobCreate
  /-- JOB_TEARDOWN (R424); n: job, v. -/
  | jobTeardown
  /-- TEARDOWN_COMPLETE (R424); n: job. -/
  | teardownComplete
  /-- TLBI_GO (R241); tlbi: unit, v. -/
  | tlbiGo
  /-- TLBI_COMPLETE (R241); tlbi: unit. -/
  | tlbiComplete
  /-- RCTL_BIND (R248); core, n: region, v. -/
  | rctlBind
  /-- RCTL_UNBIND (R248); core, n: region, v. -/
  | rctlUnbind
  /-- UNBIND_WRITEBACK_DONE (R248); core, n: region. -/
  | unbindWritebackDone
  /-- HPT_EPOCH (R249); n: cluster. -/
  | hptEpoch
  /-- ZFREE_PUSH (R430); n: stack, v. -/
  | zfreePush
  /-- MB_GETID (R434). -/
  | mbGetid
  /-- MB_ATTEST (R434). -/
  | mbAttest
  /-- MB_VERIFY (R434). -/
  | mbVerify
  /-- MB_UPDATE (R434). -/
  | mbUpdate
  /-- MAILBOX_DONE (R434). -/
  | mailboxDone
  /-- FINJ_WRITE (R416); n: stack, v. -/
  | finjWrite
  /-- VFSLOTS_WRITE (R431); n: vf, v. -/
  | vfslotsWrite
  /-- FGRANT_WRITE (R422); n: job, m: grant, flag: second, v. -/
  | fgrantWrite
  /-- DISPCNT_READ (R65); n: job. -/
  | dispcntRead
  /-- FHEALTH_C_READ (R304); n: stack. -/
  | fhealthCRead
  /-- HPT_CNT_READ (R251); n: cluster. -/
  | hptCntRead
  /-- COLCNT_READ (R427); n: die. -/
  | colcntRead
  /-- HUNC_READ (R430); n: stack. -/
  | huncRead
  /-- REGISTER_WRITE (R7); n: off, v. -/
  | registerWrite
  /-- HOST_BAR4_READ (R432); n: off, m: len. -/
  | hostBar4Read
  /-- HOST_BAR4_WRITE (R432); n: off, data. -/
  | hostBar4Write
  /-- POWER_GOOD (R425). -/
  | powerGood
  /-- STAGE0_COMPLETE (R425); flag: ok. -/
  | stage0Complete
  /-- STAGE1_COMPLETE (R425); report. -/
  | stage1Complete
  /-- STAGE2_COMPLETE (R425); report. -/
  | stage2Complete
  /-- POWER_CAP_TICK (R426); power: sample. -/
  | powerCapTick
  /-- THERMAL_TRIP (R426); power: sample. -/
  | thermalTrip
  /-- COOLDOWN_RESTART (R426); power: sample. -/
  | cooldownRestart
  /-- UNIT_ERROR (R427); unit. -/
  | unitError
  /-- COLLIMATION_TEST_DONE (R427); unit, flag: lasting. -/
  | collimationTestDone
  /-- EPHEM_UPDATE (R304, R429, R430); n: compute die 0 to 3, flash stack 4 to 11, HBM stack 12 to 19; age: sample. -/
  | ephemUpdate
  /-- STORE_PERFORM (R437); core, bank, n. -/
  | storePerform
  /-- HANDLE_TABLE_ANSWER (R315); n. -/
  | handleTableAnswer
  /-- EVENT_ARRIVAL (R152); n. -/
  | eventArrival
  /-- FLASH_PROGRAM_COMPLETE (R285); core. -/
  | flashProgramComplete
  /-- HPT_CTL_WRITE (R252); n: cluster, v. -/
  | hptCtlWrite
  deriving DecidableEq, Repr

end Sys2Proof
end

