-- ==== Sys2Proof/Machine/Formats.lean ====
section
/-! DEFINITION. The number formats of R116: codes, lane widths, element layouts, scales, classes, and which registers carry them. -/
namespace Sys2Proof

/-- The code of a format (R116). -/
def Fmt.code : Fmt → BitVec 6
  | .raw => 0x00 | .fp32 => 0x01 | .bf16 => 0x02 | .fp16 => 0x03 | .e4m3 => 0x04 | .e5m2 => 0x05
  | .e3m2 => 0x06 | .e2m3 => 0x07 | .e2m1 => 0x08 | .e8m10 => 0x09
  | .e4m3b32 => 0x0A | .e5m2b32 => 0x0B | .e3m2b32 => 0x0C | .e2m3b32 => 0x0D | .e2m1b32 => 0x0E
  | .e4m3b16 => 0x0F | .e2m1b16 => 0x10 | .e2m1q16 => 0x11 | .e4m3row => 0x12 | .e2m1row => 0x13
  | .int8 => 0x14 | .uint8 => 0x15 | .int4 => 0x16 | .uint4 => 0x17 | .int2 => 0x18
  | .int8b32 => 0x19 | .int4b32 => 0x1A | .int4b16 => 0x1B | .int8row => 0x1C | .int4row => 0x1D
  | .res8 => 0x1E | .res4 => 0x1F | .lat8 => 0x20 | .acc32f => 0x28 | .acc32i => 0x29 | .resa => 0x2A
  | .kps => 0x30 | .mask1 => 0x31 | .e8m0 => 0x32 | .int32 => 0x33 | .int16 => 0x34 | .uint32 => 0x35
  | .poison => 0x3F

/-- The format of a code; none for the codes R117 reserves. -/
def Fmt.ofCode (c : BitVec 6) : Option Fmt :=
  match c.toNat with
  | 0x00 => some .raw | 0x01 => some .fp32 | 0x02 => some .bf16 | 0x03 => some .fp16
  | 0x04 => some .e4m3 | 0x05 => some .e5m2 | 0x06 => some .e3m2 | 0x07 => some .e2m3
  | 0x08 => some .e2m1 | 0x09 => some .e8m10 | 0x0A => some .e4m3b32 | 0x0B => some .e5m2b32
  | 0x0C => some .e3m2b32 | 0x0D => some .e2m3b32 | 0x0E => some .e2m1b32 | 0x0F => some .e4m3b16
  | 0x10 => some .e2m1b16 | 0x11 => some .e2m1q16 | 0x12 => some .e4m3row | 0x13 => some .e2m1row
  | 0x14 => some .int8 | 0x15 => some .uint8 | 0x16 => some .int4 | 0x17 => some .uint4
  | 0x18 => some .int2 | 0x19 => some .int8b32 | 0x1A => some .int4b32 | 0x1B => some .int4b16
  | 0x1C => some .int8row | 0x1D => some .int4row | 0x1E => some .res8 | 0x1F => some .res4
  | 0x20 => some .lat8 | 0x28 => some .acc32f | 0x29 => some .acc32i | 0x2A => some .resa
  | 0x30 => some .kps | 0x31 => some .mask1 | 0x32 => some .e8m0 | 0x33 => some .int32
  | 0x34 => some .int16 | 0x35 => some .uint32 | 0x3F => some .poison
  | _ => none

/-- How a format's elements are scaled (R99, R116, R120). -/
inductive ScaleKind where
  | none
  /-- an E8M0 byte per block of `n` elements -/
  | e8m0 (n : Nat)
  /-- an E4M3 byte per 16 elements -/
  | q16
  /-- a binary32 scale per tile row or per vector -/
  | row
  deriving DecidableEq, Repr

/-- The scale of a format.  LAT8 carries a row scale (R116, R218; log entry 20). -/
def Fmt.scale : Fmt → ScaleKind
  | .e4m3b32 | .e5m2b32 | .e3m2b32 | .e2m3b32 | .e2m1b32 | .int8b32 | .int4b32 => .e8m0 32
  | .e4m3b16 | .e2m1b16 | .int4b16 => .e8m0 16
  | .e2m1q16 => .q16
  | .e4m3row | .e2m1row | .int8row | .int4row | .lat8 => .row
  | _ => .none

/-- The element format of a scaled format (R116); a format without scales is its own. -/
def Fmt.elem : Fmt → Fmt
  | .e4m3b32 | .e4m3b16 | .e4m3row | .lat8 => .e4m3
  | .e5m2b32 => .e5m2
  | .e3m2b32 => .e3m2
  | .e2m3b32 => .e2m3
  | .e2m1b32 | .e2m1b16 | .e2m1q16 | .e2m1row => .e2m1
  | .int8b32 | .int8row => .int8
  | .int4b32 | .int4b16 | .int4row => .int4
  | .res8 => .int8
  | .res4 => .int4
  | .acc32f => .fp32
  | .acc32i => .int32
  | f => f

/-- Bits that one element takes in a register (R116, R119, R182). -/
def Fmt.width (f : Fmt) : Nat :=
  match f.elem with
  | .bf16 | .fp16 | .int16 => 16
  | .e4m3 | .e5m2 | .e3m2 | .e2m3 | .int8 | .uint8 | .e8m0 | .kps => 8
  | .e2m1 | .int4 | .uint4 => 4
  | .int2 => 2
  | _ => 32

/-- Lanes of a vector of this format (R182). -/
def Fmt.lanes (f : Fmt) : Nat := 2048 / f.width

/-- The float class of R182. -/
def Fmt.isFloat : Fmt → Bool
  | .fp32 | .e8m10 | .bf16 | .fp16 => true
  | _ => false

/-- The integer class of R182. -/
def Fmt.isInteger : Fmt → Bool
  | .int32 | .uint32 | .int16 | .int8 | .uint8 => true
  | _ => false

/-- The arithmetic class of R182. -/
def Fmt.isArith (f : Fmt) : Bool := f.isFloat || f.isInteger

/-- The bit class of R182. -/
def Fmt.isBit : Fmt → Bool
  | .raw | .mask1 | .int32 | .uint32 | .int16 | .int8 | .uint8 | .int4 | .uint4 => true
  | _ => false

/-- Signed integer formats (R116). -/
def Fmt.isSigned : Fmt → Bool
  | .int32 | .int16 | .int8 | .int4 | .int2 | .res8 | .res4 => true
  | _ => false

/-- Accumulator formats (R117). -/
def Fmt.isAcc : Fmt → Bool
  | .acc32f | .acc32i | .resa => true
  | _ => false

/-- Unscaled formats (R182). -/
def Fmt.isUnscaled (f : Fmt) : Bool :=
  f.scale == .none && f != .kps && f != .poison && !f.isAcc && f != .int2

/-- Codes a vector may carry (R117). -/
def Fmt.inVector (f : Fmt) : Bool := !f.isAcc && f != .int2

/-- Codes a tile may carry (R117). -/
def Fmt.inTile (f : Fmt) : Bool := !f.isAcc

/-- The 32 codes the matrix engine accepts (R117). -/
def Fmt.inMatrix (f : Fmt) : Bool := 1 ≤ f.code.toNat && f.code.toNat ≤ 0x20

/-- An element as every operation writes it: the bits of its container that its format leaves unused are zero (R119). -/
def Fmt.clean (f : Fmt) (e : Nat) : Nat :=
  match f with
  | .e8m10 => e / 2 ^ 13 * 2 ^ 13
  | .e3m2 | .e2m3 | .e3m2b32 | .e2m3b32 => e % 2 ^ 6
  | _ => e

/-- A tag that gives a register lanes of numbers (R182, R200). -/
def Fmt.hasLanes (f : Fmt) : Bool := !f.isAcc && f != .kps && f != .poison && f != .e8m0 && f != .int2

/-- Elements of a K-block of 192 bytes (R134, R208). -/
def Fmt.kblock (f : Fmt) : Nat := 1536 / f.width

/-- Sidecar bytes in use for `n` elements (R99). -/
def Fmt.sidecarUsed (f : Fmt) (n : Nat) : Nat :=
  match f.scale with
  | .none => 0
  | .e8m0 b => n / b
  | .q16 => n / 16
  | .row => 4

/-- Special values of a floating layout (R116). -/
inductive Specials where
  /-- infinities and NaNs as IEEE 754 -/
  | ieee
  /-- one NaN, no infinities: E4M3 -/
  | e4m3
  /-- neither -/
  | none
  deriving DecidableEq, Repr

/-- A floating layout: exponent bits, mantissa bits, bias, special values (R116). -/
structure Layout where
  ebits : Nat
  mbits : Nat
  bias : Nat
  special : Specials
  deriving DecidableEq, Repr

/-- The layout of a floating element format (R116). -/
def Fmt.layout (f : Fmt) : Option Layout :=
  match f.elem with
  | .fp32 => some ⟨8, 23, 127, .ieee⟩
  | .bf16 => some ⟨8, 7, 127, .ieee⟩
  | .fp16 => some ⟨5, 10, 15, .ieee⟩
  | .e4m3 => some ⟨4, 3, 7, .e4m3⟩
  | .e5m2 => some ⟨5, 2, 15, .ieee⟩
  | .e3m2 => some ⟨3, 2, 3, .none⟩
  | .e2m3 => some ⟨2, 3, 1, .none⟩
  | .e2m1 => some ⟨2, 1, 1, .none⟩
  | .e8m10 => some ⟨8, 10, 127, .ieee⟩
  | _ => none

/-- Bits of an integer element format and whether it is signed (R116). -/
def Fmt.intBits (f : Fmt) : Option (Nat × Bool) :=
  match f.elem with
  | .int8 => some (8, true) | .uint8 => some (8, false)
  | .int4 => some (4, true) | .uint4 => some (4, false)
  | .int2 => some (2, true)
  | .int32 => some (32, true) | .uint32 => some (32, false)
  | .int16 => some (16, true)
  | _ => none

end Sys2Proof
end

