-- ==== Sys2Proof/Machine/Num.lean ====
section
/-! DEFINITION. Exact arithmetic and rounding: values, decoding and encoding of elements, R124 to R133 and the correctly rounded functions of R187. -/
namespace Sys2Proof

/-- A value that takes part in arithmetic: (−1)^neg × m × 2^e, an infinity, or a NaN. -/
inductive Num where
  | nan
  | inf (neg : Bool)
  | fin (neg : Bool) (m : Nat) (e : Int)
  deriving DecidableEq, Repr

/-- The rounding modes of R124; `sr b r` is stochastic rounding with the r-bit draw b (R127). -/
inductive RM where
  | rne | rtz | rup | rdn | rna
  | sr (b r : Nat)
  deriving DecidableEq, Repr

/-- The mode of an RND field without a draw (R124). -/
def RM.ofRnd (r : BitVec 3) : RM :=
  match r.toNat with
  | 1 => .rtz | 2 => .rup | 3 => .rdn | 4 => .rna | _ => .rne

namespace Num

/-- +0 -/
def zero : Num := .fin false 0 0

/-- 1 -/
def one : Num := .fin false 1 0

/-- The value of an integer. -/
def ofInt (i : Int) : Num := .fin (decide (i < 0)) i.natAbs 0

/-- The integer (−1)^neg × m. -/
def signed (neg : Bool) (m : Nat) : Int := if neg then -(m : Int) else m

/-- Sign flip; a NaN stays a NaN. -/
def neg : Num → Num
  | .nan => .nan
  | .inf s => .inf (!s)
  | .fin s m e => .fin (!s) m e

/-- Magnitude. -/
def abs : Num → Num
  | .nan => .nan
  | .inf _ => .inf false
  | .fin _ m e => .fin false m e

/-- The sign bit. -/
def isNeg : Num → Bool
  | .nan => false
  | .inf s => s
  | .fin s _ _ => s

/-- A zero of either sign. -/
def isZero : Num → Bool
  | .fin _ 0 _ => true
  | _ => false

/-- A NaN or an infinity. -/
def isSpecial : Num → Bool
  | .fin _ _ _ => false
  | _ => true

/-- Exact product (R125: infinity times zero is NaN). -/
def mul : Num → Num → Num
  | .nan, _ => .nan
  | _, .nan => .nan
  | .inf a, .inf b => .inf (a != b)
  | .inf a, .fin b m _ => if m = 0 then .nan else .inf (a != b)
  | .fin a m _, .inf b => if m = 0 then .nan else .inf (a != b)
  | .fin a m e, .fin b n f => .fin (a != b) (m * n) (e + f)

/-- Exact sum.  A sum of opposite equal values is −0 toward −∞ and +0 otherwise (IEEE 754, R125). -/
def add (rm : RM) : Num → Num → Num
  | .nan, _ => .nan
  | _, .nan => .nan
  | .inf a, .inf b => if a = b then .inf a else .nan
  | .inf a, .fin _ _ _ => .inf a
  | .fin _ _ _, .inf b => .inf b
  | .fin a m e, .fin b n f =>
    let k := min e f
    let s := signed a (m * 2 ^ (e - k).toNat) + signed b (n * 2 ^ (f - k).toNat)
    if s = 0 then .fin (if m = 0 ∧ n = 0 ∧ a = b then a else decide (rm = .rdn)) 0 0
    else .fin (decide (s < 0)) s.natAbs k

/-- Exact comparison of two finite or infinite values: less than; false on a NaN; −0 equals +0. -/
def lt : Num → Num → Bool
  | .nan, _ => false
  | _, .nan => false
  | .inf a, .inf b => a && !b
  | .inf a, .fin _ _ _ => a
  | .fin _ _ _, .inf b => !b
  | .fin a m e, .fin b n f =>
    let k := min e f
    decide (signed a (m * 2 ^ (e - k).toNat) < signed b (n * 2 ^ (f - k).toNat))

/-- Equality as a comparison: false on a NaN; −0 equals +0 (R125). -/
def eq : Num → Num → Bool
  | .nan, _ => false
  | _, .nan => false
  | a, b => !lt a b && !lt b a

/-- Total order of MIN, MAX and sorting keys: −0 below +0 (R125, R197). -/
def ltTotal (a b : Num) : Bool :=
  lt a b || (eq a b && a.isZero && b.isZero && a.isNeg && !b.isNeg)

/-- Minimum under R125. -/
def minNum (a b : Num) : Num :=
  if a = .nan ∨ b = .nan then .nan else if ltTotal b a then b else a

/-- Maximum under R125. -/
def maxNum (a b : Num) : Num :=
  if a = .nan ∨ b = .nan then .nan else if ltTotal a b then b else a

/-- ⌊log2 (num / den)⌋ for positive num and den. -/
def floorLog2 (num den : Nat) : Int :=
  let t : Int := (num.log2 : Int) - (den.log2 : Int)
  let below := if 0 ≤ t then decide (num < den * 2 ^ t.toNat) else decide (num * 2 ^ (-t).toNat < den)
  if below then t - 1 else t

/-- num / den × 2^e in units of 2^q, rounded to an integer once in mode rm (R124, R127). -/
def roundUnits (rm : RM) (neg : Bool) (num den : Nat) (e q : Int) : Nat :=
  let d := e - q
  let n' := if 0 ≤ d then num * 2 ^ d.toNat else num
  let d' := if 0 ≤ d then den else den * 2 ^ (-d).toNat
  let n := n' / d'
  let r := n' % d'
  match rm with
  | .rtz => n
  | .rup => if r = 0 ∨ neg then n else n + 1
  | .rdn => if r = 0 ∨ !neg then n else n + 1
  | .rna => if 2 * r ≥ d' then n + 1 else n
  | .rne => if 2 * r > d' ∨ (2 * r = d' ∧ n % 2 = 1) then n + 1 else n
  | .sr b w => (n' * 2 ^ w + b * d') / (d' * 2 ^ w)

/-- The largest finite magnitude of a layout: units and exponent of the unit (R116). -/
def largest (l : Layout) : Nat × Int :=
  match l.special with
  | .ieee => (2 ^ (l.mbits + 1) - 1, (2 ^ l.ebits - 2 : Nat) - (l.bias : Int) - l.mbits)
  | .e4m3 => (2 ^ (l.mbits + 1) - 2, (2 ^ l.ebits - 1 : Nat) - (l.bias : Int) - l.mbits)
  | .none => (2 ^ (l.mbits + 1) - 1, (2 ^ l.ebits - 1 : Nat) - (l.bias : Int) - l.mbits)

/-- The largest finite value of a layout. -/
def largestNum (l : Layout) (neg : Bool) : Num := .fin neg (largest l).1 (largest l).2

/-- Bits of n × 2^q in a layout; n × 2^q is a value of the layout. -/
def packFinite (l : Layout) (neg : Bool) (n : Nat) (q : Int) : Nat :=
  let sgn := if neg then 2 ^ (l.ebits + l.mbits) else 0
  if n = 0 then sgn
  else
    let ex : Int := q + n.log2
    let emin : Int := 1 - (l.bias : Int)
    if ex < emin then
      let sh := q - (emin - l.mbits)
      sgn + (if 0 ≤ sh then n * 2 ^ sh.toNat else n / 2 ^ (-sh).toNat)
    else
      let sh := (l.mbits : Int) - n.log2
      let mant := if 0 ≤ sh then n * 2 ^ sh.toNat else n / 2 ^ (-sh).toNat
      sgn + (ex + l.bias).toNat * 2 ^ l.mbits + (mant - 2 ^ l.mbits)

/-- The canonical NaN of a layout (R125); a layout without NaN gives +0 (R126). -/
def packNan (l : Layout) : Nat :=
  match l.special with
  | .ieee => (2 ^ l.ebits - 1) * 2 ^ l.mbits + 2 ^ (l.mbits - 1)
  | .e4m3 => 2 ^ (l.ebits + l.mbits) - 1
  | .none => 0

/-- An infinity in a layout (R126): where the layout has none, E4M3 gives NaN or saturates, the
others saturate. -/
def packInf (l : Layout) (sat neg : Bool) : Nat :=
  let sgn := if neg then 2 ^ (l.ebits + l.mbits) else 0
  match l.special with
  | .ieee => sgn + (2 ^ l.ebits - 1) * 2 ^ l.mbits
  | .e4m3 => if sat then packFinite l neg (largest l).1 (largest l).2 else packNan l
  | .none => packFinite l neg (largest l).1 (largest l).2

/-- A finite result beyond the largest finite value (R126). -/
def packOverflow (l : Layout) (rm : RM) (sat neg : Bool) : Nat :=
  let big := packFinite l neg (largest l).1 (largest l).2
  if sat then big
  else
    match l.special with
    | .e4m3 => packNan l
    | .none => big
    | .ieee =>
      let away :=
        match rm with
        | .rtz => false
        | .rup => !neg
        | .rdn => neg
        | _ => true
      if away then packInf l false neg else big

/-- num / den × 2^e rounded once into a layout (R124, R126). -/
def packRat (l : Layout) (rm : RM) (sat neg : Bool) (num den : Nat) (e : Int) : Nat :=
  if num = 0 then packFinite l neg 0 0
  else
    let ex := e + floorLog2 num den
    let q := max (ex - l.mbits) (1 - (l.bias : Int) - l.mbits)
    let n := roundUnits rm neg num den e q
    let lg := largest l
    let k := min q lg.2
    if n * 2 ^ (q - k).toNat > lg.1 * 2 ^ (lg.2 - k).toNat then packOverflow l rm sat neg
    else packFinite l neg n q

/-- round(x, layout, mode) with the given SAT (R126). -/
def pack (l : Layout) (rm : RM) (sat : Bool) : Num → Nat
  | .nan => packNan l
  | .inf s => packInf l sat s
  | .fin s m e => packRat l rm sat s m 1 e

/-- The value of a bit pattern in a layout (R116, R118). -/
def unpack (l : Layout) (bits : Nat) : Num :=
  let s := bits / 2 ^ (l.ebits + l.mbits) % 2 = 1
  let ex := bits / 2 ^ l.mbits % 2 ^ l.ebits
  let m := bits % 2 ^ l.mbits
  let fin : Num :=
    if ex = 0 then .fin s m (1 - (l.bias : Int) - l.mbits)
    else .fin s (2 ^ l.mbits + m) ((ex : Int) - l.bias - l.mbits)
  match l.special with
  | .ieee => if ex = 2 ^ l.ebits - 1 then (if m = 0 then .inf s else .nan) else fin
  | .e4m3 => if ex = 2 ^ l.ebits - 1 ∧ m = 2 ^ l.mbits - 1 then .nan else fin
  | .none => fin

/-- The binary32 layout. -/
def b32 : Layout := ⟨8, 23, 127, .ieee⟩

/-- The value of a binary32 pattern. -/
def ofF32 (bits : Nat) : Num := unpack b32 bits

/-- round(x, FP32, mode) without saturation. -/
def toF32 (rm : RM) (x : Num) : Nat := pack b32 rm false x

/-- The value of an E8M0 scale byte (R120). -/
def ofE8M0 (b : Nat) : Num := if b = 0xFF then .nan else .fin false 1 ((b : Int) - 127)

/-- The integer that w bits stand for. -/
def intOfBits (w : Nat) (sgn : Bool) (bits : Nat) : Int :=
  let b := bits % 2 ^ w
  if sgn && decide (2 ^ (w - 1) ≤ b) then (b : Int) - 2 ^ w else b

/-- The value of an element's bits (R116, R119); 6-bit elements ignore bits [7:6], E8M10 ignores [12:0]. -/
def ofElem (f : Fmt) (bits : Nat) : Num :=
  match f.layout, f.intBits with
  | some l, _ =>
    match f.elem with
    | .e8m10 => unpack l (bits / 2 ^ 13 % 2 ^ 19)
    | .e3m2 | .e2m3 => unpack l (bits % 64)
    | _ => unpack l bits
  | none, some (w, s) => ofInt (intOfBits w s bits)
  | none, none => if f = .e8m0 then ofE8M0 (bits % 256) else .nan

/-- The limits of an integer format. -/
def intLimits (w : Nat) (sgn : Bool) : Int × Int :=
  if sgn then (-(2 ^ (w - 1) : Nat), (2 ^ (w - 1) : Nat) - 1) else (0, (2 ^ w : Nat) - 1)

/-- An integer clamped to limits. -/
def clamp (lo hi i : Int) : Int := if i < lo then lo else if hi < i then hi else i

/-- The low w bits of an integer. -/
def bitsOfInt (w : Nat) (i : Int) : Nat := (i % ((2 ^ w : Nat) : Int)).toNat

/-- num / den × 2^e rounded to an integer in mode rm. -/
def roundInt (rm : RM) (neg : Bool) (num den : Nat) (e : Int) : Int :=
  signed neg (roundUnits rm neg num den e 0)

/-- A floating value converted to an integer format: NaN gives 0, infinities and results out of
range give the limit (R126). -/
def toInt (rm : RM) (w : Nat) (sgn : Bool) : Num → Int
  | .nan => 0
  | .inf s => if s then (intLimits w sgn).1 else (intLimits w sgn).2
  | .fin s m e => clamp (intLimits w sgn).1 (intLimits w sgn).2 (roundInt rm s m 1 e)

/-- A value converted into an element format's bits (R126): `fromInt` says the source is an integer,
which wraps when SAT = 0. -/
def toElem (f : Fmt) (rm : RM) (sat fromInt : Bool) (x : Num) : Nat :=
  match f.layout, f.intBits with
  | some l, _ =>
    match f.elem with
    | .e8m10 => pack l rm sat x * 2 ^ 13
    | _ => pack l rm sat x
  | none, some (w, s) =>
    match x with
    | .fin sg m e =>
      if fromInt then
        let i := roundInt .rtz sg m 1 e
        bitsOfInt w (if sat then clamp (intLimits w s).1 (intLimits w s).2 i else i)
      else bitsOfInt w (toInt rm w s x)
    | _ => bitsOfInt w (toInt rm w s x)
  | none, none => 0

/-- x / y rounded once into a layout (R125): 0 / 0 and ∞ / ∞ are NaN, x / 0 a signed infinity. -/
def packDiv (l : Layout) (rm : RM) (sat : Bool) : Num → Num → Nat
  | .nan, _ => packNan l
  | _, .nan => packNan l
  | .inf _, .inf _ => packNan l
  | .inf a, .fin b _ _ => packInf l sat (a != b)
  | .fin a _ _, .inf b => packFinite l (a != b) 0 0
  | .fin a m e, .fin b n f =>
    if n = 0 then (if m = 0 then packNan l else packInf l false (a != b))
    else packRat l rm sat (a != b) m n (e - f)

/-- ⌊√n⌋, one bit at a time from bit `k`. -/
def isqrtGo (n : Nat) : Nat → Nat → Nat
  | 0, r => r
  | k + 1, r =>
    let r' := r + 2 ^ k
    isqrtGo n k (if r' * r' ≤ n then r' else r)

/-- ⌊√n⌋. -/
def isqrt (n : Nat) : Nat := isqrtGo n (n.log2 / 2 + 1) 0

/-- 1 / √a correctly rounded in RNE to binary32 (R187): the square root is taken of an exact
integer quotient with 64 spare bits, and an inexact root counts as half a unit more. -/
def rsqrt32 : Num → Nat
  | .nan => packNan b32
  | .inf s => if s then packNan b32 else packFinite b32 false 0 0
  | .fin s m e =>
    if m = 0 then packInf b32 false s
    else if s then packNan b32
    else
      let k : Nat := 160 + m.log2
      let odd := e % 2 ≠ 0
      let m' := if odd then m * 2 else m
      let e' := if odd then e - 1 else e
      let q := 2 ^ (2 * k) / m'
      let r := isqrt q
      let exact := r * r * m' = 2 ^ (2 * k)
      packRat b32 .rne false false (if exact then 2 * r else 2 * r + 1) 1 (-(k : Int) - 1 - e' / 2)

/-- Bits of the fixed-point numbers used by the functions below (log entry 21). -/
def fixBits : Nat := 224

/-- Σ z^(2k+1) / (2k+1) in fixed point, `n` terms from index k, with z² and the running power given. -/
def atanhGo (z2 : Nat) : Nat → Nat → Nat → Nat → Nat
  | 0, _, _, acc => acc
  | n + 1, k, p, acc => atanhGo z2 n (k + 1) (p * z2 / 2 ^ fixBits) (acc + p / (2 * k + 1))

/-- 2 atanh(num / den) = ln((den + num) / (den − num)) in fixed point, for num / den at most 1/3. -/
def lnRatio (num den : Nat) : Nat :=
  let z := num * 2 ^ fixBits / den
  2 * atanhGo (z * z / 2 ^ fixBits) 80 0 z 0

/-- ln 2 in fixed point. -/
def ln2 : Nat := lnRatio 1 3

/-- Σ t^k / k! in fixed point, `n` terms. -/
def expGo (t : Nat) : Nat → Nat → Nat → Nat → Nat
  | 0, _, _, acc => acc
  | n + 1, k, p, acc => expGo t n (k + 1) (p * t / 2 ^ fixBits / (k + 1)) (acc + p)

/-- 2^a correctly rounded in RNE to binary32 (R187, log entry 21). -/
def exp232 : Num → Nat
  | .nan => packNan b32
  | .inf s => if s then packFinite b32 false 0 0 else packInf b32 false false
  | .fin s m e =>
    if m = 0 then packRat b32 .rne false false 1 1 0
    else if 12 ≤ e + m.log2 then (if s then packRat b32 .rne false false 1 1 (-5000) else packInf b32 false false)
    else
      -- a = i + f / 2^c with 0 ≤ f < 2^c
      let c : Nat := (-(min e 0)).toNat
      let a := signed s (m * 2 ^ (max e 0).toNat)
      let i := a / ((2 ^ c : Nat) : Int)
      let f := (a % ((2 ^ c : Nat) : Int)).toNat
      if f = 0 then packRat b32 .rne false false 1 1 i
      else
        let t := f * ln2 / 2 ^ c
        packRat b32 .rne false false (2 * expGo t 64 0 (2 ^ fixBits) 0 + 1) 1 (i - fixBits - 1)

/-- log2 a correctly rounded in RNE to binary32 (R187, log entry 21). -/
def log232 : Num → Nat
  | .nan => packNan b32
  | .inf s => if s then packNan b32 else packInf b32 false false
  | .fin s m e =>
    if m = 0 then packInf b32 false true
    else if s then packNan b32
    else
      let k := m.log2
      let i : Int := e + k
      if m = 2 ^ k then pack b32 .rne false (ofInt i)
      else
        let fr := lnRatio (m - 2 ^ k) (m + 2 ^ k) * 2 ^ fixBits / ln2
        let v : Int := i * (2 ^ fixBits : Nat) + fr
        pack b32 .rne false (.fin (decide (v < 0)) (2 * v + 1).natAbs (-(fixBits : Int) - 1))

/-- 1 / a correctly rounded in RNE to binary32 (R187). -/
def rcp32 (a : Num) : Nat := packDiv b32 .rne false one a

end Num

/-- Scale bytes chosen for a conversion into a format with E8M0 block scales (R121): the smallest s in
−127 … 127 for which the block's largest magnitude, rounded away from zero, does not exceed F. -/
def blockShiftGo (fits : Int → Bool) : Nat → Int → Int
  | 0, s => s
  | n + 1, s => if fits s then s else blockShiftGo fits n (s + 1)

/-- F of R121 as (m, e): m × 2^e. -/
def Fmt.scaleF (f : Fmt) : Nat × Int :=
  match f.elem with
  | .e4m3 => (448, 0) | .e5m2 => (57344, 0) | .e3m2 => (28, 0) | .e2m3 => (15, -1)
  | .e2m1 => (6, 0) | .int8 => (127, 0) | .int4 => (7, 0) | _ => (1, 0)

/-- |x| rounded away from zero to the element format does not exceed F (R121). -/
def Fmt.roundsWithin (f : Fmt) (m : Nat) (e : Int) : Bool :=
  -- F is a value of the format and the largest one, so |x| rounds away to at most F iff |x| ≤ F
  let k := min e f.scaleF.2
  decide (m * 2 ^ (e - k).toNat ≤ f.scaleF.1 * 2 ^ (f.scaleF.2 - k).toNat)

/-- The largest magnitude of a list of finite values, as (m, e). -/
def Num.maxMag : List Num → Nat × Int
  | [] => (0, 0)
  | .fin _ m e :: r =>
    let (n, f) := Num.maxMag r
    if Num.lt (.fin false n f) (.fin false m e) then (m, e) else (n, f)
  | _ :: r => Num.maxMag r

/-- The E8M0 scale byte of a block (R121); 0xFF for a block that holds a NaN or an infinity. -/
def chooseE8M0 (f : Fmt) (xs : List Num) : Nat :=
  if xs.any Num.isSpecial then 0xFF
  else
    let (m, e) := Num.maxMag xs
    if m = 0 then 0
    else (blockShiftGo (fun s => f.roundsWithin m (e - s)) 254 (-127) + 127).toNat

/-- The E4M3 scale byte of a block under R122. -/
def chooseQ16 (xs : List Num) : Nat :=
  if xs.any Num.isSpecial then 0x7F
  else
    let (m, e) := Num.maxMag xs
    if m = 0 then 0
    else
      let l : Layout := ⟨4, 3, 7, .e4m3⟩
      let b := Num.packRat l .rup true false m 6 e
      if b = 0 then 1 else b

/-- The binary32 row scale under R123. -/
def chooseRow (f : Fmt) (xs : List Num) : Nat :=
  if xs.any Num.isSpecial then 0x7FC00000
  else
    let (m, e) := Num.maxMag xs
    if m = 0 then 0 else Num.packRat Num.b32 .rup false false m f.scaleF.1 (e - f.scaleF.2)

/-- x ÷ scale rounded once into an element format (R122, R123); a zero or NaN scale gives zero. -/
def scaleDown (f : Fmt) (rm : RM) (sat : Bool) (x scale : Num) : Nat :=
  match x, scale with
  | .fin s m e, .fin _ n g =>
    if n = 0 then 0
    else
      match f.layout, f.intBits with
      | some l, _ => Num.packRat l rm sat s m n (e - g)
      | none, some (w, sg) =>
        Num.bitsOfInt w (Num.clamp (Num.intLimits w sg).1 (Num.intLimits w sg).2 (Num.roundInt rm s m n (e - g)))
      | none, none => 0
  | _, _ => 0

/-- The value of a scale for element index i (R120): from the scale bytes of a register image, where
`sc k` reads byte k; 1 for unscaled and, when `rows` is false, for row-scaled formats. -/
def scaleValue (f : Fmt) (rows : Bool) (sc : Nat → Nat) (i : Nat) : Num :=
  match f.scale with
  | .none => Num.one
  | .e8m0 n => Num.ofE8M0 (sc (i / n))
  | .q16 =>
    let b := sc (i / 16)
    if 128 ≤ b then .nan else Num.unpack ⟨4, 3, 7, .e4m3⟩ b
  | .row => if rows then Num.ofF32 (sc 0 + 256 * sc 1 + 65536 * sc 2 + 16777216 * sc 3) else Num.one

/-- The generator's function KRND (R128). -/
def krnd (key ctr : BitVec 32) : BitVec 32 :=
  let z := key ^^^ (ctr * 0x9E3779B9#32)
  let z := z ^^^ (z >>> 16)
  let z := z * 0x85EB#32
  z ^^^ (z >>> 13)

/-- The sixteen lanes of the word produced at a counter value (R128). -/
def rbWord (key ctr : BitVec 32) : List (BitVec 32) :=
  (List.range 16).map fun j => krnd key (ctr + BitVec.ofNat 32 j)

/-- A residue element's channels (R130, R131): c256, c255, c253 packed. -/
def packRes (c256 c255 c253 : Nat) : Nat := c256 % 256 + 256 * (c255 % 255) + 65536 * (c253 % 253)

/-- The channels of an integer. -/
def resOfInt (i : Int) : Nat := packRes (i % 256).toNat (i % 255).toNat (i % 253).toNat

/-- Channel-wise sum (R136). -/
def resAdd (a b : Nat) : Nat :=
  packRes (a % 256 + b % 256) (a / 256 % 256 + b / 256 % 256) (a / 65536 % 256 + b / 65536 % 256)

/-- The fold of a residue element (R133). -/
def resFold (r : Nat) : Int :=
  let v := (r % 256 * 11032065 + r / 256 % 256 * 8225536 + r / 65536 % 256 * 13774080) % 16515840
  if 8257919 < v then (v : Int) - 16515840 else v

end Sys2Proof
end

