-- ==== Sys2Proof/Machine/Legal.lean ====
section
/-! DEFINITION. Which field values each operation accepts at decode (R74, R78, R82, R141, R146, R167, R172, R173, R177, R181, R206, R257, R258, R306). -/
namespace Sys2Proof

/-- The fields of the SR body that an operation may name; function bits are given as a mask. -/
inductive Fld where
  | d | a | b | c | ha | hb | hc | fmt | rnd | sat
  deriving DecidableEq, Repr

/-- Every SR field that the operation does not name is zero (R78). -/
def SR.only (f : SR) (us : List Fld) (fn : BitVec 9) : Bool :=
  (us.contains .d || f.d == 0) && (us.contains .a || f.a == 0) && (us.contains .b || f.b == 0) &&
  (us.contains .c || f.c == 0) && (us.contains .ha || f.ha == 0) && (us.contains .hb || f.hb == 0) &&
  (us.contains .hc || f.hc == 0) && (us.contains .fmt || f.fmt == 0) && (us.contains .rnd || f.rnd == 0) &&
  (us.contains .sat || f.sat == 0) && f.fn9 &&& ~~~fn == 0

/-- A hold code 10 or 11 has a zero register field (R74, R82). -/
def SR.holdsOk (f : SR) : Bool :=
  (f.ha.toNat < 2 || f.a == 0) && (f.hb.toNat < 2 || f.b == 0) && (f.hc.toNat < 2 || f.c == 0)

/-- The checks every SR operation shares; `top` is the highest RND the operation accepts (R124, R181). -/
def SR.okRnd (f : SR) (top : Nat) (us : List Fld) (fn : BitVec 9) : Bool :=
  f.only us fn && f.holdsOk && (Fmt.ofCode f.fmt).isSome && f.rnd.toNat ≤ top

/-- The checks of an SR operation that accepts RND 0 to 4. -/
def SR.ok (f : SR) (us : List Fld) (fn : BitVec 9) : Bool := f.okRnd 4 us fn

/-- The SI fields that the operation does not name are zero (R78). -/
def SI.ok (f : SI) (d a : Bool) (imm : BitVec 32) (fn : BitVec 5) : Bool :=
  (d || f.d == 0) && (a || f.a == 0) && f.imm &&& ~~~imm == 0 && f.fn5 &&& ~~~fn == 0

/-- FMT is one of the given formats. -/
def SR.fmtIn (f : SR) (ok : Fmt → Bool) : Bool :=
  match Fmt.ofCode f.fmt with
  | some g => ok g
  | none => false

/-- The source and result formats of VCVT (R199). -/
def Fmt.inVcvt : Fmt → Bool
  | .fp32 | .e8m10 | .bf16 | .fp16 | .e4m3 | .e5m2 | .e3m2 | .e2m3 | .e2m1
  | .int32 | .uint32 | .int16 | .int8 | .uint8 | .int4 | .uint4 => true
  | _ => false

/-- The result formats of VQNT and source formats of VDQNT (R199): block, Q16 and ·ROW formats. -/
def Fmt.inVqnt (f : Fmt) : Bool := f.scale != .none && f != .lat8

/-- The result formats of VDQNT (R199). -/
def Fmt.inVdqnt : Fmt → Bool
  | .fp32 | .bf16 | .fp16 => true
  | _ => false

/-- The formats of VBCST (R190). -/
def Fmt.inVbcst (f : Fmt) : Bool :=
  f.isUnscaled && (f.isArith || f.isBit) && f != .raw && f != .mask1

/-- The formats of VGTH and VSCT (R265). -/
def Fmt.inGather : Fmt → Bool
  | .fp32 | .e8m10 | .int32 | .uint32 | .raw | .mask1 => true
  | _ => false

/-- The formats of VLDS and VSTS (R263). -/
def Fmt.inStrided (f : Fmt) : Bool := f.isUnscaled && f.inVector && 8 ≤ f.width

/-- The integer formats of FCVTI and FCVTF (R177). -/
def fcvtOk (f : SR) : Bool :=
  match f.fmt.toNat with
  | 0 => true
  | 0x33 | 0x34 | 0x14 | 0x35 | 0x15 => f.fn9 == 0
  | _ => false

/-- The system-register selectors of R113. -/
def selOk (s : Nat) : Bool :=
  s ≤ 0xA || (0x10 ≤ s && s ≤ 0x15) || (0x18 ≤ s && s ≤ 0x1C)

/-- The selectors MTS accepts: those not read-only at both levels (R114). -/
def selWritable (s : Nat) : Bool :=
  selOk s && s ≠ 0 && s ≠ 1 && s ≠ 2 && s ≠ 3 && s ≠ 4 && s ≠ 9 && s ≠ 0x1A && s ≠ 0x1C

/-- A ring name as the destination of a tile load has offset 0 (R105). -/
def SR.tailOk (f : SR) : Bool := f.d.toNat < 32 || f.d.toNat % 4 == 0

/-- Row counts are 1 to 128 (R258). -/
def SR.rowsOk (f : SR) : Bool := 1 ≤ f.fn9.toNat % 256 && f.fn9.toNat % 256 ≤ 128

/-- Which ORD values an operation accepts (R258). -/
inductive OrdSet where
  | rlx | acq | acqSc | rel | relSc | any
  deriving DecidableEq, Repr

/-- ORD is in the set. -/
def OrdSet.has : OrdSet → Nat → Bool
  | _, 0 => true
  | .acq, 1 | .acqSc, 1 | .acqSc, 4 | .rel, 2 | .relSc, 2 | .relSc, 4 => true
  | .any, n => n ≤ 4
  | _, _ => false

/-- ORD and SCOPE (R258): a relaxed access has SCOPE 0; seq_cst has no system scope. -/
def MEM.ordOk (f : MEM) (o : OrdSet) : Bool :=
  o.has f.ord.toNat && f.scope.toNat ≤ 4 && (f.ord != 0 || f.scope == 0) && !(f.ord == 4 && f.scope == 4)

/-- Unnamed MEM fields are zero (R78). -/
def MEM.ok (f : MEM) (d idx scl disp : Bool) (o : OrdSet) : Bool :=
  (d || f.d == 0) && (idx || f.idx == 0) && (scl || f.scl == 0) && (disp || f.disp == 0) && f.ordOk o

/-- D is even, 2 to 62 (R258). -/
def pairOk (d : BitVec 6) : Bool := d != 0 && d &&& 1 == 0

/-- The width codes of R257. -/
def MEM.widthIn (f : MEM) (ws : List Nat) : Bool := ws.contains f.scl.toNat

/-- FMT6 of VLD and VLDS. -/
def MEM.fmt6In (f : MEM) (ok : Fmt → Bool) : Bool :=
  match Fmt.ofCode f.idx with
  | some g => ok g
  | none => false

/-- The control fields of the MX body that an operation may name. -/
inductive MFld where
  | a | b | bm | acc | hr | xs | mrg | za | ha | hb | cm | kb
  deriving DecidableEq, Repr

/-- The checks every MX operation shares: unnamed fields zero, DISP14 within a mask (any value when
BM = 1), reserved codes of HR and KB, hold codes (R76, R78, R82, R206). -/
def MX.ok (f : MX) (us : List MFld) (disp : BitVec 14) : Bool :=
  (us.contains .a || f.a == 0) && (us.contains .b || f.b == 0) && (us.contains .bm || f.bm == 0) &&
  (us.contains .acc || f.acc == 0) && (us.contains .hr || f.hr == 0) && (us.contains .xs || f.xs == 0) &&
  (us.contains .mrg || f.mrg == 0) && (us.contains .za || f.za == 0) && (us.contains .ha || f.ha == 0) &&
  (us.contains .hb || f.hb == 0) && (us.contains .cm || f.cm == 0) && (us.contains .kb || f.kb == 0) &&
  (f.bm == 1 || f.disp &&& ~~~disp == 0) && f.hr.toNat ≤ 4 && f.kb.toNat ≤ 4 &&
  (f.ha.toNat < 2 || f.a == 0) && (if f.bm == 1 then f.hb == 0 else f.hb.toNat < 2 || f.b == 0)

/-- DISP14[5:0] as a format. -/
def MX.fmtIn (f : MX) (ok : Fmt → Bool) : Bool :=
  match Fmt.ofCode (f.disp.truncate 6) with
  | some g => ok g
  | none => false

/-- The accumulator number in A (R205, R206). -/
def MX.accInA (f : MX) : Bool := f.a.toNat < 8

/-- FIRST and LEN of QINIT (R141). -/
def qinitOk (imm : Nat) : Bool := imm / 65536 % 64 + imm / 256 % 32 ≤ 32

/-- A count of QADVH and QADVT (R141). -/
def qadvOk (imm : Nat) : Bool := 1 ≤ imm / 65536 % 64 && imm / 65536 % 64 ≤ 32

/-- BFX and BFI: LO + W is at most 64 (R172). -/
def bitfieldOk (imm : Nat) : Bool := imm % 64 + imm / 64 % 64 + 1 ≤ 64

/-- WIDF's K (R173). -/
def widfOk (imm : Nat) : Bool := imm % 8 ≠ 7 && (imm / 8 % 2 = 1 || imm % 8 ≠ 0)

/-- What decode accepts of an operation's fields.  One arm for each constructor, grouped by shape; an
event has no fields. -/
def legal : Instr → Bool
  -- Y (R140, R141)
  | .br f => f.ok false false (-1) 0
  | .call f => f.ok true false (-1) 0
  | .brx f | .ret f => f.ok [.a, .ha] 0
  | .callx f => f.ok [.d, .a, .ha] 0
  | .loop f => f.ok false true 0xFFFF 0 && f.imm != 0
  | .loopi f => f.ok false false (-1) 0 && f.imm.truncate 16 != 0#16
  | .lbrk f => f.ok [] 7 && 1 ≤ f.fn9.toNat && f.fn9.toNat ≤ 6
  | .lidx f => f.ok [.d] 15 && f.fn9.toNat % 8 ≤ 5
  | .rep f => f.ok true true (-1) 15 && 65536 ≤ f.imm.toNat && (f.d != f.a || f.d == 0)
  | .post f | .postn f | .posti f | .endp f | .whwait f => f.ok [.a, .ha] 0
  | .jadd f => f.ok false true (-1) 0 && f.imm != 0 && f.imm.toNat < 2 ^ 31
  | .whtest f => f.ok [.d, .a, .ha] 0
  | .binit f | .bexp f => f.ok [.a, .b, .ha, .hb] 0
  | .barv f => f.ok [.a, .b, .ha, .hb] 7 && f.fn9.toNat ≤ 4
  | .bwait f | .btest f => f.ok [.d, .a, .b, .ha, .hb] 0
  | .bwany f => f.ok [.d, .a, .b, .ha, .hb] 31 && 1 ≤ f.fn9.toNat && f.fn9.toNat ≤ 16
  | .waita f => f.ok [.d, .a, .b, .c, .ha, .hb, .hc] 1
  | .fence f | .drain f => f.ok [] 7 && f.fn9.toNat ≤ 4
  | .qtest f | .ctxsw f => f.ok [.d] 0
  | .qinit f => f.ok false false 0x3F1F07 0 && qinitOk f.imm.toNat
  | .qadvh f | .qadvt f => f.ok false false 0x3F0007 0 && qadvOk f.imm.toNat
  | .trap f | .svc f => f.ok false false (-1) 0
  | .mfs f => f.ok true false 0xFFF 0 && selOk f.imm.toNat
  | .mts f => f.ok false true 0xFFF 0 && selWritable f.imm.toNat
  | .csave f | .cload f => f.ok [.d, .a, .ha] 0
  | .evt f => f.ok false true 0 0
  | .evtTr f => f.ok false true (-1) 1 && f.fn5 == 1
  -- S (R166, R167)
  | .add f | .sub f | .mul f | .mulh f | .mulhu f | .div f | .divu f | .rem f
  | .and f | .or f | .xor f | .shl f | .shr f | .sar f
  | .min f | .max f | .minu f | .maxu f | .fmin f | .fmax f => f.ok [.d, .a, .b, .ha, .hb] 0
  | .addi f | .andi f | .ori f | .lih f => f.ok true true (-1) 0
  | .shli f | .shri f | .sari f => f.ok true true 63 0
  | .clz f | .ctz f | .popc f => f.ok [.d, .a, .ha] 0
  | .sel f => f.ok [.d, .a, .b, .c, .ha, .hb, .hc] 0x40
  | .li f => f.ok true false (-1) 0
  | .addsh f => f.ok [.d, .a, .b, .ha, .hb] 7
  | .bfx f => f.ok true true 0x1FFF 0 && bitfieldOk f.imm.toNat
  | .bfi f => f.ok true true 0xFFF 0 && bitfieldOk f.imm.toNat
  | .widf f => f.ok true true 15 0 && widfOk f.imm.toNat
  | .cmpeq f | .cmpne f | .cmplt f | .cmpltu f | .cmple f | .cmpleu f
  | .fclt f | .fcle f => f.ok [.d, .a, .b, .ha, .hb] 0x100
  | .cmpeqi f | .cmplti f | .cmpltui f => f.ok true true (-1) 16
  | .pand f | .por f | .pxor f | .pandn f => f.ok [.d, .a, .b, .ha, .hb] 0x1C0
  | .pset f => f.ok [.d, .a, .ha] 0x100
  | .pget f | .pcnt f | .pfirst f => f.ok [.d, .a, .ha] 0x40
  | .fadd f | .fsub f | .fmul f => f.ok [.d, .a, .b, .ha, .hb, .rnd, .sat] 0
  | .ffma f => f.ok [.d, .a, .b, .c, .ha, .hb, .hc, .rnd, .sat] 0
  | .fcvti f | .fcvtf f => f.ok [.d, .a, .ha, .fmt, .rnd] 1 && fcvtOk f
  | .rndq f | .rndf f => f.ok [.d] 0
  -- V (R180, R181)
  | .vadd _ f | .vsub _ f | .vmul _ f | .vmin _ f | .vmax _ f | .vdiv f =>
    f.ok [.d, .a, .b, .ha, .hb, .fmt, .rnd, .sat] 0
  | .vfma _ f | .vfms _ f => f.ok [.d, .a, .b, .c, .ha, .hb, .hc, .fmt, .rnd, .sat] 0
  | .vabs _ f | .vneg _ f => f.ok [.d, .a, .ha, .fmt, .sat] 0
  | .vrcp _ f | .vrsq _ f | .vexp2 _ f | .vlog2 _ f | .vargmx f | .vcmpr f => f.ok [.d, .a, .ha, .fmt] 0
  | .vand _ f | .vor _ f | .vxor _ f | .vshl _ f | .vshr _ f | .vsar _ f
  | .vxtr _ f | .vins _ f | .vperm f | .vrot _ f => f.ok [.d, .a, .b, .ha, .hb, .fmt] 0
  | .vceq _ f | .vcne _ f | .vclt _ f | .vcle _ f => f.ok [.d, .a, .b, .ha, .hb, .fmt] 0x101
  | .vsel _ f => f.ok [.d, .a, .b, .c, .ha, .hb, .hc, .fmt] 0x40
  | .vmov _ f | .vgtag _ f => f.ok [.d, .a, .ha] 0
  | .vbcst _ f => f.ok [.d, .a, .ha, .fmt] 0 && f.fmtIn Fmt.inVbcst
  | .viota _ f => f.ok [.d, .a, .ha, .fmt] 0 && f.fmtIn Fmt.isInteger
  | .vradd f => f.ok [.d, .a, .ha, .fmt, .rnd] 1
  | .vrmax f | .vrmin f => f.ok [.d, .a, .ha, .fmt] 1
  | .vscan f => f.ok [.d, .a, .ha, .fmt, .rnd] 0
  | .vsortk f => f.ok [.d, .a, .b, .ha, .hb] 1 && f.d &&& 1 == 0
  | .vmrgk f => f.ok [.d, .a, .b, .ha, .hb] 3 && (f.d ||| f.a ||| f.b) &&& 1 == 0
  | .vcvt _ f => f.okRnd 5 [.d, .a, .ha, .fmt, .rnd, .sat] 7 && f.fmtIn Fmt.inVcvt
  | .vqnt _ f => f.okRnd 5 [.d, .a, .ha, .fmt, .rnd] 7 && f.fmtIn Fmt.inVqnt
  | .vdqnt _ f => f.okRnd 5 [.d, .a, .ha, .fmt, .rnd, .sat] 7 && f.fmtIn Fmt.inVdqnt
  | .vtag _ f => f.ok [.d, .a, .ha, .fmt] 0 && f.fmtIn (fun g => g.inVector && g != .raw)
  -- M (R205, R206)
  | .mma f => f.kv == 0 && f.ok [.a, .b, .bm, .acc, .hr, .za, .ha, .hb] 0
  | .mmaAbs f => f.kv == 3 && f.ok [.a, .b, .acc, .hr, .xs, .za, .ha, .hb, .kb] 0
  | .mmam f =>
    if f.kv == 3 then f.ok [.a, .b, .acc, .hr, .xs, .mrg, .za, .ha, .hb, .kb] 0
    else f.kv == 0 && f.ok [.a, .b, .bm, .acc, .hr, .mrg, .za, .ha, .hb] 0
  | .ttrn f => f.kv == 0 && f.ok [.a, .b, .cm, .ha] 0
  | .tprm f => f.kv == 0 && f.ok [.a, .b, .cm, .ha] 0 && f.cm.toNat < 4
  | .tred f => f.kv == 0 && f.ok [.a, .acc, .hr, .za, .cm, .ha] 0
  | .azero f => f.kv == 0 && f.ok [.acc] 63 && f.fmtIn Fmt.isAcc
  | .aadd f => f.kv == 0 && f.ok [.a, .acc, .hr] 0 && f.accInA
  | .ascl f => f.kv == 0 && f.ok [.a, .b, .bm, .acc, .hr, .ha, .hb] 0
  | .acvt f => f.kv == 0 && f.ok [.a, .b, .bm, .acc, .ha, .hb] 0
  | .afold f => f.kv == 0 && f.ok [.a, .acc, .za] 0 && f.accInA && !(f.za == 1 && f.a.toNat == f.acc.toNat)
  | .arow f | .awrow f => f.kv == 0 && f.ok [.b, .acc] 255
  | .tzero f => f.kv == 0 && f.ok [.a] 63 && f.fmtIn (fun g => g.inTile && g != .poison)
  | .ttag f => f.kv == 0 && f.ok [.a] 63 && f.fmtIn Fmt.inTile
  | .tmov f => f.kv == 0 && f.ok [.a, .b, .ha] 0
  | .trow f => f.kv == 0 && f.ok [.a, .b, .ha] 127
  | .twrow f => f.kv == 0 && f.ok [.a, .b] 127
  | .lxld f => f.kv == 0 && f.ok [.b, .bm, .xs] 0 && f.bm == 1
  | .lxinv f => f.kv == 0 && f.ok [.xs] 0
  -- L (R255, R257, R258)
  | .ldb f | .ldbu f | .ldh f | .ldhu f | .ldw f | .ldwu f | .ldd f => f.ok true true true true .acqSc
  | .ldq f => f.ok true true true true .acq && pairOk f.d
  | .vld f => f.ok true true false true .acq && f.fmt6In (fun g => g.inVector && g != .poison)
  | .vlds f => f.ok true true false true .rlx && f.fmt6In Fmt.inStrided
  | .vgth f => f.ok [.d, .a, .b, .c, .ha, .hb, .hc, .fmt] 0x1FF && f.fmtIn Fmt.inGather
  | .pld f => f.ok false true true true .rlx
  | .tld f => f.ok [.d, .a, .b, .ha, .hb, .fmt] 0xFF && f.rowsOk && f.tailOk && f.fmtIn (fun g => g.inTile && g != .poison)
  | .tldkLat8 f => f.ok [.d, .a, .b, .c, .ha, .hb, .fmt] 0xFF && f.rowsOk && f.tailOk && f.fmtIn (· == .lat8) &&
    f.c.toNat % 8 == 0 && f.c.toNat / 8 ≤ 4
  | .tldkExpand f => f.ok [.d, .a, .b, .c, .ha, .hb, .fmt] 0xFF && f.rowsOk && f.tailOk && f.fmtIn (· == .e4m3row) && f.c.toNat < 8
  | .ldblk f => f.ok true true false true .rlx
  | .lbwait f => f.ok true false false false .rlx
  | .pref f => f.ok true true true true .rlx
  | .amadd f | .amswp f | .amcas f | .ammin f | .ammax f | .amminu f | .ammaxu f
  | .amand f | .amor f | .amxor f => f.ok true true true true .any && f.widthIn [2, 3]
  | .amfadd f => f.ok true true true true .any && f.widthIn [2]
  | .amcas16 f => f.ok true true true true .any && f.widthIn [4] && pairOk f.d && pairOk f.idx
  -- W (R256, R257, R258)
  | .stb f | .sth f | .stw f | .std f => f.ok true true true true .relSc
  | .stq f => f.ok true true true true .rel && pairOk f.d
  | .vst f | .tst f => f.ok true true true true .rel
  | .vsts f => f.ok true false false true .rlx
  | .vsct f => f.ok [.d, .a, .b, .c, .ha, .hb, .hc, .fmt] 0x1FF && f.fmtIn Fmt.inGather
  | .pst f => f.ok true true false true .rlx
  | .tstk f => f.ok [.d, .a, .b, .c, .ha, .hb] 0xFF && f.rowsOk && f.c.toNat % 8 == 0 && f.c.toNat / 8 ≤ 5
  | .rdadd f | .rdand f | .rdor f | .rdxor f => f.ok true false true true .rel && f.widthIn [2, 3]
  | .rdmin f | .rdmax f => f.ok true false true true .rel && f.widthIn [2, 3, 6, 7]
  | .rdfadd f => f.ok true false true true .rel && f.widthIn [2]
  | .linv f | .lwb f | .lzero f => f.ok false true true true .rlx
  | .blkrel f => f.ok false false false false .rlx
  -- C (R305, R306)
  | .csrc f | .cdst f => f.ok [.a, .ha] 1
  | .cdim f => f.ok [.a, .b, .c, .ha, .hb, .hc] 7 && f.fn9.toNat ≤ 5
  | .celt f | .rbkey f => f.ok [.a, .b, .ha, .hb] 0
  | .cmode f => f.ok false false 0xFFFFF 0 && f.imm.toNat % 16 < 8
  | .cbar f => f.ok [.a, .ha] 0
  | .cflag f => f.ok [.a, .b, .ha, .hb] 7 && f.fn9.toNat ≤ 4
  | .cgo f | .cstat f => f.ok [.d] 0
  | .ccan f => f.ok [.d, .a, .ha] 0
  | .ccanAll f => f.ok [.d, .ha] 1 && f.fn9 == 1
  | .whreq f => f.ok [.d, .a, .b, .c, .ha, .hb, .hc] 0
  | .whdmd f => f.ok [.d, .a, .b, .ha, .hb] 0
  | .whdmdUp f => f.ok [.d, .a, .ha, .hb] 1 && f.fn9 == 1
  | .whrel f => f.ok [.d, .a, .ha] 0
  | .msend f => f.ok [.d, .a, .b, .c, .ha, .hb, .hc] 0
  | .msendv f | .lsend f | .lrecv f => f.ok [.a, .b, .c, .ha, .hb, .hc] 0
  -- operations without operands, and events
  | .nop | .endTask | .yield | .park | .slipw | .quiet | .eret | .mwait | .waitaTimeout | .longWaitPark
  | .slotQueueIssue | .loadDataReturn | .tileLoadComplete | .matrixResultWrite | .expanderLoadComplete
  | .loadBlockFilled | .generatorRefill | .scStamp | .scPerform | .reductionPerform | .placement
  | .gatingTimeout | .aging | .stageAllocation | .blockedPostAdmit | .probeSend | .probeGrant
  | .expansionSelect | .hostPost | .hostPostEnter | .launch | .gridTaskPost | .stackDeadlineRelease
  | .stackEngineStart | .stackSplit | .stackDissolve | .copyStart | .copyElementWrite | .dramlocFrame
  | .copyFault | .copyComplete | .handlePageLand | .handleReady | .handleError | .handleReleaseFree
  | .flashPageRead | .relocationRemap | .blockEraseComplete | .messageArrival | .messageHandover
  | .handoverAck | .retirementNotice | .reductionAck | .remoteMessageReceive | .sweepWaveStart | .sweepPass2
  | .sweepVerdict | .xwaveStart | .xwaveRequestReceive | .xwaveReplyReceive | .xwaveReplyTimeout
  | .xwaveVerdictReceive | .ueRetransmit | .ueAckReceive | .ueAbandon | .linkArrival | .timer
  | .preemptOverdue | .faultRecordWrite | .fqtailWrite | .losstailWrite | .ortailReplay | .ortailDiscard
  | .replay | .preemptReq | .preemptRel | .preqRequest | .preqHeldRelease | .kill | .killComplete | .jobCreate
  | .jobTeardown | .teardownComplete | .tlbiGo | .tlbiComplete | .rctlBind | .rctlUnbind
  | .unbindWritebackDone | .hptEpoch | .zfreePush | .mbGetid | .mbAttest | .mbVerify | .mbUpdate
  | .mailboxDone | .finjWrite | .vfslotsWrite | .fgrantWrite | .dispcntRead | .fhealthCRead | .hptCntRead
  | .colcntRead | .huncRead | .registerWrite | .hostBar4Read | .hostBar4Write | .powerGood | .stage0Complete
  | .stage1Complete | .stage2Complete | .powerCapTick | .thermalTrip | .cooldownRestart | .unitError
  | .collimationTestDone | .ephemUpdate | .storePerform | .handleTableAnswer | .eventArrival
  | .flashProgramComplete | .hptCtlWrite => true

end Sys2Proof
end

