-- ==== Sys2Proof/WellFormed.lean ====
section
/-! DEFINITION. Well-formed instructions: those whose fields decode accepts, and events. -/
namespace Sys2Proof

/-- The instruction is one that the decoder can answer (R82), or an event. -/
def Instr.wf (i : Instr) : Bool := legal i

end Sys2Proof
end

