-- ==== Sys2Proof/Decode.lean ====
section
/-! DEFINITION. The decoder (R69 to R82) and, after it, the encoder, written from the same encoding tables. -/
namespace Sys2Proof

/-- The SR body's fields (R72). -/
def SR.ofBits (b : BitVec 49) : SR where
  d := b.extractLsb' 43 6
  a := b.extractLsb' 37 6
  b := b.extractLsb' 31 6
  c := b.extractLsb' 25 6
  ha := b.extractLsb' 23 2
  hb := b.extractLsb' 21 2
  hc := b.extractLsb' 19 2
  fmt := b.extractLsb' 13 6
  rnd := b.extractLsb' 10 3
  sat := b.extractLsb' 9 1
  fn9 := b.extractLsb' 0 9

/-- The SI body's fields (R73). -/
def SI.ofBits (b : BitVec 49) : SI where
  d := b.extractLsb' 43 6
  a := b.extractLsb' 37 6
  imm := b.extractLsb' 5 32
  fn5 := b.extractLsb' 0 5

/-- The MEM body's fields (R75). -/
def MEM.ofBits (b : BitVec 49) : MEM where
  d := b.extractLsb' 43 6
  base := b.extractLsb' 37 6
  idx := b.extractLsb' 31 6
  ord := b.extractLsb' 28 3
  scope := b.extractLsb' 25 3
  scl := b.extractLsb' 22 3
  disp := b.extractLsb' 0 22

/-- The MX body's fields (R76). -/
def MX.ofBits (b : BitVec 49) : MX where
  a := b.extractLsb' 43 6
  b := b.extractLsb' 37 6
  bm := b.extractLsb' 36 1
  acc := b.extractLsb' 33 3
  hr := b.extractLsb' 30 3
  kv := b.extractLsb' 28 2
  xs := b.extractLsb' 26 2
  mrg := b.extractLsb' 25 1
  za := b.extractLsb' 24 1
  ha := b.extractLsb' 22 2
  hb := b.extractLsb' 20 2
  cm := b.extractLsb' 17 3
  kb := b.extractLsb' 14 3
  disp := b.extractLsb' 0 14

/-- The predicate of the common header (R70). -/
def Pred.ofBits (w : BitVec 64) : Pred where
  neg := w.getLsbD 56
  reg := w.extractLsb' 49 7

/-- The slot of a vector slot (R69). -/
def VSlot.slot : VSlot → Slot
  | .v0 => .v0
  | .v1 => .v1

/-- Slot i of a bundle (R69). -/
def Slot.index : Slot → Nat
  | .y => 0 | .s => 1 | .v0 => 2 | .v1 => 3 | .m => 4 | .l => 5 | .w => 6 | .c => 7

/-- The slots in slot order. -/
def Slot.all : List Slot := [.y, .s, .v0, .v1, .m, .l, .w, .c]

/-- Why decode refuses a slot's word (R82). -/
inductive Illegal where
  /-- an OP not assigned in its slot -/
  | unassigned (sl : Slot) (op : Nat)
  /-- a V0-only operation in V1 -/
  | v0Only
  /-- NOP with a nonzero body -/
  | nopBody
  /-- a reserved field or code, or a field value the operation does not accept -/
  | badField
  deriving DecidableEq, Repr

/-- The opcode map of slot Y (R79, R80). -/
def decodeY (op : Nat) (b : BitVec 49) : Option Instr :=
  match op with
  | 0x01 => some (.br (SI.ofBits b))
  | 0x02 => some (.brx (SR.ofBits b))
  | 0x03 => some (.call (SI.ofBits b))
  | 0x04 => some (.callx (SR.ofBits b))
  | 0x05 => some (.ret (SR.ofBits b))
  | 0x06 => some (.loop (SI.ofBits b))
  | 0x07 => some (.loopi (SI.ofBits b))
  | 0x08 => some (.lbrk (SR.ofBits b))
  | 0x09 => some (.lidx (SR.ofBits b))
  | 0x0A => some (.rep (SI.ofBits b))
  | 0x10 => some (.post (SR.ofBits b))
  | 0x11 => some (.postn (SR.ofBits b))
  | 0x12 => some (.posti (SR.ofBits b))
  | 0x13 => some (.jadd (SI.ofBits b))
  | 0x14 => if b = 0 then some .endTask else none
  | 0x15 => some (.endp (SR.ofBits b))
  | 0x16 => if b = 0 then some .yield else none
  | 0x17 => if b = 0 then some .park else none
  | 0x18 => some (.whwait (SR.ofBits b))
  | 0x19 => some (.whtest (SR.ofBits b))
  | 0x20 => some (.binit (SR.ofBits b))
  | 0x21 => some (.barv (SR.ofBits b))
  | 0x22 => some (.bexp (SR.ofBits b))
  | 0x23 => some (.bwait (SR.ofBits b))
  | 0x24 => some (.btest (SR.ofBits b))
  | 0x25 => some (.bwany (SR.ofBits b))
  | 0x26 => some (.waita (SR.ofBits b))
  | 0x27 => some (.fence (SR.ofBits b))
  | 0x28 => some (.drain (SR.ofBits b))
  | 0x29 => if b = 0 then some .slipw else none
  | 0x2A => if b = 0 then some .quiet else none
  | 0x2B => some (.qtest (SR.ofBits b))
  | 0x2C => some (.qinit (SI.ofBits b))
  | 0x2D => some (.qadvh (SI.ofBits b))
  | 0x2E => some (.qadvt (SI.ofBits b))
  | 0x30 => some (.trap (SI.ofBits b))
  | 0x31 => some (.svc (SI.ofBits b))
  | 0x32 => if b = 0 then some .eret else none
  | 0x33 => some (.mfs (SI.ofBits b))
  | 0x34 => some (.mts (SI.ofBits b))
  | 0x35 => some (.csave (SR.ofBits b))
  | 0x36 => some (.cload (SR.ofBits b))
  | 0x37 => some (.ctxsw (SR.ofBits b))
  | 0x38 => let f := SI.ofBits b; some (if f.fn5 = 0 then .evt f else .evtTr f)
  | _ => none

/-- The opcode map of slot S (R79, R80). -/
def decodeS (op : Nat) (b : BitVec 49) : Option Instr :=
  match op with
  | 0x01 => some (.add (SR.ofBits b))
  | 0x02 => some (.sub (SR.ofBits b))
  | 0x03 => some (.addi (SI.ofBits b))
  | 0x04 => some (.mul (SR.ofBits b))
  | 0x05 => some (.mulh (SR.ofBits b))
  | 0x06 => some (.mulhu (SR.ofBits b))
  | 0x07 => some (.div (SR.ofBits b))
  | 0x08 => some (.divu (SR.ofBits b))
  | 0x09 => some (.rem (SR.ofBits b))
  | 0x0B => some (.and (SR.ofBits b))
  | 0x0C => some (.or (SR.ofBits b))
  | 0x0D => some (.xor (SR.ofBits b))
  | 0x0E => some (.andi (SI.ofBits b))
  | 0x0F => some (.ori (SI.ofBits b))
  | 0x11 => some (.shl (SR.ofBits b))
  | 0x12 => some (.shr (SR.ofBits b))
  | 0x13 => some (.sar (SR.ofBits b))
  | 0x14 => some (.shli (SI.ofBits b))
  | 0x15 => some (.shri (SI.ofBits b))
  | 0x16 => some (.sari (SI.ofBits b))
  | 0x18 => some (.clz (SR.ofBits b))
  | 0x19 => some (.ctz (SR.ofBits b))
  | 0x1A => some (.popc (SR.ofBits b))
  | 0x1B => some (.min (SR.ofBits b))
  | 0x1C => some (.max (SR.ofBits b))
  | 0x1D => some (.minu (SR.ofBits b))
  | 0x1E => some (.maxu (SR.ofBits b))
  | 0x1F => some (.sel (SR.ofBits b))
  | 0x20 => some (.li (SI.ofBits b))
  | 0x21 => some (.lih (SI.ofBits b))
  | 0x22 => some (.addsh (SR.ofBits b))
  | 0x23 => some (.bfx (SI.ofBits b))
  | 0x24 => some (.bfi (SI.ofBits b))
  | 0x25 => some (.widf (SI.ofBits b))
  | 0x28 => some (.cmpeq (SR.ofBits b))
  | 0x29 => some (.cmpne (SR.ofBits b))
  | 0x2A => some (.cmplt (SR.ofBits b))
  | 0x2B => some (.cmpltu (SR.ofBits b))
  | 0x2C => some (.cmple (SR.ofBits b))
  | 0x2D => some (.cmpleu (SR.ofBits b))
  | 0x2E => some (.cmpeqi (SI.ofBits b))
  | 0x2F => some (.cmplti (SI.ofBits b))
  | 0x30 => some (.cmpltui (SI.ofBits b))
  | 0x31 => some (.pand (SR.ofBits b))
  | 0x32 => some (.por (SR.ofBits b))
  | 0x33 => some (.pxor (SR.ofBits b))
  | 0x34 => some (.pandn (SR.ofBits b))
  | 0x35 => some (.pset (SR.ofBits b))
  | 0x36 => some (.pget (SR.ofBits b))
  | 0x37 => some (.pcnt (SR.ofBits b))
  | 0x38 => some (.pfirst (SR.ofBits b))
  | 0x40 => some (.fadd (SR.ofBits b))
  | 0x41 => some (.fsub (SR.ofBits b))
  | 0x42 => some (.fmul (SR.ofBits b))
  | 0x43 => some (.ffma (SR.ofBits b))
  | 0x44 => some (.fmin (SR.ofBits b))
  | 0x45 => some (.fmax (SR.ofBits b))
  | 0x46 => some (.fclt (SR.ofBits b))
  | 0x47 => some (.fcle (SR.ofBits b))
  | 0x48 => some (.fcvti (SR.ofBits b))
  | 0x49 => some (.fcvtf (SR.ofBits b))
  | 0x50 => some (.rndq (SR.ofBits b))
  | 0x51 => some (.rndf (SR.ofBits b))
  | _ => none

/-- The opcode map of slot V (R79, R80). -/
def decodeV (v : VSlot) (op : Nat) (b : BitVec 49) : Option Instr :=
  match op with
  | 0x01 => some (.vadd v (SR.ofBits b))
  | 0x02 => some (.vsub v (SR.ofBits b))
  | 0x03 => some (.vmul v (SR.ofBits b))
  | 0x04 => some (.vfma v (SR.ofBits b))
  | 0x05 => some (.vfms v (SR.ofBits b))
  | 0x06 => some (.vmin v (SR.ofBits b))
  | 0x07 => some (.vmax v (SR.ofBits b))
  | 0x08 => some (.vabs v (SR.ofBits b))
  | 0x09 => some (.vneg v (SR.ofBits b))
  | 0x0A => some (.vdiv (SR.ofBits b))
  | 0x0B => some (.vrcp v (SR.ofBits b))
  | 0x0C => some (.vrsq v (SR.ofBits b))
  | 0x0D => some (.vexp2 v (SR.ofBits b))
  | 0x0E => some (.vlog2 v (SR.ofBits b))
  | 0x10 => some (.vand v (SR.ofBits b))
  | 0x11 => some (.vor v (SR.ofBits b))
  | 0x12 => some (.vxor v (SR.ofBits b))
  | 0x13 => some (.vshl v (SR.ofBits b))
  | 0x14 => some (.vshr v (SR.ofBits b))
  | 0x15 => some (.vsar v (SR.ofBits b))
  | 0x18 => some (.vceq v (SR.ofBits b))
  | 0x19 => some (.vcne v (SR.ofBits b))
  | 0x1A => some (.vclt v (SR.ofBits b))
  | 0x1B => some (.vcle v (SR.ofBits b))
  | 0x1C => some (.vsel v (SR.ofBits b))
  | 0x1D => some (.vmov v (SR.ofBits b))
  | 0x1E => some (.vbcst v (SR.ofBits b))
  | 0x1F => some (.viota v (SR.ofBits b))
  | 0x20 => some (.vxtr v (SR.ofBits b))
  | 0x21 => some (.vins v (SR.ofBits b))
  | 0x28 => some (.vradd (SR.ofBits b))
  | 0x29 => some (.vrmax (SR.ofBits b))
  | 0x2A => some (.vrmin (SR.ofBits b))
  | 0x2B => some (.vscan (SR.ofBits b))
  | 0x2C => some (.vargmx (SR.ofBits b))
  | 0x30 => some (.vperm (SR.ofBits b))
  | 0x31 => some (.vrot v (SR.ofBits b))
  | 0x32 => some (.vcmpr (SR.ofBits b))
  | 0x34 => some (.vsortk (SR.ofBits b))
  | 0x35 => some (.vmrgk (SR.ofBits b))
  | 0x38 => some (.vcvt v (SR.ofBits b))
  | 0x39 => some (.vqnt v (SR.ofBits b))
  | 0x3A => some (.vdqnt v (SR.ofBits b))
  | 0x3B => some (.vtag v (SR.ofBits b))
  | 0x3C => some (.vgtag v (SR.ofBits b))
  | _ => none

/-- The opcode map of slot M (R79, R80). -/
def decodeM (op : Nat) (b : BitVec 49) : Option Instr :=
  match op with
  | 0x01 => let f := MX.ofBits b; some (if f.kv = 3 then .mmaAbs f else .mma f)
  | 0x02 => some (.mmam (MX.ofBits b))
  | 0x03 => some (.ttrn (MX.ofBits b))
  | 0x04 => some (.tprm (MX.ofBits b))
  | 0x05 => some (.tred (MX.ofBits b))
  | 0x08 => some (.azero (MX.ofBits b))
  | 0x09 => some (.aadd (MX.ofBits b))
  | 0x0A => some (.ascl (MX.ofBits b))
  | 0x0B => some (.acvt (MX.ofBits b))
  | 0x0C => some (.afold (MX.ofBits b))
  | 0x0D => some (.arow (MX.ofBits b))
  | 0x0E => some (.awrow (MX.ofBits b))
  | 0x10 => some (.tzero (MX.ofBits b))
  | 0x11 => some (.tmov (MX.ofBits b))
  | 0x12 => some (.trow (MX.ofBits b))
  | 0x13 => some (.twrow (MX.ofBits b))
  | 0x14 => some (.ttag (MX.ofBits b))
  | 0x18 => some (.lxld (MX.ofBits b))
  | 0x19 => some (.lxinv (MX.ofBits b))
  | 0x1A => if b = 0 then some .mwait else none
  | _ => none

/-- The opcode map of slot L (R79, R80). -/
def decodeL (op : Nat) (b : BitVec 49) : Option Instr :=
  match op with
  | 0x01 => some (.ldb (MEM.ofBits b))
  | 0x02 => some (.ldbu (MEM.ofBits b))
  | 0x03 => some (.ldh (MEM.ofBits b))
  | 0x04 => some (.ldhu (MEM.ofBits b))
  | 0x05 => some (.ldw (MEM.ofBits b))
  | 0x06 => some (.ldwu (MEM.ofBits b))
  | 0x07 => some (.ldd (MEM.ofBits b))
  | 0x08 => some (.ldq (MEM.ofBits b))
  | 0x0C => some (.vld (MEM.ofBits b))
  | 0x0D => some (.vlds (MEM.ofBits b))
  | 0x0E => some (.vgth (SR.ofBits b))
  | 0x0F => some (.pld (MEM.ofBits b))
  | 0x10 => some (.tld (SR.ofBits b))
  | 0x11 => let f := SR.ofBits b; some (if f.fmt = 0x20 then .tldkLat8 f else .tldkExpand f)
  | 0x14 => some (.ldblk (MEM.ofBits b))
  | 0x15 => some (.lbwait (MEM.ofBits b))
  | 0x16 => some (.pref (MEM.ofBits b))
  | 0x18 => some (.amadd (MEM.ofBits b))
  | 0x19 => some (.amswp (MEM.ofBits b))
  | 0x1A => some (.amcas (MEM.ofBits b))
  | 0x1B => some (.amcas16 (MEM.ofBits b))
  | 0x1C => some (.ammin (MEM.ofBits b))
  | 0x1D => some (.ammax (MEM.ofBits b))
  | 0x1E => some (.amminu (MEM.ofBits b))
  | 0x1F => some (.ammaxu (MEM.ofBits b))
  | 0x20 => some (.amand (MEM.ofBits b))
  | 0x21 => some (.amor (MEM.ofBits b))
  | 0x22 => some (.amxor (MEM.ofBits b))
  | 0x23 => some (.amfadd (MEM.ofBits b))
  | _ => none

/-- The opcode map of slot W (R79, R80). -/
def decodeW (op : Nat) (b : BitVec 49) : Option Instr :=
  match op with
  | 0x01 => some (.stb (MEM.ofBits b))
  | 0x02 => some (.sth (MEM.ofBits b))
  | 0x03 => some (.stw (MEM.ofBits b))
  | 0x04 => some (.std (MEM.ofBits b))
  | 0x05 => some (.stq (MEM.ofBits b))
  | 0x08 => some (.vst (MEM.ofBits b))
  | 0x09 => some (.vsts (MEM.ofBits b))
  | 0x0A => some (.vsct (SR.ofBits b))
  | 0x0B => some (.pst (MEM.ofBits b))
  | 0x0C => some (.tst (MEM.ofBits b))
  | 0x0D => some (.tstk (SR.ofBits b))
  | 0x10 => some (.rdadd (MEM.ofBits b))
  | 0x11 => some (.rdmin (MEM.ofBits b))
  | 0x12 => some (.rdmax (MEM.ofBits b))
  | 0x13 => some (.rdand (MEM.ofBits b))
  | 0x14 => some (.rdor (MEM.ofBits b))
  | 0x15 => some (.rdxor (MEM.ofBits b))
  | 0x16 => some (.rdfadd (MEM.ofBits b))
  | 0x18 => some (.linv (MEM.ofBits b))
  | 0x19 => some (.lwb (MEM.ofBits b))
  | 0x1A => some (.lzero (MEM.ofBits b))
  | 0x1B => some (.blkrel (MEM.ofBits b))
  | _ => none

/-- The opcode map of slot C (R79, R80). -/
def decodeC (op : Nat) (b : BitVec 49) : Option Instr :=
  match op with
  | 0x01 => some (.csrc (SR.ofBits b))
  | 0x02 => some (.cdst (SR.ofBits b))
  | 0x03 => some (.cdim (SR.ofBits b))
  | 0x04 => some (.celt (SR.ofBits b))
  | 0x05 => some (.cmode (SI.ofBits b))
  | 0x06 => some (.cbar (SR.ofBits b))
  | 0x07 => some (.cflag (SR.ofBits b))
  | 0x08 => some (.cgo (SR.ofBits b))
  | 0x09 => some (.cstat (SR.ofBits b))
  | 0x0A => let f := SR.ofBits b; some (if f.fn9 = 0 then .ccan f else .ccanAll f)
  | 0x10 => some (.whreq (SR.ofBits b))
  | 0x11 => let f := SR.ofBits b; some (if f.fn9 = 0 then .whdmd f else .whdmdUp f)
  | 0x12 => some (.whrel (SR.ofBits b))
  | 0x18 => some (.msend (SR.ofBits b))
  | 0x19 => some (.msendv (SR.ofBits b))
  | 0x1C => some (.lsend (SR.ofBits b))
  | 0x1D => some (.lrecv (SR.ofBits b))
  | 0x20 => some (.rbkey (SR.ofBits b))
  | _ => none

/-- The V0-only operations (R81). -/
def v0OnlyOp (op : Nat) : Bool :=
  op = 0x0A || (0x28 ≤ op && op ≤ 0x2C) || op = 0x30 || op = 0x32 || op = 0x34 || op = 0x35

/-- The operation that an OP other than NOP names in a slot. -/
def decodeOp (sl : Slot) (op : Nat) (b : BitVec 49) : Option Instr :=
  match sl with
  | .y => decodeY op b
  | .s => decodeS op b
  | .v0 => decodeV .v0 op b
  | .v1 => if v0OnlyOp op then none else decodeV .v1 op b
  | .m => decodeM op b
  | .l => decodeL op b
  | .w => decodeW op b
  | .c => decodeC op b

/-- Decode of one slot's 64-bit word: its predicate and its operation (R70, R79, R82).  An operation
without operands needs a zero body, or it has a reserved field. -/
def decodeSlot (sl : Slot) (w : BitVec 64) : Except Illegal (Pred × Instr) :=
  let op := (w.extractLsb' 57 7).toNat
  let b := w.extractLsb' 0 49
  if op = 0 then
    if b = 0 then .ok (Pred.ofBits w, .nop) else .error .nopBody
  else
    match decodeOp sl op b with
    | none =>
      .error (if sl = .v1 && v0OnlyOp op then .v0Only
        else if (decodeOp sl op 0).isSome then .badField else .unassigned sl op)
    | some i => if i.wf then .ok (Pred.ofBits w, i) else .error .badField

/-- A bundle as a number: 512 bits, slot Y lowest (R69). -/
abbrev Bundle := BitVec 512

/-- Slot i's word of a bundle (R69). -/
def Bundle.word (b : Bundle) (sl : Slot) : BitVec 64 := b.extractLsb' (64 * sl.index) 64

/-- The eight slots decoded, each on its own; the rules between slots are checked where the bundle
issues. -/
def decodeBundle (b : Bundle) : List (Slot × Except Illegal (Pred × Instr)) :=
  Slot.all.map fun sl => (sl, decodeSlot sl (b.word sl))

/-- A decoded operation that is not a NOP. -/
def activeOp : Slot × Except Illegal (Pred × Instr) → Option Instr
  | (_, .ok (_, .nop)) => none
  | (_, .ok (_, i)) => some i
  | (_, .error _) => none

/-- A decode error. -/
def isIllegal : Slot × Except Illegal (Pred × Instr) → Bool
  | (_, .error _) => true
  | _ => false

/-- The instruction that a bundle with bits w stands for: the lowest slot's operation that is not a
NOP; NOP where every slot is one; none where a slot is illegal.  Bits above `nbits` are
zero, and slot Y is bits 63 to 0. -/
def decodeTableWord (nbits w : Nat) : Option Instr :=
  let ds := decodeBundle (BitVec.ofNat 512 (w % 2 ^ nbits))
  if ds.any isIllegal then none
  else
    match ds.findSome? activeOp with
    | some i => some i
    | none => some .nop

/-- The SR body's bits (R72). -/
def SR.toBits (f : SR) : BitVec 49 :=
  f.d ++ f.a ++ f.b ++ f.c ++ f.ha ++ f.hb ++ f.hc ++ f.fmt ++ f.rnd ++ f.sat ++ f.fn9

/-- The SI body's bits (R73). -/
def SI.toBits (f : SI) : BitVec 49 := f.d ++ f.a ++ f.imm ++ f.fn5

/-- The MEM body's bits (R75). -/
def MEM.toBits (f : MEM) : BitVec 49 := f.d ++ f.base ++ f.idx ++ f.ord ++ f.scope ++ f.scl ++ f.disp

/-- The MX body's bits (R76). -/
def MX.toBits (f : MX) : BitVec 49 :=
  f.a ++ f.b ++ f.bm ++ f.acc ++ f.hr ++ f.kv ++ f.xs ++ f.mrg ++ f.za ++ f.ha ++ f.hb ++ f.cm ++ f.kb ++ f.disp

/-- What an operation is made of: its slot, its OP and its body (R70, R79). -/
structure Parts where
  slot : Slot
  op : BitVec 7
  body : BitVec 49
  deriving DecidableEq, Repr

/-- The slot, OP and body of every operation (R79, R80); NOP may stand in any slot; an event has none. -/
def Instr.parts : Instr → Option Parts
  | .nop => some ⟨.y, 0, 0⟩
  | .br f => some ⟨.y, 0x01, f.toBits⟩
  | .brx f => some ⟨.y, 0x02, f.toBits⟩
  | .call f => some ⟨.y, 0x03, f.toBits⟩
  | .callx f => some ⟨.y, 0x04, f.toBits⟩
  | .ret f => some ⟨.y, 0x05, f.toBits⟩
  | .loop f => some ⟨.y, 0x06, f.toBits⟩
  | .loopi f => some ⟨.y, 0x07, f.toBits⟩
  | .lbrk f => some ⟨.y, 0x08, f.toBits⟩
  | .lidx f => some ⟨.y, 0x09, f.toBits⟩
  | .rep f => some ⟨.y, 0x0A, f.toBits⟩
  | .post f => some ⟨.y, 0x10, f.toBits⟩
  | .postn f => some ⟨.y, 0x11, f.toBits⟩
  | .posti f => some ⟨.y, 0x12, f.toBits⟩
  | .jadd f => some ⟨.y, 0x13, f.toBits⟩
  | .endTask => some ⟨.y, 0x14, 0⟩
  | .endp f => some ⟨.y, 0x15, f.toBits⟩
  | .yield => some ⟨.y, 0x16, 0⟩
  | .park => some ⟨.y, 0x17, 0⟩
  | .whwait f => some ⟨.y, 0x18, f.toBits⟩
  | .whtest f => some ⟨.y, 0x19, f.toBits⟩
  | .binit f => some ⟨.y, 0x20, f.toBits⟩
  | .barv f => some ⟨.y, 0x21, f.toBits⟩
  | .bexp f => some ⟨.y, 0x22, f.toBits⟩
  | .bwait f => some ⟨.y, 0x23, f.toBits⟩
  | .btest f => some ⟨.y, 0x24, f.toBits⟩
  | .bwany f => some ⟨.y, 0x25, f.toBits⟩
  | .waita f => some ⟨.y, 0x26, f.toBits⟩
  | .fence f => some ⟨.y, 0x27, f.toBits⟩
  | .drain f => some ⟨.y, 0x28, f.toBits⟩
  | .slipw => some ⟨.y, 0x29, 0⟩
  | .quiet => some ⟨.y, 0x2A, 0⟩
  | .qtest f => some ⟨.y, 0x2B, f.toBits⟩
  | .qinit f => some ⟨.y, 0x2C, f.toBits⟩
  | .qadvh f => some ⟨.y, 0x2D, f.toBits⟩
  | .qadvt f => some ⟨.y, 0x2E, f.toBits⟩
  | .trap f => some ⟨.y, 0x30, f.toBits⟩
  | .svc f => some ⟨.y, 0x31, f.toBits⟩
  | .eret => some ⟨.y, 0x32, 0⟩
  | .mfs f => some ⟨.y, 0x33, f.toBits⟩
  | .mts f => some ⟨.y, 0x34, f.toBits⟩
  | .csave f => some ⟨.y, 0x35, f.toBits⟩
  | .cload f => some ⟨.y, 0x36, f.toBits⟩
  | .ctxsw f => some ⟨.y, 0x37, f.toBits⟩
  | .evt f => some ⟨.y, 0x38, f.toBits⟩
  | .evtTr f => some ⟨.y, 0x38, f.toBits⟩
  | .add f => some ⟨.s, 0x01, f.toBits⟩
  | .sub f => some ⟨.s, 0x02, f.toBits⟩
  | .addi f => some ⟨.s, 0x03, f.toBits⟩
  | .mul f => some ⟨.s, 0x04, f.toBits⟩
  | .mulh f => some ⟨.s, 0x05, f.toBits⟩
  | .mulhu f => some ⟨.s, 0x06, f.toBits⟩
  | .div f => some ⟨.s, 0x07, f.toBits⟩
  | .divu f => some ⟨.s, 0x08, f.toBits⟩
  | .rem f => some ⟨.s, 0x09, f.toBits⟩
  | .and f => some ⟨.s, 0x0B, f.toBits⟩
  | .or f => some ⟨.s, 0x0C, f.toBits⟩
  | .xor f => some ⟨.s, 0x0D, f.toBits⟩
  | .andi f => some ⟨.s, 0x0E, f.toBits⟩
  | .ori f => some ⟨.s, 0x0F, f.toBits⟩
  | .shl f => some ⟨.s, 0x11, f.toBits⟩
  | .shr f => some ⟨.s, 0x12, f.toBits⟩
  | .sar f => some ⟨.s, 0x13, f.toBits⟩
  | .shli f => some ⟨.s, 0x14, f.toBits⟩
  | .shri f => some ⟨.s, 0x15, f.toBits⟩
  | .sari f => some ⟨.s, 0x16, f.toBits⟩
  | .clz f => some ⟨.s, 0x18, f.toBits⟩
  | .ctz f => some ⟨.s, 0x19, f.toBits⟩
  | .popc f => some ⟨.s, 0x1A, f.toBits⟩
  | .min f => some ⟨.s, 0x1B, f.toBits⟩
  | .max f => some ⟨.s, 0x1C, f.toBits⟩
  | .minu f => some ⟨.s, 0x1D, f.toBits⟩
  | .maxu f => some ⟨.s, 0x1E, f.toBits⟩
  | .sel f => some ⟨.s, 0x1F, f.toBits⟩
  | .li f => some ⟨.s, 0x20, f.toBits⟩
  | .lih f => some ⟨.s, 0x21, f.toBits⟩
  | .addsh f => some ⟨.s, 0x22, f.toBits⟩
  | .bfx f => some ⟨.s, 0x23, f.toBits⟩
  | .bfi f => some ⟨.s, 0x24, f.toBits⟩
  | .widf f => some ⟨.s, 0x25, f.toBits⟩
  | .cmpeq f => some ⟨.s, 0x28, f.toBits⟩
  | .cmpne f => some ⟨.s, 0x29, f.toBits⟩
  | .cmplt f => some ⟨.s, 0x2A, f.toBits⟩
  | .cmpltu f => some ⟨.s, 0x2B, f.toBits⟩
  | .cmple f => some ⟨.s, 0x2C, f.toBits⟩
  | .cmpleu f => some ⟨.s, 0x2D, f.toBits⟩
  | .cmpeqi f => some ⟨.s, 0x2E, f.toBits⟩
  | .cmplti f => some ⟨.s, 0x2F, f.toBits⟩
  | .cmpltui f => some ⟨.s, 0x30, f.toBits⟩
  | .pand f => some ⟨.s, 0x31, f.toBits⟩
  | .por f => some ⟨.s, 0x32, f.toBits⟩
  | .pxor f => some ⟨.s, 0x33, f.toBits⟩
  | .pandn f => some ⟨.s, 0x34, f.toBits⟩
  | .pset f => some ⟨.s, 0x35, f.toBits⟩
  | .pget f => some ⟨.s, 0x36, f.toBits⟩
  | .pcnt f => some ⟨.s, 0x37, f.toBits⟩
  | .pfirst f => some ⟨.s, 0x38, f.toBits⟩
  | .fadd f => some ⟨.s, 0x40, f.toBits⟩
  | .fsub f => some ⟨.s, 0x41, f.toBits⟩
  | .fmul f => some ⟨.s, 0x42, f.toBits⟩
  | .ffma f => some ⟨.s, 0x43, f.toBits⟩
  | .fmin f => some ⟨.s, 0x44, f.toBits⟩
  | .fmax f => some ⟨.s, 0x45, f.toBits⟩
  | .fclt f => some ⟨.s, 0x46, f.toBits⟩
  | .fcle f => some ⟨.s, 0x47, f.toBits⟩
  | .fcvti f => some ⟨.s, 0x48, f.toBits⟩
  | .fcvtf f => some ⟨.s, 0x49, f.toBits⟩
  | .rndq f => some ⟨.s, 0x50, f.toBits⟩
  | .rndf f => some ⟨.s, 0x51, f.toBits⟩
  | .vadd v f => some ⟨v.slot, 0x01, f.toBits⟩
  | .vsub v f => some ⟨v.slot, 0x02, f.toBits⟩
  | .vmul v f => some ⟨v.slot, 0x03, f.toBits⟩
  | .vfma v f => some ⟨v.slot, 0x04, f.toBits⟩
  | .vfms v f => some ⟨v.slot, 0x05, f.toBits⟩
  | .vmin v f => some ⟨v.slot, 0x06, f.toBits⟩
  | .vmax v f => some ⟨v.slot, 0x07, f.toBits⟩
  | .vabs v f => some ⟨v.slot, 0x08, f.toBits⟩
  | .vneg v f => some ⟨v.slot, 0x09, f.toBits⟩
  | .vdiv f => some ⟨.v0, 0x0A, f.toBits⟩
  | .vrcp v f => some ⟨v.slot, 0x0B, f.toBits⟩
  | .vrsq v f => some ⟨v.slot, 0x0C, f.toBits⟩
  | .vexp2 v f => some ⟨v.slot, 0x0D, f.toBits⟩
  | .vlog2 v f => some ⟨v.slot, 0x0E, f.toBits⟩
  | .vand v f => some ⟨v.slot, 0x10, f.toBits⟩
  | .vor v f => some ⟨v.slot, 0x11, f.toBits⟩
  | .vxor v f => some ⟨v.slot, 0x12, f.toBits⟩
  | .vshl v f => some ⟨v.slot, 0x13, f.toBits⟩
  | .vshr v f => some ⟨v.slot, 0x14, f.toBits⟩
  | .vsar v f => some ⟨v.slot, 0x15, f.toBits⟩
  | .vceq v f => some ⟨v.slot, 0x18, f.toBits⟩
  | .vcne v f => some ⟨v.slot, 0x19, f.toBits⟩
  | .vclt v f => some ⟨v.slot, 0x1A, f.toBits⟩
  | .vcle v f => some ⟨v.slot, 0x1B, f.toBits⟩
  | .vsel v f => some ⟨v.slot, 0x1C, f.toBits⟩
  | .vmov v f => some ⟨v.slot, 0x1D, f.toBits⟩
  | .vbcst v f => some ⟨v.slot, 0x1E, f.toBits⟩
  | .viota v f => some ⟨v.slot, 0x1F, f.toBits⟩
  | .vxtr v f => some ⟨v.slot, 0x20, f.toBits⟩
  | .vins v f => some ⟨v.slot, 0x21, f.toBits⟩
  | .vradd f => some ⟨.v0, 0x28, f.toBits⟩
  | .vrmax f => some ⟨.v0, 0x29, f.toBits⟩
  | .vrmin f => some ⟨.v0, 0x2A, f.toBits⟩
  | .vscan f => some ⟨.v0, 0x2B, f.toBits⟩
  | .vargmx f => some ⟨.v0, 0x2C, f.toBits⟩
  | .vperm f => some ⟨.v0, 0x30, f.toBits⟩
  | .vrot v f => some ⟨v.slot, 0x31, f.toBits⟩
  | .vcmpr f => some ⟨.v0, 0x32, f.toBits⟩
  | .vsortk f => some ⟨.v0, 0x34, f.toBits⟩
  | .vmrgk f => some ⟨.v0, 0x35, f.toBits⟩
  | .vcvt v f => some ⟨v.slot, 0x38, f.toBits⟩
  | .vqnt v f => some ⟨v.slot, 0x39, f.toBits⟩
  | .vdqnt v f => some ⟨v.slot, 0x3A, f.toBits⟩
  | .vtag v f => some ⟨v.slot, 0x3B, f.toBits⟩
  | .vgtag v f => some ⟨v.slot, 0x3C, f.toBits⟩
  | .mma f => some ⟨.m, 0x01, f.toBits⟩
  | .mmaAbs f => some ⟨.m, 0x01, f.toBits⟩
  | .mmam f => some ⟨.m, 0x02, f.toBits⟩
  | .ttrn f => some ⟨.m, 0x03, f.toBits⟩
  | .tprm f => some ⟨.m, 0x04, f.toBits⟩
  | .tred f => some ⟨.m, 0x05, f.toBits⟩
  | .azero f => some ⟨.m, 0x08, f.toBits⟩
  | .aadd f => some ⟨.m, 0x09, f.toBits⟩
  | .ascl f => some ⟨.m, 0x0A, f.toBits⟩
  | .acvt f => some ⟨.m, 0x0B, f.toBits⟩
  | .afold f => some ⟨.m, 0x0C, f.toBits⟩
  | .arow f => some ⟨.m, 0x0D, f.toBits⟩
  | .awrow f => some ⟨.m, 0x0E, f.toBits⟩
  | .tzero f => some ⟨.m, 0x10, f.toBits⟩
  | .tmov f => some ⟨.m, 0x11, f.toBits⟩
  | .trow f => some ⟨.m, 0x12, f.toBits⟩
  | .twrow f => some ⟨.m, 0x13, f.toBits⟩
  | .ttag f => some ⟨.m, 0x14, f.toBits⟩
  | .lxld f => some ⟨.m, 0x18, f.toBits⟩
  | .lxinv f => some ⟨.m, 0x19, f.toBits⟩
  | .mwait => some ⟨.m, 0x1A, 0⟩
  | .ldb f => some ⟨.l, 0x01, f.toBits⟩
  | .ldbu f => some ⟨.l, 0x02, f.toBits⟩
  | .ldh f => some ⟨.l, 0x03, f.toBits⟩
  | .ldhu f => some ⟨.l, 0x04, f.toBits⟩
  | .ldw f => some ⟨.l, 0x05, f.toBits⟩
  | .ldwu f => some ⟨.l, 0x06, f.toBits⟩
  | .ldd f => some ⟨.l, 0x07, f.toBits⟩
  | .ldq f => some ⟨.l, 0x08, f.toBits⟩
  | .vld f => some ⟨.l, 0x0C, f.toBits⟩
  | .vlds f => some ⟨.l, 0x0D, f.toBits⟩
  | .vgth f => some ⟨.l, 0x0E, f.toBits⟩
  | .pld f => some ⟨.l, 0x0F, f.toBits⟩
  | .tld f => some ⟨.l, 0x10, f.toBits⟩
  | .tldkLat8 f => some ⟨.l, 0x11, f.toBits⟩
  | .tldkExpand f => some ⟨.l, 0x11, f.toBits⟩
  | .ldblk f => some ⟨.l, 0x14, f.toBits⟩
  | .lbwait f => some ⟨.l, 0x15, f.toBits⟩
  | .pref f => some ⟨.l, 0x16, f.toBits⟩
  | .amadd f => some ⟨.l, 0x18, f.toBits⟩
  | .amswp f => some ⟨.l, 0x19, f.toBits⟩
  | .amcas f => some ⟨.l, 0x1A, f.toBits⟩
  | .amcas16 f => some ⟨.l, 0x1B, f.toBits⟩
  | .ammin f => some ⟨.l, 0x1C, f.toBits⟩
  | .ammax f => some ⟨.l, 0x1D, f.toBits⟩
  | .amminu f => some ⟨.l, 0x1E, f.toBits⟩
  | .ammaxu f => some ⟨.l, 0x1F, f.toBits⟩
  | .amand f => some ⟨.l, 0x20, f.toBits⟩
  | .amor f => some ⟨.l, 0x21, f.toBits⟩
  | .amxor f => some ⟨.l, 0x22, f.toBits⟩
  | .amfadd f => some ⟨.l, 0x23, f.toBits⟩
  | .stb f => some ⟨.w, 0x01, f.toBits⟩
  | .sth f => some ⟨.w, 0x02, f.toBits⟩
  | .stw f => some ⟨.w, 0x03, f.toBits⟩
  | .std f => some ⟨.w, 0x04, f.toBits⟩
  | .stq f => some ⟨.w, 0x05, f.toBits⟩
  | .vst f => some ⟨.w, 0x08, f.toBits⟩
  | .vsts f => some ⟨.w, 0x09, f.toBits⟩
  | .vsct f => some ⟨.w, 0x0A, f.toBits⟩
  | .pst f => some ⟨.w, 0x0B, f.toBits⟩
  | .tst f => some ⟨.w, 0x0C, f.toBits⟩
  | .tstk f => some ⟨.w, 0x0D, f.toBits⟩
  | .rdadd f => some ⟨.w, 0x10, f.toBits⟩
  | .rdmin f => some ⟨.w, 0x11, f.toBits⟩
  | .rdmax f => some ⟨.w, 0x12, f.toBits⟩
  | .rdand f => some ⟨.w, 0x13, f.toBits⟩
  | .rdor f => some ⟨.w, 0x14, f.toBits⟩
  | .rdxor f => some ⟨.w, 0x15, f.toBits⟩
  | .rdfadd f => some ⟨.w, 0x16, f.toBits⟩
  | .linv f => some ⟨.w, 0x18, f.toBits⟩
  | .lwb f => some ⟨.w, 0x19, f.toBits⟩
  | .lzero f => some ⟨.w, 0x1A, f.toBits⟩
  | .blkrel f => some ⟨.w, 0x1B, f.toBits⟩
  | .csrc f => some ⟨.c, 0x01, f.toBits⟩
  | .cdst f => some ⟨.c, 0x02, f.toBits⟩
  | .cdim f => some ⟨.c, 0x03, f.toBits⟩
  | .celt f => some ⟨.c, 0x04, f.toBits⟩
  | .cmode f => some ⟨.c, 0x05, f.toBits⟩
  | .cbar f => some ⟨.c, 0x06, f.toBits⟩
  | .cflag f => some ⟨.c, 0x07, f.toBits⟩
  | .cgo f => some ⟨.c, 0x08, f.toBits⟩
  | .cstat f => some ⟨.c, 0x09, f.toBits⟩
  | .ccan f => some ⟨.c, 0x0A, f.toBits⟩
  | .ccanAll f => some ⟨.c, 0x0A, f.toBits⟩
  | .whreq f => some ⟨.c, 0x10, f.toBits⟩
  | .whdmd f => some ⟨.c, 0x11, f.toBits⟩
  | .whdmdUp f => some ⟨.c, 0x11, f.toBits⟩
  | .whrel f => some ⟨.c, 0x12, f.toBits⟩
  | .msend f => some ⟨.c, 0x18, f.toBits⟩
  | .msendv f => some ⟨.c, 0x19, f.toBits⟩
  | .lsend f => some ⟨.c, 0x1C, f.toBits⟩
  | .lrecv f => some ⟨.c, 0x1D, f.toBits⟩
  | .rbkey f => some ⟨.c, 0x20, f.toBits⟩
  | .waitaTimeout => none
  | .longWaitPark => none
  | .slotQueueIssue => none
  | .loadDataReturn => none
  | .tileLoadComplete => none
  | .matrixResultWrite => none
  | .expanderLoadComplete => none
  | .loadBlockFilled => none
  | .generatorRefill => none
  | .scStamp => none
  | .scPerform => none
  | .reductionPerform => none
  | .placement => none
  | .gatingTimeout => none
  | .aging => none
  | .stageAllocation => none
  | .blockedPostAdmit => none
  | .probeSend => none
  | .probeGrant => none
  | .expansionSelect => none
  | .hostPost => none
  | .hostPostEnter => none
  | .launch => none
  | .gridTaskPost => none
  | .stackDeadlineRelease => none
  | .stackEngineStart => none
  | .stackSplit => none
  | .stackDissolve => none
  | .copyStart => none
  | .copyElementWrite => none
  | .dramlocFrame => none
  | .copyFault => none
  | .copyComplete => none
  | .handlePageLand => none
  | .handleReady => none
  | .handleError => none
  | .handleReleaseFree => none
  | .flashPageRead => none
  | .relocationRemap => none
  | .blockEraseComplete => none
  | .messageArrival => none
  | .messageHandover => none
  | .handoverAck => none
  | .retirementNotice => none
  | .reductionAck => none
  | .remoteMessageReceive => none
  | .sweepWaveStart => none
  | .sweepPass2 => none
  | .sweepVerdict => none
  | .xwaveStart => none
  | .xwaveRequestReceive => none
  | .xwaveReplyReceive => none
  | .xwaveReplyTimeout => none
  | .xwaveVerdictReceive => none
  | .ueRetransmit => none
  | .ueAckReceive => none
  | .ueAbandon => none
  | .linkArrival => none
  | .timer => none
  | .preemptOverdue => none
  | .faultRecordWrite => none
  | .fqtailWrite => none
  | .losstailWrite => none
  | .ortailReplay => none
  | .ortailDiscard => none
  | .replay => none
  | .preemptReq => none
  | .preemptRel => none
  | .preqRequest => none
  | .preqHeldRelease => none
  | .kill => none
  | .killComplete => none
  | .jobCreate => none
  | .jobTeardown => none
  | .teardownComplete => none
  | .tlbiGo => none
  | .tlbiComplete => none
  | .rctlBind => none
  | .rctlUnbind => none
  | .unbindWritebackDone => none
  | .hptEpoch => none
  | .zfreePush => none
  | .mbGetid => none
  | .mbAttest => none
  | .mbVerify => none
  | .mbUpdate => none
  | .mailboxDone => none
  | .finjWrite => none
  | .vfslotsWrite => none
  | .fgrantWrite => none
  | .dispcntRead => none
  | .fhealthCRead => none
  | .hptCntRead => none
  | .colcntRead => none
  | .huncRead => none
  | .registerWrite => none
  | .hostBar4Read => none
  | .hostBar4Write => none
  | .powerGood => none
  | .stage0Complete => none
  | .stage1Complete => none
  | .stage2Complete => none
  | .powerCapTick => none
  | .thermalTrip => none
  | .cooldownRestart => none
  | .unitError => none
  | .collimationTestDone => none
  | .ephemUpdate => none
  | .storePerform => none
  | .handleTableAnswer => none
  | .eventArrival => none
  | .flashProgramComplete => none
  | .hptCtlWrite => none

/-- A slot's word from its predicate and parts (R70). -/
def Parts.word (q : Parts) (p : Pred) : BitVec 64 := q.op ++ BitVec.ofBool p.neg ++ p.reg ++ q.body

/-- The word of an operation under a predicate; none for an event. -/
def encode (p : Pred) (i : Instr) : Option (BitVec 64) := i.parts.map (·.word p)

/-- The slot an operation stands in (Y for NOP); none for an event. -/
def Instr.slot (i : Instr) : Option Slot := i.parts.map Parts.slot

/-- The bundle that holds one operation and NOPs in its other slots. -/
def encodeAlone (p : Pred) (i : Instr) : Bundle :=
  match i.parts with
  | some q => (q.word p).setWidth 512 <<< (64 * q.slot.index)
  | none => 0

end Sys2Proof
end

