-- ==== Sys2Proof/Machine/Sparse.lean ====
section
/-! DEFINITION. Finite maps from numbers as plain data: lists of (key, value) pairs with keys strictly rising and no entry equal to the value that an unlisted key reads as. -/
namespace Sys2Proof

/-- A map from numbers to values of a type; each map has one value that unlisted keys read as. -/
abbrev Sparse (α : Type) := List (Nat × α)

/-- The value at a key; `d` where no entry is listed. -/
def Sparse.get {α : Type} (d : α) : Sparse α → Nat → α
  | [], _ => d
  | (j, w) :: r, k => if j = k then w else Sparse.get d r k

/-- An entry put in its place. -/
def Sparse.put {α : Type} (v : α) (k : Nat) : Sparse α → Sparse α
  | [] => [(k, v)]
  | (j, w) :: r =>
    if k < j then (k, v) :: (j, w) :: r
    else if k = j then (k, v) :: r
    else (j, w) :: Sparse.put v k r

/-- The map with one value changed; the value that unlisted keys read as is not listed. -/
def Sparse.set {α : Type} [DecidableEq α] (d : α) (m : Sparse α) (k : Nat) (v : α) : Sparse α :=
  if v = d then m.filter (fun e => e.1 ≠ k) else Sparse.put v k m

/-- The entries of a run of values from a key on, without those equal to `d`. -/
def Sparse.run {α : Type} [DecidableEq α] (d : α) : Nat → List α → Sparse α
  | _, [] => []
  | k, v :: vs => if v = d then Sparse.run d (k + 1) vs else (k, v) :: Sparse.run d (k + 1) vs

/-- The map with the values from key `k` on replaced by a run of values. -/
def Sparse.splice {α : Type} [DecidableEq α] (d : α) (m : Sparse α) (k : Nat) (vs : List α) : Sparse α :=
  m.filter (fun e => e.1 < k) ++ (Sparse.run d k vs ++ m.filter (fun e => k + vs.length ≤ e.1))

/-- `n` values from key `k` on. -/
def Sparse.slice {α : Type} (d : α) (m : Sparse α) (k n : Nat) : List α :=
  let w := m.filter (fun e => k ≤ e.1 ∧ e.1 < k + n)
  (List.range n).map fun i => Sparse.get d w (k + i)

/-- The map with `n` values from key `src` on copied to the keys from `dst` on. -/
def Sparse.copyRun {α : Type} (m : Sparse α) (src dst n : Nat) : Sparse α :=
  let w := (m.filter fun e => src ≤ e.1 && e.1 < src + n).map fun e => (e.1 - src + dst, e.2)
  m.filter (fun e => e.1 < dst) ++ (w ++ m.filter (fun e => dst + n ≤ e.1))

/-- Two maps without a key in common, as one. -/
def Sparse.merge {α : Type} : Sparse α → Sparse α → Sparse α
  | [], ys => ys
  | x :: xs, ys => ys.takeWhile (·.1 < x.1) ++ x :: Sparse.merge xs (ys.dropWhile (·.1 < x.1))

/-- The canonical form: keys strictly rising, no listed default. -/
def Sparse.wf {α : Type} [DecidableEq α] (d : α) : Sparse α → Bool
  | [] => true
  | (_, v) :: [] => v ≠ d
  | (j, v) :: (k, w) :: r => v ≠ d && j < k && Sparse.wf d ((k, w) :: r)

end Sys2Proof
end

