-- ==== Sys2Proof/Machine/State.lean ====
section
/-! DEFINITION. The state of the package as plain data, what can stop a step, and the state after reset. -/
namespace Sys2Proof.Machine

/-- Privilege levels (R2). -/
inductive Mode where
  | user | supervisor
  deriving DecidableEq, Repr

/-- A register of a context bank, as a name (R98). -/
inductive Reg where
  | x (n : Nat) | p (n : Nat) | v (n : Nat) | t (n : Nat) | a (n : Nat)
  /-- a hold latch: 3 × slot + source (R103) -/
  | l (n : Nat)
  deriving DecidableEq, Repr

/-- A vector register: tag, body and sidecar (R98, R99). -/
structure VReg where
  tag : Fmt
  body : BitVec 2048
  side : BitVec 256
  deriving DecidableEq, Repr

/-- A tile: tag and 128 rows of 216 bytes, of which unlisted rows are zero (R98, R99). -/
structure Tile where
  tag : Fmt
  rows : Sparse (BitVec 1728)
  deriving DecidableEq, Repr

/-- An accumulator: tag, residue bound and 128 rows of 128 32-bit elements, of which unlisted rows are
zero (R98, R102). -/
structure Acc where
  tag : Fmt
  bound : Nat
  rows : Sparse (BitVec 4096)
  deriving DecidableEq, Repr

/-- A ring descriptor (R104). -/
structure Ring where
  first : Nat
  len : Nat
  head : Nat
  fill : Nat
  rsv : Nat
  deriving DecidableEq, Repr

/-- A hold latch: empty, or a copy of what was read and the file it came from (R103, R404). -/
inductive Latch where
  | empty
  | x (v : Word)
  | p (v : Word)
  | v (r : VReg)
  | tile (n : Nat)
  deriving DecidableEq, Repr

/-- A loop-stack entry (R68). -/
structure LoopEntry where
  repf : Bool
  start : BitVec 58
  last : BitVec 58
  rem : BitVec 32
  idx : BitVec 32
  deriving DecidableEq, Repr

/-- An expander slot descriptor of a context (R221). -/
structure ExpDesc where
  valid : Bool
  va : Word
  deriving DecidableEq, Repr

/-- A copy descriptor: the shadow set, and what CGO commits (R277). -/
structure CopyDesc where
  src : Word
  dst : Word
  srcf : Bool
  dstf : Bool
  cnt : List Nat
  sstr : List (BitVec 40)
  dstr : List (BitVec 40)
  run : Nat
  mode : Nat
  mpar : BitVec 16
  aux : Word
  bar : Word
  flaga : Word
  flagv : Word
  fscope : Nat
  deriving DecidableEq, Repr

/-- What a park or a long wait awaits (R56, R152, R153, R157, R158, R394). -/
inductive Await where
  /-- PARK: the event bit -/
  | event
  /-- a not-present fault: REPLAY -/
  | replay
  /-- WHWAIT: the handle leaves PENDING -/
  | handle (h : Nat)
  /-- BWAIT: the barrier at a memory key has another phase -/
  | barrier (key phase : Nat)
  /-- BWANY: one of n barriers has another phase than expected -/
  | barriers (key n : Nat) (phases : Word)
  /-- WAITA: the word at a key is (`eq`) or is not the value, or the timeout has expired -/
  | word (key : Nat) (eq : Bool) (v : Word)
  /-- QUIET -/
  | quiet
  /-- CGO: the engine's waiting position is free -/
  | swap
  /-- WHREL: the handle is no longer marked for release -/
  | release (h : Nat)
  /-- LRECV: the queue holds n bytes or is broken -/
  | link (peer queue n : Nat)
  deriving DecidableEq, Repr

/-- What a bank does (R56). -/
inductive Status where
  | idle
  | running
  | parked (why : Await)
  | resumable
  deriving DecidableEq, Repr

/-- What kind of task a bank holds (R59, R317, R363, R393). -/
inductive TaskKind where
  | task | handler | loss
  | service (kind : Nat)
  deriving DecidableEq, Repr

/-- Why a register is not readable yet (R109). -/
inductive PendWhy where
  /-- a load's data (R276) -/
  | load
  /-- an operation in slot queue M, V0 or V1 whose result the model knows -/
  | slip (slot : Nat)
  /-- an operation in a slot queue whose result it has when it issues -/
  | late (slot : Nat)
  /-- a tile load, and the ring it fills -/
  | tile (ring : Option Nat)
  /-- a matrix operation's write (R212) -/
  | matrix
  /-- a merge-buffer member's write (R224) -/
  | merge
  /-- the handle table's answer (R315) -/
  | handle
  /-- no register: ring slots filled by software that wait for the loads before them (R106) -/
  | mark (ring : Nat)
  deriving DecidableEq, Repr

/-- A register that is pending, and the number of the token that clears it. -/
structure Pend where
  reg : Reg
  why : PendWhy
  n : Nat
  /-- data marked uncorrectable is on its way to the register (R111, R260) -/
  bad : Bool
  /-- the number of the bundle that made it pending -/
  bundle : Nat := 0
  /-- the tag and bound that a write still to come will leave (R111) -/
  tag : Option (Fmt × Nat) := none
  /-- an expander slot whose load it waits for (R221) -/
  xs : Option Nat := none
  /-- the write takes place only if a predicate that is not known yet lets it (R110) -/
  unsure : Bool := false
  deriving DecidableEq, Repr

/-- What an operation that issues late read when its bundle issued (R108). -/
structure Regs where
  x : Sparse Word
  p : Sparse Word
  xbad : BitVec 64
  pbad : BitVec 128
  v : Sparse VReg
  t : Sparse Tile
  a : Sparse Acc
  ring : Sparse Ring
  latch : Sparse Latch
  rbq : List (BitVec 512)
  exp : Sparse ExpDesc
  deriving DecidableEq, Repr

/-- What an operation in a queue needs beside its registers: the format and place of its operand image, its bytes and their
mark where its own bundle has written some of them since, the expander slot that it names, the ring loads that its source
slots stand behind. -/
structure Need where
  img : Option (Fmt × List (Nat × Nat))
  rows : Option (List Byte × Bool)
  xs : Option Nat
  after : List Nat
  deriving DecidableEq, Repr

/-- What remains to do when a queued operation issues: the operation, its condition or the predicate that will give it, its
bundle, what it read, the registers whose value was not known then, and the number of the next store after it (R109, R111,
R207). -/
structure LateOp where
  instr : Instr
  cond : Word
  pred : Option Pred
  pc : Word
  regs : Regs
  wants : List Reg
  mark : Nat
  deriving DecidableEq, Repr

/-- An operation in a slot queue (R110). -/
structure QEntry where
  slot : Nat
  bundle : Nat
  /-- MWAIT: it leaves the queue once its conditions hold (R222) -/
  mwait : Bool
  /-- registers that it reads and writes -/
  reads : List Reg
  writes : List Reg
  need : Need
  late : Option LateOp
  deriving DecidableEq, Repr

/-- A committed store that has not performed yet (R437): its bytes at memory keys, the bytes marked
uncorrectable among them, its order and scope, the bytes that land together (0: all of them, R341), and
the stamp of a seq_cst store (R348). -/
structure StoreOp where
  n : Nat
  parts : List (Nat × List Byte)
  bad : Bool
  release : Bool
  scope : Nat
  unit : Nat
  stamp : Option Word
  deriving DecidableEq, Repr

/-- What a seq_cst access does at its home (R348, R349). -/
inductive ScKind where
  | load
  | store
  | atomic (op : Nat)
  deriving DecidableEq, Repr

/-- One access of a seq_cst bundle: where it goes, its width, its operands and, once it has
performed, the value it returned and whether that value was marked uncorrectable. -/
structure ScAccess where
  slot : Nat
  kind : ScKind
  key : Nat
  width : Nat
  operand : Nat
  compare : Nat
  result : Option (Nat × Bool)
  /-- the bytes that stood there before it performed -/
  old : List Byte
  deriving DecidableEq, Repr

/-- The seq_cst accesses of the bundle at a PC: their stamp, once they have one. -/
structure ScWait where
  pc : Word
  stamp : Option Word
  acc : List ScAccess
  deriving DecidableEq, Repr

/-- A load-block (R246). -/
structure LoadBlock where
  used : Bool
  va : Word
  /-- where its lines stand: runs of bytes -/
  keys : List (Nat × Nat)
  n : Nat
  filled : Bool
  broken : Bool
  deriving DecidableEq, Repr

/-- A post that is blocked on a full stage (R63, R64). -/
structure Blocked where
  job : Nat
  pipe : Nat
  stage : Nat
  since : Word
  /-- when the latest probe was sent, and whether it came back -/
  probe : Option Word
  returned : Bool
  /-- the poster has been admitted: its next issue enters the queue -/
  admitted : Bool
  deriving DecidableEq, Repr

/-- What happens to the task when its bundle commits (R149 to R152, R163). -/
inductive After where
  | go
  | yield
  | park
  | retire
  /-- CTXSW: the other bank becomes active (R165) -/
  | switch
  /-- a pre-emption that is pending lands, and one that lands on a task that PARK parks (R399) -/
  | land
  | parkLand
  deriving DecidableEq, Repr

/-- A context bank's state: the registers of R98, the sequencer of R67, the registers of R113, the
task's captured fields (R59), and what the bank waits for. -/
structure Ctx where
  /-- a number that no other task's context has, and that a save keeps (log entry 33) -/
  serial : Nat
  status : Status
  mode : Mode
  pc : Word
  /-- the loop stack, top entry first (R68) -/
  loop : List LoopEntry
  x : Sparse Word
  p : Sparse Word
  /-- bit n: x n, p n marked poisoned (R260) -/
  xbad : BitVec 64
  pbad : BitVec 128
  v : Sparse VReg
  t : Sparse Tile
  a : Sparse Acc
  ring : Sparse Ring
  /-- by 3 × slot + source (A 0, B 1, C 2) -/
  latch : Sparse Latch
  /-- random-bit queue, oldest word first, and the generator's key and counter (R128) -/
  rbq : List (BitVec 512)
  rngKey : BitVec 32
  rngCtr : BitVec 32
  wid : Word
  argp : Word
  trec : Word
  prio : Nat
  job : Nat
  asid : Nat
  cycles : Word
  widths : List Nat
  joinp : Word
  ctrl : Word
  tcause : Word
  taddr : Word
  tslot : Nat
  epc : Word
  /-- NODEC, NORES, AMASK and PMODE of ESTAT (R388) -/
  nodec : Bool
  nores : Bool
  amask : Bool
  pmode : Mode
  /-- the event bit and BWANY's rotation index (R152, R156) -/
  event : Bool
  rot : Nat
  exp : Sparse ExpDesc
  /-- the shadow set of the context, and the one set aside by a trap (R278) -/
  shadow : CopyDesc
  aside : Option CopyDesc
  kind : TaskKind
  /-- the interface that holds the task's count (R355) -/
  counted : Option Nat
  /-- the launch whose completion the task counts towards (R28) -/
  launch : Option Nat
  /-- QW raised at the counting interface (R357) -/
  qw : Bool
  blocked : Option Blocked
  /-- SIDEREAL at the first issue of a waiting bundle (R157, R158, R361) -/
  since : Option Word
  /-- the timeout of the waiting WAITA, and whether it has expired (R157) -/
  timeout : Nat
  expired : Bool
  /-- what a waiting bundle awaits, where its wait may become a long wait (R158) -/
  await : Option Await
  /-- a timer trap is pending, and the multiples of TSLICE that CYCLES has passed (R391) -/
  timer : Bool
  slices : Nat
  /-- the bundle at PC has a trap that waits until the queues are empty; a timer waits behind it (R110, R391) -/
  trapping : Bool
  /-- pre-emption: when it was requested, how many overdue notices it has had, and whether the context is held (R399 to R401) -/
  preq : Option Word
  overdue : Nat
  held : Bool
  /-- registers that are pending, operations that are queued, and the number of the next bundle (R109, R110) -/
  pend : List Pend
  queue : List QEntry
  bundle : Nat
  /-- the next token of this bank -/
  token : Nat
  stores : List StoreOp
  sc : Option ScWait
  blocks : Sparse LoadBlock
  /-- memory as the task's fetch sees it: as it stood at its placement, and the writes that a FENCE of its core has shown it
  since (R92, log entry 12) -/
  code : Sparse Byte
  /-- the loop buffer of a repeat (R88) -/
  loopBuf : List (Word × Bundle)
  /-- the bundle that ends the task's turn has committed; what becomes of the task waits until its queues are empty, as R110 says -/
  leaving : Option After
  deriving DecidableEq, Repr

/-- A packed stream as a copy works on it: code lengths, raw length and blocks (R291). -/
structure KpsStream where
  table : List Nat
  raw : Nat
  blocks : Nat
  deriving DecidableEq, Repr

/-- Bytes of a copy, each with its mark of uncorrectable data. -/
structure Run where
  data : List Byte
  marks : List Bool
  deriving DecidableEq, Repr

/-- A copy of the engine: descriptor, owner, and how far it has come (R278, R279). -/
structure Copy where
  seq : Nat
  job : Nat
  asid : Nat
  sup : Bool
  wid : Word
  bank : Nat
  /-- the context that started it -/
  ctx : Nat
  /-- the bundle of its CGO -/
  pc : Word
  desc : CopyDesc
  /-- elements done (blocks for DECODE and ENCODE, frames for DRAMLOC, 16 KiB pages for HASHCHK and for a
  flash destination) -/
  pos : Nat
  /-- bytes of the source consumed and of the destination produced (DECODE, ENCODE) -/
  inOff : Nat
  outOff : Nat
  started : Bool
  err : Bool
  /-- a fault stopped the copy, or CCAN or a kill did; `quiet` says that no barrier or flag is written -/
  stopped : Bool
  quiet : Bool
  /-- flash pages read for elements in progress (R285): element, page and whether it was uncorrectable -/
  pages : List (Nat × Nat × Bool)
  /-- flash page being committed (R285): page, its bytes and their marks -/
  program : Option (Nat × List Byte × List Bool)
  /-- the stream of a DECODE or ENCODE, once its header has been read or made -/
  stream : Option KpsStream
  /-- the unit in progress: the runs at memory keys that have yet to land, once its writes land apart, and the sectors and the ERR
  that its barrier is owed then (R341) -/
  land : Option (List (Nat × Run))
  owed : Nat × Bool
  deriving DecidableEq, Repr

/-- A core's copy engine (R278, R309, R310). -/
structure Engine where
  current : Option Copy
  waiting : Option Copy
  /-- contexts parked at a CGO that found the waiting position taken, by serial and PC, in the order of their CGOs (R309) -/
  claims : List (Nat × Word)
  nextSeq : Nat
  /-- per job: DONE and DERR -/
  done : Sparse (Nat × Bool)
  deriving DecidableEq, Repr

/-- A core's expander slot (R221). -/
structure ExpSlot where
  valid : Bool
  asid : Nat
  va : Word
  busy : Bool
  bytes : List Byte
  /-- a byte was marked uncorrectable (R260) -/
  bad : Bool
  /-- the bank whose context began the load (R222) -/
  loader : Nat
  deriving DecidableEq, Repr

/-- An LDM region entry (R247, R248). -/
structure Region where
  rva : Word
  asid : Nat
  sizem1 : Nat
  ldmbase : Nat
  err : Bool
  busy : Bool
  zfill : Bool
  valid : Bool
  /-- sectors filled and sectors dirty, by number within the region -/
  filled : Sparse Bool
  dirty : Sparse Bool
  deriving DecidableEq, Repr

/-- A TLB entry: the page it covers, the leaf it was made from and where that stands (R238, R240). -/
structure TlbEntry where
  asid : Nat
  page : Nat
  size : Nat
  entry : Word
  place : Nat
  deriving DecidableEq, Repr

/-- TLBI_VA and TLBI_CTL, and the address, ASID and size of the invalidation in progress (R241). -/
structure Tlbi where
  va : Word
  asid : Nat
  size : Nat
  busy : Bool
  goVa : Word
  goAsid : Nat
  goSize : Nat
  deriving DecidableEq, Repr

/-- A handler that waits at its target core: an arrived message, a service task or a loss handler
(R317, R318, R363, R393). -/
structure Arrived where
  kind : TaskKind
  job : Nat
  entry : Word
  payload : Payload
  x5 : Word
  x6 : Word
  x7 : Word
  x8 : Word
  wid : Word
  widths : List Nat
  prio : Nat
  /-- the interface that holds its count (R355) -/
  holder : Option Nat
  /-- entered the queue at -/
  time : Word
  deriving DecidableEq, Repr

/-- A logical core (R13): its two banks and what they share. -/
structure Core where
  b0 : Ctx
  b1 : Ctx
  /-- the active bank (R60) -/
  active : Nat
  tvec : Word
  v0u : Nat
  v1u : Nat
  vuok : Nat
  findEn : Bool
  findDist : Nat
  findConf : Nat
  engine : Engine
  exp : Sparse ExpSlot
  queue : List Arrived
  region : Sparse Region
  tlbi : Tlbi
  tlb : List TlbEntry
  /-- the stage that the latest allocation binds the core to: launch, pipeline and stage (R62) -/
  stage : Option (Nat × Nat × Nat)
  /-- the stage it is bound to while it has no idle bank (R62) -/
  bound : Option (Nat × Nat × Nat)
  /-- the core, a vector unit or an LDM bank under collimation test (R427) -/
  test : Option HwUnit
  /-- units whose errors wait until the test under way has ended (R427) -/
  errors : List HwUnit
  /-- the units that slots V0 and V1 were bound to before the test (R427) -/
  kept : Nat × Nat
  /-- banks that a collimation test holds (R427) -/
  coll : Bool × Bool
  /-- an EVT.tr record of the core is still being written (R152, R429) -/
  tracing : Bool
  /-- the latest seq_cst stamp of the core (R348) -/
  scLast : Option Word
  deriving DecidableEq, Repr

/-- A member of a merge stack (R223, R224). -/
structure Member where
  core : Nat
  bank : Nat
  job : Nat
  prio : Nat
  sup : Bool
  acc : Nat
  /-- its residue bound after the operation (R132) -/
  bound : Nat
  za : Bool
  h : Nat
  rows : Tile
  /-- the token that keeps the accumulator busy -/
  token : Nat
  joined : Word
  gone : Bool
  /-- its bundle, and where its image stands: runs of bytes -/
  pc : Word
  keys : List (Nat × Nat)
  deriving DecidableEq, Repr

/-- A merge stack (R223 to R227). -/
structure Stack where
  n : Nat
  asid : Nat
  va : Word
  bfmt : Fmt
  afmt : Fmt
  members : List Member
  /-- the hold limit when it was opened (R230) -/
  hold : Nat
  deadline : Word
  released : Option Word
  /-- its fetch has begun: where the image stands, and its bytes then (R227) -/
  begun : Option (List (Nat × Nat) × List Byte)
  /-- the B operand, once its fetch is over -/
  b : Option Tile
  core : Option Nat
  /-- a withdrawn member, which runs alone on the engine of its own core (R229) -/
  lone : Bool
  deriving DecidableEq, Repr

/-- A cluster (R13): merge buffer, hot-page tracker, pinned pages, send entries, positions. -/
structure Cluster where
  mrgDis : Bool
  mrgHold : Nat
  stk : List Stack
  nextStack : Nat
  /-- HPT_CTL, HPT_RING, HPT_HEAD, HPT_TAIL and HPT_CNT (R250, R251) -/
  hptThresh : Nat
  hptPinmib : Nat
  hptEpoch : Nat
  hptEn : Bool
  hptRing : Word
  hptHead : Nat
  hptTail : Nat
  pinFull : Nat
  propDrop : Nat
  skip : Nat
  hptCount : Sparse Nat
  hptProposed : List Nat
  hptEpochs : Nat
  /-- pinned pages, and their dirty bytes, by physical address (R252) -/
  pinned : List TlbEntry
  pinDirty : Sparse Bool
  /-- send entries in use (R316) -/
  sends : Nat
  offline : Nat
  site : Nat
  tlb : List TlbEntry
  deriving DecidableEq, Repr

/-- A compute die's collimation, ageing and temperature registers (R427 to R429). -/
structure Die where
  spares : Nat
  vuout : Nat
  lasting : Nat
  soft : Nat
  eolDays : Nat
  rodrift : Nat
  hours : Nat
  temp : Nat
  deriving DecidableEq, Repr

/-- An HBM stack's registers and free chunks (R430). -/
structure HbmStack where
  ztbase : Word
  free : List Nat
  hce : Nat
  eolDays : Nat
  hunc : Nat
  deriving DecidableEq, Repr

/-- What a flash read is for (R298, R302). -/
inductive Reader where
  | handle (h k : Nat)
  /-- an element of a core's current copy -/
  | copy (core elem : Nat)
  deriving DecidableEq, Repr

/-- A flash page read in flight (R298, R302). -/
structure FlashRead where
  n : Nat
  page : Nat
  reader : Reader
  demand : Bool
  /-- held until the relocation of the page's block ends -/
  held : Bool
  /-- the read has completed: whether its page was uncorrectable -/
  got : Option Bool
  /-- the page of a handle lands in parts: what has yet to land (R298, R341) -/
  land : Option (List (Nat × Run))
  deriving DecidableEq, Repr

/-- A flash stack (R301 to R304, R416). -/
structure FlashStack where
  spare : Nat
  badBlocks : Nat
  eraseMax : Nat
  eraseMean : Nat
  reloc : Nat
  uncorr : Nat
  eolDays : Nat
  thresh : Nat
  arm : Bool
  armPage : Nat
  /-- reads counted per erase block; the block that each run of 2,048 logical pages stands in, and the blocks of pages written
  since (0: none); the block that takes written pages, and how many it holds; blocks being relocated; blocks being erased -/
  reads : Sparse Nat
  place : Sparse Nat
  moved : Sparse Nat
  fresh : Option (Nat × Nat)
  moving : List Nat
  erasing : List Nat
  /-- logical pages whose data is uncorrectable, and those that a relocation under way has found so -/
  lost : List Nat
  failed : List Nat
  nextBlock : Nat
  deriving DecidableEq, Repr

/-- Handle states (R153, R297). -/
inductive HState where
  | free | pending | ready | error
  deriving DecidableEq, Repr

/-- A weight handle (R296, R297). -/
structure Handle where
  state : HState
  job : Nat
  asid : Nat
  first : Nat
  count : Nat
  dest : Word
  demand : Bool
  /-- pages landed, whether one was uncorrectable or met a fault, and whether it is marked for release -/
  landed : Sparse Bool
  err : Bool
  mark : Bool
  deriving DecidableEq, Repr

/-- A request on its way to the handle table; `below`: a finder request below FINDCTL.CONF (R312 to R315). -/
inductive HReqKind where
  | request (first count : Nat) (dest : Word) (demand below : Bool)
  | upgrade (h : Nat)
  deriving DecidableEq, Repr

/-- A request in flight to the handle table, and the register that awaits its answer. -/
structure HReq where
  n : Nat
  core : Nat
  bank : Nat
  job : Nat
  asid : Nat
  sup : Bool
  reg : Nat
  token : Nat
  kind : HReqKind
  deriving DecidableEq, Repr

/-- A record in the dispatcher's queues: a task, or an expansion entry (R36, R44, R50). -/
structure Rec where
  id : Nat
  job : Nat
  entry : Word
  wid : Word
  arg : Word
  joinp : Word
  touch : Word
  handles : Word
  ctrl : Word
  trec : Word
  /-- effective priority at posting and now (R50, R61), home cluster, queue number, entry time -/
  prio0 : Nat
  prio : Nat
  home : Nat
  queue : Nat
  time : Word
  /-- gated since (R58) -/
  gated : Option Word
  /-- the gating timeout has let it through -/
  through : Bool
  /-- an expansion entry: its count, once known, and the tasks produced -/
  expand : Bool
  total : Option Nat
  made : Nat
  countVA : Word
  asid : Nat
  counted : Option Nat
  launch : Option Nat
  /-- field widths of the launch that owns PIPE (R44, R173), and MAXC of the stage (R57) -/
  widths : List Nat
  maxc : Nat
  deriving DecidableEq, Repr

/-- A stage descriptor (R34). -/
structure StageDesc where
  entry : Word
  sprio : Nat
  maxc : Nat
  minc : Nat
  qbound : Nat
  deriving DecidableEq, Repr

/-- An accepted launch (R25 to R32). -/
structure Launch where
  id : Nat
  job : Nat
  hdr : Word
  asid : Nat
  widths : List Nat
  ext : List Nat
  plevel : Nat
  jmask : Nat
  pipe0 : Nat
  npipe : Nat
  joint : Word
  jbase : Word
  arg : Word
  gentry : Word
  gctrl : Word
  wbase : Word
  /-- stage descriptors by 8 × pipeline offset + stage; QBOUND 0 is undeclared -/
  stages : Sparse StageDesc
  /-- the join descriptors of the joining levels: ENTRY, ARG, TOUCH, CTRL -/
  joins : Sparse (Word × Word × Word × Word)
  /-- grid tasks posted, and how many grid tasks and join continuations have yet to retire -/
  posted : Nat
  live : Nat
  /-- join continuations posted: level and group (R33) -/
  fired : List (Nat × Nat)
  deriving DecidableEq, Repr

/-- The dispatcher (R43 to R66). -/
structure Dispatcher where
  recs : List Rec
  nextRec : Nat
  launches : List Launch
  nextLaunch : Nat
  /-- host posts in the IOD, oldest first: job and the record's 64 bytes (R47) -/
  host : List (Nat × List Byte)
  /-- stages whose one-entry probe reserve is spent: job, pipeline, stage (R64) -/
  spent : List (Nat × Nat × Nat)
  /-- share of each stage in the latest allocation: launch, pipeline, stage, cores (R62) -/
  allocated : List (Nat × Nat × Nat × Nat)
  /-- the number of the next context (log entry 33) -/
  nextCtx : Nat
  deriving DecidableEq, Repr

/-- The registers of a job slot (R422) and what the slot owns. -/
structure Job where
  active : Bool
  asid : Nat
  ceil : Nat
  en : Bool
  err : Bool
  tearing : Bool
  launchVA : Word
  ptimeout : Nat
  probeGrant : Nat
  hpostDrop : Nat
  stealDie : Nat
  tmoPlace : Nat
  ptbase : Word
  fqbase : Word
  fqsize : Word
  fqhead : BitVec 32
  fqtail : BitVec 32
  tlbi : Tlbi
  qstat : Word
  qsumI : Word
  qsumC : Word
  /-- when the latest wave's pass-1 request reached this package, for a job on many packages (R362) -/
  qreached : Word
  /-- when this package, as the root, started its latest cross-package wave (R362) -/
  xlast : Option Word
  /-- SWEEPCTL.XPERIOD as it stood then (R360), and the latest cross-package wave that this package knows of (R362) -/
  xperiod : Nat
  xwave : Option Nat
  xqctl : Word
  losslog : Word
  losshead : BitVec 32
  losstail : BitVec 32
  lossCore : Nat
  lossEntry : Word
  orlog : Word
  orhead : BitVec 16
  ortail : BitVec 16
  tslice : Nat
  kstat : Nat
  movbase : Word
  linkbase : Word
  peert : Word
  fgrant : Sparse (Word × Word)
  activeCycles : Word
  bundles : Word
  flashBytes : Word
  hbmBytes : Word
  /-- the message overflow area in arrival order: target core and message (R318) -/
  overflow : List (Nat × Arrived)
  /-- declared link queues: peer, queue, direction (true: receive) (R41) -/
  links : List (Nat × Nat × Bool)
  /-- receive streams by 16 × CHIP + queue, as the offset of the first byte in the queue's storage and the number of bytes, and
  broken queues (R366) -/
  stream : Sparse (Nat × Nat)
  broken : Sparse Bool
  deriving DecidableEq, Repr

/-- A 64-byte fault record before it is written (R244). -/
structure FaultRec where
  job : Nat
  cause : Nat
  access : Nat
  slot : Nat
  bank : Nat
  core : Nat
  sup : Bool
  async : Bool
  asid : Nat
  rop : Nat
  va : Word
  pc : Word
  wid : Word
  time : Word
  operand : Word
  detail : Word
  /-- a kind-1 notice follows the record (R393) -/
  notice : Bool
  deriving DecidableEq, Repr

/-- A non-returning reduction in flight or in the orphan log (R274, R396). -/
structure Reduction where
  n : Nat
  core : Nat
  bank : Nat
  job : Nat
  asid : Nat
  sup : Bool
  wid : Word
  pc : Word
  op : Nat
  scl : Nat
  ord : Nat
  scope : Nat
  va : Word
  operand : Word
  /-- 0: in flight; 1: performed, its acknowledgement on the way; 2: in the orphan log; 3: held, for want of room there -/
  stage : Nat
  /-- the context that issued it -/
  ctx : Nat
  /-- what its translation found, while it is held: cause, address and DETAIL; cause 0 behind another (R396) -/
  fault : Option (Nat × Word × Word)
  deriving DecidableEq, Repr

/-- INJ, CON, QW and ACT of one interface for one job (R354). -/
structure Counter where
  inj : Word
  con : Word
  qw : Nat
  act : Bool
  deriving DecidableEq, Repr

/-- A message on its way (R316, R356). -/
structure Msg where
  n : Nat
  job : Nat
  core : Nat
  bank : Nat
  /-- the context that sent it -/
  ctx : Nat
  target : Nat
  /-- a peer package, and its CHIP -/
  rem : Bool
  chip : Nat
  entry : Word
  payload : Payload
  word : Word
  sender : Word
  wid : Word
  widths : List Nat
  prio : Nat
  /-- the interface that counts it, the holders still to come, and whether its send entry is still in use -/
  holder : Nat
  route : List Nat
  entryHeld : Bool
  deriving DecidableEq, Repr

/-- A retirement notice or a handover's acknowledgement, which raises CON at an interface when it arrives (R355, R356, R438). -/
inductive NoticeKind where
  | retirement | handover
  deriving DecidableEq, Repr

/-- A notice in flight. -/
structure Notice where
  n : Nat
  kind : NoticeKind
  iface : Nat
  job : Nat
  deriving DecidableEq, Repr

/-- A local wave in progress (R358): when it started, the job slots that it serves, the pass under way and the interfaces that
it has read, and the sums of both passes by job. -/
structure Wave where
  start : Word
  jobs : List Nat
  second : Bool
  read : List Nat
  sums1 : List (Word × Word × Bool)
  sums2 : List (Word × Word × Bool)
  deriving DecidableEq, Repr

/-- A cross-package wave on this package (R362). -/
structure XWave where
  job : Nat
  wave : Nat
  second : Bool
  start : Word
  /-- when the pass-1 request reached this package, and when the requests of the running pass were sent -/
  reached : Word
  asked : Word
  /-- the sums of this package's own pass so far, until the package has replied, and the interfaces read -/
  own : Option (Word × Word × Bool)
  read : List Nat
  pass1 : Option (Word × Word)
  replies : List WaveReply
  failed : Bool
  deriving DecidableEq, Repr

/-- The fabric (R354 to R362). -/
structure Fabric where
  /-- by 64 × interface + job -/
  counters : Sparse Counter
  msgs : List Msg
  notices : List Notice
  nextItem : Nat
  wave : Option Wave
  lastWave : Option Word
  /-- SWEEPCTL.PERIOD as it stood when that wave started (R360) -/
  period : Nat
  xwaves : List XWave
  nextXwave : Nat
  reductions : List Reduction
  /-- EVT events on their way: core, bank, job and whether any job may be named (R152) -/
  events : List (Nat × Nat × Nat × Nat × Bool)
  deriving DecidableEq, Repr

/-- A control message of a cross-package wave (R362). -/
inductive Control where
  | request (second : Bool)
  | reply (r : WaveReply)
  | verdict (quiet : Bool) (start : Word)
  deriving DecidableEq, Repr

/-- What a packet carries (R365). -/
inductive Cargo where
  | message (m : Msg)
  /-- bytes of an LSEND, which has a number and a length -/
  | link (job core bank peer queue : Nat) (data : List Byte) (lsend total : Nat) (wid : Word) (prio : Nat) (widths : List Nat)
  | control (job peer wave : Nat) (what : Control)
  deriving DecidableEq, Repr

/-- A packet without acknowledgement: its transmissions so far, when the latest one left, and the
UERETRY and UERTO that it was sent under (R365, R433). -/
structure Packet where
  n : Nat
  sent : Nat
  last : Word
  retry : Nat
  rto : Nat
  cargo : Cargo
  /-- the endpoint that it goes to and the job slot there that it names, as the sender's peer table gives them (R316, R317, R422) -/
  dest : BitVec 128 × Nat
  deriving DecidableEq, Repr

/-- The Ultra Ethernet port (R365, R433). -/
structure Port where
  addr0 : Word
  addr1 : Word
  retry : Nat
  rto : Nat
  packets : List Packet
  nextPacket : Nat
  /-- the link came up at stage 2 (R425) -/
  up : Bool
  deriving DecidableEq, Repr

/-- The management mailbox (R434). -/
structure Mailbox where
  busy : Bool
  result : Nat
  /-- the command in progress and the RESULT that its completion shows -/
  cmd : Nat
  outcome : Nat
  buffer : Sparse Byte
  /-- the firmware image being appended, and a verified one that waits for power-good -/
  update : List Byte
  staged : Option (List Byte)
  /-- the running image; none: the one that the package came with -/
  running : Option (List Byte)
  deriving DecidableEq, Repr

/-- Package registers (R423, R425, R428, R429, R431). -/
structure Pkg where
  stage : Nat
  busy : Bool
  err : Nat
  /-- a thermal trip has stopped the dies (R426) -/
  tripped : Bool
  fdtbase : Word
  sweepEn : Bool
  xperiod : Nat
  period : Nat
  svctl : Nat
  vfslots : Sparse (Nat × Nat)
  w4base : Word
  trcbase : Word
  trcEn : Bool
  trcSz : Nat
  trchead : Word
  trcdrop : Word
  energy : Word
  power : Nat
  pcap : Nat
  /-- N: the cycles of 16 in which a core may issue (R426) -/
  allow : Nat
  /-- readings of the last ms in a row above 3,300 W (R426) -/
  hot : Nat
  throttle : Word
  hposts : Word
  msgs : Word
  /-- MSI-X vectors signalled, latest first (R431) -/
  msix : List Nat
  /-- what the last host read returned, the model's own (log entry 5) -/
  hostRet : List Byte
  deriving DecidableEq, Repr

/-- What a trap is about (R387, R388). -/
structure TrapInfo where
  cause : Nat
  slot : Nat
  addr : Word
  detail : BitVec 32
  /-- the block-table entry's address, for a TLDK or TSTK -/
  bte : Word
  async : Bool
  nores : Bool
  epc : Word
  deriving DecidableEq, Repr

/-- What the slot being issued decided (log entry 10). -/
inductive Verdict where
  /-- the bundle goes on -/
  | commit
  /-- the bundle waits: nothing commits; what it awaits, where the wait may become long (R158) -/
  | hold (w : Option Await)
  /-- the bundle parks its context: nothing commits -/
  | park (why : Await)
  /-- the bundle traps; a translation fault has a record (R242) -/
  | trap (i : TrapInfo) (r : Option FaultRec)
  /-- a not-present fault: its record is written and the context parks (R394) -/
  | absent (r : FaultRec)
  deriving DecidableEq, Repr

/-- The bundle being issued: whose it is, the slot and the condition of the operation under
way, the registers and memory as they stood before it, and what has been decided (log entry 10). -/
structure Issue where
  core : Nat
  bank : Nat
  slot : Nat
  /-- the slot's operation, the predicate register of its header, and its condition: the predicate, complemented when N = 1 (R71) -/
  instr : Instr
  pred : Pred
  guard : List Reg
  cond : Word
  pre : Ctx
  mem0 : Sparse Byte
  bad0 : Sparse Bool
  /-- FINDCTL.EN and CONF before it -/
  find : Bool × Nat
  /-- a control transfer's target (R85) -/
  npc : Option Word
  /-- a loop entry pushed at commit (R84, R88) -/
  push : Option LoopEntry
  after : After
  verdict : Verdict
  /-- what the slot's operation needs to leave its queue -/
  need : Need
  /-- an operation that leaves its queue: the number of the next store after it -/
  late : Option Nat
  /-- it has joined the merge buffer (R223) -/
  joined : Bool
  /-- an L-slot access has been served, which the W slot's follows (R273) -/
  served : Bool
  /-- the operation's predicate is not known yet (R110) -/
  unsure : Bool
  /-- the bundle has an operation in an anchored slot, and a queued one that may yet meet poison (R111) -/
  anchored : Bool
  risky : Bool
  deriving DecidableEq, Repr

/-- What the package keeps of a task that CSAVE saved, beside its image (R56, R165, R355; log entry 33). -/
structure Saved where
  serial : Nat
  job : Nat
  wid : Word
  trec : Word
  joinp : Word
  ctrl : Word
  kind : TaskKind
  counted : Option Nat
  launch : Option Nat
  deriving DecidableEq, Repr

/-- A host's access to BAR0 or BAR2 through a PCIe function: the physical one, or a virtual one; a write carries its bytes, and a
job's creation its link table (R46, R421, R431). -/
structure HostAccess where
  vf : Option Nat
  bar : Nat
  off : Nat
  data : Option (List Byte)
  table : List Byte
  deriving DecidableEq, Repr

/-- A step that the agenda asks for: an event with its operands, the next bundle of a core, or a host's access. -/
inductive Action where
  | event (i : Instr) (arg : EventArg)
  | issue (core : Nat)
  | host (a : HostAccess)
  deriving DecidableEq, Repr

/-- The package. -/
structure State where
  /-- the model's own: what comes next, whose turn it is among the cores, whether the agents
  beside the cores come next, and the counter of free values (log entries 3 and 4) -/
  agenda : List Action
  turn : Nat
  others : Bool
  free : Nat
  issue : Issue
  arg : EventArg
  /-- SIDEREAL (R18) -/
  sidereal : Word
  /-- HBM, LDM and flash bytes, and the bytes marked uncorrectable (R233, R260) -/
  mem : List Host.Cell
  bad : Sparse Bool
  /-- who wrote a byte last: a core's number plus 1, 2,000 the host, 0 another agent of the package (R92, R339) -/
  origin : Sparse Nat
  cores : Sparse Core
  clusters : Sparse Cluster
  dies : Sparse Die
  hbm : Sparse HbmStack
  flash : Sparse FlashStack
  reads : List FlashRead
  nextRead : Nat
  handles : Sparse Handle
  hreqs : List HReq
  disp : Dispatcher
  jobs : Sparse Job
  saved : List Saved
  /-- fault records that wait in the IOD or at the unit that made them (R245) -/
  faults : List FaultRec
  fabric : Fabric
  port : Port
  mbox : Mailbox
  pkg : Pkg
  deriving DecidableEq, Repr

/-- Why a step stops with a fault.  The spec gives every access to an address that does not exist a
trap, a record or a value, so no step of this machine stops: the type has no constructor. -/
inductive Fault where
  deriving DecidableEq, Repr

/-- Why a step is refused. -/
inductive Refusal where
  /-- an arm of the dispatch whose instruction has no meaning yet; raised by exec; safe -/
  | notModelled (mnemonic : String)
  deriving DecidableEq, Repr

/-- A vector register after placement (R59, R98). -/
def VReg.zero : VReg := ⟨.poison, 0, 0⟩

/-- A tile after placement (R59). -/
def Tile.zero : Tile := ⟨.poison, []⟩

/-- An accumulator after placement (R59). -/
def Acc.zero : Acc := ⟨.poison, 0, []⟩

/-- No ring (R104). -/
def Ring.none : Ring := ⟨0, 0, 0, 0, 0⟩

/-- No expander descriptor (R59, R221). -/
def ExpDesc.none : ExpDesc := ⟨false, 0⟩

/-- The cleared shadow set (R307). -/
def CopyDesc.clear : CopyDesc where
  src := 0
  dst := 0
  srcf := false
  dstf := false
  cnt := [0, 1, 1, 1, 1, 1]
  sstr := [0, 0, 0, 0, 0, 0]
  dstr := [0, 0, 0, 0, 0, 0]
  run := 256
  mode := 0
  mpar := 0
  aux := 0
  bar := 0
  flaga := 0
  flagv := 0
  fscope := 0

/-- No load-block. -/
def LoadBlock.none : LoadBlock := ⟨false, 0, [], 0, false, false⟩

/-- An idle bank (log entry 1: the values before a placement are the model's). -/
def Ctx.idle : Ctx where
  serial := 0
  status := .idle
  mode := .user
  pc := 0
  loop := []
  x := []
  p := []
  xbad := 0
  pbad := 0
  v := []
  t := []
  a := []
  ring := []
  latch := []
  rbq := []
  rngKey := 0
  rngCtr := 0
  wid := 0
  argp := 0
  trec := 0
  prio := 0
  job := 0
  asid := 0
  cycles := 0
  widths := [0, 0, 0, 0, 0, 0]
  joinp := 0
  ctrl := 0
  tcause := 0
  taddr := 0
  tslot := 0
  epc := 0
  nodec := false
  nores := false
  amask := false
  pmode := .user
  event := false
  rot := 0
  exp := []
  shadow := .clear
  aside := none
  kind := .task
  counted := none
  launch := none
  qw := false
  blocked := none
  since := none
  timeout := 0
  expired := false
  await := none
  timer := false
  slices := 0
  trapping := false
  preq := none
  overdue := 0
  held := false
  pend := []
  queue := []
  bundle := 0
  token := 0
  stores := []
  sc := none
  blocks := []
  code := []
  loopBuf := []
  leaving := none

/-- A bank that its task leaves: the tokens it has used stay used. -/
def Ctx.freed (k : Ctx) : Ctx := { Ctx.idle with token := k.token }

/-- An engine after stage 1 (R309). -/
def Engine.idle : Engine := ⟨none, none, [], 1, []⟩

/-- An empty expander slot. -/
def ExpSlot.none : ExpSlot := ⟨false, 0, 0, false, [], false, 0⟩

/-- An operation that needs its registers only. -/
def Need.none : Need := ⟨Option.none, Option.none, Option.none, []⟩

/-- A region entry after stage 1 (R248). -/
def Region.none : Region := ⟨0, 0, 0, 0, false, false, false, false, [], []⟩

/-- TLBI registers after stage 1 (R241). -/
def Tlbi.idle : Tlbi := ⟨0, 0, 0, false, 0, 0, 0⟩

/-- A core after stage 1: SLOTMAP of R90, FINDCTL of R300. -/
def Core.idle : Core where
  b0 := .idle
  b1 := .idle
  active := 0
  tvec := 0
  v0u := 0
  v1u := 1
  vuok := 3
  findEn := false
  findDist := 2
  findConf := 0
  engine := .idle
  exp := []
  queue := []
  region := []
  tlbi := .idle
  tlb := []
  stage := none
  bound := none
  test := none
  errors := []
  kept := (0, 1)
  coll := (false, false)
  tracing := false
  scLast := none

/-- A cluster after stage 1: MRGCTL of R230, HPT_CTL of R251, COLMAP of R427; the zeros of HPT_RING, HPT_HEAD and HPT_TAIL are the
model's (log entry 1). -/
def Cluster.idle : Cluster where
  mrgDis := false
  mrgHold := 96
  stk := []
  nextStack := 0
  hptThresh := 0x100
  hptPinmib := 2
  hptEpoch := 4
  hptEn := false
  hptRing := 0
  hptHead := 0
  hptTail := 0
  pinFull := 0
  propDrop := 0
  skip := 0
  hptCount := []
  hptProposed := []
  hptEpochs := 0
  pinned := []
  pinDirty := []
  sends := 0
  offline := 0
  site := 0x76543210
  tlb := []

/-- A die's registers at power-good (R427, R429; TEMP: log entry 1). -/
def Die.idle : Die := ⟨0, 0, 0, 0, 0xFFFF, 0, 0, 0⟩

/-- An HBM stack's registers (log entry 1). -/
def HbmStack.idle : HbmStack := ⟨0, [], 0, 0xFFFF, 0⟩

/-- A flash stack before its health scan (R304; log entry 1). -/
def FlashStack.idle : FlashStack where
  spare := 0
  badBlocks := 0
  eraseMax := 0
  eraseMean := 0
  reloc := 0
  uncorr := 0
  eolDays := 0xFFFF
  thresh := 1000000
  arm := false
  armPage := 0
  reads := []
  place := []
  moved := []
  fresh := none
  moving := []
  erasing := []
  lost := []
  failed := []
  nextBlock := 29803

/-- A FREE handle (R296). -/
def Handle.free : Handle := ⟨.free, 0, 0, 0, 0, 0, false, [], false, false⟩

/-- A job slot as creation leaves its registers (R65, R422, R424), not active; the zeros of LAUNCH, PTBASE, FQSIZE, XQCTL, TSLICE,
LINKBASE and PEERT are the model's (log entry 1). -/
def Job.idle : Job where
  active := false
  asid := 0
  ceil := 0
  en := false
  err := false
  tearing := false
  launchVA := 0
  ptimeout := 0x5000
  probeGrant := 0
  hpostDrop := 0
  stealDie := 0
  tmoPlace := 0
  ptbase := 0
  fqbase := 0
  fqsize := 0
  fqhead := 0
  fqtail := 0
  tlbi := .idle
  qstat := 0
  qsumI := 0
  qsumC := 0
  qreached := 0
  xlast := none
  xperiod := 20
  xwave := none
  xqctl := 0
  losslog := 0
  losshead := 0
  losstail := 0
  lossCore := 0
  lossEntry := 0
  orlog := 0
  orhead := 0
  ortail := 0
  tslice := 0
  kstat := 0
  movbase := 0
  linkbase := 0
  peert := 0
  fgrant := []
  activeCycles := 0
  bundles := 0
  flashBytes := 0
  hbmBytes := 0
  overflow := []
  links := []
  stream := []
  broken := []

/-- Counters of an interface at job creation (R354). -/
def Counter.zero : Counter := ⟨0, 0, 0, false⟩

/-- The scratch of a bundle before any slot. -/
def Issue.none : Issue where
  core := 0
  bank := 0
  slot := 0
  instr := .nop
  pred := ⟨false, 0⟩
  guard := []
  cond := -1
  pre := .idle
  mem0 := []
  bad0 := []
  find := (false, 0)
  npc := Option.none
  push := Option.none
  after := .go
  verdict := .commit
  need := .none
  late := Option.none
  joined := false
  served := false
  unsure := false
  anchored := false
  risky := false

/-- The package at power-good (R425): start-up stage 7 with BUSY set, nothing running, no byte of
memory listed.  The zeros of FDTBASE, VFSLOTS and of the other registers for which the spec gives no value are the model's (log
entry 1). -/
def State.reset : State where
  agenda := []
  turn := 0
  others := false
  free := 0
  issue := .none
  arg := .none
  sidereal := 0
  mem := []
  bad := []
  origin := []
  cores := []
  clusters := []
  dies := []
  hbm := []
  flash := []
  reads := []
  nextRead := 0
  handles := []
  hreqs := []
  disp := ⟨[], 0, [], 0, [], [], [], 1⟩
  jobs := []
  saved := []
  faults := []
  fabric := ⟨[], [], [], 0, none, none, 0x1000, [], 0, [], []⟩
  port := ⟨0, 0, 7, 8, [], 0, false⟩
  mbox := ⟨false, 0, 0, 0, [], [], none, none⟩
  pkg := {
    stage := 7
    busy := true
    err := 0
    tripped := false
    fdtbase := 0
    sweepEn := true
    xperiod := 20
    period := 0x1000
    svctl := 0
    vfslots := []
    w4base := 0
    trcbase := 0
    trcEn := false
    trcSz := 0
    trchead := 0
    trcdrop := 0
    energy := 0
    power := 0
    pcap := 3000
    allow := 16
    hot := 0
    throttle := 0
    hposts := 0
    msgs := 0
    msix := []
    hostRet := [] }

end Sys2Proof.Machine
end

