-- ==== Sys2Proof/Machine/MatrixArith.lean ====
section
/-! DEFINITION. Arithmetic of the matrix engine and the latent expander on rows of tiles: classes, K-blocks, groups, row scales and absorbed rows (R130 to R137, R207 to R210, R218). -/
namespace Sys2Proof.Machine

/-- Element i of a tile row (R99). -/
def rowElem (f : Fmt) (row : BitVec 1728) (i : Nat) : Nat := row.toNat / 2 ^ (f.width * i) % 2 ^ f.width

/-- The elements of a row's K-block (R134). -/
def rowElems (f : Fmt) (row : BitVec 1728) : List Nat := (List.range f.kblock).map (rowElem f row)

/-- Sidecar byte k of a tile row (R99). -/
def rowSide (row : BitVec 1728) (k : Nat) : Nat := row.toNat / 2 ^ (8 * (192 + k)) % 256

/-- A tile row from its elements and sidecar bytes. -/
def packRow (w : Nat) (es side : List Nat) : BitVec 1728 :=
  BitVec.ofNat 1728 (es.foldr (fun e acc => e % 2 ^ w + acc * 2 ^ w) 0 % 2 ^ 1536 +
    2 ^ 1536 * side.foldr (fun b acc => b % 256 + 256 * acc) 0)

/-- A tile row from 216 bytes. -/
def rowOfBytes (bs : List Byte) : BitVec 1728 := BitVec.ofNat 1728 (ofLeBytes bs)

/-- The sidecar of a row with the bytes that a format does not use cleared (R99). -/
def trimRow (f : Fmt) (row : BitVec 1728) : BitVec 1728 :=
  row &&& BitVec.ofNat 1728 (2 ^ (1536 + 8 * f.sidecarUsed f.kblock) - 1)

/-- A row with the unused bits of its elements' containers zero (R119). -/
def cleanRow (f : Fmt) (row : BitVec 1728) : BitVec 1728 :=
  if f = .e8m10 ∨ f.clean 0xFF = 0x3F then
    BitVec.ofNat 1728 (((rowElems f row).foldr (fun e acc => f.clean e + acc * 2 ^ f.width) 0) + row.toNat / 2 ^ 1536 * 2 ^ 1536)
  else row

/-- A row of a tile. -/
def Tile.row (t : Tile) (i : Nat) : BitVec 1728 := t.rows.get 0 i

/-- A tile from its 128 rows. -/
def tileOfRows (f : Fmt) (rows : List (BitVec 1728)) : Tile := ⟨f, Sparse.run 0 0 rows⟩

/-- Element j of an accumulator row. -/
def accElem (row : BitVec 4096) (j : Nat) : Nat := row.toNat / 2 ^ (32 * j) % 2 ^ 32

/-- An accumulator row from its 128 elements. -/
def packAcc (es : List Nat) : BitVec 4096 := BitVec.ofNat 4096 (es.foldr (fun e acc => e % 2 ^ 32 + acc * 2 ^ 32) 0)

/-- A row of an accumulator. -/
def Acc.row (a : Acc) (i : Nat) : BitVec 4096 := a.rows.get 0 i

/-- Rows 0 to h − 1 of an accumulator changed element by element; the others stay. -/
def Acc.mapRows (a : Acc) (h : Nat) (f : Nat → Nat → Nat → Nat) : Acc :=
  { a with rows := Sparse.run 0 0 ((List.range 128).map fun i =>
      if i < h then packAcc ((List.range 128).map fun j => f i j (accElem (a.row i) j)) else a.row i) }

/-- Rows of HR (R76). -/
def rowsOf (hr : BitVec 3) : Nat := 8 * 2 ^ hr.toNat

/-- The arithmetic classes of R134. -/
inductive MClass where
  | float | integer | residue
  deriving DecidableEq, Repr

/-- The accumulator tag of a class (R134). -/
def MClass.accTag : MClass → Fmt
  | .float => .acc32f
  | .integer => .acc32i
  | .residue => .resa

/-- Integer operands without block scales (R134). -/
def isPlainInt : Fmt → Bool
  | .int8 | .uint8 | .int4 | .uint4 | .int2 | .int8row | .int4row => true
  | _ => false

/-- Residue operands. -/
def isResidue (f : Fmt) : Bool := f == .res8 || f == .res4

/-- The class of an accepted operand pair; none where R208 refuses it. -/
def pairClass (a b : Fmt) : Option MClass :=
  if !a.inMatrix || !b.inMatrix || a.kblock ≠ b.kblock then none
  else if isResidue a || isResidue b then (if a = b then some .residue else none)
  else if isPlainInt a && isPlainInt b then some .integer
  else some .float

/-- What one residue operation adds to the bound: K × max|a| × max|b| (R132). -/
def residueCharge (f : Fmt) : Nat := if f = .res8 then 192 * 128 * 128 else 384 * 8 * 8

/-- The residue bound's limit (R132). -/
def residueLimit : Nat := 8257919

/-- The elements of one side of a K-block, cut into groups with their block scales (R135). -/
abbrev KRow := List (List Num × Num)

/-- A list cut into runs of n, at most `fuel`. -/
def runsOf {α : Type} (n : Nat) : Nat → List α → List (List α)
  | 0, _ => []
  | fuel + 1, l => if l.isEmpty then [] else l.take n :: runsOf n fuel (l.drop n)

/-- The size of a format's scale blocks; 32 where it has none (R135). -/
def blockOf (f : Fmt) : Nat :=
  match f.scale with
  | .e8m0 n => n
  | .q16 => 16
  | _ => 32

/-- A row decoded into groups of g elements. -/
def decodeRow (f : Fmt) (g : Nat) (row : BitVec 1728) : KRow :=
  (runsOf g 48 ((rowElems f row).map (Num.ofElem f))).mapIdx fun k xs => (xs, scaleValue f false (rowSide row) (g * k))

/-- The exact sum of products of a group; an exact zero is +0 (R135, log entry 22). -/
def groupSum (a b : List Num) : Num := (List.zipWith Num.mul a b).foldl (Num.add .rne) Num.zero

/-- One element of the floating class (R135). -/
def combineFloat (a b : KRow) (acc : Nat) : Nat :=
  (a.zip b).foldl (fun acc p =>
    let t := Num.toF32 .rne (Num.mul (Num.mul (groupSum p.1.1 p.2.1) p.1.2) p.2.2)
    Num.toF32 .rne (Num.add .rne (Num.ofF32 acc) (Num.ofF32 t))) acc

/-- The integers of a row. -/
def intRow (f : Fmt) (row : BitVec 1728) : List Int :=
  match f.intBits with
  | some (w, sgn) => (rowElems f row).map (Num.intOfBits w sgn)
  | none => []

/-- The exact sum of products of two integer rows. -/
def intDot (a b : List Int) : Int := (List.zipWith (· * ·) a b).foldl (· + ·) 0

/-- One element of the integer class (R136). -/
def combineInt (a b : List Int) (acc : Nat) : Nat := Num.bitsOfInt 32 (acc + intDot a b)

/-- One element of the residue class: channel sums (R130, R136). -/
def combineRes (a b : List Int) (acc : Nat) : Nat := resAdd acc (resOfInt (intDot a b))

/-- The operand rows of one side, decoded for a class. -/
inductive Side where
  | nums (rows : List KRow)
  | ints (rows : List (List Int))

/-- Rows decoded for a class, in groups of g. -/
def decodeSide (c : MClass) (f : Fmt) (g : Nat) (rows : List (BitVec 1728)) : Side :=
  match c with
  | .float => .nums (rows.map (decodeRow f g))
  | _ => .ints (rows.map (intRow f))

/-- One element combined with row i of one side against row j of the other (R135, R136). -/
def combine (c : MClass) (a b : Side) (i j acc : Nat) : Nat :=
  match a, b with
  | .nums x, .nums y => combineFloat (x.getD i []) (y.getD j []) acc
  | .ints x, .ints y => if c = .residue then combineRes (x.getD i []) (y.getD j []) acc else combineInt (x.getD i []) (y.getD j []) acc
  | _, _ => acc

/-- Group size of a pair (R135). -/
def groupOf (a b : Fmt) : Nat := min (blockOf a) (blockOf b)

/-- Rows 0 to h − 1 of A against the 128 rows of B, into an accumulator (R209). -/
def accumulate (c : MClass) (fa fb : Fmt) (h : Nat) (ra rb : Tile) (acc : Acc) : Acc :=
  let g := groupOf fa fb
  let a := decodeSide c fa g ((List.range h).map ra.row)
  let b := decodeSide c fb g ((List.range 128).map rb.row)
  acc.mapRows h fun i j e => combine c a b i j e

/-- A row of ones in a format, for TRED (R215). -/
def onesSide (c : MClass) (f : Fmt) (g : Nat) : Side :=
  match c with
  | .float => .nums [(runsOf g 48 (List.replicate f.kblock Num.one)).map fun xs => (xs, Num.one)]
  | _ => .ints [List.replicate f.kblock 1]

/-- The row sums of A added into one column (R215). -/
def rowSums (c : MClass) (f : Fmt) (h col : Nat) (ra : Tile) (acc : Acc) : Acc :=
  let g := blockOf f
  let a := decodeSide c f g ((List.range h).map ra.row)
  let b := onesSide c f g
  acc.mapRows h fun i j e => if j = col then combine c a b i 0 e else e

/-- The row scale of row i: sidecar bytes 0 to 3 under a ·ROW format or LAT8, 1 otherwise (R218). -/
def rowScale (f : Fmt) (row : BitVec 1728) : Num :=
  if f.scale = .row then Num.ofF32 (row.toNat / 2 ^ 1536 % 2 ^ 32) else Num.one

/-- Row scales applied to an accumulator's element (R218). -/
def scaled (asInt : Bool) (sa sb : Num) (e : Nat) : Nat :=
  Num.toF32 .rne (Num.mul (Num.mul (if asInt then Num.ofInt (Num.intOfBits 32 true e) else Num.ofF32 e) sa) sb)

/-! The latent expander (R210) -/

/-- W(c, d): byte 128 c + d of a projection slot, as E4M3. -/
def projElem (w : List Byte) (c d : Nat) : Num := Num.unpack ⟨4, 3, 7, .e4m3⟩ (w.getD (128 * c + d) 0).toNat

/-- The 192 elements of an A row with its row scale applied (R210). -/
def queryRow (f : Fmt) (row : BitVec 1728) : List Num :=
  (rowElems f row).map fun e => Num.mul (Num.ofElem f e) (rowScale f row)

/-- Element c of the absorbed row before its conversion (R210). -/
def absorbedElem (w : List Byte) (qf : List Num) (c : Nat) : Num :=
  if c < 896 then
    Num.ofF32 (Num.toF32 .rne (groupSum (qf.take 128) ((List.range 128).map (projElem w c))))
  else qf.getD (128 + (c - 896)) Num.zero

/-- K-block kb of the absorbed row, converted to E4M3·B32 in RNE (R121, R210). -/
def absorbedRow (w : List Byte) (f : Fmt) (kb : Nat) (row : BitVec 1728) : BitVec 1728 :=
  let qf := queryRow f row
  let xs := (List.range 192).map fun i => absorbedElem w qf (192 * kb + i)
  let scales := (runsOf 32 6 xs).map (chooseE8M0 .e4m3b32)
  let es := xs.mapIdx fun i x => scaleDown .e4m3b32 .rne true x (Num.ofE8M0 (scales.getD (i / 32) 0))
  packRow 8 es scales

end Sys2Proof.Machine
end

