-- ==== Sys2Proof/Config.lean ====
section
/-! DEFINITION. The values that the spec leaves open, as constants without a body: nothing can be proved about which value each one is. -/
namespace Sys2Proof

/-- A value the spec leaves open, fresh at each use: applied to the state's counter of free values (log entry 3). -/
opaque Config.freeWord : Nat → Word

/-- A number the spec leaves open (log entry 3). -/
opaque Config.freeNat : Nat → Nat

/-- A choice the spec leaves open (log entry 3). -/
opaque Config.freeBool : Nat → Bool

/-- Which of the events that are due comes next, by its place in their list; used modulo their number (log entry 4). -/
opaque Config.nextEvent : Nat → Nat

/-- How far a die's SIDEREAL counter stands ahead of the package's; used modulo 3 (R18, log entry 7). -/
opaque Config.dieSkew : Nat → Nat

/-- The code lengths that ENCODE's histogram pass chooses for 256 symbol counts (R295, log entry 40). -/
opaque Config.codeLengths : List Nat → List Nat

/-- Where the fields of a trace record stand in its 32 bytes (R152, R429; log entry 41): SIDEREAL, core,
bank, job, WID[31:0], IMM32 and x[A]. -/
opaque Config.traceRecord : Word → Nat → Nat → Nat → BitVec 32 → BitVec 32 → Word → BitVec 256

/-- The package's endpoint address, set by firmware (R433). -/
opaque Config.endpoint : BitVec 128

/-- The identity key's public half and its certificate chain (R434). -/
opaque Config.identityKey : BitVec 512
opaque Config.certificates : List Byte

/-- The 256 bytes of an attestation report: nonce, firmware digest, security version, BOOTSTAGE, SHA-256
of every COLMAP, PKGID (R434; where each stands and how wide it is, is not given). -/
opaque Config.attestReport : List Byte → BitVec 256 → Nat → Word → List Byte → Word → BitVec 2048

/-- Where the reserved collimation area begins (R427). -/
opaque Config.collimationArea : Nat

/-- The signature that the identity key makes over a digest (R434). -/
opaque Config.sign : BitVec 256 → BitVec 512

/-- The digest, security version and signature (r, s) of the firmware that the package came with, the fused rollback counter, and Kohorn's
public key (R434). -/
opaque Config.firmwareDigest : BitVec 256
opaque Config.firmwareVersion : Nat
opaque Config.firmwareSignature : BitVec 512
opaque Config.rollback : Nat
opaque Config.kohornKey : BitVec 512

/-- How many bytes of the buffer are the next part of a firmware image, after the parts before (R434; the command names no length). -/
opaque Config.imageLength : List Byte → List Byte → Nat

/-- How an image gives its signed part, security version and signature (R434; the image's layout is not given): digest of the signed
part, version, r and s. -/
opaque Config.parseImage : List Byte → Option (BitVec 256 × Nat × BitVec 256 × BitVec 256)

end Sys2Proof
end

