-- ==== Sys2Proof/Machine/Ops.lean ====
section
/-! DEFINITION. Named operations on the state: units, registers, counters, fault records, notices, kill, taking a trap and returning from one. -/
namespace Sys2Proof.Machine

/-- The number n at most 2^w − 1 that bits [lo+w−1 : lo] of a word hold. -/
def bits (v : Word) (lo w : Nat) : Nat := v.toNat / 2 ^ lo % 2 ^ w

/-- A word from a number, modulo 2^64. -/
def word (n : Nat) : Word := BitVec.ofNat 64 n

/-- A bit as a number. -/
def bit (b : Bool) : Nat := if b then 1 else 0

/-- sext(v, w) of the low w bits of a number, to 64 bits. -/
def sextWord (w n : Nat) : Word := BitVec.ofInt 64 (Num.intOfBits w true n)

/-! Units -/

/-- A core. -/
def State.core (s : State) (c : Nat) : Core := s.cores.get .idle c

/-- A core replaced. -/
def State.setCore (s : State) (c : Nat) (k : Core) : State := { s with cores := s.cores.set .idle c k }

/-- A core changed. -/
def State.modCore (s : State) (c : Nat) (f : Core → Core) : State := s.setCore c (f (s.core c))

/-- A bank of a core (R98). -/
def Core.bank (k : Core) (b : Nat) : Ctx := if b = 0 then k.b0 else k.b1

/-- A bank replaced. -/
def Core.setBank (k : Core) (b : Nat) (x : Ctx) : Core := if b = 0 then { k with b0 := x } else { k with b1 := x }

/-- A context bank. -/
def State.ctx (s : State) (c b : Nat) : Ctx := (s.core c).bank b

/-- A context bank replaced. -/
def State.setCtx (s : State) (c b : Nat) (x : Ctx) : State := s.modCore c (·.setBank b x)

/-- A context bank changed. -/
def State.modCtx (s : State) (c b : Nat) (f : Ctx → Ctx) : State := s.setCtx c b (f (s.ctx c b))

/-- The context whose bundle is issuing, as it stands now. -/
def State.cur (s : State) : Ctx := s.ctx s.issue.core s.issue.bank

/-- The context whose bundle is issuing, changed. -/
def State.modCur (s : State) (f : Ctx → Ctx) : State := s.modCtx s.issue.core s.issue.bank f

/-- A cluster (R13). -/
def State.cluster (s : State) (d : Nat) : Cluster := s.clusters.get .idle d

/-- A cluster changed. -/
def State.modCluster (s : State) (d : Nat) (f : Cluster → Cluster) : State :=
  { s with clusters := s.clusters.set .idle d (f (s.cluster d)) }

/-- A die. -/
def State.die (s : State) (e : Nat) : Die := s.dies.get .idle e

/-- A die changed. -/
def State.modDie (s : State) (e : Nat) (f : Die → Die) : State := { s with dies := s.dies.set .idle e (f (s.die e)) }

/-- An HBM stack. -/
def State.hbmStack (s : State) (h : Nat) : HbmStack := s.hbm.get .idle h

/-- An HBM stack changed. -/
def State.modHbm (s : State) (h : Nat) (f : HbmStack → HbmStack) : State :=
  { s with hbm := s.hbm.set .idle h (f (s.hbmStack h)) }

/-- A flash stack. -/
def State.flashStack (s : State) (n : Nat) : FlashStack := s.flash.get .idle n

/-- A flash stack changed. -/
def State.modFlash (s : State) (n : Nat) (f : FlashStack → FlashStack) : State :=
  { s with flash := s.flash.set .idle n (f (s.flashStack n)) }

/-- A weight handle (R296). -/
def State.handle (s : State) (h : Nat) : Handle := s.handles.get .free h

/-- A weight handle replaced. -/
def State.setHandle (s : State) (h : Nat) (x : Handle) : State := { s with handles := s.handles.set .free h x }

/-- A job slot. -/
def State.job (s : State) (j : Nat) : Job := s.jobs.get .idle j

/-- A job slot changed. -/
def State.modJob (s : State) (j : Nat) (f : Job → Job) : State := { s with jobs := s.jobs.set .idle j (f (s.job j)) }

/-- The next free value's number, and the state that has used it (log entry 3). -/
def State.useFree (s : State) : Nat × State := (s.free, { s with free := s.free + 1 })

/-- The cluster of a core (R13). -/
def clusterOf (c : Nat) : Nat := c / 8

/-- The die of a core (R13). -/
def dieOf (c : Nat) : Nat := c / 64

/-- The finder-capable cores (R15). -/
def finderCapable (c : Nat) : Bool := c % 64 < 2

/-- A core is offline (R14). -/
def State.offline (s : State) (c : Nat) : Bool := (s.cluster (clusterOf c)).offline.testBit (c % 8)

/-- SIDEREAL as a die shows it (R18, log entry 7). -/
def State.siderealOn (s : State) (die : Nat) : Word :=
  if s.sidereal = 0 then 0 else s.sidereal + word (Config.dieSkew die % 3)

/-- An MSI-X vector signalled (R431). -/
def State.signal (s : State) (v : Nat) : State := { s with pkg := { s.pkg with msix := v :: s.pkg.msix } }

/-- The context holds a task (R56). -/
def Ctx.occupied (k : Ctx) : Bool := k.status ≠ .idle

/-- The bank of a context. -/
def State.bankOf (s : State) (serial : Nat) : Option (Nat × Nat) :=
  s.cores.findSome? fun e =>
    if e.2.b0.occupied && e.2.b0.serial = serial then some (e.1, 0)
    else if e.2.b1.occupied && e.2.b1.serial = serial then some (e.1, 1) else none

/-! Registers -/

/-- x n; x0 reads zero (R98). -/
def Ctx.getX (k : Ctx) (n : Nat) : Word := if n = 0 then 0 else k.x.get 0 n

/-- x n written, its poison mark cleared; a write to x0 is discarded (R77, R260). -/
def Ctx.setX (k : Ctx) (n : Nat) (v : Word) : Ctx :=
  if n = 0 then k else { k with x := k.x.set 0 n v, xbad := k.xbad &&& ~~~((1 : BitVec 64) <<< n) }

/-- x n marked poisoned (R260). -/
def Ctx.spoilX (k : Ctx) (n : Nat) : Ctx := if n = 0 then k else { k with xbad := k.xbad ||| ((1 : BitVec 64) <<< n) }

/-- p n; p0 reads all ones (R98). -/
def Ctx.getP (k : Ctx) (n : Nat) : Word := if n = 0 then -1 else k.p.get 0 n

/-- p n written, its poison mark cleared; a write to p0 is discarded (R77, R260). -/
def Ctx.setP (k : Ctx) (n : Nat) (v : Word) : Ctx :=
  if n = 0 then k else { k with p := k.p.set 0 n v, pbad := k.pbad &&& ~~~((1 : BitVec 128) <<< n) }

/-- p n marked poisoned (R260). -/
def Ctx.spoilP (k : Ctx) (n : Nat) : Ctx := if n = 0 then k else { k with pbad := k.pbad ||| ((1 : BitVec 128) <<< n) }

/-- v n. -/
def Ctx.getV (k : Ctx) (n : Nat) : VReg := k.v.get .zero n

/-- v n written. -/
def Ctx.setV (k : Ctx) (n : Nat) (r : VReg) : Ctx := { k with v := k.v.set .zero n r }

/-- t n. -/
def Ctx.getT (k : Ctx) (n : Nat) : Tile := k.t.get .zero n

/-- t n written. -/
def Ctx.setT (k : Ctx) (n : Nat) (r : Tile) : Ctx := { k with t := k.t.set .zero n r }

/-- a n. -/
def Ctx.getA (k : Ctx) (n : Nat) : Acc := k.a.get .zero n

/-- a n written. -/
def Ctx.setA (k : Ctx) (n : Nat) (r : Acc) : Ctx := { k with a := k.a.set .zero n r }

/-- Ring n. -/
def Ctx.getRing (k : Ctx) (n : Nat) : Ring := k.ring.get .none n

/-- Ring n written. -/
def Ctx.setRing (k : Ctx) (n : Nat) (r : Ring) : Ctx := { k with ring := k.ring.set .none n r }

/-- A hold latch, by slot and source (R103). -/
def Ctx.getLatch (k : Ctx) (slot src : Nat) : Latch := k.latch.get .empty (3 * slot + src)

/-- A hold latch written. -/
def Ctx.setLatch (k : Ctx) (slot src : Nat) (l : Latch) : Ctx :=
  { k with latch := k.latch.set .empty (3 * slot + src) l }

/-- A register becomes pending under a token without a change of its value; x0 and p0 never do (R109). -/
def Ctx.pendOn (k : Ctx) (r : Reg) (why : PendWhy) (tok : Nat) (bad : Bool := false) (tag : Option (Fmt × Nat) := none)
    (xs : Option Nat := none) (unsure : Bool := false) : Ctx :=
  if r = .x 0 ∨ r = .p 0 then k else { k with pend := k.pend ++ [⟨r, why, tok, bad, k.bundle, tag, xs, unsure⟩] }

/-- x n is written and stays pending under a token; `bad` says that the data arrives poisoned (R109, R260). -/
def Ctx.landX (k : Ctx) (n : Nat) (v : Word) (bad : Bool) (tok : Nat) : Ctx := (k.setX n v).pendOn (.x n) .load tok bad

/-- p n is written and stays pending under a token (R109, R260). -/
def Ctx.landP (k : Ctx) (n : Nat) (v : Word) (bad : Bool) (tok : Nat) : Ctx := (k.setP n v).pendOn (.p n) .load tok bad

/-- A register's poison arrives: an x or p register is marked, any other takes tag POISON (R260). -/
def Ctx.spoil (k : Ctx) : Reg → Ctx
  | .x n => k.spoilX n
  | .p n => k.spoilP n
  | .v n => k.setV n { k.getV n with tag := .poison }
  | .t n => k.setT n { k.getT n with tag := .poison }
  | .a n => k.setA n { k.getA n with tag := .poison }
  | .l _ => k

/-- The data of a pending register arrives: it is pending no longer (R109, R111). -/
def Ctx.arrive (k : Ctx) (hit : Pend → Bool) : Ctx :=
  (k.pend.filter fun e => hit e && e.bad).foldl (fun k e => k.spoil e.reg) { k with pend := k.pend.filter fun e => !hit e }

/-- The register of another context, whole. -/
def Ctx.copyReg (k src : Ctx) : Reg → Ctx
  | .x n => if src.xbad.getLsbD n then (k.setX n (src.getX n)).spoilX n else k.setX n (src.getX n)
  | .p n => if src.pbad.getLsbD n then (k.setP n (src.getP n)).spoilP n else k.setP n (src.getP n)
  | .v n => k.setV n (src.getV n)
  | .t n => k.setT n (src.getT n)
  | .a n => k.setA n (src.getA n)
  | .l n => { k with latch := k.latch.set .empty n (src.latch.get .empty n) }

/-- The registers of a context as they stand (R108). -/
def Ctx.regs (k : Ctx) : Regs := ⟨k.x, k.p, k.xbad, k.pbad, k.v, k.t, k.a, k.ring, k.latch, k.rbq, k.exp⟩

/-- A context with registers as they stood at another time. -/
def Regs.onto (r : Regs) (k : Ctx) : Ctx :=
  { k with x := r.x, p := r.p, xbad := r.xbad, pbad := r.pbad, v := r.v, t := r.t, a := r.a, ring := r.ring, latch := r.latch
           rbq := r.rbq, exp := r.exp }

/-- The tag and the bound of a register (R100, R102). -/
def Ctx.regTag (k : Ctx) : Reg → Option (Fmt × Nat)
  | .v n => some ((k.getV n).tag, 0)
  | .t n => some ((k.getT n).tag, 0)
  | .a n => some ((k.getA n).tag, (k.getA n).bound)
  | _ => none

/-- A register with the tag and bound that a write still to come will leave. -/
def Pend.foresee (k : Ctx) (e : Pend) : Ctx :=
  match e.tag, e.reg with
  | some (g, _), .v n => k.setV n { k.getV n with tag := g }
  | some (g, _), .t n => k.setT n { k.getT n with tag := g }
  | some (g, b), .a n => k.setA n { k.getA n with tag := g, bound := b }
  | _, _ => k

/-- The context as the checks of its next bundle find it: tags and bounds stand in program order (R111). -/
def Ctx.seen (k : Ctx) : Ctx := k.pend.foldl Pend.foresee k

/-- One more token used. -/
def Ctx.useToken (k : Ctx) : Ctx := { k with token := k.token + 1 }

/-- A register is pending for a reason that the model keeps open: its value is not known yet (R109). -/
def PendWhy.unknown : PendWhy → Bool
  | .merge | .handle | .late _ => true
  | _ => false

/-! Fabric counters (R354, R355) -/

/-- The number of the Ultra Ethernet port's interface, and of the host interface. -/
def portIface : Nat := 48
def hostIface : Nat := 49

/-- An interface's counters for a job. -/
def State.counter (s : State) (iface job : Nat) : Counter := s.fabric.counters.get .zero (64 * iface + job)

/-- Counters changed, with ACT set in the same action (R354). -/
def State.count (s : State) (iface job : Nat) (f : Counter → Counter) : State :=
  { s with fabric := { s.fabric with
      counters := s.fabric.counters.set .zero (64 * iface + job) { f (s.counter iface job) with act := true } } }

/-- INJ + 1 (R355). -/
def State.inject (s : State) (iface job : Nat) : State := s.count iface job fun c => { c with inj := c.inj + 1 }

/-- CON + 1 (R355). -/
def State.consume (s : State) (iface job : Nat) : State := s.count iface job fun c => { c with con := c.con + 1 }

/-- A notice sets out for an interface (R355, R438). -/
def State.sendNotice (s : State) (kind : NoticeKind) (iface job : Nat) : State :=
  { s with fabric := { s.fabric with
      notices := s.fabric.notices ++ [⟨s.fabric.nextItem, kind, iface, job⟩]
      nextItem := s.fabric.nextItem + 1 } }

/-! Fault records and notices (R244, R245, R393) -/

/-- A fault record waits to be written; records of one job keep their order (R245). -/
def State.report (s : State) (r : FaultRec) : State := { s with faults := s.faults ++ [r] }

/-- A fault record about a context (R244). -/
def faultOf (s : State) (c b : Nat) (cause access slot : Nat) (va detail : Word) : FaultRec :=
  let k := s.ctx c b
  { job := k.job, cause := cause, access := access, slot := slot, bank := b, core := c
    sup := k.mode = .supervisor, async := false, asid := k.asid, rop := 0, va := va, pc := k.pc
    wid := k.wid, time := s.sidereal, operand := 0, detail := detail, notice := false }

/-- A fault record that no bundle raised (PC 0). -/
def faultBare (s : State) (job cause access : Nat) (va : Word) : FaultRec :=
  { job := job, cause := cause, access := access, slot := 0, bank := 0, core := 0
    sup := false, async := false, asid := (s.job job).asid, rop := 0, va := va, pc := 0
    wid := 0, time := s.sidereal, operand := 0, detail := 0, notice := false }

/-- A service task joins its target core's queue (R393). -/
def State.service (s : State) (kind job core : Nat) (x4 x5 : Word) : State :=
  if (s.job job).active && (s.job job).kstat = 0 then
    s.modCore core fun k => { k with queue := k.queue ++
      [{ kind := .service kind, job := job, entry := 0, payload := .words (word kind) x4, x5 := x5, x6 := 0
         x7 := 0, x8 := 0, wid := 0, widths := [0, 0, 0, 0, 0, 0], prio := 3, holder := none, time := s.sidereal }] }
  else s

/-- The word that names a context in notices: core, bank, job (R393). -/
def contextWord (c b job : Nat) : Word := word (c + 256 * b + 65536 * job)

/-! Where memory stands: keys (R231 to R234, R301) -/

/-- The key of a byte of a core's LDM. -/
def ldmKey (core off : Nat) : Nat := 2 ^ 52 + core * 2 ^ 21 + off

/-- The key of a byte of flash, by flash logical address. -/
def flashKey (fla : Nat) : Nat := 2 ^ 56 + fla

/-- The key of a byte of a core's control window. -/
def ctlKey (core off : Nat) : Nat := 2 ^ 57 + core * 4096 + off

/-- A key of a control window. -/
def isCtl (key : Nat) : Bool := 2 ^ 57 ≤ key && key < 2 ^ 57 + 2 ^ 20

/-- A key of an LDM. -/
def isLdm (key : Nat) : Bool := 2 ^ 52 ≤ key && key < 2 ^ 52 + 2 ^ 29

/-- A key of the LDM of one core. -/
def isLdmOf (core key : Nat) : Bool := isLdm key && (key - 2 ^ 52) / 2 ^ 21 = core

/-- A key of an LDM whose core is offline (R14). -/
def State.deadLdm (s : State) (key : Nat) : Bool := isLdm key && s.offline ((key - 2 ^ 52) / 2 ^ 21)

/-- A populated physical address (R234). -/
def populated (pa : Nat) : Bool := pa / 2 ^ 36 < 8 && pa % 2 ^ 36 < 64000000000

/-- The key of a byte of a page pinned in a slice. -/
def pinKey (cluster pa : Nat) : Nat := 2 ^ 60 + cluster * 2 ^ 52 + pa

/-- The canonical form of memory: addresses strictly rising, no entry equal to what an unlisted address
reads as. -/
def Memory.wf (m : List Host.Cell) : Bool := Sparse.wf 0 m

/-- Bytes as they stand in memory from a key on; an offline LDM reads all ones (R14). -/
def State.bytesIn (s : State) (m : Sparse Byte) (key n : Nat) : List Byte :=
  if s.deadLdm key then List.replicate n 0xFF else Sparse.slice 0 m key n

/-- Bytes of memory. -/
def State.bytesAt (s : State) (key n : Nat) : List Byte := s.bytesIn s.mem key n

/-- A little-endian number of n bytes of memory. -/
def State.numAt (s : State) (key n : Nat) : Nat := ofLeBytes (s.bytesAt key n)

/-- One of the bytes is marked uncorrectable (R260). -/
def anyBad (m : Sparse Bool) (key n : Nat) : Bool := m.any fun e => key ≤ e.1 && e.1 < key + n && e.2

/-- A load-block broken by another agent's write of a byte it holds (R246): `n` bytes at `key`. -/
def LoadBlock.strike (key n : Nat) (b : LoadBlock) : LoadBlock :=
  if b.used && b.keys.any (fun p => key < p.1 + p.2 && p.1 < key + n) then { b with broken := true } else b

/-- The load-blocks of a bank broken by a write. -/
def Ctx.strike (key n : Nat) (k : Ctx) : Ctx := { k with blocks := k.blocks.map fun e => (e.1, e.2.strike key n) }

/-- The load-blocks of a core broken by a write. -/
def Core.strike (key n : Nat) (k : Core) : Core := { k with b0 := k.b0.strike key n, b1 := k.b1.strike key n }

/-! Who writes: a number below 256 is a core whose store goes through its own L1D; 256 an agent that is no core; the numbers
below name a context whose access performs outside its L1D (R237, R349), and a core's copy engine (R338, R339). -/

/-- A context whose access performs at a slice, a base die or an LDM. -/
def homeWriter (core bank : Nat) : Nat := 512 + 2 * core + bank

/-- The copy engine of a core. -/
def engineWriter (core : Nat) : Nat := 1024 + core

/-- The host. -/
def hostWriter : Nat := 257

/-- What a writer leaves in State.origin: its core, plus 1; 2,000 for the host; 0 for another agent of the package. -/
def writerCore (w : Nat) : Nat :=
  if w < 256 then w + 1
  else if w = hostWriter then 2000
  else if 512 ≤ w && w < 1024 then (w - 512) / 2 + 1
  else if 1024 ≤ w then w - 1024 + 1
  else 0

/-- A writer is an agent of a scope about a core (R339). -/
def inScope (core scope origin : Nat) : Bool :=
  match scope with
  | 0 => origin = core + 1
  | 1 => origin ≠ 0 && clusterOf (origin - 1) = clusterOf core
  | 2 => origin ≠ 0 && dieOf (origin - 1) = dieOf core
  | 3 => origin ≠ 2000
  | _ => true

/-- The load-blocks that a write breaks on one core: none where the core's own L1D takes it, the other bank's where a context's
access performs outside it (R246). -/
def Core.struckBy (writer c key n : Nat) (k : Core) : Core :=
  if writer = c then k
  else if writer = homeWriter c 0 then { k with b1 := k.b1.strike key n }
  else if writer = homeWriter c 1 then { k with b0 := k.b0.strike key n }
  else k.strike key n

/-- The load-blocks that a write breaks (R246). -/
def State.strike (s : State) (writer key n : Nat) : State :=
  { s with cores := s.cores.map fun e => (e.1, e.2.struckBy writer e.1 key n) }

/-- Dirty marks of a pinned page (R252). -/
def State.soilPinned (s : State) (key n : Nat) : State :=
  if key < 2 ^ 60 then s
  else s.modCluster ((key - 2 ^ 60) / 2 ^ 52) fun cl =>
    { cl with pinDirty := Sparse.splice false cl.pinDirty ((key - 2 ^ 60) % 2 ^ 52) (List.replicate n true) }

/-- Bytes written to memory by an agent, as they perform: marks of uncorrectable data in them are
cleared or, for uncorrectable data, set; an offline LDM ignores them (R14, R260). -/
def State.putBytes (s : State) (writer key : Nat) (data : List Byte) (spoil : Bool := false) : State :=
  if s.deadLdm key then s
  else
    (({ s with mem := Sparse.splice 0 s.mem key data
               bad := Sparse.splice false s.bad key (List.replicate data.length spoil)
               origin := Sparse.splice 0 s.origin key (List.replicate data.length (writerCore writer)) }).strike
      writer key data.length).soilPinned key data.length

/-- Several runs of bytes written. -/
def State.putParts (s : State) (writer : Nat) (parts : List (Nat × List Byte)) (spoil : Bool := false) : State :=
  parts.foldl (fun s p => s.putBytes writer p.1 p.2 spoil) s

/-- The bytes of a number written. -/
def State.putNum (s : State) (writer key n v : Nat) : State := s.putBytes writer key (leBytes n v)

/-- Memory as the fetch of a core's tasks sees it changed as bytes move to another place (R92, R247, R252). -/
def Core.moveCode (f : Sparse Byte → Sparse Byte) (k : Core) : Core :=
  { k with b0 := { k.b0 with code := f k.b0.code }, b1 := { k.b1 with code := f k.b1.code } }

/-- Memory as every task's fetch sees it changed. -/
def State.moveCode (s : State) (f : Sparse Byte → Sparse Byte) : State :=
  { s with cores := s.cores.map fun e => (e.1, e.2.moveCode f) }

/-- Every committed store of a bank performs, in order (R437). -/
def State.flush (s : State) (c b : Nat) : State :=
  ((s.ctx c b).stores.foldl (fun s st => s.putParts c st.parts st.bad) s).modCtx c b fun k => { k with stores := [] }

/-- Memory as a context's own loads find it: its committed stores that have not performed yet come
first (R340). -/
def overlay (m : Sparse Byte) (st : List StoreOp) : Sparse Byte :=
  st.foldl (fun m o => o.parts.foldl (fun m p => Sparse.splice 0 m p.1 p.2) m) m

/-- Marks of uncorrectable data as a context's own loads find them. -/
def overlayBad (m : Sparse Bool) (st : List StoreOp) : Sparse Bool :=
  st.foldl (fun m o => o.parts.foldl (fun m p => Sparse.splice false m p.1 (List.replicate p.2.length o.bad)) m) m

/-! Kill (R406, R407) -/

/-- A bank released: nothing of its task is left (R149, R407). -/
def State.release (s : State) (c b : Nat) : State := s.modCtx c b Ctx.freed

/-- A stack released at a cycle, or when its deadline has fallen due before (R225). -/
def Stack.release (now : Word) (st : Stack) : Stack :=
  if st.released.isSome then st else { st with released := some (if st.deadline < now then st.deadline else now) }

/-- A stack whose deadline has fallen due is released with that cycle (R225). -/
def Stack.releaseDue (now : Word) (st : Stack) : Stack := if st.deadline ≤ now then st.release now else st

/-- An unreleased stack without some of its members: it is released (R225, R229; log entry 127). -/
def Stack.without (gone : Member → Bool) (now : Word) (st : Stack) : Stack :=
  if st.members.any gone then { st with members := st.members.filter fun m => !gone m }.release now else st

/-- A job's members leave the merge stacks: rows in unreleased stacks are removed, which releases them; released ones will
not be written (R225, R229). -/
def killStacks (j : Nat) (now : Word) (cl : Cluster) : Cluster :=
  let drop (m : Member) : Member := if m.job = j then { m with gone := true } else m
  let part (st : Stack) : Stack :=
    if st.released.isSome then { st with members := st.members.map drop } else st.without (fun m => m.job = j) now
  { cl with stk := (cl.stk.map (part ∘ Stack.releaseDue now)).filter fun st => !st.members.isEmpty }

/-- A copy stopped without barrier or flag, if it is the job's (R407 step 3). -/
def killCopy (j : Nat) (q : Copy) : Copy :=
  if q.job = j then { q with stopped := true, quiet := true } else q

/-- What a kill does on one core: banks released, waiting handlers and service tasks dropped, copies
stopped (R407). -/
def killCore (j : Nat) (k : Core) : Core :=
  { k with
    b0 := if k.b0.occupied && k.b0.job = j then k.b0.freed else k.b0
    b1 := if k.b1.occupied && k.b1.job = j then k.b1.freed else k.b1
    queue := k.queue.filter fun a => a.job ≠ j
    engine := { k.engine with
      current := k.engine.current.map (killCopy j)
      waiting := match k.engine.waiting with
        | some q => if q.job = j then none else some q
        | none => none } }

/-- A task no longer waits in QUIET: QW falls again (R357). -/
def State.dropQw (s : State) (c b : Nat) : State :=
  let k := s.ctx c b
  match k.qw, k.counted with
  | true, some i => (s.count i k.job fun n => { n with qw := n.qw - 1 }).modCtx c b fun k => { k with qw := false }
  | _, _ => s

/-- The banks that a job's tasks occupy. -/
def State.banksOf (s : State) (job : Nat) : List (Nat × Nat) :=
  (s.cores.flatMap fun e => [(e.1, 0), (e.1, 1)]).filter fun p => (s.ctx p.1 p.2).occupied && (s.ctx p.1 p.2).job = job

/-- Steps 1 to 4 of the kill (R407), for a live job that is not being killed (R406); a killed task no longer waits in QUIET (R357). -/
def State.startKill (s : State) (j : Nat) : State :=
  if !(s.job j).active || (s.job j).kstat ≠ 0 then s
  else
    let s := (s.banksOf j).foldl (fun s p => s.dropQw p.1 p.2) s
    let s := ((List.range 256).filter fun c => !(s.core c).b0.stores.isEmpty || !(s.core c).b1.stores.isEmpty).foldl
      (fun s c =>
        let s := if (s.ctx c 0).job = j then s.flush c 0 else s
        if (s.ctx c 1).job = j then s.flush c 1 else s) s
    let s := s.modJob j fun q => { q with kstat := 1, overflow := [] }
    { s with
      disp := { s.disp with
        recs := s.disp.recs.filter fun r => r.job ≠ j
        launches := s.disp.launches.filter fun l => l.job ≠ j
        host := s.disp.host.filter fun e => e.1 ≠ j }
      hreqs := s.hreqs.filter fun r => r.job ≠ j
      saved := s.saved.filter fun r => r.job ≠ j
      cores := s.cores.map fun e => (e.1, killCore j e.2)
      clusters := s.clusters.map fun e => (e.1, killStacks j s.sidereal e.2) }

/-! Traps (R386 to R392) -/

/-- An operation leaves its queue: the registers that it writes are no longer pending for that reason; a tile or
accumulator stays busy until the matrix engine has written it, or until its merge stack is split (R109, R212, R224). -/
def Pend.issued (joined : Bool) (slot bundle : Nat) (e : Pend) : List Pend :=
  if (e.why = .slip slot || e.why = .late slot) && e.n = bundle then
    if slot = 4 then (match e.reg with
      | .t _ => [{ e with why := .matrix, tag := none }]
      | .a _ => [if joined then { e with why := .merge } else { e with why := .matrix, tag := none }]
      | _ => [])
    else []
  else [e]

/-- A queued operation has issued (R110). -/
def Ctx.leaveQueue (k : Ctx) (e : QEntry) (joined : Bool := false) : Ctx :=
  { k with queue := k.queue.erase e, pend := k.pend.flatMap (Pend.issued joined e.slot e.bundle) }

/-- The operations left in the queues of a bank whose task they no longer serve are gone (R387, R392). -/
def Ctx.dropQueues (k : Ctx) : Ctx :=
  { k with queue := [], pend := k.pend.flatMap fun e => match e.why with
      | .slip _ | .late _ => []
      | _ => [e] }

/-- A task that leaves its bank's issue; a repeat's bundles are fetched again on resumption (R89, R110). -/
def Ctx.suspend (k : Ctx) (st : Status) : Ctx := { k with status := st, loopBuf := [] }

/-- A merge-buffer member of a bank. -/
def Member.of (m : Member) (c b : Nat) : Bool := m.core = c && m.bank = b

/-- The members of a bank leave the unreleased stacks, which releases them; each then runs alone (R225, R229; log entry 127). -/
def withdrawStacks (c b : Nat) (now : Word) (cl : Cluster) : Cluster :=
  let stk := cl.stk.map (Stack.releaseDue now)
  let lone := stk.flatMap fun st => if st.released.isNone then (st.members.filter (·.of c b)).map fun m => (st, m) else []
  let stay := (stk.map fun st => if st.released.isNone then st.without (·.of c b) now else st).filter fun st => !st.members.isEmpty
  { cl with
    stk := stay ++ lone.zipIdx.map fun e =>
      { e.1.1 with n := cl.nextStack + e.2, members := [e.1.2], released := some now, lone := true }
    nextStack := cl.nextStack + lone.length }

/-- The bank's members of unreleased stacks are withdrawn (R229, R387, R405). -/
def State.withdraw (s : State) (c b : Nat) : State := s.modCluster (clusterOf c) (withdrawStacks c b s.sidereal)

/-- The bank has a member in a released stack, which is awaited (R229). -/
def State.splitOut (s : State) (c b : Nat) : Bool :=
  (s.cluster (clusterOf c)).stk.any fun st => st.released.isSome && !st.lone && st.members.any (·.of c b)

/-- A trap, a save or a switch of the bank waits until its queues are empty and its released members are split (R110,
R229, R387). -/
def State.drained (s : State) (c b : Nat) : Bool := (s.ctx c b).queue.isEmpty && !s.splitOut c b

/-- The bank may be switched away from: its queues are empty, and no answer of the handle table is on its way (R110, R323). -/
def Ctx.mayLeave (k : Ctx) : Bool := k.queue.isEmpty && !(k.pend.any (·.why = .handle))

/-- The vector offset of a cause (R386). -/
def vectorOffset (cause : Nat) : Nat :=
  if cause = 0x13 ∨ cause = 0x14 then 0x40 else if cause = 0x40 then 0x80 else 0

/-- The bytes of a trap frame: x56 to x63, BTE, zeros (R387). -/
def frameBytes (k : Ctx) (bte : Word) : List Byte :=
  ((List.range 8).flatMap fun i => leBytes 8 (k.getX (56 + i)).toNat) ++ leBytes 8 bte.toNat ++ List.replicate 56 0

/-- The trapping context at the first bundle of its handler (R387, R388, R278); a wait that the trap ends starts again after
the return (log entry 118). -/
def Ctx.entered (k : Ctx) (tvec : Word) (i : TrapInfo) : Ctx :=
  { k.dropQueues with
    tcause := i.detail.zeroExtend 64 <<< 32 ||| word (256 * bit i.async + i.cause)
    taddr := i.addr
    tslot := i.slot
    epc := i.epc
    pmode := k.mode
    amask := true
    nodec := false
    nores := i.nores
    mode := .supervisor
    pc := (tvec >>> 12 <<< 12) + word (vectorOffset i.cause)
    aside := some k.shadow
    shadow := .clear
    since := none
    await := none
    expired := false
    trapping := false
    blocked := none
    sc := none
    leaving := none
    loopBuf := [] }

/-- A synchronous cause in supervisor mode: the record of R390, and the kill of the job. -/
def State.doubleTrap (s : State) (c b : Nat) (i : TrapInfo) (first : Nat) : State :=
  let k := s.ctx c b
  (s.report { faultOf s c b 0x2D 0 i.slot i.addr (word (i.cause * 2 ^ 56 + first)) with pc := i.epc }).startKill k.job

/-- Taking a trap in a bank (R387); a synchronous cause in supervisor mode is a double trap (R390). -/
def State.takeTrap (s : State) (c b : Nat) (i : TrapInfo) : State :=
  let k := s.ctx c b
  if k.mode = .supervisor && !i.async then s.doubleTrap c b i (bits k.tcause 0 8)
  else
    let s := (s.withdraw c b).dropQw c b
    let s := { s with mem := Sparse.splice 0 s.mem (ctlKey c (0x400 + 128 * b)) (frameBytes k i.bte) }
    s.setCtx c b ((s.ctx c b).entered (s.core c).tvec i)

/-- The registers and memory as they stood before the bundle: the bundle commits nothing (R83). -/
def State.undo (s : State) : State :=
  { s with mem := s.issue.mem0, bad := s.issue.bad0 }.setCtx s.issue.core s.issue.bank s.issue.pre

/-- A trap of the bundle, with the record that a translation fault leaves (R242, R387). -/
def State.trapAs (s : State) (i : TrapInfo) (r : Option FaultRec) : State :=
  let s1 :=
    match r with
    | some f => if (s.ctx s.issue.core s.issue.bank).mode = Mode.supervisor then s else s.report f
    | none => s
  s1.takeTrap s.issue.core s.issue.bank i

/-- An operation of the bundle traps: the bundle commits nothing and the trap is taken (R83, R387). -/
def State.raiseAs (s : State) (i : TrapInfo) (r : Option FaultRec) : State :=
  { s.undo.trapAs i r with issue := { s.issue with verdict := .trap i r } }

/-- A resumable trap of the slot's operation. -/
def State.raise (s : State) (cause : Nat) (addr : Word) (detail : BitVec 32 := 0) (bte : Word := 0) : State :=
  s.raiseAs ⟨cause, s.issue.slot, addr, detail, bte, false, false, s.issue.pre.pc⟩ none

/-- Late poison: the trap is not resumable (R111). -/
def State.raiseLate (s : State) : State :=
  s.raiseAs ⟨0x10, s.issue.slot, 0, 0, 0, false, true, s.issue.pre.pc⟩ none

/-- The bundle waits: nothing commits (R110). -/
def State.holdFor (s : State) (w : Option Await) : State :=
  { s.undo with issue := { s.issue with verdict := .hold w } }

/-- The bundle parks its context: nothing commits (R153). -/
def State.parkFor (s : State) (w : Await) : State :=
  { s.undo.modCur (·.suspend (.parked w)) with
    issue := { s.issue with verdict := .park w } }

/-- A not-present fault: its record is written and the context parks (R394); in supervisor mode a
double trap (R390). -/
def State.absentAs (s : State) (r : FaultRec) : State :=
  let c := s.issue.core
  let b := s.issue.bank
  if (s.ctx c b).mode = Mode.supervisor then
    s.takeTrap c b ⟨4, r.slot, r.va, 0, 0, false, false, (s.ctx c b).pc⟩
  else (s.report r).modCtx c b (·.suspend (.parked .replay))

/-- A translation fault of the bundle (R242): `access` is the ACCESS type of R244, `bte` the
block-table entry of R387. -/
def State.raiseFault (s : State) (cause access : Nat) (va detail : Word) (bte : Word := 0) : State :=
  let s1 := s.undo
  let r := faultOf s1 s.issue.core s.issue.bank cause access s.issue.slot va detail
  if cause = 4 then { s1.absentAs r with issue := { s.issue with verdict := .absent r } }
  else s.raiseAs ⟨cause, s.issue.slot, va, 0, bte, false, false, s.issue.pre.pc⟩ (some r)

/-- The return from a trap (R163, R392): the mode of ESTAT, EPC, and the shadow set that the trap set
aside (R278); timers are no longer held (R391, log entry 14). -/
def Ctx.returned (k : Ctx) : Ctx :=
  { k with
    mode := k.pmode
    pc := k.epc
    amask := false
    shadow := k.aside.getD k.shadow
    aside := none
    loopBuf := [] }

end Sys2Proof.Machine
end

