-- ==== Sys2Proof/Machine/Memory.lean ====
section
/-! DEFINITION. Where an access goes: address windows, page tables, TLBs, LDM regions, pinned pages, the hot-page tracker and the control window (R231 to R252, R400). -/
namespace Sys2Proof.Machine

/-! Page-table entries (R236) -/

/-- Fields of an entry. -/
def pteV (e : Word) : Bool := e.getLsbD 0
def pteW (e : Word) : Bool := e.getLsbD 1
def pteX (e : Word) : Bool := e.getLsbD 2
def pteU (e : Word) : Bool := e.getLsbD 3
def pteHome (e : Word) : Nat := bits e 4 2
def pteS (e : Word) : Bool := e.getLsbD 6
def pteP (e : Word) : Bool := e.getLsbD 9
def pteK (e : Word) : Bool := e.getLsbD 10
def pteZ (e : Word) : Bool := e.getLsbD 11
def pteSz (e : Word) : Nat := bits e 12 2
def pteFrame (e : Word) : Nat := bits e 14 38
def pteHidx (e : Word) : Nat := bits e 52 8

/-- An entry without its A and D bits. -/
def pteBare (e : Word) : Word := e &&& ~~~0x180#64

/-- A leaf entry is invalid at its level (R236). -/
def leafInvalid (e : Word) (level : Nat) : Bool :=
  bits e 60 4 ≠ 0 || pteSz e = 3 || (pteSz e = 2 && level ≠ 3) || (pteSz e = 1 && level ≠ 4) ||
  (pteK e && pteSz e ≠ 0) || (pteHome e < 2 && 32 ≤ pteHidx e) || (pteHome e = 3 && pteHidx e ≠ 0)

/-- DETAIL of a fault record: the entry as read, its bits [57:56] carrying the level less 1 (R244). -/
def entryDetail (e : Word) (level : Nat) : Word :=
  (e &&& ~~~(0x0300000000000000#64)) ||| word ((level - 1) * 2 ^ 56)

/-- What an access is, as far as translation and its checks go. -/
structure XReq where
  write : Bool := false
  fetch : Bool := false
  /-- the page must be a KV page (R268, R269) -/
  kv : Bool := false
  /-- the page's HOME must be 00 (R246) -/
  line : Bool := false
  /-- the page must be homed on this core (R247) -/
  homed : Bool := false
  /-- a DECODE or ENCODE copy (R254) -/
  packed : Bool := false
  /-- an atomic or a seq_cst access, which performs at the page's slice (R237, R349) -/
  atomic : Bool := false
  deriving DecidableEq, Repr

/-- Who makes an access: the core whose windows and TLB it uses (256 for the IOD, which has neither),
the job's tables, the mode, and whether the core's LDM regions serve it (R247: a copy engine is not
served by them). -/
structure Agent where
  core : Nat
  asid : Nat
  job : Nat
  sup : Bool
  regions : Bool
  deriving DecidableEq, Repr

/-- The agent that a context is. -/
def Ctx.agent (k : Ctx) (c : Nat) : Agent := ⟨c, k.asid, k.job, k.mode = .supervisor, true⟩

/-- The Orvan's own accesses for a job, made in the IOD (R25, R45; log entry 32). -/
def State.iod (s : State) (job : Nat) : Agent := ⟨256, (s.job job).asid, job, false, false⟩

/-- A translation fault: cause, address, DETAIL, and the ACCESS type where it is not the access's own. -/
structure XFault where
  cause : Nat
  va : Word
  detail : Word
  access : Option Nat
  deriving DecidableEq, Repr

/-- A leaf found by a walk or in a TLB: the entry, its level, the first 16 KiB page that it maps, where it stands, and whether
a walk has read it. -/
structure Leaf where
  entry : Word
  level : Nat
  base : Nat
  place : Nat
  walked : Bool
  deriving DecidableEq, Repr

/-- A walk from a table on: levels and index shifts (R235, R236); an error carries cause and DETAIL. -/
def State.walkGo (s : State) (vpn : Nat) : List (Nat × Nat) → Nat → Except (Nat × Word) Leaf
  | [], _ => .error (3, 0)
  | (level, sh) :: r, table =>
    let place := table + 8 * (vpn / 2 ^ sh % 2048)
    if !populated place then .error (5, 0)
    else
      let e := word (s.numAt place 8)
      if !pteV e then .error (4, entryDetail e level)
      else if level ≤ 2 || (level = 3 && pteSz e = 0) then
        if e &&& ~~~(0x000FFFFFFFFFC001#64) ≠ 0 then .error (3, entryDetail e level)
        else if !populated (pteFrame e * 16384) then .error (5, entryDetail e level)
        else s.walkGo vpn r (pteFrame e * 16384)
      else if leafInvalid e level then .error (3, entryDetail e level)
      else .ok ⟨e, level, vpn / 2 ^ sh * 2 ^ sh, place, true⟩

/-- The walk of a job's tables for a page number VA[55:14] (R235). -/
def State.walk (s : State) (job vpn : Nat) : Except (Nat × Word) Leaf :=
  s.walkGo vpn [(1, 33), (2, 22), (3, 11), (4, 0)] (bits (s.job job).ptbase 14 38 * 16384)

/-- Pages that a TLB entry covers, as a shift of the page number (R238). -/
def sizeShift (size : Nat) : Nat := if size = 0 then 0 else if size = 1 then 7 else 16

/-- A TLB entry covers a page of an ASID. -/
def TlbEntry.covers (t : TlbEntry) (asid vpn : Nat) : Bool :=
  t.asid = asid && t.page / 2 ^ sizeShift t.size = vpn / 2 ^ sizeShift t.size

/-- The leaf that a TLB entry stands for. -/
def TlbEntry.leaf (t : TlbEntry) : Leaf := ⟨t.entry, if t.size = 2 then 3 else 4, t.page, t.place, false⟩

/-- Physical address of a byte of a page through a leaf (R235, R238). -/
def Leaf.pa (l : Leaf) (va : Word) : Nat :=
  ((pteFrame l.entry : Int) + (bits va 14 42 : Nat) - l.base).toNat * 16384 + bits va 0 14

/-- Two leaves give a page the same frame and attributes. -/
def Leaf.agrees (a b : Leaf) (va : Word) : Bool :=
  a.pa va = b.pa va && a.entry &&& 0xFFF0000000003E7F#64 = b.entry &&& 0xFFF0000000003E7F#64

/-- The first stale entry that the TLBs choose to use; which one is left open (R238, R241, log entry 11). -/
def State.chooseStale (s : State) : List Leaf → Option Leaf × State
  | [] => (none, s)
  | l :: r => if Config.freeBool s.free then (some l, s.useFree.2) else s.useFree.2.chooseStale r

/-- The leaves for a page that the TLBs of the agent's core and cluster may hold (R240). -/
def State.cached (s : State) (g : Agent) (va : Word) : List Leaf :=
  (((s.core g.core).tlb ++ (s.cluster (clusterOf g.core)).tlb).filter (·.covers g.asid (bits va 14 42))).map (·.leaf)

/-- The cached leaves for a page that differ from what a walk gives. -/
def State.stale (s : State) (g : Agent) (va : Word) : List Leaf :=
  (s.cached g va).filter fun l =>
    match s.walk g.job (bits va 14 42) with
    | .ok f => !l.agrees f va
    | .error _ => true

/-- DETAIL of a fault that a leaf gives: the entry read, 0 where a TLB gave it and no entry was read; whether
a TLB still holds what the tables say is left open (R240, R241, R244; log entry 11). -/
def State.leafDetail (s : State) (g : Agent) (l : Leaf) (va : Word) : Word × State :=
  let d := entryDetail l.entry l.level
  if !l.walked then (0, s)
  else if (s.cached g va).any (·.agrees l va) then (if Config.freeBool s.free then 0 else d, s.useFree.2)
  else (d, s)

/-- The first fault of R242 that a leaf gives an access; 0 for none. -/
def leafFault (g : Agent) (q : XReq) (l : Leaf) (va : Word) : Nat :=
  let e := l.entry
  if (if pteZ e then decide (8 ≤ l.pa va / 2 ^ 36) else !populated (l.pa va)) then 5
  else if (!pteU e && !g.sup) || (q.write && !pteW e) || (q.fetch && !pteX e) || (q.kv && !pteK e) then 6
  else if q.write && pteS e then 7
  else if (pteHome e = 2 && pteHidx e ≠ g.core) || (q.line && pteHome e ≠ 0) || (q.homed && pteHome e ≠ 2) then 8
  else if pteZ e && !q.packed then 9
  else 0

/-- A and D set in the entry that an access goes through; where a TLB gave it, the word that stands in its place now is left
alone if it is no valid entry (R236; log entry 11). -/
def State.markUsed (s : State) (l : Leaf) (write : Bool) : State :=
  let e := word (s.numAt l.place 8)
  let e' := e ||| (if write then 0x180 else 0x80)
  if e' = e || !pteV e then s else { s with mem := Sparse.splice 0 s.mem l.place (leBytes 8 e'.toNat) }

/-- A TLB of n entries with one more; which one it replaces when it is full is left open (R240; log entry 11). -/
def tlbAdd (n : Nat) (free : Nat) (t : TlbEntry) (ts : List TlbEntry) : List TlbEntry :=
  if ts.contains t then ts else if ts.length < n then t :: ts else t :: ts.eraseIdx (Config.freeNat free % ts.length)

/-- The TLB entry of a leaf. -/
def Leaf.cached (l : Leaf) (asid : Nat) : TlbEntry := ⟨asid, l.base, pteSz l.entry, pteBare l.entry, l.place⟩

/-- The entry enters the core's TLB of 64 entries and the cluster's of 4,096 (R240). -/
def State.cacheLeaf (s : State) (g : Agent) (l : Leaf) : State :=
  if 256 ≤ g.core then s
  else
    let t := l.cached g.asid
    let s1 := s.useFree.2.useFree.2
    (s1.modCore g.core fun k => { k with tlb := tlbAdd 64 s.free t k.tlb }).modCluster (clusterOf g.core) fun cl =>
      { cl with tlb := tlbAdd 4096 (s.free + 1) t cl.tlb }

/-! The hot-page tracker (R249 to R252) -/

/-- x + 1, saturating at w bits. -/
def satInc (w x : Nat) : Nat := min (x + 1) (2 ^ w - 1)

/-- A proposal for a frame: a record in the ring, or PROP_DROP (R250); a ring of 256 records is full
when it holds 255, and PA[51:14] stands in the record as a number (log entry 31). -/
def State.propose (s : State) (d frame : Nat) : State :=
  let cl := s.cluster d
  if (cl.hptHead + 1) % 256 = cl.hptTail % 256 then
    s.modCluster d fun cl => { cl with propDrop := satInc 16 cl.propDrop }
  else
    let at_ := bits cl.hptRing 12 40 * 4096 + 16 * cl.hptHead
    ((s.putNum 256 at_ 8 frame).putNum 256 (at_ + 8) 8 (cl.hptEpochs % 2 ^ 32)).modCluster d
      fun cl => { cl with hptHead := (cl.hptHead + 1) % 256 }

/-- A new counter's room: with 1,024 counters in use the smallest one is replaced (R249). -/
def hptRoom (m : Sparse Nat) (frame : Nat) : Sparse Nat :=
  if m.length < 1024 || m.any (fun e => e.1 = frame) then m
  else
    match m.foldl (fun (b : Option (Nat × Nat)) e =>
        match b with
        | none => some e
        | some x => if e.2 < x.2 then some e else b) none with
    | none => m
    | some x => m.filter fun e => e.1 ≠ x.1

/-- One access to a frame reaches its slice and is counted (R249). -/
def State.hptCountUp (s : State) (d frame : Nat) (p : Bool) : State :=
  let n := (s.cluster d).hptCount.get 0 frame + 1
  let s := s.modCluster d fun cl => { cl with hptCount := (hptRoom cl.hptCount frame).set 0 frame n }
  let cl := s.cluster d
  if n = 16 * max 1 cl.hptThresh && !cl.hptProposed.contains frame then
    if p then s.modCluster d fun cl => { cl with skip := satInc 32 cl.skip }
    else (s.propose d frame).modCluster d fun cl => { cl with hptProposed := frame :: cl.hptProposed }
  else s

/-- 128-byte lines that a run of bytes touches. -/
def linesOf (va : Word) (len : Nat) : Nat := (bits va 0 7 + max 1 len + 127) / 128

/-- How many accesses to its slice an access makes: an atomic or a seq_cst one makes one, an agent that has no L1D one for each
line; how many lines of another find no copy in L1D is left open (R237, R249, R349). -/
def State.sliceAccesses (s : State) (g : Agent) (q : XReq) (va : Word) (len : Nat) : Nat :=
  if q.atomic then 1 else if 256 ≤ g.core then linesOf va len else Config.freeNat s.free % (linesOf va len + 1)

/-- An access through a HOME 00 entry is counted as often as it reaches the slice (R237, R249). -/
def State.track (s : State) (g : Agent) (q : XReq) (l : Leaf) (va : Word) (len : Nat) : State :=
  let d := pteHidx l.entry
  if pteHome l.entry = 0 && (s.cluster d).hptEn then
    (s.sliceAccesses g q va len).repeat (fun t => t.hptCountUp d (l.pa va / 16384) (pteP l.entry)) s.useFree.2
  else s

/-- Frames that a slice can hold pinned (R251, R252). -/
def Cluster.pinRoom (cl : Cluster) : Nat := 64 * min 8 cl.hptPinmib

/-- The frames of a pinned page, whose first one is aligned to its size (R238), and how many. -/
def TlbEntry.frame (t : TlbEntry) : Nat := pteFrame t.entry / 2 ^ sizeShift t.size * 2 ^ sizeShift t.size
def TlbEntry.frames (t : TlbEntry) : Nat := 2 ^ sizeShift t.size

/-- A pinned page holds a physical address. -/
def TlbEntry.holds (t : TlbEntry) (pa : Nat) : Bool := t.frame ≤ pa / 16384 && pa / 16384 < t.frame + t.frames

/-- Bytes of memory copied, with what is known of each: its mark and its writer. -/
def State.moveBytes (s : State) (src dst n : Nat) : State :=
  { s with mem := Sparse.copyRun s.mem src dst n, bad := Sparse.copyRun s.bad src dst n, origin := Sparse.copyRun s.origin src dst n }

/-- A pinned page leaves its slice: dirty bytes are written back (R252). -/
def State.unpin (s : State) (d : Nat) (t : TlbEntry) : State :=
  let cl := s.cluster d
  let mine (pa : Nat) : Bool := t.holds pa
  let dirty := cl.pinDirty.filter fun e => mine e.1
  let lo := pinKey d (t.frame * 16384)
  let out {α : Type} (e : Nat × α) : Bool := e.1 < lo || lo + t.frames * 16384 ≤ e.1
  let back {α : Type} [DecidableEq α] (z : α) (m : Sparse α) : Sparse α :=
    (dirty.foldl (fun m e => Sparse.set z m e.1 (Sparse.get z m (pinKey d e.1))) m).filter out
  ({ s with mem := back 0 s.mem, bad := back false s.bad, origin := back 0 s.origin }.moveCode (back 0)).modCluster d fun cl =>
    { cl with pinned := cl.pinned.filter (· ≠ t), pinDirty := cl.pinDirty.filter fun e => !mine e.1 }

/-- Frames that a slice holds pinned. -/
def pinFrames (ps : List TlbEntry) : Nat := (ps.map (·.frames)).sum

/-- The pages, of those in the order in which they were pinned, that do not fit in a number of frames. -/
def pinOver : Nat → List TlbEntry → List TlbEntry
  | _, [] => []
  | room, t :: r => if t.frames ≤ room then pinOver (room - t.frames) r else t :: pinOver room r

/-- The pages that no longer fit after PINMIB is lowered leave the slice (R252). -/
def State.trimPinned (s : State) (d : Nat) : State :=
  (pinOver (s.cluster d).pinRoom (s.cluster d).pinned).foldl (fun s t => s.unpin d t) s

/-- The key of a HOME 01 page's byte: in the slice, which fetches the whole page at the first access, or in
HBM when the pinned area has no room for it (R252). -/
def State.pinned (s : State) (d : Nat) (t : TlbEntry) (pa : Nat) : Nat × State :=
  let cl := s.cluster d
  let at_ := t.frame * 16384
  if cl.pinned.any (·.holds pa) then (pinKey d pa, s)
  else if !t.holds pa then (pa, s)
  else if pinFrames cl.pinned + t.frames ≤ cl.pinRoom then
    (pinKey d pa,
      ((s.moveBytes at_ (pinKey d at_) (t.frames * 16384)).moveCode fun m =>
        Sparse.copyRun m at_ (pinKey d at_) (t.frames * 16384)).modCluster d
        fun cl => { cl with pinned := cl.pinned ++ [t] })
  else (pa, s.modCluster d fun cl => { cl with pinFull := satInc 16 cl.pinFull })

/-- What an access through a leaf leaves behind, and the key of its first byte (R236, R237, R240). -/
def State.through (s : State) (g : Agent) (q : XReq) (l : Leaf) (va : Word) (len : Nat) : Nat × State :=
  let s := ((s.markUsed l q.write).cacheLeaf g l).track g q l va len
  if pteHome l.entry = 1 && !pteZ l.entry then s.pinned (pteHidx l.entry) (l.cached g.asid) (l.pa va) else (l.pa va, s)

/-- Translation of `len` bytes of one page of the translated space: the key of the first, or the fault (R235 to R242). -/
def State.translate (s : State) (g : Agent) (q : XReq) (va : Word) (len : Nat) : Except XFault Nat × State :=
  let (old, s1) := s.chooseStale (s.stale g va)
  let take (l : Leaf) : Except XFault Nat × State :=
    let f := leafFault g q l va
    if f ≠ 0 then
      let (d, s2) := s1.leafDetail g l va
      (.error ⟨f, va, d, none⟩, s2.cacheLeaf g l)
    else
      let (key, s2) := s1.through g q l va len
      (.ok key, s2)
  match old with
  | some l => take l
  | none =>
    match s1.walk g.job (bits va 14 42) with
    | .ok l => take l
    | .error (c, d) => (.error ⟨c, va, d, none⟩, s1)

/-! LDM regions (R247, R248) -/

/-- VABASE as a 16 KiB page number. -/
def Region.page (r : Region) : Nat := bits r.rva 14 42

/-- A valid region of an ASID holds the page. -/
def Region.serves (r : Region) (asid vpn : Nat) : Bool :=
  r.valid && r.asid = asid && r.page ≤ vpn && vpn ≤ r.page + r.sizem1

/-- The lowest-numbered region of a core that serves an address. -/
def State.regionFor (s : State) (g : Agent) (va : Word) : Option (Nat × Region) :=
  if !g.regions then none
  else ((s.core g.core).region.filter fun e => e.2.serves g.asid (bits va 14 42)).head?

/-- A region entry changed. -/
def State.modRegion (s : State) (c n : Nat) (f : Region → Region) : State :=
  s.modCore c fun k => { k with region := k.region.set .none n (f (k.region.get .none n)) }

/-- One sector filled: through translation, which must give HOME 10 with this core (R247). -/
def State.fillSector (s : State) (g : Agent) (n : Nat) (r : Region) (sec : Nat) : Except XFault Unit × State :=
  let va := word ((r.page * 16384 + 1024 * sec) % 2 ^ 56 + (if r.page / 2 ^ 41 = 1 then 255 * 2 ^ 56 else 0))
  match s.translate g { homed := true } va 1024 with
  | (.error f, s1) => (.error { f with access := some 12 }, s1)
  | (.ok key, s1) =>
    let dst := ldmKey g.core (r.ldmbase * 16384 + 1024 * sec)
    let s2 :=
      if r.zfill then (s1.putBytes g.core dst (List.replicate 1024 0)).moveCode fun m => Sparse.splice 0 m dst (List.replicate 1024 0)
      else
        (s1.moveBytes key dst 1024).moveCode fun m => Sparse.copyRun m key dst 1024
    let s3 := s2.modRegion g.core n fun r => { r with filled := r.filled.set false sec true }
    (.ok (), s3)

/-- Sectors filled where they are not yet, and marked dirty by a write. -/
def State.touchSectors (s : State) (g : Agent) (n : Nat) (write : Bool) : List Nat → Except XFault Unit × State
  | [] => (.ok (), s)
  | sec :: secs =>
    let r := (s.core g.core).region.get .none n
    let next (s : State) : Except XFault Unit × State :=
      (if write then s.modRegion g.core n fun r => { r with dirty := r.dirty.set false sec true }
        else s).touchSectors g n write secs
    if r.filled.get false sec then next s
    else
      match s.fillSector g n r sec with
      | (.error f, s1) => (.error f, s1)
      | (.ok (), s1) => next s1

/-- The key of a run of bytes inside a bound region (R247). -/
def State.inRegion (s : State) (g : Agent) (q : XReq) (va : Word) (len n : Nat) (r : Region) : Except XFault Nat × State :=
  let off := (bits va 14 42 - r.page) * 16384 + bits va 0 14
  let secs := (List.range (len / 1024 + 2)).map (off / 1024 + ·) |>.filter fun x => 1024 * x < off + len
  match s.touchSectors g n q.write secs with
  | (.error f, s1) => (.error { f with va := va }, s1)
  | (.ok (), s1) => (.ok (ldmKey g.core (r.ldmbase * 16384 + off)), s1)

/-- Canonical addresses (R231). -/
def canonical (va : Word) : Bool := bits va 55 9 = 0 || bits va 55 9 = 511

/-- The key of `len` bytes at an address within one 16 KiB page (R231, R242, R247). -/
def State.place (s : State) (g : Agent) (q : XReq) (va : Word) (len : Nat) : Except XFault Nat × State :=
  let low := bits va 0 48
  let fault (c : Nat) : Except XFault Nat × State := (.error ⟨c, va, 0, none⟩, s)
  match bits va 48 16 with
  | 0xFF =>
    if 2 ^ 21 ≤ low || 256 ≤ g.core then fault 2 else if q.fetch || q.kv then fault 6 else if q.line then fault 8
    else (.ok (ldmKey g.core low), s)
  | 0xFE =>
    if 2 ^ 29 ≤ low then fault 2 else if q.fetch || q.kv then fault 6 else if q.line then fault 8
    else (.ok (ldmKey 0 low), s)
  | 0xFD =>
    if 2 ^ 20 ≤ low then fault 2 else if q.fetch || q.kv || !g.sup then fault 6 else if q.line then fault 8
    else (.ok (ctlKey 0 low), s)
  | _ =>
    if !canonical va then fault 1
    else
      match s.regionFor g va with
      | some (n, r) =>
        if q.line then fault 8
        else if q.kv then
          match s.translate g q va len with
          | (.error f, s1) => (.error f, s1)
          | (.ok _, s1) => s1.inRegion g q va len n r
        else s.inRegion g q va len n r
      | none => s.translate g q va len

/-- The bytes from an address to the end of its page, or in the control window to the end of its 256 bytes: there trap frames
stand beside registers, and one core's offsets beside the next one's (R231, R241, R387). -/
def pageLeft (va : Word) : Nat := if bits va 48 16 = 0xFD then 256 - bits va 0 8 else 16384 - bits va 0 14

/-- A run of bytes cut at 16 KiB page boundaries, and at 256 bytes in the control window. -/
def cutPages : Nat → Word → Nat → List (Word × Nat)
  | 0, _, _ => []
  | fuel + 1, va, n =>
    if n = 0 then []
    else
      let k := min n (pageLeft va)
      (va, k) :: cutPages fuel (va + word k) (n - k)

/-- The pieces of a run of bytes, each within one page. -/
def pieces (va : Word) (n : Nat) : List (Word × Nat) :=
  cutPages (n / 256 + 2) va n

/-- Of two faults the one that R242 raises: the earlier in its table, then the lower address. -/
def worse (a : Option XFault) (b : XFault) : Option XFault :=
  match a with
  | none => some b
  | some f => if b.cause < f.cause || (b.cause = f.cause && b.va < f.va) then some b else a

/-- The keys of all pieces, and the worst fault among them. -/
def State.resolveGo (s : State) (g : Agent) (q : XReq) :
    List (Word × Nat) → List (Nat × Nat) → Option XFault → (List (Nat × Nat) × Option XFault) × State
  | [], ks, f => ((ks.reverse, f), s)
  | (va, n) :: r, ks, f =>
    match s.place g q va n with
    | (.ok key, s1) => s1.resolveGo g q r ((key, n) :: ks) f
    | (.error x, s1) => s1.resolveGo g q r ks (worse f x)

/-- The keys of an access's bytes, or the fault it raises (R242). -/
def State.resolve (s : State) (g : Agent) (q : XReq) (ps : List (Word × Nat)) : Except XFault (List (Nat × Nat)) × State :=
  match s.resolveGo g q ps [] none with
  | ((ks, none), s1) => (.ok ks, s1)
  | ((_, some f), s1) => (.error f, s1)

/-! Write-back of regions (R247, R248) -/

/-- One dirty sector written back through translation; a fault writes a record with ACCESS 13, leaves
the sector dirty and sets ERR (R247).  `c` is the core; `by_` completes the record of a bundle's own access (R244). -/
def State.writeBack (s : State) (c n sec : Nat) (by_ : FaultRec → FaultRec := id) : State :=
  let r := (s.core c).region.get .none n
  if !r.dirty.get false sec then s
  else
    let job := ((List.range 64).find? fun j => (s.job j).active && (s.job j).asid = r.asid).getD 64
    let va := word ((r.page * 16384 + 1024 * sec) % 2 ^ 56 + (if r.page / 2 ^ 41 = 1 then 255 * 2 ^ 56 else 0))
    match s.translate ⟨c, r.asid, job, true, false⟩ { write := true, homed := true } va 1024 with
    | (.error f, s1) =>
      (s1.report (by_ { faultBare s1 job f.cause 13 va with core := c, asid := r.asid, detail := f.detail })).modRegion c n
        fun r => { r with err := true }
    | (.ok key, s1) =>
      let from_ := ldmKey c (r.ldmbase * 16384 + 1024 * sec)
      let s3 := (s1.moveBytes from_ key 1024).modCore c (·.moveCode fun m => Sparse.copyRun m from_ key 1024)
      ((s3.strike c key 1024).soilPinned key 1024).modRegion c n fun r => { r with dirty := r.dirty.set false sec false }

/-- Every dirty sector of a region written back. -/
def State.writeBackAll (s : State) (c n : Nat) : State :=
  ((s.core c).region.get .none n).dirty.foldl (fun s e => s.writeBack c n e.1) s

/-- A region's LDM blocks and another's overlap. -/
def Region.ldmMeets (a b : Region) : Bool :=
  a.ldmbase ≤ b.ldmbase + b.sizem1 && b.ldmbase ≤ a.ldmbase + a.sizem1

/-- A region's addresses and another's overlap. -/
def Region.vaMeets (a b : Region) : Bool :=
  a.asid = b.asid && a.page ≤ b.page + b.sizem1 && b.page ≤ a.page + a.sizem1

/-- A write of RCTL with V = 1 (R248). -/
def State.bindRegion (s : State) (c n : Nat) (v : Word) : State :=
  let old := (s.core c).region.get .none n
  let r := { old with asid := bits v 48 16, sizem1 := bits v 32 7, ldmbase := bits v 20 7, zfill := v.getLsbD 1
                      err := false, busy := false, valid := true, filled := [], dirty := [] }
  let others := (s.core c).region.filter fun e => e.1 ≠ n
  let clash := others.any fun e =>
    ((e.2.valid || e.2.busy) && r.ldmMeets e.2) || (e.2.valid && r.vaMeets e.2)
  s.modRegion c n fun o => if o.valid || o.busy || 128 ≤ r.ldmbase + r.sizem1 || clash then { o with err := true } else r

/-- A write of RCTL with V = 0: a valid entry unbinds; in an entry that is neither valid nor BUSY the
writable fields take their values (R248). -/
def State.unbindRegion (s : State) (c n : Nat) (v : Word) : State :=
  s.modRegion c n fun o =>
    if o.valid then { o with valid := false, busy := true }
    else if o.busy then o
    else { o with asid := bits v 48 16, sizem1 := bits v 32 7, ldmbase := bits v 20 7, zfill := v.getLsbD 1 }

/-- The unbind's write-back: once no sector is dirty, BUSY clears and the sectors become unfilled (R248). -/
def State.finishUnbind (s : State) (c n : Nat) : State :=
  if !((s.core c).region.get .none n).busy then s
  else
    (s.writeBackAll c n).modRegion c n fun r =>
      if r.dirty.isEmpty then { r with busy := false, filled := [] } else r

/-! TLB invalidation (R241) -/

/-- A TLB entry that an invalidation names. -/
def Tlbi.hits (i : Tlbi) (t : TlbEntry) : Bool :=
  t.asid = i.goAsid && (i.goSize = 3 ||
    (t.size = i.goSize && t.page / 2 ^ sizeShift i.goSize = bits i.goVa 14 42 / 2 ^ sizeShift i.goSize))

/-- The matching entries leave every TLB of the package; pinned pages they mapped leave their slices
(R241, R252). -/
def State.dropTlb (s : State) (i : Tlbi) : State :=
  let hit := (s.cores.flatMap fun e => e.2.tlb.filter i.hits) ++ (s.clusters.flatMap fun e => e.2.tlb.filter i.hits)
  let mapped (d : Nat) (p : TlbEntry) : Bool := hit.any fun t => pteHome t.entry = 1 && pteHidx t.entry = d && t.frame = p.frame
  let pins := s.clusters.flatMap fun e => (e.2.pinned.filter fun p => i.hits p || mapped e.1 p).map fun p => (e.1, p)
  let s := pins.foldl (fun s p => s.unpin p.1 p.2) s
  { s with
    cores := s.cores.map fun e => (e.1, { e.2 with tlb := e.2.tlb.filter fun t => !i.hits t })
    clusters := s.clusters.map fun e => (e.1, { e.2 with tlb := e.2.tlb.filter fun t => !i.hits t }) }

/-- A write of TLBI_VA. -/
def Tlbi.setVa (v : Word) (i : Tlbi) : Tlbi := { i with va := v &&& 0x00FFFFFFFFFFC000 }

/-- A write of TLBI_CTL: GO is ignored while BUSY (R241). -/
def Tlbi.setCtl (v : Word) (i : Tlbi) : Tlbi :=
  if i.busy && v.getLsbD 0 then i
  else
    let j := { i with asid := bits v 20 16, size := bits v 18 2 }
    if v.getLsbD 0 then { j with busy := true, goVa := j.va, goAsid := j.asid, goSize := j.size } else j

/-- TLBI_CTL as it reads. -/
def Tlbi.ctl (i : Tlbi) : Word := word (2 ^ 63 * bit i.busy + 2 ^ 20 * i.asid + 2 ^ 18 * i.size)

/-- An invalidation ends: accesses through the removed entries have performed (R241). -/
def State.finishTlbi (s : State) (i : Tlbi) : State :=
  (((List.range 256).filter fun c => !(s.core c).b0.stores.isEmpty || !(s.core c).b1.stores.isEmpty).foldl
    (fun s c => (s.flush c 0).flush c 1) s).dropTlb i

/-! Pre-emption requests (R399, R400) -/

/-- The core is under a collimation test of its own (R427). -/
def Core.coreTest (k : Core) : Bool := match k.test with
  | some (.core _) => true
  | _ => false

/-- A pre-emption lands on a context: it is held, and a kind-2 service task is due (R393, R399); the
management controller itself saves a context that collimation holds (R427). -/
def State.landPreempt (s : State) (c b : Nat) : State :=
  let k := s.ctx c b
  let s1 := s.modCtx c b fun k => { k with held := true, preq := none, overdue := 0 }
  if (s.core c).coreTest then s1.modCore c fun o => { o with coll := if b = 0 then (true, o.coll.2) else (o.coll.1, true) }
  else s1.service 2 k.job c (contextWord c b k.job) 0

/-- A bank is parked or resumable in user mode. -/
def Ctx.atRest (k : Ctx) : Bool :=
  k.mode = .user && (match k.status with
    | .parked _ | .resumable => true
    | _ => false)

/-- A request for one bank (R399). -/
def State.requestPreempt (s : State) (c b : Nat) : State :=
  let k := s.ctx c b
  if !k.occupied || k.held then s
  else if k.atRest then s.landPreempt c b
  else if k.preq.isSome then s
  else s.modCtx c b fun k => { k with preq := some s.sidereal, overdue := 0 }

/-- A request withdrawn (R400). -/
def State.withdrawPreempt (s : State) (c b : Nat) : State :=
  s.modCtx c b fun k => { k with preq := none, overdue := 0 }

/-- A held context released (R399, R400). -/
def State.releaseHeld (s : State) (c b : Nat) : State := s.modCtx c b fun k => { k with held := false }

/-- A write of PREQ (R400). -/
def State.writePreq (s : State) (c : Nat) (v : Word) : State :=
  let one (s : State) (b : Nat) : State :=
    let s := if v.getLsbD (2 + b) then s.releaseHeld c b else s
    if v.getLsbD b then s.requestPreempt c b else s.withdrawPreempt c b
  one (one s 0) 1

/-! The control window (R231, R241, R248, R251, R400) -/

/-- A region's RCTL as it reads. -/
def Region.ctl (r : Region) : Word :=
  word (2 ^ 48 * r.asid + 2 ^ 32 * r.sizem1 + 2 ^ 20 * r.ldmbase + 8 * bit r.err + 4 * bit r.busy + 2 * bit r.zfill + bit r.valid)

/-- HPT_CTL as it reads (R251). -/
def Cluster.hptCtl (cl : Cluster) : Word :=
  word (65536 * cl.hptThresh + 256 * cl.hptPinmib + 16 * cl.hptEpoch + bit cl.hptEn)

/-- HPT_CNT as it reads (R251). -/
def Cluster.hptCnt (cl : Cluster) : Word := word (2 ^ 48 * cl.pinFull + 2 ^ 32 * cl.propDrop + cl.skip)

/-- A write of HPT_CTL (R251, R252). -/
def State.writeHptCtl (s : State) (d : Nat) (v : Word) : State :=
  (s.modCluster d fun cl => { cl with hptThresh := bits v 16 16, hptPinmib := bits v 8 4, hptEpoch := bits v 4 4, hptEn := v.getLsbD 0 }).trimPinned d

/-- HPT_CNT cleared by a read (R251). -/
def State.clearHptCnt (s : State) (d : Nat) : State :=
  s.modCluster d fun cl => { cl with pinFull := 0, propDrop := 0, skip := 0 }

/-- A control-window register as it reads; none for an offset that no table names. -/
def State.ctlReg (s : State) (c off : Nat) : Option Word :=
  let k := s.core c
  let cl := s.cluster (clusterOf c)
  if off < 0x200 then
    let r := k.region.get .none (off / 32)
    some (match off / 8 % 4 with
      | 0 => r.rva
      | 1 => r.ctl
      | 2 => word (r.dirty.filter (·.2)).length
      | _ => 0)
  else
    match off / 8 * 8 with
    | 0x200 => some k.tlbi.va
    | 0x208 => some k.tlbi.ctl
    | 0x300 => some cl.hptCtl
    | 0x308 => some cl.hptCnt
    | 0x310 => some cl.hptRing
    | 0x318 => some (word cl.hptHead)
    | 0x320 => some (word cl.hptTail)
    | 0x500 => some (word (8 * bit k.b1.held + 4 * bit k.b0.held + 2 * bit k.b1.preq.isSome + bit k.b0.preq.isSome))
    | _ => none

/-- A write of a control-window register; offsets that no table names ignore it (log entry 30). -/
def State.ctlWrite (s : State) (c off : Nat) (v : Word) : State :=
  let d := clusterOf c
  if off < 0x200 then
    match off / 8 % 4 with
    | 0 => s.modRegion c (off / 32) fun r => { r with rva := v &&& 0x00FFFFFFFFFFC000 }
    | 1 => if v.getLsbD 0 then s.bindRegion c (off / 32) v else s.unbindRegion c (off / 32) v
    | _ => s
  else
    match off / 8 * 8 with
    | 0x200 => s.modCore c fun k => { k with tlbi := k.tlbi.setVa v }
    | 0x208 => s.modCore c fun k => { k with tlbi := k.tlbi.setCtl v }
    | 0x300 => s.writeHptCtl d v
    | 0x310 => s.modCluster d fun cl => { cl with hptRing := v &&& 0x000FFFFFFFFFF000 }
    | 0x320 => s.modCluster d fun cl => { cl with hptTail := bits v 0 8 }
    | 0x500 => s.writePreq c v
    | _ => s

/-- Bytes of the trap frames stand in memory at their keys; the other offsets are registers (R387). -/
def isFrame (key : Nat) : Bool := 0x400 ≤ key % 4096 && key % 4096 < 0x500

/-- A key of a control-window register. -/
def isReg (key : Nat) : Bool := isCtl key && !isFrame key

/-- The core and offset of a control-window key. -/
def ctlOf (key : Nat) : Nat × Nat := ((key - 2 ^ 57) / 4096, key % 4096)

/-- Bytes read from control-window registers; an offset that no table names gives free values (log entry 30). -/
def State.ctlBytes (s : State) (key n : Nat) : List Byte :=
  (List.range n).map fun i =>
    let (c, off) := ctlOf (key + i)
    let v := (s.ctlReg c off).getD (Config.freeWord s.free)
    (v >>> (8 * (off % 8))).setWidth 8

/-- What a read of control-window registers leaves behind: HPT_CNT is cleared, whichever of its bytes are read (log entry 30); a free
value is used up. -/
def State.ctlRead (s : State) (key n : Nat) : State :=
  let (c, off) := ctlOf key
  let s := if off < 0x310 && 0x308 < off + n then s.clearHptCnt (clusterOf c) else s
  if (List.range n).any (fun i => (s.ctlReg c (off + i)).isNone) then s.useFree.2 else s

/-- A store to control-window registers: each register named by the bytes is written; bytes of it that
the store leaves out keep their values, and bits written with 1 to act count as 0 there (log entry 30). -/
def State.ctlStore (s : State) (key : Nat) (data : List Byte) : State :=
  let (c, off) := ctlOf key
  (List.range ((off % 8 + data.length + 7) / 8)).foldl (fun s i =>
    let r := off / 8 * 8 + 8 * i
    let old := (s.ctlReg c r).getD 0 &&& (if r = 0x500 then ~~~12#64 else if r = 0x208 then ~~~1#64 else -1)
    let bytes := (List.range 8).map fun j =>
      if off ≤ r + j && r + j < off + data.length then data.getD (r + j - off) 0 else (old >>> (8 * j)).setWidth 8
    s.ctlWrite c r (word (ofLeBytes bytes))) s

/-! Reading and writing what `resolve` found -/

/-- The bytes of an access, from a view of memory. -/
def State.view (s : State) (m : Sparse Byte) (parts : List (Nat × Nat)) : List Byte :=
  parts.flatMap fun p => if isReg p.1 then s.ctlBytes p.1 p.2 else s.bytesIn m p.1 p.2

/-- One of the bytes of an access is marked uncorrectable. -/
def viewBad (m : Sparse Bool) (parts : List (Nat × Nat)) : Bool := parts.any fun p => anyBad m p.1 p.2

/-- A read of bytes marked uncorrectable counts in HUNC where they stand in HBM and no cache answers it, which is left open; the
count stops at the top of its range (R430; log entry 98). -/
def State.countUncorr (s : State) (p : Nat × Nat) : State :=
  if p.1 < 2 ^ 39 && anyBad s.bad p.1 p.2 then
    s.useFree.2.modHbm (p.1 / 2 ^ 36) fun k => { k with hunc := if Config.freeBool s.free then min (k.hunc + 1) 0xFFFFFFFF else k.hunc }
  else s

/-- What a read leaves behind. -/
def State.afterRead (s : State) (parts : List (Nat × Nat)) : State :=
  parts.foldl (fun s p => if isReg p.1 then s.ctlRead p.1 p.2 else s.countUncorr p) s

/-- The bytes to be stored, cut along the keys. -/
def cutData : List (Nat × Nat) → List Byte → List (Nat × List Byte)
  | [], _ => []
  | (key, n) :: r, data => (key, data.take n) :: cutData r (data.drop n)

/-- An access's bytes written at once. -/
def State.writeParts (s : State) (writer : Nat) (parts : List (Nat × List Byte)) (spoil : Bool := false) : State :=
  parts.foldl (fun s p => if isReg p.1 then s.ctlStore p.1 p.2 else s.putBytes writer p.1 p.2 spoil) s

end Sys2Proof.Machine
end

