-- ==== Sys2Proof/Machine/Operands.lean ====
section
/-! DEFINITION. Operand forms: registers, hold latches, rings, readiness, the checks of tags and poison, and how the operation of a slot runs inside its bundle (R71 to R77, R98 to R112). -/
namespace Sys2Proof

/-- A predicate destination (R77). -/
def SR.pd (f : SR) : Nat := f.d.toNat + 64 * (f.fn9.extractLsb' 8 1).toNat
def SI.pd (f : SI) : Nat := f.d.toNat + 64 * (f.fn5.extractLsb' 4 1).toNat

/-- IMM32 as a number, and sign-extended. -/
def SI.u (f : SI) : Nat := f.imm.toNat
def SI.sx (f : SI) : Word := f.imm.signExtend 64

end Sys2Proof

namespace Sys2Proof.Machine

/-- What a step answers here: no operation of the machine stops it. -/
abbrev Out := Host.Outcome State Fault Refusal

/-- Register files that a source field may name. -/
inductive File where
  | x | p | v | t | a
  deriving DecidableEq, Repr

/-- A source: its latch (A 0, B 1, C 2; 3: none), its file, register number and hold code (R74). -/
structure Opd where
  i : Nat
  file : File
  n : Nat
  h : Nat
  deriving DecidableEq, Repr

/-- Source fields of an SR body. -/
def opA (fl : File) (f : SR) : Opd := ⟨0, fl, f.a.toNat, f.ha.toNat⟩
def opB (fl : File) (f : SR) : Opd := ⟨1, fl, f.b.toNat, f.hb.toNat⟩
def opC (fl : File) (f : SR) : Opd := ⟨2, fl, f.c.toNat, f.hc.toNat⟩

/-- A predicate source, with its bit 6 from a function bit (R166, R180). -/
def opPA (f : SR) : Opd := ⟨0, .p, f.a.toNat + 64 * bit (f.fn9.getLsbD 6), f.ha.toNat⟩
def opPB (f : SR) : Opd := ⟨1, .p, f.b.toNat + 64 * bit (f.fn9.getLsbD 7), f.hb.toNat⟩
def opPC (f : SR) : Opd := ⟨2, .p, f.c.toNat + 64 * bit (f.fn9.getLsbD 6), f.hc.toNat⟩

/-- A register read without a latch. -/
def opReg (fl : File) (n : Nat) : Opd := ⟨3, fl, n, 0⟩

/-- The register that a source reads; a use of a latch reads none, but a tile latch names a tile (R103). -/
def Opd.regs (o : Opd) : List Reg :=
  match o.file with
  | .x => if 2 ≤ o.h then [] else [.x o.n]
  | .p => if 2 ≤ o.h then [] else [.p o.n]
  | .v => if 2 ≤ o.h then [] else [.v o.n]
  | .t => [.t o.n]
  | .a => [.a o.n]

/-- The latch of slot `sl` that a use reads, and the one that a hold action changes (R103). -/
def Opd.usesLatch (sl : Nat) (o : Opd) : List Reg := if 2 ≤ o.h then [.l (3 * sl + o.i)] else []
def Opd.setsLatch (sl : Nat) (o : Opd) : List Reg := if o.h = 1 || o.h = 3 then [.l (3 * sl + o.i)] else []

/-- The register that the hold code copies; an M latch takes a tile's number, not its contents (R103). -/
def Opd.copies (o : Opd) : List Reg := if o.h = 1 && o.file ≠ .t then o.regs else []

/-- The latch of a source, as it stood before the bundle. -/
def State.latchOf (s : State) (o : Opd) : Latch := s.issue.pre.getLatch s.issue.slot o.i

/-- An x source (R74, R103). -/
def State.srcX (s : State) (o : Opd) : Word :=
  if o.h < 2 then s.issue.pre.getX o.n
  else
    match s.latchOf o with
    | .x v => v
    | _ => 0

/-- A p source (R74, R167). -/
def State.srcP (s : State) (o : Opd) : Word :=
  if o.h < 2 then s.issue.pre.getP o.n
  else
    match s.latchOf o with
    | .p v => v
    | _ => 0

/-- A v source; an empty latch, or one of another file, has tag POISON (R103). -/
def State.srcV (s : State) (o : Opd) : VReg :=
  if o.h < 2 then s.issue.pre.getV o.n
  else
    match s.latchOf o with
    | .v r => r
    | _ => .zero

/-- What code 01 puts in the latch (R103). -/
def State.latchCopy (s : State) (o : Opd) : Latch :=
  match o.file with
  | .x => .x (s.issue.pre.getX o.n)
  | .p => .p (s.issue.pre.getP o.n)
  | .v => .v (s.issue.pre.getV o.n)
  | .t => .tile o.n
  | .a => .empty

/-- The hold action of one source (R74). -/
def State.latchOne (s : State) (o : Opd) : State :=
  if o.h = 1 then s.modCur fun k => k.setLatch s.issue.slot o.i (s.latchCopy o)
  else if o.h = 3 then s.modCur fun k => k.setLatch s.issue.slot o.i .empty
  else s

/-- The hold actions of all sources, which take place whether or not the operation is active (R71). -/
def State.latchAll (s : State) (os : List Opd) : State := os.foldl State.latchOne s

/-- Bit 0 of the slot's condition (R71). -/
def State.active (s : State) : Bool := s.issue.cond.getLsbD 0

/-- The running context as the agent of its accesses. -/
def State.me (s : State) : Agent := s.issue.pre.agent s.issue.core

/-- The condition that a header's predicate gives (R71). -/
def Ctx.predicate (k : Ctx) (p : Pred) : Word := if p.neg then ~~~(k.getP p.reg.toNat) else k.getP p.reg.toNat

/-! Readiness and poison (R109 to R111, R260) -/

/-- An operation of an anchored slot waits: a register that it reads or writes is pending, or a queued operation of an
earlier bundle has yet to read one that it writes (R109). -/
def State.waits (s : State) (rd wr : List Reg) : Bool :=
  (s.issue.pre.pend.any fun e => (rd ++ wr).contains e.reg) || (s.issue.pre.queue.any fun q => q.reads.any wr.contains)

/-- A register's value is not known yet: it waits for an answer or for an operation that issues late. -/
def State.blind (s : State) (r : Reg) : Bool := s.issue.pre.pend.any fun e => e.reg = r && e.why.unknown

/-- A register has a value that comes later than the bundle's issue: one not known yet, or data that arrives poisoned
(R109, R111). -/
def State.later (s : State) (r : Reg) : Bool := s.issue.pre.pend.any fun e => e.reg = r && (e.why.unknown || e.bad)

/-- The operation waits for a value that decides its checks: an x register that gives the M slot an address, or a register
whose tag rests on a predicate that is not known yet (R111; log entry 8). -/
def State.undecided (s : State) (rd wr : List Reg) : Bool :=
  (s.issue.slot = 4 && (rd.filter fun r => match r with
    | .x _ => true
    | _ => false).any s.blind) ||
  s.issue.pre.pend.any fun e => e.unsure && (rd ++ wr).contains e.reg

/-- A pending write may yet turn out poisoned (R111, R228, R260). -/
def Pend.risky (e : Pend) : Bool :=
  e.bad || (match e.why, e.reg with
    | .merge, _ => true
    | .late _, .v _ | .late _, .t _ | .late _, .a _ => true
    | _, _ => false)

/-- An x or p register is marked poisoned (R260). -/
def Ctx.spoilt (k : Ctx) : Reg → Bool
  | .x n => k.xbad.getLsbD n
  | .p n => k.pbad.getLsbD n
  | _ => false

/-- The format fault: TCAUSE.DETAIL holds the tag found and the FMT required, 0 for a class (R388). -/
def State.formatFault (s : State) (found required : Fmt) : State :=
  s.raise 0x0C 0 (BitVec.ofNat 32 (found.code.toNat + 256 * required.code.toNat))

/-- The operation of an anchored slot: it waits for the registers it reads and writes, poison in what
it reads traps, hold actions take place, and an active operation has its effect (R71, R109, R110). -/
def State.anchored (s : State) (os : List Opd) (wr : List Reg) (body : State → State) : Out :=
  let rd := os.flatMap (·.regs)
  if (if s.active then s.waits rd wr else (os.flatMap (·.copies)).any s.later) then .next (s.holdFor none)
  else if !s.active then .next (s.latchAll os)
  else
    match rd.find? s.issue.pre.spoilt with
    | some _ => .next (s.raise 0x10 0)
    | none => .next (body (s.latchAll os))

/-- An operation enters its slot's queue; the registers it writes are pending until it issues (R110). -/
def State.enqueue (s : State) (rd wr : List Reg) (mwait : Bool := false) : State :=
  let n := s.issue.pre.bundle
  s.modCur fun k =>
    { wr.foldl (fun k r => k.pendOn r (.slip s.issue.slot) n) k with
      queue := k.queue ++ [⟨s.issue.slot, n, mwait, s.issue.guard ++ rd, wr, s.issue.need, none⟩] }

/-- A bank with the operation of a slot in its queue; the registers that it writes keep their values, and are pending with
the tags and bounds that it will leave (R111). -/
def Ctx.queueLate (k after : Ctx) (e : QEntry) : Ctx :=
  let k1 := e.writes.foldl (fun q r => q.copyReg k r) after
  let unsure := e.late.any (·.pred.isSome)
  { e.writes.foldl (fun q r => q.pendOn r (.late e.slot) e.bundle false (after.regTag r) none unsure) k1 with queue := k1.queue ++ [e] }

/-- An operation enters its slot's queue and is carried out when it leaves it: `before` stands as before its checks, whose
other effects stay (R108 to R111). -/
def State.enqueueLate (s before : State) (rd wr : List Reg) : State :=
  let i := s.issue
  let rs := i.guard ++ rd
  let o : LateOp :=
    ⟨i.instr, i.cond, if i.unsure then some i.pred else none, i.pre.pc, { i.pre.regs with rbq := before.cur.rbq }
     , (rs ++ wr).filter before.later, s.fabric.nextItem⟩
  let risky := i.pre.pend.any fun e => e.risky && rs.contains e.reg
  { s with issue := { i with risky := i.risky || risky } }.modCur fun k =>
    before.cur.queueLate k ⟨i.slot, i.pre.bundle, false, rs, wr, i.need, some o⟩

/-- A queued operation has yet to take a register's value. -/
def QEntry.wantsAny (e : QEntry) (rs : List Reg) : Bool := match e.late with
  | some o => o.wants.any rs.contains
  | none => false

/-- The operation is carried out when it leaves its queue: it has an operand image, its predicate or a value that it uses comes
later, or a queued operation has yet to take the value of a register that it writes (R109, R111, R207). -/
def State.goesLate (s : State) (rd wr : List Reg) : Bool :=
  s.issue.need.img.isSome || s.issue.unsure || (rd ++ wr).any s.later || s.issue.pre.queue.any (·.wantsAny wr)

/-- A hold action, or a use of a latch, takes place as the operation leaves its queue: what it copies, or the latch, comes later
(R103, R110). -/
def State.latchLate (s : State) (os : List Opd) : Bool :=
  (os.flatMap fun o => o.copies ++ o.usesLatch s.issue.slot ++ o.setsLatch s.issue.slot).any s.later

/-- The operation of a slot that slips (V0, V1, M).  `act` says whether it is active anywhere.  Its checks are made when
its bundle issues, and its result is computed then where all it uses is known; the registers it writes stay pending until
it leaves its queue (R108 to R111, log entry 8).  Run a second time, as it leaves the queue, it has its effect. -/
def State.slipped (s : State) (act : Bool) (os : List Opd) (wr : List Reg) (body : State → State) : Out :=
  let rd := os.flatMap (·.regs)
  let spoilt := if act then rd.find? s.issue.pre.spoilt else none
  if s.issue.late.isSome then .next (if spoilt.isSome then s.raise 0x10 0 else if act then body (s.latchAll os) else s.latchAll os)
  else if act && (s.undecided rd wr || s.cur.queue.any fun e => e.bundle = s.issue.pre.bundle && e.wantsAny wr) then
    .next (s.holdFor none)
  else if spoilt.isSome then .next (s.raise 0x10 0)
  else
    let s1 := s.latchAll os
    let s2 := if act then body s1 else s1
    let rd := if act then rd else os.flatMap (·.copies)
    let wr := if act then wr else []
    if s2.issue.verdict ≠ .commit then .next s2
    else if s.latchLate os then
      .next (s2.enqueueLate s (rd ++ os.flatMap (·.usesLatch s.issue.slot)) (wr ++ os.flatMap (·.setsLatch s.issue.slot)))
    else if act && s2.goesLate rd wr then .next (s2.enqueueLate s1 rd wr)
    else .next (if act then s2.enqueue rd wr else s2.enqueue [] [])

/-! Writing results -/

/-- x n written by the bundle. -/
def State.putX (s : State) (n : Nat) (v : Word) : State := s.modCur fun k => k.setX n v

/-- p n written by the bundle. -/
def State.putP (s : State) (n : Nat) (v : Word) : State := s.modCur fun k => k.setP n v

/-- v n written by the bundle. -/
def State.putV (s : State) (n : Nat) (r : VReg) : State := s.modCur fun k => k.setV n r

/-! Tile fields and rings (R77, R104 to R107) -/

/-- What a tile field names: a tile, or none where a ring name is out of bounds (R105); and whether
the slot is filled. -/
def Ctx.tileField (k : Ctx) (f : BitVec 6) : Option (Nat × Bool) :=
  if f.toNat < 32 then some (f.toNat, true)
  else
    let r := k.getRing (f.toNat / 4 % 8)
    let kk := f.toNat % 4
    if r.len ≤ kk then none else some (r.first + (r.head + kk) % r.len, kk + 1 ≤ r.fill)

/-- The same, of a slot that is at least reserved: its load has begun, so its contents are known. -/
def Ctx.tileReserved (k : Ctx) (f : BitVec 6) : Bool :=
  f.toNat < 32 || f.toNat % 4 + 1 ≤ (k.getRing (f.toNat / 4 % 8)).rsv

/-- The tile loads that a source field stands behind: a ring's slot is filled once every load reserved up to it has
completed (R105, R106). -/
def Ctx.fillsAwaited (k : Ctx) (f : BitVec 6) : List Nat :=
  if f.toNat < 32 then []
  else
    let q := f.toNat / 4 % 8
    let slots := k.pend.flatMap fun e => match e.why with
      | .tile (some r) => if r = q then [some e.n] else []
      | .mark r => if r = q then List.replicate e.n none else []
      | _ => []
    (slots.take (f.toNat % 4 + 1 - (k.getRing q).fill)).filterMap id

/-- The tail slot of a ring as it stands now, with the reservation applied; none where the ring is
absent or full (R105, R106). -/
def Ctx.reserve (k : Ctx) (q : Nat) : Option (Nat × Ctx) :=
  let r := k.getRing q
  if r.len = 0 ∨ r.len < r.rsv + 1 then none
  else some (r.first + (r.head + r.rsv) % r.len, k.setRing q { r with rsv := r.rsv + 1 })

/-! Memory inside a bundle (R108, R259) -/

/-- The keys of an access of the running bundle, found both in memory as it stands and in memory as
it stood before the bundle, which its reads see (R108). -/
def State.resolveIn (s : State) (q : XReq) (ps : List (Word × Nat)) : Except XFault (List (Nat × Nat)) × State :=
  let (r, s1) := s.resolve s.me q ps
  let s0 := ({ s with mem := s.issue.mem0, bad := s.issue.bad0 }.resolve s.me q ps).2
  (r, { s1 with issue := { s1.issue with mem0 := s0.mem, bad0 := s0.bad } })

/-- The bytes of a read: memory before the bundle, under the context's own earlier stores (R108, R340). -/
def State.bytesRead (s : State) (parts : List (Nat × Nat)) : List Byte :=
  s.view (overlay s.issue.mem0 s.issue.pre.stores) parts

/-- A byte of a read is marked uncorrectable (R260). -/
def State.badRead (s : State) (parts : List (Nat × Nat)) : Bool :=
  viewBad (overlayBad s.issue.bad0 s.issue.pre.stores) parts

/-- The fault that an access of the bundle raises; `access` is its ACCESS type (R244). -/
def State.raiseX (s : State) (access : Nat) (f : XFault) (bte : Word := 0) : State :=
  s.raiseFault f.cause (f.access.getD access) f.va f.detail bte

/-! The random-bit queue (R112, R127, R128) -/

/-- Words popped from the queue, oldest first; none while it holds too few. -/
def State.popWords (s : State) (n : Nat) : Option (List (BitVec 512) × State) :=
  if s.cur.rbq.length < n then none
  else some (s.cur.rbq.take n, s.modCur fun k => { k with rbq := k.rbq.drop n })

/-- The generator's next word (R128). -/
def genWord (key ctr : BitVec 32) : BitVec 512 :=
  (rbWord key ctr).foldr (fun l acc => acc <<< 32 ||| l.setWidth 512) 0

/-- A context's queue with one word more, if it holds fewer than eight (R128). -/
def Ctx.refill (k : Ctx) : Ctx :=
  if 8 ≤ k.rbq.length then k
  else { k with rbq := k.rbq ++ [genWord k.rngKey k.rngCtr], rngCtr := k.rngCtr + 16 }

/-- Bits per element of a stochastic rounding over n elements (R127). -/
def srBits (n : Nat) : Nat := max 1 (min 16 (512 / n))

/-- Words that a stochastic rounding over n elements pops (R127). -/
def srWords (n : Nat) : Nat := (n * srBits n + 511) / 512

/-- Element i's draw from the popped words (R127). -/
def srDraw (ws : List (BitVec 512)) (n i : Nat) : Nat :=
  let r := srBits n
  ((ws.getD (i * r / 512) 0).toNat / 2 ^ (r * (i % (512 / r)))) % 2 ^ r

/-! Committed stores and what they wait for (R109, R340, R342, R343, R437) -/

/-- Two runs of bytes have a location in common: an aligned 8-byte chunk (R338). -/
def chunksMeet (a b : Nat × Nat) : Bool :=
  decide (a.1 / 8 ≤ (b.1 + b.2 - 1) / 8) && decide (b.1 / 8 ≤ (a.1 + a.2 - 1) / 8)

/-- Bytes of a width code (R257). -/
def atomWidth (scl : BitVec 3) : Nat := if scl = 4 then 16 else 2 ^ (scl.toNat % 4)

/-- Bytes of a reduction. -/
def Reduction.width (r : Reduction) : Nat := atomWidth (BitVec.ofNat 3 r.scl)

/-- The agent whose access a reduction is. -/
def Reduction.agent (r : Reduction) : Agent := ⟨r.core, r.asid, r.job, r.sup, true⟩

/-- A non-returning reduction of a bank that has not performed: in flight, or in the orphan log. -/
def State.holdsBack (s : State) (c b : Nat) (r : Reduction) : Bool := r.ctx = (s.ctx c b).serial && (s.ctx c b).occupied && r.stage ≠ 1

/-- Where a reduction goes, as translation stands; nowhere where it faults. -/
def Reduction.keys (s : State) (r : Reduction) : List (Nat × Nat) :=
  match (s.resolve r.agent { write := true } (pieces r.va r.width)).1 with
  | .ok ks => ks
  | .error _ => []

/-- The bank has a reduction that has not performed. -/
def State.reductionsOut (s : State) (c b : Nat) : Bool := s.fabric.reductions.any (s.holdsBack c b)

/-- A reduction of the bank, before access n, that has not performed goes to one of the locations (R340). -/
def State.behindReduction (s : State) (c b n : Nat) (parts : List (Nat × Nat)) : Bool :=
  s.fabric.reductions.any fun r => s.holdsBack c b r && decide (r.n < n) && (r.keys s).any fun k => parts.any (chunksMeet k)

/-- The runs of a store. -/
def StoreOp.runs (st : StoreOp) : List (Nat × Nat) := st.parts.map fun p => (p.1, p.2.length)

/-- A committed store with bytes in the LDM of a core. -/
def StoreOp.inLdm (c : Nat) (st : StoreOp) : Bool := st.parts.any fun p => isLdmOf c p.1

/-- A store covers a part of a location only, of which a read takes bytes that are not the store's: together they would be the
value of no write event (R338, R340). -/
def StoreOp.splits (st : StoreOp) (p : Nat × Nat) : Bool :=
  st.runs.any fun k => !(decide (k.1 ≤ p.1) && decide (p.1 + p.2 ≤ k.1 + k.2)) &&
    [k.1, k.1 + k.2].any fun e => decide (e % 8 ≠ 0) && decide (p.1 / 8 ≤ e / 8) && decide (e / 8 ≤ (p.1 + p.2 - 1) / 8)

/-- A read of a core's context waits for a store of its own: a seq_cst store to the location, which all agents observe at one
instant; a store that covers a part of the location; a store to the own LDM, where the read goes there too (R340, R342, R353). -/
def StoreOp.delays (c : Nat) (parts : List (Nat × Nat)) (st : StoreOp) : Bool :=
  (st.stamp.isSome && st.runs.any fun k => parts.any (chunksMeet k)) || parts.any st.splits ||
    (st.inLdm c && parts.any fun p => isLdmOf c p.1)

/-- A read of a context waits for its own writes before access n, which has these stores before it (R340, R342). -/
def State.ownWrites (s : State) (c b n : Nat) (stores : List StoreOp) (parts : List (Nat × Nat)) : Bool :=
  s.behindReduction c b n parts || stores.any (·.delays c parts)

/-- A read of the running context waits for its own earlier writes (R340, R342). -/
def State.readWaits (s : State) (parts : List (Nat × Nat)) : Bool :=
  s.ownWrites s.issue.core s.issue.bank s.fabric.nextItem s.issue.pre.stores parts

/-- The runs of an operand image that a queued operation before access n has yet to read (R109). -/
def QEntry.toRead (n : Nat) (e : QEntry) : List (Nat × Nat) := match e.late, e.need.img with
  | some o, some (_, ks) => if o.mark ≤ n && e.need.rows.isNone then ks else []
  | _, _ => []

/-- The runs of the operand images that a bank's queued operations before access n, and its members of merge stacks, have yet
to read (R109, R227). -/
def State.imageRuns (s : State) (c b n : Nat) : List (Nat × Nat) :=
  ((s.cluster (clusterOf c)).stk.flatMap fun st => if st.b.isNone then (st.members.filter (·.of c b)).flatMap (·.keys) else []) ++
  (s.ctx c b).queue.flatMap (QEntry.toRead n)

/-- Two runs of bytes have a byte in common. -/
def runsMeet (a b : Nat × Nat) : Bool := decide (a.1 < b.1 + b.2) && decide (b.1 < a.1 + a.2)

/-- A write waits while an image that its context reads before it has yet to be read where the write falls (R109, R227); `n` is
the write's number. -/
def State.imageWaits (s : State) (c b n : Nat) (parts : List (Nat × Nat)) : Bool :=
  (s.imageRuns c b n).any fun k => parts.any (runsMeet k)

/-- The state without the running bundle's own queued operations, which read before the bundle writes (R108). -/
def State.sansOwn (t : State) : State := t.modCur fun k => { k with queue := k.queue.filter fun e => e.bundle ≠ t.issue.pre.bundle }

/-- A write that the running bundle makes itself waits for the images that earlier bundles have yet to read there (R109). -/
def State.imageBefore (t : State) (parts : List (Nat × Nat)) : Bool :=
  t.sansOwn.imageWaits t.issue.core t.issue.bank t.fabric.nextItem parts

/-- An image of an earlier bundle has yet to be read: it is an access before a release of the running bundle (R342, R343). -/
def State.imagesOut (t : State) : Bool := !(t.sansOwn.imageRuns t.issue.core t.issue.bank t.fabric.nextItem).isEmpty

/-- A store waits: for the slot wheel, for the bank's reductions before a release or at its locations, for an image that is
yet to be read (R109, R340, R343, R348). -/
def State.storeWaits (s : State) (c b : Nat) (st : StoreOp) : Bool :=
  st.stamp.isSome ||
  (st.release && ((s.fabric.reductions.any fun r => s.holdsBack c b r && decide (r.n < st.n)) || !(s.imageRuns c b st.n).isEmpty)) ||
  s.behindReduction c b st.n st.runs || s.imageWaits c b st.n st.runs

/-- A committed store of the bank waits. -/
def State.storesStuck (s : State) (c b : Nat) : Bool := (s.ctx c b).stores.any (s.storeWaits c b)

/-- The running context's committed stores perform, or the bundle waits for what they, or a release, wait for (R343). -/
def State.afterStores (t : State) (release : Bool) (k : State → State) : State :=
  let c := t.issue.core
  let b := t.issue.bank
  if t.storesStuck c b || (release && (t.reductionsOut c b || t.imagesOut)) then t.holdFor none else k (t.flush c b)

/-- A committed store of the context goes to a location of a run. -/
def Ctx.storeMeets (k : Ctx) (key n : Nat) : Bool := k.stores.any fun st => st.runs.any (chunksMeet (key, n))

/-- The running context's committed stores perform before an access that its bundle makes at once: they meet it, or both go to
the own LDM (R340, R342). -/
def State.storesFirst (t : State) (parts : List (Nat × Nat)) : Bool :=
  parts.any fun p => t.cur.storeMeets p.1 p.2 || (isLdmOf t.issue.core p.1 && t.cur.stores.any (·.inLdm t.issue.core))

/-- A reduction of the running context to a location of the runs has yet to perform (R340). -/
def State.behindOwn (t : State) (parts : List (Nat × Nat)) : Bool :=
  t.behindReduction t.issue.core t.issue.bank t.fabric.nextItem parts

end Sys2Proof.Machine
end

