-- ==== Sys2Proof/Machine/Merge.lean ====
section
/-! DEFINITION. The merge buffer: joining a stack, deadlines and release (R223 to R230). -/
namespace Sys2Proof.Machine

/-- Rows that the members of a stack hold. -/
def Stack.rows (st : Stack) : Nat := (st.members.map (·.h)).sum

/-- The stack's priority: the highest among its members (R226). -/
def Stack.prio (st : Stack) : Nat := st.members.foldl (fun p m => max p m.prio) 0

/-- HOLD of MRGCTL, clamped (R230). -/
def holdLimit (hold : Nat) : Nat := min 1024 (max 16 hold)

/-- The cycle by which a member must leave: its join cycle and its scaled hold limit (R225). -/
def memberDeadline (joined : Word) (hold prio : Nat) : Word := joined + word (hold / 2 ^ min prio 2)

/-- A stack with one member more; it is released when full or when a priority-3 member arrives (R224 to R226). -/
def Stack.join (st : Stack) (m : Member) : Stack :=
  let d := memberDeadline m.joined st.hold m.prio
  let st1 := { st with members := st.members ++ [m], deadline := if d < st.deadline then d else st.deadline }
  if 128 ≤ st1.rows || 3 ≤ m.prio then st1.release m.joined else st1

/-- A member may join an open stack with its key and room for its rows (R224); a stack whose deadline has fallen due is
released already (R225). -/
def Stack.fits (st : Stack) (key : Stack) (h : Nat) (now : Word) : Bool :=
  st.released.isNone && decide (now < st.deadline) && st.asid = key.asid && st.va = key.va && st.bfmt = key.bfmt && st.afmt = key.afmt && st.rows + h ≤ 128

/-- A member put into the oldest stack that fits. -/
def joinOldest (key : Stack) (m : Member) : List Stack → Option (List Stack)
  | [] => none
  | st :: r => if st.fits key m.h m.joined then some (st.join m :: r) else (joinOldest key m r).map (st :: ·)

/-- A member joins or opens a stack; none when it issues alone (R224, R226). -/
def Cluster.join (cl : Cluster) (key : Stack) (m : Member) : Option Cluster :=
  match joinOldest key m cl.stk with
  | some stk => some { cl with stk := stk }
  | none =>
    if 3 ≤ m.prio || 16 ≤ (cl.stk.filter fun st => !st.lone).length then none
    else
      let hold := holdLimit cl.mrgHold
      some { cl with
        stk := cl.stk ++ [{ key with n := cl.nextStack, members := [m], hold := hold, deadline := memberDeadline m.joined hold m.prio
                                     released := none, begun := none, b := none, core := none, lone := false }]
        nextStack := cl.nextStack + 1 }

/-- Stacks with a member of a context are released at once (R222). -/
def State.releaseStacksOf (s : State) (c b : Nat) : State :=
  s.modCluster (clusterOf c) fun cl =>
    { cl with stk := cl.stk.map fun st =>
        if st.members.any fun m => m.core = c && m.bank = b then st.release s.sidereal else st }

/-- A write of MRGCTL: DIS = 1 releases every open stack (R230). -/
def State.writeMrgctl (s : State) (d : Nat) (v : Word) : State :=
  s.modCluster d fun cl =>
    { cl with mrgDis := v.getLsbD 16, mrgHold := bits v 0 11
              stk := if v.getLsbD 16 then cl.stk.map (Stack.release s.sidereal) else cl.stk }

end Sys2Proof.Machine
end

