-- ==== Sys2Proof/Machine/Matrix.lean ====
section
/-! DEFINITION. The M slot: matrix multiply, tile transforms, accumulator and tile housekeeping, row moves and expander slots (R205 to R222). -/
namespace Sys2Proof.Machine

/-! Tile operands (R77, R103, R105) -/

/-- A tile field as a source: its latch, field and hold code. -/
structure TSrc where
  i : Nat
  fld : BitVec 6
  h : Nat
  deriving DecidableEq, Repr

/-- Field A as a tile source, and field B. -/
def tA (f : MX) : TSrc := ⟨0, f.a, f.ha.toNat⟩
def tB (f : MX) : TSrc := ⟨1, f.b, f.hb.toNat⟩

/-- The tile number of a source: the latched number, 32 (no tile; it reads with tag POISON) for an
empty latch, or what the field resolves to; none where a ring name is out of bounds. -/
def State.tileOf (s : State) (o : TSrc) : Option Nat :=
  if o.h < 2 then (s.issue.pre.tileField o.fld).map (·.1)
  else
    match s.issue.pre.getLatch s.issue.slot o.i with
    | .tile n => some n
    | _ => some 32

/-- The source with its tile number, for latching. -/
def TSrc.opd (o : TSrc) (n : Nat) : Opd := ⟨o.i, .t, n, o.h⟩

/-- What the slot's operation needs to leave its queue. -/
def State.needs (s : State) (f : Need → Need) : State := { s with issue := { s.issue with need := f s.issue.need } }

/-- An M operation: ring names resolve, out-of-bounds names trap, a source slot whose load has not
begun waits; then it slips, and waits in its queue until its source slots are filled (R105, R110).  `srcs` and `dsts` are tile fields, `rd` further registers
read and `wr` registers written besides the destination tiles; the body gets the tile numbers. -/
def State.mOp (s : State) (srcs : List TSrc) (dsts : List (BitVec 6)) (rd : List Opd) (wr : List Reg)
    (body : List Nat → List Nat → State → State) : Out :=
  let ns := srcs.map s.tileOf
  let ds := dsts.map fun d => (s.issue.pre.tileField d).map (·.1)
  let os := (srcs.zip ns).filterMap fun p => p.2.map p.1.opd
  let named := srcs.filter (·.h < 2)
  if !s.active then s.slipped false os [] id
  else if ns.contains none || ds.contains none then .next (s.raise 0x0F 0)
  else if named.any fun o => !s.issue.pre.tileReserved o.fld then .next (s.holdFor none)
  else
    let ds := ds.map (·.getD 32)
    (s.needs fun q => { q with after := named.flatMap fun o => s.issue.pre.fillsAwaited o.fld }).slipped true (os ++ rd)
      (wr ++ ds.map .t) (body (ns.map (·.getD 32)) ds)

/-- A tile as it stood before the bundle. -/
def State.tileIn (s : State) (n : Nat) : Tile := s.issue.pre.getT n

/-- A POISON tile raises poison consumption. -/
def State.badTile (s : State) (n : Nat) : Option State :=
  if (s.tileIn n).tag = .poison then some (s.raise 0x10 0) else none

/-- A tile must carry a tag of a set: POISON raises poison consumption, others the format fault. -/
def State.badTileTag (s : State) (n : Nat) (ok : Fmt → Bool) : Option State :=
  match s.badTile n with
  | some t => some t
  | none => if ok (s.tileIn n).tag then none else some (s.formatFault (s.tileIn n).tag .raw)

/-- An accumulator must carry a tag of a set. -/
def State.badAcc (s : State) (n : Nat) (ok : Fmt → Bool) (required : Fmt) : Option State :=
  let tag := (s.issue.pre.getA n).tag
  if tag = .poison then some (s.raise 0x10 0)
  else if ok tag then none
  else some (s.formatFault tag required)

/-- The first trap of a list of checks, or the body. -/
def orElse (checks : List (Option State)) (body : State) : State :=
  match checks.findSome? id with
  | some bad => bad
  | none => body

/-- t n, and a n, written by the bundle. -/
def State.putT (s : State) (n : Nat) (t : Tile) : State := s.modCur fun k => k.setT n t
def State.putA (s : State) (n : Nat) (a : Acc) : State := s.modCur fun k => k.setA n a

/-! Matrix operand images (R207, R228) -/

/-- Bytes of an image. -/
def imageLen : Nat := 27712

/-- The address of a memory operand: x[B] + sext(DISP14) × 64 (R76). -/
def State.imageVA (s : State) (f : MX) : Word := s.issue.pre.getX f.b.toNat + f.disp.signExtend 64 * 64

/-- The tile that an image's rows make. -/
def imageTile (f : Fmt) (bs : List Byte) : Tile :=
  tileOfRows f ((List.range 128).map fun r => rowOfBytes ((bs.drop (64 + 216 * r)).take 216))

/-- The image at an address as the bundle's issue checks it: the state with what its operation needs of it, and its format;
or the trap that this raises: alignment, translation, format code (R207). -/
def State.image (s : State) (va : Word) : Except State (Fmt × State) :=
  if bits va 0 6 ≠ 0 then .error (s.raise 0x0E va)
  else
    match s.resolveIn {} (pieces va imageLen) with
    | (.error x, s1) => .error (s1.raiseX 7 x)
    | (.ok parts, s1) =>
      let head := parts.take 1 |>.map fun p => (p.1, 1)
      let code := ((s1.bytesRead head).headD 0).setWidth 6
      if s1.readWaits head then .error (s1.holdFor none)
      else match Fmt.ofCode code with
      | some g =>
        if g.inMatrix then .ok (g, s1.needs fun q => { q with img := some (g, parts) })
        else .error (s1.raise 0x0C 0 (code.setWidth 32))
      | none => .error (s1.raise 0x0C 0 (code.setWidth 32))

/-- An accumulator's operand image can not be read, or is marked uncorrectable: its tag becomes POISON, and a record with
ACCESS 7 and a notice follow (R228). -/
def State.lateImage (s : State) (acc : Nat) (va : Word) (cause : Nat) (detail : Word) : State :=
  let r := { faultOf s s.issue.core s.issue.bank cause 7 s.issue.slot va detail with async := true, notice := true }
  (s.modCur fun k => k.setA acc { k.getA acc with tag := .poison }).report { r with pc := s.issue.pre.pc }

/-- The image's format, as the checks found it. -/
def State.imageFmt (s : State) : Fmt := match s.issue.need.img with
  | some (g, _) => g
  | none => .raw

/-- The rows of the image, read as the operation reaches its engine, under the context's own stores before it, or as its bundle
found them where that has written some since; a fault found then leaves the accumulator POISON (R108, R207, R228, R340). -/
def State.withRows (t : State) (va : Word) (acc : Nat) (k : Tile → State → State) : State :=
  match t.issue.need.rows with
  | some (bs, bad) =>
    let t1 := k (imageTile t.imageFmt bs) t
    if bad then t1.lateImage acc va 0x10 0 else t1
  | none =>
    match t.resolve t.me {} (pieces va imageLen) with
    | (.error x, t1) => t1.lateImage acc va x.cause x.detail
    | (.ok parts, t1) =>
      let own := t.cur.stores.filter fun st => st.n < t.issue.late.getD 0
      let t2 := k (imageTile t.imageFmt (t1.view (overlay t1.mem own) parts)) (t1.afterRead parts)
      if viewBad (overlayBad t1.bad own) parts then t2.lateImage acc va 0x10 0 else t2

/-- An operation with an image: `checks` at the bundle's issue, which give the accumulator's tag and bound to come; `act` as
it leaves its queue. -/
def State.withImage (t : State) (va : Word) (n : Nat) (checks : Fmt → State → Except State Acc) (act : Fmt → Acc → State → State) :
    State :=
  if t.issue.late.isSome then
    match checks t.imageFmt t with
    | .error bad => bad
    | .ok acc => act t.imageFmt acc t
  else
    match t.image va with
    | .error bad => bad
    | .ok (g, t1) =>
      match checks g t1 with
      | .error bad => bad
      | .ok acc => t1.putA n acc

/-! Matrix multiply (R208 to R210, R223) -/

/-- The accumulator that an operation of a class adds into: zeroed when ZA = 1, else its tag must be
the class's (R209). -/
def State.accFor (s : State) (c : MClass) (n : Nat) (za : Bool) : Except State Acc :=
  if za then .ok ⟨c.accTag, 0, []⟩
  else
    match s.badAcc n (· == c.accTag) c.accTag with
    | some t => .error t
    | none => .ok (s.issue.pre.getA n)

/-- The residue bound charged, or the residue-headroom fault (R132). -/
def State.charged (s : State) (c : MClass) (n : Nat) (acc : Acc) : Except State Acc :=
  if c ≠ .residue then .ok acc
  else if residueLimit < acc.bound + n then .error (s.raise 0x0D 0)
  else .ok { acc with bound := acc.bound + n }

/-- The checks of R209 on a pair of formats, and the accumulator to add into. -/
def State.mmaAcc (s : State) (f : MX) (fa fb : Fmt) : Except State (MClass × Acc) :=
  match pairClass fa fb with
  | none => .error (s.formatFault (if fa.inMatrix then fb else fa) .raw)
  | some c =>
    match s.accFor c f.acc.toNat (f.za = 1) with
    | .error t => .error t
    | .ok acc =>
      match s.charged c (residueCharge fa) acc with
      | .error t => .error t
      | .ok acc => .ok (c, acc)

/-- Whether an MMAM of a core may join the merge buffer (R223). -/
def State.mergeable (s : State) (c : Nat) (f : MX) : Bool :=
  f.mrg = 1 && f.bm = 1 && f.hr.toNat ≤ 3 && !(s.cluster (clusterOf c)).mrgDis

/-- The key of R224 as a stack without members. -/
def stackKey (asid : Nat) (va : Word) (bfmt afmt : Fmt) : Stack :=
  { n := 0, asid := asid, va := va, bfmt := bfmt, afmt := afmt, members := [], hold := 0, deadline := 0, released := none
    begun := none, b := none, core := none, lone := false }

/-- The merge buffer takes a member as it leaves its queue: its accumulator stays pending until its stack is split (R223,
R224).  None when the operation issues alone. -/
def State.joinBuffer (t : State) (f : MX) (ta : Tile) (bfmt : Fmt) (keys : List (Nat × Nat)) (va : Word) (bound : Nat) : Option State :=
  let k := t.issue.pre
  let core := t.issue.core
  let m : Member :=
    { core := core, bank := t.issue.bank, job := k.job, prio := k.prio, sup := k.mode = .supervisor, acc := f.acc.toNat
      bound := bound, za := f.za = 1, h := rowsOf f.hr, rows := ⟨ta.tag, ta.rows.filter fun e => e.1 < rowsOf f.hr⟩
      token := k.bundle, joined := t.sidereal, gone := false, pc := k.pc, keys := keys }
  match (t.cluster (clusterOf core)).join (stackKey k.asid va bfmt ta.tag) m with
  | none => none
  | some cl => some { t.modCluster (clusterOf core) fun _ => cl with issue := { t.issue with joined := true } }

/-- MMA and MMAM with BM = 1 (R207, R209, R223); an image that the bundle has written since is not shared (R108). -/
def State.mmaImage (s : State) (f : MX) (merge : Bool) : Out :=
  let va := s.imageVA f
  let n := f.acc.toNat
  s.mOp [tA f] [] [opReg .x f.b.toNat] [.a n] fun ns _ t =>
    let na := ns.getD 0 32
    let ta := s.tileIn na
    t.withImage va n
      (fun g t => match t.badTile na with
        | some bad => .error bad
        | none => (t.mmaAcc f ta.tag g).map fun p => { p.2 with tag := p.1.accTag })
      (fun g acc t =>
        let keys := match t.issue.need.img with
          | some p => p.2
          | none => []
        match (if merge && t.issue.need.rows.isNone && t.mergeable t.issue.core f then t.joinBuffer f ta g keys va acc.bound else none) with
        | some t2 => t2
        | none => t.withRows va n fun rows t =>
          match pairClass ta.tag g with
          | some c => t.putA n (accumulate c ta.tag g (rowsOf f.hr) ta rows acc)
          | none => t)

/-- MMA and MMAM with two tiles (R209). -/
def State.mmaTiles (s : State) (f : MX) : Out :=
  s.mOp [tA f, tB f] [] [] [.a f.acc.toNat] fun ns _ t =>
    let ta := s.tileIn (ns.getD 0 32)
    let tb := s.tileIn (ns.getD 1 32)
    match [t.badTile (ns.getD 0 32), t.badTile (ns.getD 1 32)].findSome? id with
    | some bad => bad
    | none =>
      match t.mmaAcc f ta.tag tb.tag with
      | .error bad => bad
      | .ok (c, acc) => t.putA f.acc.toNat (accumulate c ta.tag tb.tag (rowsOf f.hr) ta tb acc)

/-! Expander slots (R221) -/

/-- Bytes of a projection slot. -/
def projLen : Nat := 114688

/-- The core slot xs loaded from an address, or the trap that this raises. -/
def State.loadExpander (s : State) (xs : Nat) (va : Word) : Except State State :=
  if bits va 0 6 ≠ 0 then .error (s.raise 0x0E va)
  else
    match s.resolveIn {} (pieces va projLen) with
    | (.error x, s1) => .error (s1.raiseX 7 x)
    | (.ok parts, s1) =>
      if s1.readWaits parts then .error (s1.holdFor none)
      else .ok ((s1.afterRead parts).modCore s.issue.core fun k =>
        { k with exp := k.exp.set .none xs ⟨true, s.issue.pre.asid, va, true, s1.bytesRead parts, s1.badRead parts, s.issue.bank⟩ })

/-- The projection slot that a use by the context finds, reloaded from its descriptor where the core
slot holds another load; an invalid descriptor raises the format fault (R210, R221). -/
def State.projection (s : State) (xs : Nat) (found : Fmt) : Except State (ExpSlot × State) :=
  let d := s.issue.pre.exp.get .none xs
  let slot (s : State) : ExpSlot := (s.core s.issue.core).exp.get .none xs
  if !d.valid then .error (s.formatFault found .raw)
  else if (slot s).valid && (slot s).asid = s.issue.pre.asid && (slot s).va = d.va then .ok (slot s, s)
  else
    match s.loadExpander xs d.va with
    | .error t => .error t
    | .ok s1 => .ok (slot s1, s1)

/-- MMA and MMAM with KV = 11: absorb (R210). -/
def State.absorb (s : State) (f : MX) : Out :=
  s.mOp [tA f, tB f] [] [] [.a f.acc.toNat] fun ns _ t =>
    let na := ns.getD 0 32
    let nb := ns.getD 1 32
    let ta := s.tileIn na
    let tb := s.tileIn nb
    match [t.badTileTag na (fun g => g == .e4m3 || g == .e4m3row), t.badTileTag nb (· == .lat8)].findSome? id with
    | some bad => bad
    | none =>
      match t.projection f.xs.toNat ta.tag with
      | .error bad => bad
      | .ok (w, t0) =>
        let t1 := t0.needs fun q => { q with xs := some f.xs.toNat }
        match t1.accFor .float f.acc.toNat (f.za = 1) with
        | .error bad => bad
        | .ok acc =>
          let h := rowsOf f.hr
          let ra := tileOfRows .e4m3b32 ((List.range h).map fun i => absorbedRow w.bytes ta.tag f.kb.toNat (ta.row i))
          let t2 := t1.putA f.acc.toNat (accumulate .float .e4m3b32 .lat8 h ra tb acc)
          if w.bad then t2.lateImage f.acc.toNat w.va 0x10 0 else t2

/-- MMA (R209). -/
def execMma (f : MX) (s : State) : Out := if f.bm = 1 then s.mmaImage f false else s.mmaTiles f

/-- MMA, absorb form (R210). -/
def execMmaAbs (f : MX) (s : State) : Out := s.absorb f

/-- MMAM: as MMA unless it joins the merge buffer (R209, R223). -/
def execMmam (f : MX) (s : State) : Out :=
  if f.kv = 3 then s.absorb f else if f.bm = 1 then s.mmaImage f true else s.mmaTiles f

/-! Tile transforms and row reduction (R213 to R215) -/

/-- The tags that TTRN accepts. -/
def inTtrn : Fmt → Bool
  | .e4m3 | .e5m2 | .e3m2 | .e2m3 | .int8 | .uint8 | .res8 | .e2m1 | .int4 | .uint4 | .res4 => true
  | _ => false

/-- The transpose of the 128 × 128 window at column c0 (R213). -/
def transpose (t : Tile) (c0 : Nat) : Tile :=
  tileOfRows t.tag ((List.range 128).map fun r =>
    packRow t.tag.width ((List.range 128).map fun i => t.tag.clean (rowElem t.tag (t.row i) (c0 + r))) [])

/-- TTRN (R213). -/
def execTtrn (f : MX) (s : State) : Out :=
  s.mOp [tA f] [f.b] [] [] fun ns ds t =>
    let n := ns.getD 0 32
    let ta := s.tileIn n
    orElse [t.badTileTag n inTtrn, if ta.tag.width = 8 && 2 < f.cm.toNat then some (t.raise 0x0F 0) else none]
      (t.putT (ds.getD 0 32) (transpose ta (32 * f.cm.toNat)))

/-- The permutations of TPRM on a row of n elements: where element k of the result comes from (R214). -/
def permSource (cm n k : Nat) : Nat :=
  match cm with
  | 1 => if k < n / 2 then 2 * k else 2 * (k - n / 2) + 1
  | 2 => if k % 2 = 0 then k / 2 else n / 2 + k / 2
  | 3 => if k / 64 * 64 + 64 ≤ n then (if k % 64 < 32 then k + 32 else k - 32) else k
  | _ => k

/-- TPRM's result (R214). -/
def permuted (t : Tile) (cm : Nat) : Tile :=
  let n := t.tag.kblock
  tileOfRows t.tag ((List.range 128).map fun r =>
    let row := t.row (if cm = 0 then 127 - r else r)
    packRow t.tag.width ((List.range n).map fun k => t.tag.clean (rowElem t.tag row (permSource cm n k))) [])

/-- TPRM (R214). -/
def execTprm (f : MX) (s : State) : Out :=
  s.mOp [tA f] [f.b] [] [] fun ns ds t =>
    let n := ns.getD 0 32
    orElse [t.badTileTag n fun g => g.isUnscaled && 8 ≤ g.width]
      (t.putT (ds.getD 0 32) (permuted (s.tileIn n) f.cm.toNat))

/-- TRED (R215). -/
def execTred (f : MX) (s : State) : Out :=
  s.mOp [tA f] [] [] [.a f.acc.toNat] fun ns _ t =>
    let n := ns.getD 0 32
    let ta := s.tileIn n
    match t.badTile n with
    | some bad => bad
    | none =>
      match pairClass ta.tag ta.tag with
      | none => t.formatFault ta.tag .raw
      | some c =>
        match t.accFor c f.acc.toNat (f.za = 1) with
        | .error bad => bad
        | .ok acc =>
          match t.charged c (if ta.tag = .res8 then 24576 else 3072) acc with
          | .error bad => bad
          | .ok acc => t.putA f.acc.toNat (rowSums c ta.tag (rowsOf f.hr) f.cm.toNat ta acc)

/-! Accumulator and tile housekeeping (R216 to R219) -/

/-- The format code in DISP14[5:0]. -/
def mxFmt (f : MX) : Fmt := (Fmt.ofCode (f.disp.setWidth 6)).getD .raw

/-- AZERO (R216). -/
def execAzero (f : MX) (s : State) : Out :=
  s.mOp [] [] [] [.a f.acc.toNat] fun _ _ t => t.putA f.acc.toNat ⟨mxFmt f, 0, []⟩

/-- TZERO (R216). -/
def execTzero (f : MX) (s : State) : Out :=
  s.mOp [] [f.a] [] [] fun _ ds t => t.putT (ds.getD 0 32) ⟨mxFmt f, []⟩

/-- TTAG (R216): the field names source and destination. -/
def execTtag (f : MX) (s : State) : Out :=
  s.mOp [⟨0, f.a, 0⟩] [f.a] [] [] fun ns ds t =>
    let n := ns.getD 0 32
    let ta := s.tileIn n
    orElse [t.badTile n]
      (t.putT (ds.getD 0 32) (tileOfRows (mxFmt f) ((List.range 128).map fun r => trimRow (mxFmt f) (ta.row r))))

/-- A sum of two accumulator elements of one tag (R217). -/
def addAcc (tag : Fmt) (a b : Nat) : Nat :=
  match tag with
  | .acc32f => Num.toF32 .rne (Num.add .rne (Num.ofF32 a) (Num.ofF32 b))
  | .resa => resAdd a b
  | _ => (a + b) % 2 ^ 32

/-- AADD (R217). -/
def execAadd (f : MX) (s : State) : Out :=
  let ns := f.a.toNat % 8
  let nd := f.acc.toNat
  s.mOp [] [] [opReg .a ns] [.a nd] fun _ _ t =>
    let src := s.issue.pre.getA ns
    let dst := s.issue.pre.getA nd
    match [t.badAcc nd (fun _ => true) .raw, t.badAcc ns (· == dst.tag) dst.tag].findSome? id with
    | some bad => bad
    | none =>
      match t.charged (if dst.tag = .resa then .residue else .float) src.bound dst with
      | .error bad => bad
      | .ok acc => t.putA nd (acc.mapRows (rowsOf f.hr) fun i j e => addAcc dst.tag e (accElem (src.row i) j))

/-- ASCL and ACVT: row scales of A and of B or the image applied to h rows (R218). -/
def State.applyScales (s : State) (f : MX) (h : Nat) (ok : Fmt → Bool) : Out :=
  let n := f.acc.toNat
  let acc := s.issue.pre.getA n
  let result (ta tb : Tile) : Acc :=
    { acc.mapRows h fun i j e => scaled (acc.tag = .acc32i) (rowScale ta.tag (ta.row i)) (rowScale tb.tag (tb.row j)) e with
      tag := .acc32f }
  if f.bm = 1 then
    s.mOp [tA f] [] [opReg .x f.b.toNat] [.a n] fun ns _ t =>
      t.withImage (s.imageVA f) n
        (fun _ t => match [t.badTileTag (ns.getD 0 32) Fmt.inMatrix, t.badAcc n ok .acc32f].findSome? id with
          | some bad => .error bad
          | none => .ok { acc with tag := .acc32f })
        (fun _ _ t => t.withRows (s.imageVA f) n fun rows t => t.putA n (result (s.tileIn (ns.getD 0 32)) rows))
  else
    s.mOp [tA f, tB f] [] [] [.a n] fun ns _ t =>
      orElse [t.badTileTag (ns.getD 0 32) Fmt.inMatrix, t.badTileTag (ns.getD 1 32) Fmt.inMatrix, t.badAcc n ok .acc32f]
        (t.putA n (result (s.tileIn (ns.getD 0 32)) (s.tileIn (ns.getD 1 32))))

/-- ASCL: the accumulator must carry ACC32F (R218). -/
def execAscl (f : MX) (s : State) : Out := s.applyScales f (rowsOf f.hr) (· == .acc32f)

/-- ACVT: all rows; ACC32F or ACC32I (R218). -/
def execAcvt (f : MX) (s : State) : Out := s.applyScales f 128 fun g => g == .acc32f || g == .acc32i

/-- The fold of every element (R133, R219). -/
def foldAcc (a : Acc) : Acc := { a.mapRows 128 fun _ _ e => Num.bitsOfInt 32 (resFold e) with tag := .acc32i, bound := 0 }

/-- AFOLD (R219). -/
def execAfold (f : MX) (s : State) : Out :=
  let ns := f.a.toNat % 8
  let nd := f.acc.toNat
  s.mOp [] [] [] [.a nd, .a ns] fun _ _ t =>
    let src := s.issue.pre.getA ns
    match t.badAcc ns (· == .resa) .resa with
    | some bad => bad
    | none =>
      if ns = nd then t.putA nd (foldAcc src)
      else
        match (if f.za = 1 then none else t.badAcc nd (· == .acc32i) .acc32i) with
        | some bad => bad
        | none =>
          let dst : Acc := if f.za = 1 then ⟨.acc32i, 0, []⟩ else s.issue.pre.getA nd
          let sum := dst.mapRows 128 fun i j e => Num.bitsOfInt 32 (e + resFold (accElem (src.row i) j))
          (t.putA nd sum).putA ns ⟨.resa, 0, []⟩

/-! Row moves (R220) -/

/-- TMOV (R220): no tag check. -/
def execTmov (f : MX) (s : State) : Out :=
  s.mOp [tA f] [f.b] [] [] fun ns ds t => t.putT (ds.getD 0 32) (s.tileIn (ns.getD 0 32))

/-- TROW (R220). -/
def execTrow (f : MX) (s : State) : Out :=
  s.mOp [tA f] [] [] [.v f.b.toNat] fun ns _ t =>
    let n := ns.getD 0 32
    let row := (s.tileIn n).row (f.disp.toNat % 128)
    orElse [t.badTileTag n (· != .int2)]
      (t.putV f.b.toNat ⟨(s.tileIn n).tag, BitVec.ofNat 2048 (row.toNat % 2 ^ 1536), BitVec.ofNat 256 (row.toNat / 2 ^ 1536)⟩)

/-- A v source of the M slot: its tag must be one of a set. -/
def State.badV (s : State) (n : Nat) (ok : Fmt → Bool) (required : Fmt) : Option State :=
  let tag := (s.issue.pre.getV n).tag
  if tag = .poison then some (s.raise 0x10 0)
  else if ok tag then none
  else some (s.formatFault tag required)

/-- TWROW (R220): the field names a tile that is read and written. -/
def execTwrow (f : MX) (s : State) : Out :=
  s.mOp [⟨0, f.a, 0⟩] [f.a] [opReg .v f.b.toNat] [] fun ns ds t =>
    let n := ns.getD 0 32
    let ta := s.tileIn n
    let v := s.issue.pre.getV f.b.toNat
    let row := BitVec.ofNat 1728 (v.body.toNat % 2 ^ 1536 + 2 ^ 1536 * (v.side.toNat % 2 ^ 192))
    orElse [t.badV f.b.toNat (fun _ => true) .raw, t.badTile n, t.badV f.b.toNat (· == ta.tag) ta.tag]
      (t.putT (ds.getD 0 32) { ta with rows := ta.rows.set 0 (f.disp.toNat % 128) row })

/-- The vector tag of an accumulator's elements (R220). -/
def accLaneFmt : Fmt → Fmt
  | .acc32f => .fp32
  | .acc32i => .int32
  | _ => .raw

/-- AROW (R220). -/
def execArow (f : MX) (s : State) : Out :=
  let n := f.acc.toNat
  s.mOp [] [] [opReg .a n] [.v f.b.toNat] fun _ _ t =>
    let acc := s.issue.pre.getA n
    let row := acc.row (f.disp.toNat % 128)
    let half := row.toNat / 2 ^ (2048 * (f.disp.toNat / 128 % 2)) % 2 ^ 2048
    orElse [t.badAcc n (fun _ => true) .raw] (t.putV f.b.toNat ⟨accLaneFmt acc.tag, BitVec.ofNat 2048 half, 0⟩)

/-- A RESA element as AWROW writes it: the reserved bits are zero; a channel out of range stands as written, and enters
arithmetic reduced (R131). -/
def resStored (e : Nat) : Nat := e % 2 ^ 24

/-- AWROW (R220). -/
def execAwrow (f : MX) (s : State) : Out :=
  let n := f.acc.toNat
  s.mOp [] [] [opReg .v f.b.toNat] [.a n] fun _ _ t =>
    let acc := s.issue.pre.getA n
    let v := s.issue.pre.getV f.b.toNat
    let i := f.disp.toNat % 128
    let h := f.disp.toNat / 128 % 2
    let lane (k : Nat) : Nat := v.body.toNat / 2 ^ (32 * k) % 2 ^ 32
    let elem (j : Nat) : Nat :=
      if j / 64 = h then (if acc.tag = .resa then resStored (lane (j % 64)) else lane (j % 64)) else accElem (acc.row i) j
    orElse [t.badV f.b.toNat (fun _ => true) .raw, t.badAcc n (fun _ => true) .raw,
        t.badV f.b.toNat (· == accLaneFmt acc.tag) (accLaneFmt acc.tag)]
      (t.putA n { acc with rows := acc.rows.set 0 i (packAcc ((List.range 128).map elem))
                           bound := if acc.tag = .resa then residueLimit else acc.bound })

/-! Expander slots and MWAIT (R221, R222) -/

/-- LXLD (R221). -/
def execLxld (f : MX) (s : State) : Out :=
  s.mOp [] [] [opReg .x f.b.toNat] [] fun _ _ t =>
    match t.loadExpander f.xs.toNat (s.imageVA f) with
    | .error bad => bad
    | .ok t1 => t1.modCur fun k => { k with exp := k.exp.set .none f.xs.toNat ⟨true, s.imageVA f⟩ }

/-- LXINV (R221). -/
def execLxinv (f : MX) (s : State) : Out :=
  s.mOp [] [] [] [] fun _ _ t =>
    let xs := f.xs.toNat
    let d := s.issue.pre.exp.get .none xs
    let t1 := t.modCur fun k => { k with exp := k.exp.set .none xs { d with valid := false } }
    t1.modCore s.issue.core fun k =>
      let slot := k.exp.get .none xs
      if slot.valid && slot.asid = s.issue.pre.asid && slot.va = d.va then
        { k with exp := k.exp.set .none xs { slot with valid := false } }
      else k

/-- MWAIT: stacks with members of the context are released at once; the operation stays in its queue
until R222's conditions hold, and later M operations behind it. -/
def execMwait (s : State) : Out :=
  if s.issue.unsure then .next (s.holdFor none)
  else if s.active then .next ((s.releaseStacksOf s.issue.core s.issue.bank).enqueue [] [] true)
  else s.slipped false [] [] id

end Sys2Proof.Machine
end

