-- ==== Sys2Proof/Machine/Flags.lean ====
section
/-! DEFINITION. What compares and conditions compute: whole predicates of the scalar slot, lane groups of the vector slots (R71, R174, R183, R189).  The machine has no status flags (R125). -/
namespace Sys2Proof.Machine

/-- A compare's predicate: all ones when the condition holds, zero otherwise (R174). -/
def allBits (c : Bool) : Word := if c then -1 else 0

/-- Elements that one predicate bit governs among n elements (R183). -/
def groupSize (n : Nat) : Nat := max 1 (n / 64)

/-- Element i of n is active under a condition (R183). -/
def laneOn (cond : Word) (n i : Nat) : Bool := cond.getLsbD (i / groupSize n)

/-- The predicate that a vector compare writes: bit i over lane group i, any lane or every lane; 0
where the condition of the slot is 0 (R189). -/
def comparePred (cond : Word) (every : Bool) (hits : List Bool) : Word :=
  let g := groupSize hits.length
  let ofGroup (i : Nat) : Bool :=
    let w := (hits.drop (g * i)).take g
    if every then w.all id else w.any id
  word ((List.range 64).foldl (fun acc i => if cond.getLsbD i && ofGroup i then acc + 2 ^ i else acc) 0)

/-- Set bits of a predicate (R175). -/
def popCount (v : Word) : Nat := ((List.range 64).filter fun i => v.getLsbD i).length

/-- Index of the lowest set bit; 64 if none (R175). -/
def lowestSet (v : Word) : Nat := ((List.range 64).find? fun i => v.getLsbD i).getD 64

end Sys2Proof.Machine
end

