-- ==== Sys2Proof/Machine/Vector.lean ====
section
/-! DEFINITION. The V0 and V1 slots: lane arithmetic, logic, compares, moves, reductions, sorting, conversions and tags (R180 to R203). -/
namespace Sys2Proof.Machine

/-! Lanes (R99, R182) -/

/-- The elements of a body of w-bit lanes. -/
def lanesOf (w : Nat) (body : BitVec 2048) : List Nat :=
  (List.range (2048 / w)).map fun i => body.toNat / 2 ^ (w * i) % 2 ^ w

/-- A body from its w-bit lanes. -/
def packLanes (w : Nat) (es : List Nat) : BitVec 2048 :=
  BitVec.ofNat 2048 (es.foldr (fun e acc => e % 2 ^ w + acc * 2 ^ w) 0)

/-- The elements of a register under a format. -/
def VReg.elems (r : VReg) (f : Fmt) : List Nat := lanesOf f.width r.body

/-- Byte k of a sidecar. -/
def VReg.sideByte (r : VReg) (k : Nat) : Nat := r.side.toNat / 2 ^ (8 * k) % 256

/-- A sidecar from its bytes, from byte 0 on. -/
def packSide (bs : List Nat) : BitVec 256 := BitVec.ofNat 256 (bs.foldr (fun b acc => b % 256 + 256 * acc) 0)

/-- A sidecar with the bytes that a format does not use cleared (R99). -/
def trimSide (f : Fmt) (side : BitVec 256) : BitVec 256 :=
  side &&& BitVec.ofNat 256 (2 ^ (8 * f.sidecarUsed f.lanes) - 1)

/-- The result of a per-element operation: active elements new, inactive ones by the keep rule, the
tag the result format (R183). -/
def VReg.merge (old : VReg) (f : Fmt) (cond : Word) (new : List Nat) : VReg :=
  let was := if old.tag = f then old.elems f else []
  let n := f.lanes
  ⟨f, packLanes f.width ((List.range n).map fun i => if laneOn cond n i then f.clean (new.getD i 0) else was.getD i 0), 0⟩

/-! Checks (R101, R182) -/

/-- FMT as a format; RAW, code 0, stands for no format. -/
def fmtOf (f : SR) : Fmt := (Fmt.ofCode f.fmt).getD .raw

/-- The check of a tagged source against FMT (RAW: none given) and an accepted class: the state in
which the trap is taken, or none. -/
def State.badTag (s : State) (o : Opd) (fmt : Fmt) (ok : Fmt → Bool) : Option State :=
  let tag := (s.srcV o).tag
  if tag = .poison then some (s.raise 0x10 0)
  else if fmt ≠ .raw && tag ≠ fmt then some (s.formatFault tag fmt)
  else if !ok tag then some (s.formatFault tag .raw)
  else none

/-- The checks of several sources, which must all carry one tag. -/
def State.badTags (s : State) (os : List Opd) (fmt : Fmt) (ok : Fmt → Bool) : Option State :=
  match os.findSome? fun o => s.badTag o fmt ok with
  | some t => some t
  | none =>
    match os with
    | [] => none
    | o :: r =>
      match r.find? fun q => (s.srcV q).tag ≠ (s.srcV o).tag with
      | some q => some (s.formatFault (s.srcV q).tag (s.srcV o).tag)
      | none => none

/-! Shapes -/

/-- A vector operation whose sources are checked first.  `whole`: it tests bit 0 only (R183). -/
def State.vOp (s : State) (whole : Bool) (os : List Opd) (wr : List Reg) (check : Option State) (body : State → State) : Out :=
  s.slipped (!whole || s.active) os wr fun t =>
    match check with
    | some bad => bad
    | none => body t

/-- v[D] written under the keep rule. -/
def State.vMerge (s t : State) (d : Nat) (f : Fmt) (new : List Nat) : State :=
  t.putV d ((s.issue.pre.getV d).merge f s.issue.cond new)

/-- A per-element operation on v[A]. -/
def State.v1 (s : State) (f : SR) (ok : Fmt → Bool) (op : Fmt → Nat → Nat) : Out :=
  let a := opA .v f
  s.vOp false [a] [.v f.d.toNat] (s.badTags [a] (fmtOf f) ok) fun t =>
    let g := (s.srcV a).tag
    s.vMerge t f.d.toNat g (((s.srcV a).elems g).map (op g))

/-- A per-element operation on v[A] and v[B] of one tag. -/
def State.v2 (s : State) (f : SR) (ok : Fmt → Bool) (op : Fmt → Nat → Nat → Nat) : Out :=
  let a := opA .v f
  let b := opB .v f
  s.vOp false [a, b] [.v f.d.toNat] (s.badTags [a, b] (fmtOf f) ok) fun t =>
    let g := (s.srcV a).tag
    s.vMerge t f.d.toNat g (List.zipWith (op g) ((s.srcV a).elems g) ((s.srcV b).elems g))

/-- A per-element operation on v[A], v[B] and v[C] of one tag. -/
def State.v3 (s : State) (f : SR) (ok : Fmt → Bool) (op : Fmt → Nat → Nat → Nat → Nat) : Out :=
  let a := opA .v f
  let b := opB .v f
  let c := opC .v f
  s.vOp false [a, b, c] [.v f.d.toNat] (s.badTags [a, b, c] (fmtOf f) ok) fun t =>
    let g := (s.srcV a).tag
    s.vMerge t f.d.toNat g
      (List.zipWith (fun p z => op g p.1 p.2 z)
        (((s.srcV a).elems g).zip ((s.srcV b).elems g)) ((s.srcV c).elems g))

/-! Lane arithmetic (R184 to R187) -/

/-- The integer of an element's bits. -/
def laneInt (g : Fmt) (e : Nat) : Int :=
  match g.intBits with
  | some (w, sgn) => Num.intOfBits w sgn e
  | none => 0

/-- An exact integer result in a lane: wraps, or clamps under SAT (R184). -/
def fitInt (g : Fmt) (sat : Bool) (i : Int) : Nat :=
  match g.intBits with
  | some (w, sgn) => Num.bitsOfInt w (if sat then Num.clamp (Num.intLimits w sgn).1 (Num.intLimits w sgn).2 i else i)
  | none => 0

/-- An exact float result in a lane (R126). -/
def fitNum (g : Fmt) (rm : RM) (sat : Bool) (x : Num) : Nat := Num.toElem g rm sat false x

/-- A lane operation given on exact numbers and on integers. -/
def laneOp2 (f : SR) (fl : RM → Num → Num → Num) (it : Int → Int → Int) (g : Fmt) (a b : Nat) : Nat :=
  if g.isFloat then fitNum g (RM.ofRnd f.rnd) (f.sat = 1) (fl (RM.ofRnd f.rnd) (Num.ofElem g a) (Num.ofElem g b))
  else fitInt g (f.sat = 1) (it (laneInt g a) (laneInt g b))

/-- The same with three sources. -/
def laneOp3 (f : SR) (fl : RM → Num → Num → Num → Num) (it : Int → Int → Int → Int) (g : Fmt) (a b c : Nat) : Nat :=
  if g.isFloat then
    fitNum g (RM.ofRnd f.rnd) (f.sat = 1) (fl (RM.ofRnd f.rnd) (Num.ofElem g a) (Num.ofElem g b) (Num.ofElem g c))
  else fitInt g (f.sat = 1) (it (laneInt g a) (laneInt g b) (laneInt g c))

/-- VADD (R184). -/
def execVadd (_v : VSlot) (f : SR) (s : State) : Out := s.v2 f Fmt.isArith (laneOp2 f Num.add (· + ·))

/-- VSUB (R184). -/
def execVsub (_v : VSlot) (f : SR) (s : State) : Out :=
  s.v2 f Fmt.isArith (laneOp2 f (fun rm a b => Num.add rm a (Num.neg b)) (· - ·))

/-- VMUL (R184). -/
def execVmul (_v : VSlot) (f : SR) (s : State) : Out := s.v2 f Fmt.isArith (laneOp2 f (fun _ => Num.mul) (· * ·))

/-- VFMA: one rounding (R184). -/
def execVfma (_v : VSlot) (f : SR) (s : State) : Out :=
  s.v3 f Fmt.isArith (laneOp3 f (fun rm a b c => Num.add rm (Num.mul a b) c) fun a b c => a * b + c)

/-- VFMS: one rounding (R184). -/
def execVfms (_v : VSlot) (f : SR) (s : State) : Out :=
  s.v3 f Fmt.isArith (laneOp3 f (fun rm a b c => Num.add rm (Num.mul a b) (Num.neg c)) fun a b c => a * b - c)

/-- VMIN (R184). -/
def execVmin (_v : VSlot) (f : SR) (s : State) : Out :=
  s.v2 f Fmt.isArith (laneOp2 f (fun _ => Num.minNum) fun a b => if b < a then b else a)

/-- VMAX (R184). -/
def execVmax (_v : VSlot) (f : SR) (s : State) : Out :=
  s.v2 f Fmt.isArith (laneOp2 f (fun _ => Num.maxNum) fun a b => if a < b then b else a)

/-- VABS (R185). -/
def execVabs (_v : VSlot) (f : SR) (s : State) : Out :=
  s.v1 f Fmt.isArith fun g a =>
    if g.isFloat then fitNum g .rne false (Num.abs (Num.ofElem g a)) else fitInt g (f.sat = 1) (laneInt g a).natAbs

/-- VNEG (R185). -/
def execVneg (_v : VSlot) (f : SR) (s : State) : Out :=
  s.v1 f Fmt.isArith fun g a =>
    if g.isFloat then fitNum g .rne false (Num.neg (Num.ofElem g a)) else fitInt g (f.sat = 1) (-(laneInt g a))

/-- a ÷ b rounded once into a float lane (R186). -/
def divLane (g : Fmt) (rm : RM) (sat : Bool) (a b : Num) : Nat :=
  match g.layout with
  | some l => Num.packDiv l rm sat a b * (if g = .e8m10 then 2 ^ 13 else 1)
  | none => 0

/-- VDIV (R186). -/
def execVdiv (f : SR) (s : State) : Out :=
  s.v2 f Fmt.isFloat fun g a b => divLane g (RM.ofRnd f.rnd) (f.sat = 1) (Num.ofElem g a) (Num.ofElem g b)

/-- A function rounded to binary32 and then, in RNE, to the lane format (R187). -/
def viaF32 (fn : Num → Nat) (g : Fmt) (a : Nat) : Nat := fitNum g .rne false (Num.ofF32 (fn (Num.ofElem g a)))

/-- VRCP (R187). -/
def execVrcp (_v : VSlot) (f : SR) (s : State) : Out := s.v1 f Fmt.isFloat (viaF32 Num.rcp32)

/-- VRSQ (R187). -/
def execVrsq (_v : VSlot) (f : SR) (s : State) : Out := s.v1 f Fmt.isFloat (viaF32 Num.rsqrt32)

/-- VEXP2 (R187). -/
def execVexp2 (_v : VSlot) (f : SR) (s : State) : Out := s.v1 f Fmt.isFloat (viaF32 Num.exp232)

/-- VLOG2 (R187). -/
def execVlog2 (_v : VSlot) (f : SR) (s : State) : Out := s.v1 f Fmt.isFloat (viaF32 Num.log232)

/-! Logic and shifts (R188) -/

/-- The bit class without RAW and MASK1. -/
def isShiftable (g : Fmt) : Bool := g.isBit && g != .raw && g != .mask1

/-- VAND (R188). -/
def execVand (_v : VSlot) (f : SR) (s : State) : Out := s.v2 f Fmt.isBit fun _ a b => a &&& b

/-- VOR (R188). -/
def execVor (_v : VSlot) (f : SR) (s : State) : Out := s.v2 f Fmt.isBit fun _ a b => a ||| b

/-- VXOR (R188). -/
def execVxor (_v : VSlot) (f : SR) (s : State) : Out := s.v2 f Fmt.isBit fun _ a b => a ^^^ b

/-- VSHL (R188). -/
def execVshl (_v : VSlot) (f : SR) (s : State) : Out :=
  s.v2 f isShiftable fun g a b => a * 2 ^ (b % g.width) % 2 ^ g.width

/-- VSHR (R188). -/
def execVshr (_v : VSlot) (f : SR) (s : State) : Out := s.v2 f isShiftable fun g a b => a / 2 ^ (b % g.width)

/-- VSAR: fills with the lane's top bit whatever the tag's signedness (R188). -/
def execVsar (_v : VSlot) (f : SR) (s : State) : Out :=
  s.v2 f isShiftable fun g a b => Num.bitsOfInt g.width (Num.intOfBits g.width true a / (2 ^ (b % g.width) : Nat))

/-! Compares (R189) -/

/-- A compare of two vectors into p[D]. -/
def State.vCmp (s : State) (f : SR) (fl : Num → Num → Bool) (it : Int → Int → Bool) : Out :=
  let a := opA .v f
  let b := opB .v f
  s.vOp false [a, b] [.p f.pd] (s.badTags [a, b] (fmtOf f) Fmt.isArith) fun t =>
    let g := (s.srcV a).tag
    let hit (x y : Nat) : Bool := if g.isFloat then fl (Num.ofElem g x) (Num.ofElem g y) else it (laneInt g x) (laneInt g y)
    t.putP f.pd (comparePred s.issue.cond (f.fn9.getLsbD 0)
      (List.zipWith hit ((s.srcV a).elems g) ((s.srcV b).elems g)))

/-- VCEQ (R189). -/
def execVceq (_v : VSlot) (f : SR) (s : State) : Out := s.vCmp f Num.eq fun a b => a = b

/-- VCNE: true of a NaN (R189). -/
def execVcne (_v : VSlot) (f : SR) (s : State) : Out := s.vCmp f (fun a b => !Num.eq a b) fun a b => a ≠ b

/-- VCLT (R189). -/
def execVclt (_v : VSlot) (f : SR) (s : State) : Out := s.vCmp f Num.lt fun a b => a < b

/-- VCLE (R189). -/
def execVcle (_v : VSlot) (f : SR) (s : State) : Out :=
  s.vCmp f (fun a b => Num.lt a b || Num.eq a b) fun a b => a ≤ b

/-! Selection and lane moves (R190 to R192) -/

/-- VSEL (R190). -/
def execVsel (_v : VSlot) (f : SR) (s : State) : Out :=
  let a := opA .v f
  let b := opB .v f
  s.vOp false [a, b, opPC f] [.v f.d.toNat] (s.badTags [a, b] (fmtOf f) Fmt.isUnscaled) fun t =>
    let g := (s.srcV a).tag
    let sel := s.srcP (opPC f)
    let pick (i : Nat) (p : Nat × Nat) : Nat := if laneOn sel g.lanes i then p.1 else p.2
    s.vMerge t f.d.toNat g ((((s.srcV a).elems g).zip ((s.srcV b).elems g)).mapIdx pick)

/-- VMOV's scale bytes under a predicate: a block's scale where the block has an active element (R190). -/
def movedSide (cond : Word) (r : VReg) : BitVec 256 :=
  let n := r.tag.lanes
  let some_ (lo len : Nat) : Bool := (List.range len).any fun i => laneOn cond n (lo + i)
  let blocks (k : Nat) : BitVec 256 :=
    packSide ((List.range (n / k)).map fun b => if some_ (k * b) k then r.sideByte b else 0)
  match r.tag.scale with
  | .none => 0
  | .e8m0 k => blocks k
  | .q16 => blocks 16
  | .row => if some_ 0 n then r.side &&& 0xFFFFFFFF else 0

/-- VMOV (R190): no tag check. -/
def execVmov (_v : VSlot) (f : SR) (s : State) : Out :=
  let a := opA .v f
  s.vOp false [a] [.v f.d.toNat] none fun t =>
    let r := s.srcV a
    if s.issue.cond = -1 then t.putV f.d.toNat r
    else
      let old := s.issue.pre.getV f.d.toNat
      let base := if r.tag.scale = .none then old else .zero
      t.putV f.d.toNat { base.merge r.tag s.issue.cond (r.elems r.tag) with side := movedSide s.issue.cond r }

/-- VBCST (R190). -/
def execVbcst (_v : VSlot) (f : SR) (s : State) : Out :=
  let g := fmtOf f
  s.vOp false [opA .x f] [.v f.d.toNat] none fun t =>
    s.vMerge t f.d.toNat g (List.replicate g.lanes ((s.srcX (opA .x f)).toNat % 2 ^ g.width))

/-- VIOTA (R190). -/
def execViota (_v : VSlot) (f : SR) (s : State) : Out :=
  let g := fmtOf f
  s.vOp false [opA .x f] [.v f.d.toNat] none fun t =>
    s.vMerge t f.d.toNat g ((List.range g.lanes).map fun i => ((s.srcX (opA .x f)).toNat + i) % 2 ^ g.width)

/-- The formats whose lanes VXTR and VINS address (R191). -/
def isIndexable (g : Fmt) : Bool := g.isUnscaled && 8 ≤ g.width && (g.isArith || g.isBit)

/-- A lane's value in an x register (R191, R193). -/
def laneWord (g : Fmt) (e : Nat) : Word := if g.isInteger && g.isSigned then sextWord g.width e else word e

/-- VXTR (R191): a whole operation. -/
def execVxtr (_v : VSlot) (f : SR) (s : State) : Out :=
  let a := opA .v f
  s.vOp true [a, opB .x f] [.x f.d.toNat] (s.badTags [a] (fmtOf f) isIndexable) fun t =>
    let g := (s.srcV a).tag
    t.putX f.d.toNat (laneWord g (((s.srcV a).elems g).getD ((s.srcX (opB .x f)).toNat % g.lanes) 0))

/-- VINS (R191): a whole operation; v[D] is a source. -/
def execVins (_v : VSlot) (f : SR) (s : State) : Out :=
  let d := opReg .v f.d.toNat
  s.vOp true [opA .x f, opB .x f, d] [.v f.d.toNat] (s.badTags [d] (fmtOf f) isIndexable) fun t =>
    let r := s.srcV d
    let g := r.tag
    let es := (r.elems g).set ((s.srcX (opB .x f)).toNat % g.lanes) (g.clean ((s.srcX (opA .x f)).toNat % 2 ^ g.width))
    t.putV f.d.toNat { r with body := packLanes g.width es }

/-- VPERM (R192). -/
def execVperm (f : SR) (s : State) : Out :=
  let a := opA .v f
  let b := opB .v f
  let check :=
    match s.badTags [a] (fmtOf f) (fun g => g.isUnscaled && 8 ≤ g.width) with
    | some t => some t
    | none => s.badTag b .raw fun g => g.isInteger && g.width = (s.srcV a).tag.width
  s.vOp false [a, b] [.v f.d.toNat] check fun t =>
    let g := (s.srcV a).tag
    let es := (s.srcV a).elems g
    s.vMerge t f.d.toNat g ((lanesOf g.width (s.srcV b).body).map fun i => es.getD (i % g.lanes) 0)

/-- VROT (R192). -/
def execVrot (_v : VSlot) (f : SR) (s : State) : Out :=
  let a := opA .v f
  s.vOp false [a, opB .x f] [.v f.d.toNat] (s.badTags [a] (fmtOf f) Fmt.isUnscaled) fun t =>
    let g := (s.srcV a).tag
    let k := (s.srcX (opB .x f)).toNat % g.lanes
    let es := (s.srcV a).elems g
    s.vMerge t f.d.toNat g (es.drop k ++ es.take k)

/-! Reductions, scans and compression (R138, R139, R193 to R196) -/

/-- The pairwise tree of R138: at most `fuel` halvings. -/
def treeFold (op : Nat → Nat → Nat) : Nat → List Nat → Nat
  | 0, ws => ws.headD 0
  | fuel + 1, ws =>
    let h := ws.length / 2
    if h = 0 then ws.headD 0 else treeFold op fuel (List.zipWith op (ws.take h) (ws.drop h))

/-- The steps of R139 at distances d, 2 d, … -/
def scanSteps (op : Nat → Nat → Nat) : Nat → Nat → List Nat → List Nat
  | 0, _, ws => ws
  | fuel + 1, d, ws =>
    if ws.length ≤ d then ws
    else scanSteps op fuel (2 * d) (ws.take d ++ List.zipWith op ws (ws.drop d))

/-- A lane addition of VRADD and VSCAN: rounded once, or wrapping. -/
def addLane (rm : RM) (g : Fmt) (a b : Nat) : Nat :=
  if g.isFloat then fitNum g rm false (Num.add rm (Num.ofElem g a) (Num.ofElem g b))
  else fitInt g false (laneInt g a + laneInt g b)

/-- The identity of a lane addition: −0, or zero (R138). -/
def addIdentity (g : Fmt) : Nat := if g.isFloat then fitNum g .rne false (.fin true 0 0) else 0

/-- A lane maximum. -/
def maxLane (g : Fmt) (a b : Nat) : Nat :=
  if g.isFloat then fitNum g .rne false (Num.maxNum (Num.ofElem g a) (Num.ofElem g b))
  else if laneInt g a < laneInt g b then b else a

/-- A lane minimum. -/
def minLane (g : Fmt) (a b : Nat) : Nat :=
  if g.isFloat then fitNum g .rne false (Num.minNum (Num.ofElem g a) (Num.ofElem g b))
  else if laneInt g b < laneInt g a then b else a

/-- The identity of a maximum (`top` false) or a minimum (`top` true): an infinity, or a limit (R138). -/
def limitLane (top : Bool) (g : Fmt) : Nat :=
  match g.intBits with
  | some (w, sgn) => Num.bitsOfInt w (if top then (Num.intLimits w sgn).2 else (Num.intLimits w sgn).1)
  | none => fitNum g .rne false (.inf (!top))

/-- The lanes of A, inactive ones replaced. -/
def maskedLanes (cond : Word) (g : Fmt) (ident : Nat) (r : VReg) : List Nat :=
  (r.elems g).mapIdx fun i e => if laneOn cond g.lanes i then e else ident

/-- A reduction into x[D], or into every lane of v[D] when BC = 1 (R193). -/
def State.vReduce (s : State) (f : SR) (op : Fmt → Nat → Nat → Nat) (ident : Fmt → Nat) : Out :=
  let a := opA .v f
  let bc := f.fn9.getLsbD 0
  s.vOp false [a] [if bc then .v f.d.toNat else .x f.d.toNat] (s.badTags [a] (fmtOf f) Fmt.isArith) fun t =>
    let g := (s.srcV a).tag
    let e := treeFold (op g) 9 (maskedLanes s.issue.cond g (ident g) (s.srcV a))
    if bc then t.putV f.d.toNat ⟨g, packLanes g.width (List.replicate g.lanes e), 0⟩
    else t.putX f.d.toNat (laneWord g e)

/-- VRADD (R193). -/
def execVradd (f : SR) (s : State) : Out := s.vReduce f (addLane (RM.ofRnd f.rnd)) addIdentity

/-- VRMAX (R193). -/
def execVrmax (f : SR) (s : State) : Out := s.vReduce f maxLane (limitLane false)

/-- VRMIN (R193). -/
def execVrmin (f : SR) (s : State) : Out := s.vReduce f minLane (limitLane true)

/-- VSCAN (R139, R194). -/
def execVscan (f : SR) (s : State) : Out :=
  let a := opA .v f
  s.vOp false [a] [.v f.d.toNat] (s.badTags [a] (fmtOf f) Fmt.isArith) fun t =>
    let g := (s.srcV a).tag
    s.vMerge t f.d.toNat g
      (scanSteps (addLane (RM.ofRnd f.rnd) g) 9 1 (maskedLanes s.issue.cond g (addIdentity g) (s.srcV a)))

/-- The index of the largest of (index, value) pairs, ties to the lowest; NaN passed over (R195). -/
def argMax (xs : List (Nat × Num)) : Option Nat :=
  (xs.foldl (fun (b : Option (Nat × Num)) x =>
    if x.2 = .nan then b
    else
      match b with
      | none => some x
      | some y => if Num.ltTotal y.2 x.2 then some x else b) none).map (·.1)

/-- VARGMX (R195). -/
def execVargmx (f : SR) (s : State) : Out :=
  let a := opA .v f
  s.vOp false [a] [.x f.d.toNat] (s.badTags [a] (fmtOf f) Fmt.isArith) fun t =>
    let g := (s.srcV a).tag
    let xs := ((s.srcV a).elems g).mapIdx fun i e => (i, Num.ofElem g e)
    t.putX f.d.toNat
      (match argMax (xs.filter fun x => laneOn s.issue.cond g.lanes x.1) with
      | some i => word i
      | none => -1)

/-- VCMPR (R196): the keep rule does not apply. -/
def execVcmpr (f : SR) (s : State) : Out :=
  let a := opA .v f
  s.vOp false [a] [.v f.d.toNat] (s.badTags [a] (fmtOf f) fun g => g.isUnscaled && 8 ≤ g.width) fun t =>
    let g := (s.srcV a).tag
    let xs := ((s.srcV a).elems g).mapIdx fun i e => (i, e)
    t.putV f.d.toNat
      ⟨g, packLanes g.width ((xs.filter fun x => laneOn s.issue.cond g.lanes x.1).map fun x => g.clean x.2), 0⟩

/-! Key sort and merge (R197, R198) -/

/-- The key formats. -/
def isKeyFmt (g : Fmt) : Bool := g == .fp32 || g == .int32 || g == .uint32

/-- The payload formats: 32-bit lanes of the arithmetic or bit class. -/
def isPayload (g : Fmt) : Bool := (g.isArith || g.isBit) && g.width = 32

/-- Key a goes strictly before key b: NaN last in either direction (R197). -/
def keyBefore (g : Fmt) (asc : Bool) (a b : Nat) : Bool :=
  let x := Num.ofElem g a
  let y := Num.ofElem g b
  if x = .nan then false
  else if y = .nan then true
  else if asc then Num.ltTotal x y
  else Num.ltTotal y x

/-- A pair put after every pair that it does not go before. -/
def insertPair (before : Nat → Nat → Bool) (p : Nat × Nat) : List (Nat × Nat) → List (Nat × Nat)
  | [] => [p]
  | q :: r => if before p.1 q.1 then p :: q :: r else q :: insertPair before p r

/-- The stable sort of pairs by key. -/
def sortPairs (before : Nat → Nat → Bool) (ps : List (Nat × Nat)) : List (Nat × Nat) :=
  ps.foldl (fun acc p => insertPair before p acc) []

/-- The merge of two sorted runs, at most `fuel` pairs; ties take the first run (R198). -/
def mergePairs (before : Nat → Nat → Bool) : Nat → List (Nat × Nat) → List (Nat × Nat) → List (Nat × Nat)
  | 0, _, _ => []
  | _ + 1, [], bs => bs
  | _ + 1, as, [] => as
  | n + 1, a :: as, b :: bs =>
    if before b.1 a.1 then b :: mergePairs before n (a :: as) bs else a :: mergePairs before n as (b :: bs)

/-- Keys and payloads written to v[D] and v[D + 1]. -/
def State.putPairs (t : State) (d : Nat) (kt pt : Fmt) (ps : List (Nat × Nat)) : State :=
  (t.putV d ⟨kt, packLanes 32 (ps.map (·.1)), 0⟩).putV (d + 1) ⟨pt, packLanes 32 (ps.map fun p => pt.clean p.2), 0⟩

/-- VSORTK (R197). -/
def execVsortk (f : SR) (s : State) : Out :=
  let a := opA .v f
  let b := opB .v f
  let check :=
    match s.badTag a .raw isKeyFmt with
    | some t => some t
    | none => s.badTag b .raw isPayload
  s.vOp false [a, b] [.v f.d.toNat, .v (f.d.toNat + 1)] check fun t =>
    let g := (s.srcV a).tag
    let ps := (((s.srcV a).elems g).zip (lanesOf 32 (s.srcV b).body)).mapIdx fun i p => (laneOn s.issue.cond 64 i, p)
    let on := (ps.filter (·.1)).map (·.2)
    let off := (ps.filter fun p => !p.1).map (·.2)
    t.putPairs f.d.toNat g (s.srcV b).tag (sortPairs (keyBefore g (f.fn9.getLsbD 0)) on ++ off)

/-- VMRGK (R198): a whole operation on two pairs of registers. -/
def execVmrgk (f : SR) (s : State) : Out :=
  let a := opA .v f
  let b := opB .v f
  let a1 := opReg .v (f.a.toNat + 1)
  let b1 := opReg .v (f.b.toNat + 1)
  let check :=
    match s.badTags [a, b] .raw isKeyFmt with
    | some t => some t
    | none => s.badTags [a1, b1] .raw isPayload
  s.vOp true [a, b, a1, b1] [.v f.d.toNat, .v (f.d.toNat + 1)] check fun t =>
    let g := (s.srcV a).tag
    let ps := ((s.srcV a).elems g).zip (lanesOf 32 (s.srcV a1).body)
    let qs := ((s.srcV b).elems g).zip (lanesOf 32 (s.srcV b1).body)
    let m := mergePairs (keyBefore g (f.fn9.getLsbD 0)) 128 ps qs
    t.putPairs f.d.toNat g (s.srcV a1).tag (if f.fn9.getLsbD 1 then m.drop 64 else m.take 64)

/-- A body as loads write it: the bits that its format leaves unused are zero (R119). -/
def cleanBody (g : Fmt) (b : BitVec 2048) : BitVec 2048 :=
  if g.clean (2 ^ 32 - 1) = 2 ^ 32 - 1 then b else packLanes g.width ((lanesOf g.width b).map g.clean)

/-! Conversions (R199, R200) -/

/-- The lanes a conversion processes: count, and where the part begins in source and result (R200). -/
structure CvtPlan where
  n : Nat
  src : Nat
  dst : Nat
  deriving DecidableEq, Repr

/-- The plan of a conversion; none where P is beyond the ratio (R200). -/
def cvtPlan (from_ to_ : Fmt) (p : Nat) : Option CvtPlan :=
  let ls := from_.lanes
  let ld := to_.lanes
  let n := min ls ld
  if max ls ld / n ≤ p then none
  else some ⟨n, if ld < ls then p * n else 0, if ls < ld then p * n else 0⟩

/-- The rounding mode of element i of n, with the popped words where RND = 5 (R127). -/
def cvtMode (f : SR) (ws : List (BitVec 512)) (n i : Nat) : RM :=
  if f.rnd = 5 then .sr (srDraw ws n i) (srBits n) else RM.ofRnd f.rnd

/-- A conversion: the bound of its part, its tag check, its pops, then the result register (R200, R259). -/
def State.vConvert (s : State) (f : SR) (ok : Fmt → Bool) (make : CvtPlan → List (BitVec 512) → VReg) : Out :=
  let a := opA .v f
  let plan := cvtPlan (s.srcV a).tag (fmtOf f) (f.fn9.toNat % 8)
  let check :=
    if plan.isNone && (s.srcV a).tag.hasLanes then some (s.raise 0x0F 0) else s.badTags [a] .raw ok
  s.vOp false [a] [.v f.d.toNat] check fun t =>
    match plan with
    | none => t.raise 0x0F 0
    | some p =>
      match t.popWords (if f.rnd = 5 then srWords p.n else 0) with
      | none => t.holdFor none
      | some (ws, t1) => t1.putV f.d.toNat (make p ws)

/-- The values of the processed elements with their scales applied (R120, R200). -/
def cvtSource (r : VReg) (p : CvtPlan) : List Num :=
  let es := r.elems r.tag
  (List.range p.n).map fun e =>
    let x := Num.ofElem r.tag (es.getD (p.src + e) 0)
    if r.tag.scale = .none then x else Num.mul x (scaleValue r.tag true r.sideByte (p.src + e))

/-- An unscaled result: processed active elements, the rest by the keep rule (R183, R200). -/
def cvtPlain (old : VReg) (g : Fmt) (cond : Word) (p : CvtPlan) (new : Nat → Nat) : VReg :=
  let was := if old.tag = g then old.elems g else []
  ⟨g, packLanes g.width ((List.range g.lanes).map fun i =>
    if p.dst ≤ i && i < p.dst + p.n && laneOn cond p.n (i - p.dst) then new (i - p.dst) else was.getD i 0), 0⟩

/-- VCVT (R199, R200). -/
def execVcvt (_v : VSlot) (f : SR) (s : State) : Out :=
  let g := fmtOf f
  let r := s.srcV (opA .v f)
  s.vConvert f Fmt.inVcvt fun p ws =>
    let xs := cvtSource r p
    cvtPlain (s.issue.pre.getV f.d.toNat) g s.issue.cond p fun e =>
      Num.toElem g (cvtMode f ws p.n e) (f.sat = 1) r.tag.intBits.isSome (xs.getD e .nan)

/-- VDQNT (R199, R200). -/
def execVdqnt (_v : VSlot) (f : SR) (s : State) : Out :=
  let g := fmtOf f
  let r := s.srcV (opA .v f)
  s.vConvert f (fun t => t.scale != .none) fun p ws =>
    let xs := cvtSource r p
    cvtPlain (s.issue.pre.getV f.d.toNat) g s.issue.cond p fun e =>
      Num.toElem g (cvtMode f ws p.n e) (f.sat = 1) false (xs.getD e .nan)

/-- Elements per scale. -/
def blockLen (g : Fmt) (n : Nat) : Nat :=
  match g.scale with
  | .e8m0 k => k
  | .q16 => 16
  | _ => n

/-- The scale that a block gets, as the number that its bytes hold (R121 to R123). -/
def chooseScale (g : Fmt) (xs : List Num) : Nat :=
  match g.scale with
  | .e8m0 _ => chooseE8M0 g xs
  | .q16 => chooseQ16 xs
  | .row => chooseRow g xs
  | .none => 0

/-- The value of a chosen scale. -/
def chosenValue (g : Fmt) (b : Nat) : Num :=
  match g.scale with
  | .e8m0 _ => Num.ofE8M0 b
  | .q16 => Num.unpack ⟨4, 3, 7, .e4m3⟩ b
  | .row => Num.ofF32 b
  | .none => Num.one

/-- VQNT's result: blocks of the part with their scales, inactive elements zero; other blocks kept
with their scale bytes under the same tag, and zero for a ·ROW result (R183, R200). -/
def quantized (old : VReg) (g : Fmt) (cond : Word) (p : CvtPlan) (xs : List Num) (rm : Nat → RM) : VReg :=
  let k := blockLen g p.n
  let scales := (List.range (p.n / k)).map fun b => chooseScale g ((xs.drop (k * b)).take k)
  let elem (e : Nat) : Nat :=
    if laneOn cond p.n e then scaleDown g (rm e) true (xs.getD e .nan) (chosenValue g (scales.getD (e / k) 0)) else 0
  let keep := old.tag = g && g.scale != .row
  let was := if keep then old.elems g else []
  let body := (List.range g.lanes).map fun i =>
    if p.dst ≤ i && i < p.dst + p.n then elem (i - p.dst) else was.getD i 0
  let side :=
    if g.scale = .row then BitVec.ofNat 256 (scales.getD 0 0)
    else packSide ((List.range (g.lanes / k)).map fun b =>
      if p.dst ≤ k * b && k * b < p.dst + p.n then scales.getD (b - p.dst / k) 0
      else if keep then old.sideByte b else 0)
  ⟨g, packLanes g.width body, side⟩

/-- VQNT (R121 to R123, R199, R200). -/
def execVqnt (_v : VSlot) (f : SR) (s : State) : Out :=
  let r := s.srcV (opA .v f)
  s.vConvert f (fun t => t == .fp32 || t == .bf16 || t == .fp16) fun p ws =>
    quantized (s.issue.pre.getV f.d.toNat) (fmtOf f) s.issue.cond p (cvtSource r p) (cvtMode f ws p.n)

/-! Tags (R201, R202) -/

/-- VTAG (R201): a whole operation. -/
def execVtag (_v : VSlot) (f : SR) (s : State) : Out :=
  let a := opA .v f
  s.vOp true [a] [.v f.d.toNat] (s.badTag a .raw fun _ => true) fun t =>
    t.putV f.d.toNat { s.srcV a with tag := fmtOf f, side := trimSide (fmtOf f) (s.srcV a).side }

/-- VGTAG (R202): a whole operation that checks no tag. -/
def execVgtag (_v : VSlot) (f : SR) (s : State) : Out :=
  let a := opA .v f
  s.vOp true [a] [.x f.d.toNat] none fun t => t.putX f.d.toNat (word (s.srcV a).tag.code.toNat)

end Sys2Proof.Machine
end

