-- ==== Sys2Proof/Machine/LoadStore.lean ====
section
/-! DEFINITION. The L and W slots: loads, stores, atomics, reductions, tile and KV accesses, load-blocks and line operations (R255 to R276, R341 to R349, R437). -/
namespace Sys2Proof.Machine

/-! Addresses (R75) -/

/-- x[BASE] + sext(DISP22). -/
def State.baseDisp (s : State) (f : MEM) : Word := s.issue.pre.getX f.base.toNat + f.disp.signExtend 64

/-- The effective address of the MEM format (R75). -/
def State.ea (s : State) (f : MEM) : Word := s.baseDisp f + s.issue.pre.getX f.idx.toNat <<< f.scl.toNat

/-- The base register, and the index register, as sources. -/
def baseOf (f : MEM) : Opd := opReg .x f.base.toNat
def idxOf (f : MEM) : Opd := opReg .x f.idx.toNat

/-- Bytes are not aligned to n. -/
def misaligned (va : Word) (n : Nat) : Bool := va.toNat % n ≠ 0

/-- A list of runs of bytes, each cut at page boundaries. -/
def runs (l : List (Word × Nat)) : List (Word × Nat) := l.flatMap fun e => pieces e.1 e.2

/-- An access of the bundle: its keys go to `k`, its fault is raised with an ACCESS type (R242, R259); a read of a location
where the context's own reduction or seq_cst store has yet to perform waits (R340). -/
def State.access (t : State) (kind : Nat) (q : XReq) (ps : List (Word × Nat)) (k : List (Nat × Nat) → State → State) : State :=
  match t.resolveIn q ps with
  | (.error x, t1) => t1.raiseX kind x
  | (.ok parts, t1) => if !q.write && t1.readWaits parts then t1.holdFor none else k parts t1

/-! Loads in flight (R109, R276) -/

/-- L-slot accesses whose data has not arrived. -/
def Ctx.loadsOut (k : Ctx) : Nat :=
  ((k.pend.filterMap fun e => match e.why with
    | .load => some e.n
    | .tile _ => some e.n
    | _ => none).dedup).length

/-- A load's bundle waits while 64 accesses are outstanding (R276). -/
def State.roomForLoad (t : State) (body : State → State) : State :=
  if 64 ≤ t.issue.pre.loadsOut then t.holdFor none else body t

/-- v n loaded: it stays pending; data marked uncorrectable makes its tag POISON as it arrives (R109, R260). -/
def Ctx.landV (k : Ctx) (n : Nat) (r : VReg) (bad : Bool) : Ctx := ((k.setV n r).pendOn (.v n) .load k.token bad).useToken

/-- The value of a scalar load. -/
def loadValue (w : Nat) (sgn : Bool) (n : Nat) : Word := if sgn then sextWord (8 * w) n else word n

/-! seq_cst accesses (R348, R349) -/

/-- What the running bundle's seq_cst access of the slot returned, once it has performed. -/
def State.scResult (s : State) : Option (Nat × Bool) :=
  match s.issue.pre.sc with
  | some q => if q.pc = s.issue.pre.pc then (q.acc.find? fun a => a.slot = s.issue.slot).bind (·.result) else none
  | none => none

/-- A seq_cst load or atomic joins the accesses of its bundle, which then waits for the slot wheel; once it has
performed, `k` gets what it returned (R348, R349). -/
def State.seqCst (t : State) (kind : ScKind) (key w operand compare : Nat) (k : Nat → Bool → State → State) : State :=
  match t.scResult with
  | some (v, bad) => k v bad t
  | none =>
    t.modCur fun c =>
      let acc := match c.sc with
        | some q => if q.pc = c.pc then q.acc else []
        | none => []
      { c with sc := some ⟨t.issue.pre.pc, none, acc ++ [⟨t.issue.slot, kind, key, w, operand, compare, none, []⟩]⟩ }

/-- The stamp of the running bundle, where its seq_cst accesses are stores only, once its position has come: it holds nothing
after it back (R343, R348). -/
def State.storeStamp (s : State) : Option Word := match s.issue.pre.sc with
  | some q => if q.pc = s.issue.pre.pc && q.acc.all (fun a => a.kind = .store) then q.stamp.filter (decide <| · ≤ s.sidereal) else none
  | none => none

/-- The seq_cst access of the slot has left with its bundle. -/
def Ctx.scSent (k : Ctx) (slot : Nat) : Ctx :=
  { k with sc := k.sc.map fun q => { q with acc := q.acc.map fun a => if a.slot = slot then { a with result := some (0, false) } else a } }

/-- A seq_cst store: its bundle waits for its stamp, and commits with it; the store then performs at its home (R348, R349).
Beside a seq_cst load or atomic it performs with that. -/
def State.seqCstStore (t : State) (key w v scope : Nat) : State :=
  match t.storeStamp with
  | none => t.seqCst .store key w v 0 fun _ _ t => t
  | some stamp =>
    let t := t.modCur (·.scSent t.issue.slot)
    if isReg key then t.writeParts (homeWriter t.issue.core t.issue.bank) [(key, leBytes w v)]
    else
      { t with fabric := { t.fabric with nextItem := t.fabric.nextItem + 1 } }.modCur fun k =>
        { k with stores := k.stores ++ [(⟨t.fabric.nextItem, [(key, leBytes w v)], false, true, scope, 0, some stamp⟩ : StoreOp)] }

/-! Scalar loads (R261) -/

/-- x n lands with a fresh token. -/
def State.landOne (t : State) (n : Nat) (v : Word) (bad : Bool) : State :=
  t.modCur fun k => (k.landX n v bad k.token).useToken

/-- A scalar load of w bytes. -/
def State.load (s : State) (f : MEM) (w : Nat) (sgn : Bool) : Out :=
  let va := s.ea f
  s.anchored [baseOf f, idxOf f] [.x f.d.toNat] fun t =>
    t.roomForLoad fun t =>
      if f.ord ≠ 0 && misaligned va w then t.raise 0x0E va
      else
        t.access 1 { atomic := f.ord = 4 } (pieces va w) fun parts t =>
          if f.ord = 4 then
            t.seqCst .load (parts.headD (0, 0)).1 w 0 0 fun v bad t => t.landOne f.d.toNat (loadValue w sgn v) bad
          else
            let v := loadValue w sgn (ofLeBytes (t.bytesRead parts))
            (t.landOne f.d.toNat v (t.badRead parts)).afterRead parts

/-- LDB (R261). -/
def execLdb (f : MEM) (s : State) : Out := s.load f 1 true

/-- LDBU (R261). -/
def execLdbu (f : MEM) (s : State) : Out := s.load f 1 false

/-- LDH (R261). -/
def execLdh (f : MEM) (s : State) : Out := s.load f 2 true

/-- LDHU (R261). -/
def execLdhu (f : MEM) (s : State) : Out := s.load f 2 false

/-- LDW (R261). -/
def execLdw (f : MEM) (s : State) : Out := s.load f 4 true

/-- LDWU (R261). -/
def execLdwu (f : MEM) (s : State) : Out := s.load f 4 false

/-- LDD (R261). -/
def execLdd (f : MEM) (s : State) : Out := s.load f 8 true

/-- LDQ: x[D] and x[D+1] share one access (R261). -/
def execLdq (f : MEM) (s : State) : Out :=
  let va := s.ea f
  let d := f.d.toNat
  s.anchored [baseOf f, idxOf f] [.x d, .x (d + 1)] fun t =>
    t.roomForLoad fun t =>
      if f.ord ≠ 0 && misaligned va 16 then t.raise 0x0E va
      else
        t.access 1 {} (pieces va 16) fun parts t =>
          let bs := t.bytesRead parts
          let bad := t.badRead parts
          (t.modCur fun k =>
            ((k.landX d (word (ofLeBytes (bs.take 8))) bad k.token).landX (d + 1) (word (ofLeBytes (bs.drop 8))) bad
              k.token).useToken).afterRead parts

/-! Vector loads and gathers (R262, R263, R265) -/

/-- FMT6 of VLD and VLDS. -/
def fmt6 (f : MEM) : Fmt := (Fmt.ofCode f.idx).getD .raw

/-- Bytes of a vector's memory image (R262). -/
def imageBytes (g : Fmt) : Nat := 256 + g.sidecarUsed g.lanes

/-- The bytes of a number of w bytes at each address of a list, in order. -/
def chunked (n : Nat) (bs : List Byte) : List Nat := (runsOf n bs.length bs).map ofLeBytes

/-- VLD (R262). -/
def execVld (f : MEM) (s : State) : Out :=
  let va := s.baseDisp f
  s.anchored [baseOf f] [.v f.d.toNat] fun t =>
    t.roomForLoad fun t =>
      if misaligned va 8 then t.raise 0x0E va
      else
        t.access 1 {} (pieces va (imageBytes (fmt6 f))) fun parts t =>
          let bs := t.bytesRead parts
          let r : VReg := ⟨fmt6 f, cleanBody (fmt6 f) (BitVec.ofNat 2048 (ofLeBytes (bs.take 256))), BitVec.ofNat 256 (ofLeBytes (bs.drop 256))⟩
          (t.modCur fun k => k.landV f.d.toNat r (t.badRead parts)).afterRead parts

/-- The addresses of n lanes at a stride (R263). -/
def stridden (base st : Word) (n : Nat) : List Word := (List.range n).map fun i => base + word i * st

/-- VLDS (R263). -/
def execVlds (f : MEM) (s : State) : Out :=
  let g := fmt6 f
  let b := g.width / 8
  let vas := stridden (s.issue.pre.getX f.base.toNat) (f.disp.signExtend 64) g.lanes
  s.anchored [baseOf f] [.v f.d.toNat] fun t =>
    t.roomForLoad fun t =>
      match vas.find? (misaligned · b) with
      | some va => t.raise 0x0E va
      | none =>
        t.access 1 {} (vas.map (·, b)) fun parts t =>
          let r : VReg := ⟨g, packLanes g.width ((chunked b (t.bytesRead parts)).map g.clean), 0⟩
          (t.modCur fun k => k.landV f.d.toNat r (t.badRead parts)).afterRead parts

/-- The lane mask of VGTH and VSCT, as a source (R265). -/
def maskOf (f : SR) : Opd := opReg .p (f.fn9.toNat % 128)

/-- The lane addresses of VGTH and VSCT: index and address of each active lane (R265). -/
def State.lanesAt (s : State) (f : SR) : List (Nat × Nat × Word) :=
  let idx := lanesOf 32 (s.srcV (opB .v f)).body
  let mask := s.srcP (maskOf f)
  ((List.range 64).filter fun i => mask.getLsbD i).map fun i =>
    (i, idx.getD i 0, s.srcX (opA .x f) + word (idx.getD i 0) <<< (f.fn9.toNat / 128))

/-- The checks of VGTH and VSCT that come before translation: index vector, alignment, bound (R259, R265). -/
def State.gatherChecks (t s : State) (f : SR) : Option State :=
  let b := opB .v f
  let tag := (s.srcV b).tag
  if tag = .poison then some (t.raise 0x10 0)
  else if tag ≠ .int32 && tag ≠ .uint32 then some (t.formatFault tag .raw)
  else
    let ls := s.lanesAt f
    match ls.find? fun l => misaligned l.2.2 4 with
    | some l => some (t.raise 0x0E l.2.2)
    | none =>
      match ls.find? fun l => (s.srcX (opC .x f)).toNat ≤ l.2.1 with
      | some l => some (t.raise 0x0F l.2.2)
      | none => none

/-- VGTH (R265). -/
def execVgth (f : SR) (s : State) : Out :=
  let d := f.d.toNat
  s.anchored [opA .x f, opB .v f, opC .x f, maskOf f, opReg .v d] [.v d] fun t =>
    match t.gatherChecks s f with
    | some bad => bad
    | none =>
      t.roomForLoad fun t =>
        let ls := s.lanesAt f
        t.access 10 {} (ls.map fun l => (l.2.2, 4)) fun parts t =>
          let got := (ls.map (·.1)).zip (chunked 4 (t.bytesRead parts))
          let new := (List.range 64).map fun i => ((got.find? fun p => p.1 = i).map (·.2)).getD 0
          let r := (s.issue.pre.getV d).merge (fmtOf f) (s.srcP (maskOf f)) new
          (t.modCur fun k => k.landV d r (t.badRead parts)).afterRead parts

/-! Tile loads (R266) -/

/-- Where a tile load goes: a tile, or the tail of a ring; none where the ring is absent or full
(R105 to R107). -/
def State.tileDest (s : State) (d : BitVec 6) : Option (Nat × Option Nat) :=
  if d.toNat < 32 then some (d.toNat, none)
  else (s.cur.reserve (d.toNat / 4 % 8)).map fun (p : Nat × Ctx) => (p.1, some (d.toNat / 4 % 8))

/-- A tile loaded: busy until its load completes; a ring's tail slot is reserved (R106, R260). -/
def Ctx.landT (k : Ctx) (n : Nat) (ring : Option Nat) (r : Tile) (bad : Bool) (xs : Option Nat := none) : Ctx :=
  let k0 := match ring with
    | some q => ((k.reserve q).map Prod.snd).getD k
    | none => k
  ((k0.setT n r).pendOn (.t n) (.tile ring) k.token bad none xs).useToken

/-- A tile load of the L slot: alignment, ring destination, room, then the body with the tile's place (R259). -/
def State.tileLoad (s : State) (f : SR) (unaligned : State → Option State) (body : Nat → Option Nat → State → State) : Out :=
  let dst := s.tileDest f.d
  s.anchored [opA .x f, opB .x f] [.t (dst.getD (32, none)).1] fun t =>
    match unaligned t, dst with
    | some bad, _ => bad
    | none, none => t.raise 0x0F 0
    | none, some (n, ring) => t.roomForLoad (body n ring)

/-- Rows of TLD, TLDK and TSTK. -/
def rowCount (f : SR) : Nat := f.fn9.toNat % 256

/-- Bytes of a row of TLD (R266). -/
def tldRowBytes (g : Fmt) : Nat := if g.scale = .none then 192 else 216

/-- TLD (R266). -/
def execTld (f : SR) (s : State) : Out :=
  let g := fmtOf f
  let vas := stridden (s.srcX (opA .x f)) (s.srcX (opB .x f)) (rowCount f)
  s.tileLoad f (fun t => (vas.find? (misaligned · 8)).map fun va => t.raise 0x0E va) fun n ring t =>
    t.access 5 {} (runs (vas.map (·, tldRowBytes g))) fun parts t =>
      let rows := (runsOf (tldRowBytes g) 128 (t.bytesRead parts)).map fun bs => cleanRow g (trimRow g (rowOfBytes bs))
      (t.modCur fun k => k.landT n ring (tileOfRows g rows) (t.badRead parts)).afterRead parts

/-! KV gather and append (R268, R269) -/

/-- A row of TLDK or TSTK below the bound: row number, entry address, record address. -/
structure KvRow where
  row : Nat
  entry : Word
  at_ : Word
  bad : Bool
  deriving DecidableEq, Repr

/-- The rows below the bound, and the addresses of their block-table entries. -/
def State.kvRows (s : State) (f : SR) : List KvRow :=
  let b := s.srcX (opB .x f)
  ((List.range (rowCount f)).filter fun r => bits b 0 32 + r < bits b 32 32).map fun r =>
    ⟨r, s.srcX (opA .x f) + word (8 * ((bits b 0 32 + r) / 16)), word (1024 * ((bits b 0 32 + r) % 16)), false⟩

/-- The alignment trap of the block-table entries (R259, R268). -/
def State.kvUnaligned (s : State) (f : SR) (t : State) : Option State :=
  ((s.kvRows f).find? fun r => misaligned r.entry 8).map fun r => t.raise 0x0E r.entry 0 r.entry

/-- The block-table entries read, with their translation, bounds and page checks (R259, R268); an error is the state in
which the trap is taken, or the bundle waits. -/
def State.kvEntries (t : State) (kind : Nat) : List KvRow → List KvRow → Except State (List KvRow × State)
  | [], acc => .ok (acc.reverse, t)
  | r :: rs, acc =>
      match t.resolveIn {} [(r.entry, 8)] with
      | (.error x, t1) => .error (t1.raiseX kind x r.entry)
      | (.ok parts, t1) =>
        if t1.readWaits parts then .error (t1.holdFor none) else
        let e := word (ofLeBytes (t1.bytesRead parts))
        let t2 := t1.afterRead parts
        if e = 0 then .error (t2.raise 0x0F r.entry 0 r.entry)
        else if bits e 0 14 ≠ 0 then .error (t2.raise 0x0E e 0 r.entry)
        else t2.kvEntries kind rs ({ r with at_ := e + r.at_, bad := t1.badRead parts } :: acc)

/-- The entry address of the row whose record a fault names (R387). -/
def bteOf (rows : List KvRow) (va : Word) : Word :=
  ((rows.find? fun r => bits r.at_ 14 50 = bits va 14 50).map (·.entry)).getD 0

/-- The records of the rows: `len` bytes at `off` and, where `scale`, the four bytes of SCALE, of each. -/
def kvRuns (rows : List KvRow) (fields : List (Nat × Nat)) : List (Word × Nat) :=
  rows.flatMap fun r => fields.map fun p => (r.at_ + word p.1, p.2)

/-- Entries and records of a TLDK; the body gets the rows with the bytes of their fields. -/
def State.kvGather (t : State) (rows : List KvRow) (fields : List (Nat × Nat))
    (body : List (Nat × List Byte) → Bool → State → State) : State :=
  match t.kvEntries 5 rows [] with
  | .error bad => bad
  | .ok (rows, t1) =>
    match t1.resolveIn { kv := true } (kvRuns rows fields) with
    | (.error x, t2) => t2.raiseX 5 x (bteOf rows x.va)
    | (.ok parts, t2) =>
      if t2.readWaits parts then t2.holdFor none else
      let len := (fields.map (·.2)).sum
      let recs := (rows.map (·.row)).zip (runsOf len 128 (t2.bytesRead parts))
      body recs (t2.badRead parts || rows.any (·.bad)) (t2.afterRead parts)

/-- The row of a list of numbered rows, or zero. -/
def rowAt (rows : List (Nat × BitVec 1728)) (i : Nat) : BitVec 1728 :=
  ((rows.find? fun p => p.1 = i).map (·.2)).getD 0

/-- TLDK, LAT8 mode (R268). -/
def execTldkLat8 (f : SR) (s : State) : Out :=
  let kb := f.c.toNat / 8
  s.tileLoad f (s.kvUnaligned f) fun n ring t =>
    t.kvGather (s.kvRows f) [(192 * kb, 192), (960, 4)] fun recs bad t =>
      let rows := recs.map fun r => (r.1, rowOfBytes r.2)
      t.modCur fun k => k.landT n ring (tileOfRows .lat8 ((List.range 128).map (rowAt rows))) bad

/-- The expanded row of a record (R268, R325): its LAT and SCALE bytes and, for a key row, ROPE bytes. -/
def expandedRow (w : List Byte) (value : Bool) (lat sc rope : List Byte) : BitVec 1728 :=
  let e4m3 (b : Byte) : Num := Num.unpack ⟨4, 3, 7, .e4m3⟩ b.toNat
  let scale := Num.ofF32 (ofLeBytes sc)
  let ls := lat.map e4m3
  let k (d : Nat) : Num :=
    Num.ofF32 (Num.toF32 .rne (Num.mul scale (groupSum ls ((List.range 896).map fun c => projElem w c d))))
  let xs := (List.range 128).map k ++
    (if value then List.replicate 64 Num.zero else rope.map fun b => Num.mul (e4m3 b) scale)
  let sb := chooseRow .e4m3row xs
  packRow 8 (xs.map fun x => scaleDown .e4m3row .rne true x (Num.ofF32 sb)) ((leBytes 4 sb).map (·.toNat))

/-- TLDK, expansion mode (R268). -/
def execTldkExpand (f : SR) (s : State) : Out :=
  let value := f.c.getLsbD 2
  let fields := if value then [(0, 896), (960, 4)] else [(0, 896), (960, 4), (896, 64)]
  s.tileLoad f (s.kvUnaligned f) fun n ring t =>
    t.kvGather (s.kvRows f) fields fun recs bad t =>
      match t.projection (f.c.toNat % 4) .e4m3row with
      | .error bad => bad
      | .ok (w, t1) =>
        let rows := recs.map fun r =>
          (r.1, expandedRow w.bytes value (r.2.take 896) ((r.2.drop 896).take 4) (r.2.drop 900))
        t1.modCur fun k => k.landT n ring (tileOfRows .e4m3row ((List.range 128).map (rowAt rows))) (bad || w.bad)
          (some (f.c.toNat % 4))

/-! Stores (R261 to R265, R267, R269, R343, R437) -/

/-- Runs that follow on one another, as one. -/
def joinRuns : List (Nat × List Byte) → List (Nat × List Byte)
  | [] => []
  | p :: r =>
    match joinRuns r with
    | [] => [p]
    | q :: qs => if p.1 + p.2.length = q.1 then (p.1, p.2 ++ q.2) :: qs else p :: q :: qs

/-- A run of bytes cut at multiples of u. -/
def cutRun (u : Nat) (p : Nat × List Byte) : List (Nat × List Byte) :=
  let h := u - p.1 % u
  (p.1, p.2.take h) :: (runsOf u p.2.length (p.2.drop h)).mapIdx fun i bs => (p.1 + h + u * i, bs)

/-- The parts of a write that land whole, of u bytes each, or all of it where u is 0 (R341). -/
def unitsOf (u : Nat) (parts : List (Nat × List Byte)) : List (Nat × List Byte) :=
  if u = 0 then parts else (joinRuns parts).flatMap (cutRun u)

/-- Bytes in the own LDM are written at once, in bundle order, unless an earlier store or reduction of the context to that
LDM has yet to perform, or an image is yet to be read (R109, R342); bytes that do not land together perform later (R341). -/
def State.ldmNow (t : State) (unit : Nat) (data : List (Nat × List Byte)) : Bool :=
  let c := t.issue.core
  let parts := data.map fun p => (p.1, p.2.length)
  decide ((unitsOf unit data).length ≤ 1) && !(t.cur.stores.any (·.inLdm c)) &&
    !t.imageWaits c t.issue.bank t.fabric.nextItem parts && !t.behindOwn parts

/-- A store of the bundle: bytes in registers and in the own LDM are written at once; the others join the committed stores,
which perform later (R342, R343, R437); `unit` bytes land together (R341). -/
def State.commitStore (t : State) (f : MEM) (data : List (Nat × List Byte)) (unit : Nat := 8) : State :=
  let c := t.issue.core
  let release := f.ord = 2
  let ldm := t.ldmNow unit (data.filter fun p => isLdmOf c p.1)
  let (now, later) := data.partition fun p => isReg p.1 || (isLdmOf c p.1 && ldm)
  let enter (t : State) : State :=
    if later.isEmpty then t
    else
      { t with fabric := { t.fabric with nextItem := t.fabric.nextItem + 1 } }.modCur fun k =>
        { k with stores := k.stores ++ [(⟨t.fabric.nextItem, later, false, release, f.scope.toNat, unit, none⟩ : StoreOp)] }
  if now.isEmpty then enter t
  else if release then t.afterStores true fun t => enter (t.writeParts c now)
  else enter (t.writeParts c now)

/-- MEM fields of a store without order. -/
def plainMem : MEM := ⟨0, 0, 0, 0, 0, 0, 0⟩

/-- A scalar store of w bytes. -/
def State.store (s : State) (f : MEM) (w : Nat) : Out :=
  let va := s.ea f
  let v := s.issue.pre.getX f.d.toNat
  s.anchored [baseOf f, idxOf f, opReg .x f.d.toNat] [] fun t =>
    if f.ord ≠ 0 && misaligned va w then t.raise 0x0E va
    else
      t.access 2 { write := true, atomic := f.ord = 4 } (pieces va w) fun parts t =>
        if f.ord = 4 then t.seqCstStore (parts.headD (0, 0)).1 w v.toNat f.scope.toNat
        else t.commitStore f (cutData parts (leBytes w v.toNat)) (if misaligned va w then 1 else 0)

/-- STB (R261). -/
def execStb (f : MEM) (s : State) : Out := s.store f 1

/-- STH (R261). -/
def execSth (f : MEM) (s : State) : Out := s.store f 2

/-- STW (R261). -/
def execStw (f : MEM) (s : State) : Out := s.store f 4

/-- STD (R261). -/
def execStd (f : MEM) (s : State) : Out := s.store f 8

/-- STQ (R261). -/
def execStq (f : MEM) (s : State) : Out :=
  let va := s.ea f
  let d := f.d.toNat
  let data := leBytes 8 (s.issue.pre.getX d).toNat ++ leBytes 8 (s.issue.pre.getX (d + 1)).toNat
  s.anchored [baseOf f, idxOf f, opReg .x d, opReg .x (d + 1)] [] fun t =>
    if f.ord ≠ 0 && misaligned va 16 then t.raise 0x0E va
    else
      t.access 2 { write := true } (pieces va 16) fun parts t =>
        t.commitStore f (cutData parts data) (if misaligned va 16 then 1 else 0)

/-- The data vector of a store: POISON raises poison consumption, other tags outside a set the format
fault; `required` is the FMT required, 0 for a class (R101). -/
def State.badData (t s : State) (d : Nat) (ok : Fmt → Bool) (required : Fmt := .raw) : Option State :=
  let tag := (s.issue.pre.getV d).tag
  if tag = .poison then some (t.raise 0x10 0) else if ok tag then none else some (t.formatFault tag required)

/-- The bytes of a vector's memory image (R262). -/
def VReg.image (r : VReg) : List Byte :=
  leBytes 256 r.body.toNat ++ leBytes (r.tag.sidecarUsed r.tag.lanes) r.side.toNat

/-- VST (R262). -/
def execVst (f : MEM) (s : State) : Out :=
  let va := s.ea f
  let d := f.d.toNat
  let r := s.issue.pre.getV d
  s.anchored [baseOf f, idxOf f, opReg .v d] [] fun t =>
    if misaligned va 8 then t.raise 0x0E va
    else
      t.access 2 { write := true } (pieces va (imageBytes r.tag)) fun parts t =>
        orElse [t.badData s d fun _ => true] (t.commitStore f (cutData parts r.image))

/-- VSTS: elements of the tag's lane width; a tag that gives no lanes of whole bytes gives no access (R259, R263). -/
def execVsts (f : MEM) (s : State) : Out :=
  let d := f.d.toNat
  let r := s.issue.pre.getV d
  let b := if r.tag.hasLanes || r.tag.inStrided then r.tag.width / 8 else 0
  let vas := if b = 0 then [] else stridden (s.issue.pre.getX f.base.toNat) (f.disp.signExtend 64) r.tag.lanes
  s.anchored [baseOf f, opReg .v d] [] fun t =>
    match vas.find? (misaligned · b) with
    | some va => t.raise 0x0E va
    | none =>
      t.access 2 { write := true } (vas.map (·, b)) fun parts t =>
        orElse [t.badData s d Fmt.inStrided]
          (t.commitStore plainMem (cutData parts ((r.elems r.tag).flatMap (leBytes b))) b)

/-- VSCT (R265). -/
def execVsct (f : SR) (s : State) : Out :=
  let d := f.d.toNat
  let r := s.issue.pre.getV d
  s.anchored [opA .x f, opB .v f, opC .x f, maskOf f, opReg .v d] [] fun t =>
    match t.gatherChecks s f with
    | some bad => bad
    | none =>
      let ls := s.lanesAt f
      t.access 10 { write := true } (ls.map fun l => (l.2.2, 4)) fun parts t =>
        orElse [t.badData s d (fun g => if f.fmt = 0 then g.inGather else g = fmtOf f) (fmtOf f)]
          (t.commitStore plainMem (cutData parts (ls.flatMap fun l => leBytes 4 ((lanesOf 32 r.body).getD l.1 0))) 4)

/-- PST: bytes 4i to 4i + 3 of the body are lane group i (R183, R264). -/
def execPst (f : MEM) (s : State) : Out :=
  let va := s.baseDisp f
  let d := f.d.toNat
  let r := s.issue.pre.getV d
  let mask := s.issue.pre.getP f.idx.toNat
  let on := (List.range 64).filter fun i => mask.getLsbD i
  s.anchored [baseOf f, opReg .p f.idx.toNat, opReg .v d] [] fun t =>
    if misaligned va 8 then t.raise 0x0E va
    else
      t.access 2 { write := true } (on.map fun i => (va + word (4 * i), 4)) fun parts t =>
        orElse [t.badData s d Fmt.isUnscaled]
          (t.commitStore plainMem (cutData parts (on.flatMap fun i => leBytes 4 (r.body.toNat / 2 ^ (32 * i)))))

/-- A tile field of the W slot: alignment, bounds, a slot not filled yet, then the body with the tile number (R105, R259). -/
def State.tileStore (s : State) (d : BitVec 6) (os : List Opd) (unaligned : State → Option State) (body : Nat → State → State) : Out :=
  let n := s.issue.pre.tileField d
  s.anchored (os ++ [opReg .t ((n.map (·.1)).getD 32)]) [] fun t =>
    match unaligned t, n with
    | some bad, _ => bad
    | none, none => t.raise 0x0F 0
    | none, some (n, filled) => if filled then body n t else t.holdFor none

/-- The image of a tile (R267). -/
def Tile.image (r : Tile) : List Byte :=
  r.tag.code.setWidth 8 :: List.replicate 63 0 ++ (List.range 128).flatMap fun i => leBytes 216 (r.row i).toNat

/-- TST (R267). -/
def execTst (f : MEM) (s : State) : Out :=
  let va := s.ea f
  s.tileStore f.d [baseOf f, idxOf f] (fun t => if misaligned va 64 then some (t.raise 0x0E va) else none) fun n t =>
    t.access 6 { write := true } (pieces va imageLen) fun parts t =>
      orElse [t.badTile n] (t.commitStore f (cutData parts (s.tileIn n).image))

/-- TSTK (R269). -/
def execTstk (f : SR) (s : State) : Out :=
  let kb := f.c.toNat / 8
  s.tileStore f.d [opA .x f, opB .x f] (s.kvUnaligned f) fun n t =>
    match t.kvEntries 6 (s.kvRows f) [] with
    | .error bad => bad
    | .ok (rows, t1) =>
      let field := if kb = 5 then (960, 64) else (192 * kb, 192)
      match t1.resolveIn { kv := true, write := true } (kvRuns rows [field]) with
      | (.error x, t2) => t2.raiseX 6 x (bteOf rows x.va)
      | (.ok parts, t2) =>
        let want := if kb = 5 then Fmt.raw else .lat8
        let tag := (s.tileIn n).tag
        orElse [t2.badTile n, if tag = want then none else some (t2.formatFault tag want),
            if rows.any (·.bad) then some (t2.raise 0x10 0) else none]
          (t2.commitStore plainMem (cutData parts (rows.flatMap fun r => leBytes field.2 ((s.tileIn n).row r.row).toNat)))

/-! Load-blocks (R246, R270) -/

/-- The lines from a run of bytes on, in a block of the core that still holds them. -/
def Core.inBlock (k : Core) (parts : List (Nat × Nat)) : Bool :=
  ((k.b0.blocks ++ k.b1.blocks).map (·.2)).any fun b =>
    b.used && !b.broken && b.keys.any fun p => parts.any fun q => p.1 < q.1 + q.2 && q.1 < p.1 + p.2

/-- Lines by address, in a block of a context of the same address space (R246). -/
def Core.blockAt (k : Core) (asid : Nat) (va : Word) (n : Nat) : Bool :=
  [k.b0, k.b1].any fun x => x.occupied && x.asid = asid && (x.blocks.map (·.2)).any fun b =>
    b.used && !b.broken && decide (va.toNat < b.va.toNat + 128 * b.n) && decide (b.va.toNat < va.toNat + 128 * n)

/-- LDBLK (R246, R270). -/
def execLdblk (f : MEM) (s : State) : Out :=
  let va := s.baseDisp f
  let n := f.idx.toNat + 1
  s.anchored [baseOf f] [.x f.d.toNat] fun t =>
    if misaligned va 128 then t.raise 0x0E va
    else
      match (List.range 4).find? fun i => !(s.issue.pre.blocks.get .none i).used with
      | none => t.raise 0x0F 0
      | some i =>
        if (t.core t.issue.core).blockAt s.issue.pre.asid va n then t.raise 0x0F 0 else
        t.access 14 { line := true } (pieces va (128 * n)) fun parts t =>
          if (t.core t.issue.core).inBlock parts then t.raise 0x0F 0
          else
            (t.modCur fun k => { k with blocks := k.blocks.set .none i ⟨true, va, parts, n, false, false⟩ }).putX
              f.d.toNat (word i)

/-- LBWAIT (R270). -/
def execLbwait (f : MEM) (s : State) : Out :=
  let i := (s.issue.pre.getX f.base.toNat).toNat
  s.anchored [baseOf f] [.x f.d.toNat] fun t =>
    let b := s.issue.pre.blocks.get .none i
    if 3 < i then t.raise 0x0F 0
    else if !b.used then t.putX f.d.toNat 2
    else if b.broken then t.putX f.d.toNat 1
    else if b.filled then t.putX f.d.toNat 0
    else t.holdFor none

/-- BLKREL (R270). -/
def execBlkrel (f : MEM) (s : State) : Out :=
  let i := (s.issue.pre.getX f.base.toNat).toNat
  s.anchored [baseOf f] [] fun t =>
    if 3 < i then t.raise 0x0F 0 else t.modCur fun k => { k with blocks := k.blocks.set .none i .none }

/-- PLD: it changes no memory, writes no register and never traps (R271). -/
def execPld (_f : MEM) (s : State) : Out := s.anchored [] [] fun t => t

/-- PREF (R271). -/
def execPref (_f : MEM) (s : State) : Out := s.anchored [] [] fun t => t

/-! Returning atomics (R272, R273) -/

/-- The new value of an atomic by its OP; none where nothing is written (R272). -/
def newValue (op w m v compare : Nat) : Option Nat :=
  let i := Num.intOfBits (8 * w) true
  match op with
  | 0x18 => some ((m + v) % 2 ^ (8 * w))
  | 0x19 => some v
  | 0x1A | 0x1B => if m = compare then some v else none
  | 0x1C => some (if i v < i m then v else m)
  | 0x1D => some (if i m < i v then v else m)
  | 0x1E => some (min m v)
  | 0x1F => some (max m v)
  | 0x20 => some (m &&& v)
  | 0x21 => some (m ||| v)
  | 0x22 => some (m ^^^ v)
  | _ => some (Num.toF32 .rne (Num.add .rne (Num.ofF32 m) (Num.ofF32 v)))

/-- An atomic performs at a key: the old value, as memory `old` and `oldBad` give it, whether it was marked uncorrectable
(then nothing is written), and the state after (R260, R272); `who` is the writer. -/
def State.atomicOn (s : State) (old : Sparse Byte) (oldBad : Sparse Bool) (who op key w v compare : Nat) : (Nat × Bool) × State :=
  let m := ofLeBytes (s.view old [(key, w)])
  let bad := viewBad oldBad [(key, w)]
  let s1 := s.afterRead [(key, w)]
  match (if bad then none else newValue op w m v compare) with
  | some n => ((m, bad), s1.writeParts who [(key, leBytes w n)])
  | none => ((m, bad), s1)

/-- An atomic performs on memory as it stands. -/
def State.atomicAt (s : State) (who op key w v compare : Nat) : (Nat × Bool) × State := s.atomicOn s.mem s.bad who op key w v compare

/-- The running context as a writer whose access performs at its home. -/
def State.asHome (t : State) : Nat := homeWriter t.issue.core t.issue.bank

/-- An access of the L slot has been served; the W slot's comes after it (R273). -/
def State.serve (t : State) : State := { t with issue := { t.issue with served := t.issue.served || t.issue.slot = 5 } }

/-- An atomic of the bundle: its read half comes before every write of the bundle, but for the L slot's access, which the W
slot's follows (R108, R273). -/
def State.atomicIn (t : State) (op key w v compare : Nat) : (Nat × Bool) × State :=
  let (r, t1) :=
    if t.issue.served then t.atomicAt t.asHome op key w v compare
    else t.atomicOn (overlay t.issue.mem0 t.issue.pre.stores) (overlayBad t.issue.bad0 t.issue.pre.stores) t.asHome op key w v compare
  (r, t1.serve)

/-- A returning atomic: `pairs` is AMCAS16, `cas` says that x[D] is compared. -/
def State.atomic (s : State) (f : MEM) (op : Nat) : Out :=
  let va := s.baseDisp f
  let w := atomWidth f.scl
  let d := f.d.toNat
  let i := f.idx.toNat
  let cas := op = 0x1A ∨ op = 0x1B
  let pair := op = 0x1B
  let val (r : Nat) : Nat :=
    if pair then (s.issue.pre.getX r).toNat + 2 ^ 64 * (s.issue.pre.getX (r + 1)).toNat
    else (s.issue.pre.getX r).toNat % 2 ^ (8 * w)
  let rd := [baseOf f, idxOf f] ++ (if cas then [opReg .x d] else []) ++
    (if pair then [opReg .x (i + 1), opReg .x (d + 1)] else [])
  let land (t : State) (m : Nat) (bad : Bool) : State :=
    if pair then
      t.modCur fun k => ((k.landX d (word (m % 2 ^ 64)) bad k.token).landX (d + 1) (word (m / 2 ^ 64)) bad k.token).useToken
    else t.landOne d (word m) bad
  s.anchored rd (if pair then [.x d, .x (d + 1)] else [.x d]) fun t =>
    t.roomForLoad fun t =>
      if misaligned va w then t.raise 0x0E va
      else
        t.access 3 { write := true, atomic := true } (pieces va w) fun parts t =>
          let key := (parts.headD (0, 0)).1
          if f.ord = 4 then t.seqCst (.atomic op) key w (val i) (val d) fun m bad t => land t m bad
          else
            let act (t : State) : State :=
              let (r, t1) := t.atomicIn op key w (val i) (val d)
              land t1 r.1 r.2
            if t.behindOwn [(key, w)] || t.imageBefore [(key, w)] then t.holdFor none
            else if f.ord = 2 ∨ f.ord = 3 then t.afterStores true act
            else if t.storesFirst [(key, w)] then t.afterStores false act
            else act t

/-- AMADD (R272). -/
def execAmadd (f : MEM) (s : State) : Out := s.atomic f 0x18

/-- AMSWP (R272). -/
def execAmswp (f : MEM) (s : State) : Out := s.atomic f 0x19

/-- AMCAS (R272). -/
def execAmcas (f : MEM) (s : State) : Out := s.atomic f 0x1A

/-- AMCAS16 (R272). -/
def execAmcas16 (f : MEM) (s : State) : Out := s.atomic f 0x1B

/-- AMMIN (R272). -/
def execAmmin (f : MEM) (s : State) : Out := s.atomic f 0x1C

/-- AMMAX (R272). -/
def execAmmax (f : MEM) (s : State) : Out := s.atomic f 0x1D

/-- AMMINU (R272). -/
def execAmminu (f : MEM) (s : State) : Out := s.atomic f 0x1E

/-- AMMAXU (R272). -/
def execAmmaxu (f : MEM) (s : State) : Out := s.atomic f 0x1F

/-- AMAND (R272). -/
def execAmand (f : MEM) (s : State) : Out := s.atomic f 0x20

/-- AMOR (R272). -/
def execAmor (f : MEM) (s : State) : Out := s.atomic f 0x21

/-- AMXOR (R272). -/
def execAmxor (f : MEM) (s : State) : Out := s.atomic f 0x22

/-- AMFADD (R272). -/
def execAmfadd (f : MEM) (s : State) : Out := s.atomic f 0x23

/-! Reductions at memory (R274) -/

/-- The atomic whose new value a reduction takes; MIN and MAX are signed or unsigned by the width code. -/
def reductionOp (op : Nat) (scl : Nat) : Nat :=
  match op with
  | 0x10 => 0x18
  | 0x11 => if 6 ≤ scl then 0x1E else 0x1C
  | 0x12 => if 6 ≤ scl then 0x1F else 0x1D
  | 0x13 => 0x20
  | 0x14 => 0x21
  | 0x15 => 0x22
  | _ => 0x23

/-- The ASYNC fault record of a reduction (R244, R274). -/
def State.reductionRecord (s : State) (r : Reduction) (cause : Nat) (va detail : Word) : State :=
  s.report { job := r.job, cause := cause, access := 4, slot := 6, bank := r.bank, core := r.core, sup := r.sup
             async := true, asid := r.asid, rop := r.op, va := va, pc := r.pc, wid := r.wid, time := s.sidereal
             operand := word (r.operand.toNat % 2 ^ (8 * r.width)), detail := detail, notice := false }

/-- The key of a reduction that names the own LDM by a window, where it performs in bundle order (R231, R342). -/
def State.ownLdmKey (t : State) (va : Word) (w : Nat) : Option Nat :=
  if bits va 48 16 = 0xFF || bits va 48 16 = 0xFE then
    match (t.place t.me { write := true } va w).1 with
    | .ok key => if isLdmOf t.issue.core key then some key else none
    | .error _ => none
  else none

/-- A reduction sets out: it is injected at the core's cluster interface and translated after commit (R243, R274, R355); one
to the own LDM performs with its bundle (R342). -/
def State.reduce (s : State) (f : MEM) (op : Nat) : Out :=
  let va := s.baseDisp f
  let w := atomWidth f.scl
  let k := s.issue.pre
  s.anchored [baseOf f, opReg .x f.d.toNat] [] fun t =>
    if misaligned va w then t.raise 0x0E va
    else
      let r : Reduction :=
        { n := t.fabric.nextItem, core := s.issue.core, bank := s.issue.bank, job := k.job, asid := k.asid
          sup := k.mode = .supervisor, wid := k.wid, pc := k.pc, op := op, scl := f.scl.toNat, ord := f.ord.toNat
          scope := f.scope.toNat, va := va, operand := k.getX f.d.toNat, stage := 0, ctx := k.serial, fault := none }
      let out (r : Reduction) (t : State) : State :=
        { t with fabric := { t.fabric with reductions := t.fabric.reductions ++ [r], nextItem := t.fabric.nextItem + 1 } }.inject
          (clusterOf s.issue.core) k.job
      match t.ownLdmKey va w with
      | none => out r t
      | some key =>
        if t.behindOwn [(key, w)] || t.imageBefore [(key, w)] || t.cur.stores.any (·.inLdm t.issue.core) then t.holdFor none
        else
          let act (t : State) : State :=
            let ((_, bad), t1) := t.atomicAt t.asHome (reductionOp op r.scl) key w (r.operand.toNat % 2 ^ (8 * w)) 0
            out { r with stage := 1 } (if bad then t1.reductionRecord r 0x10 va 0 else t1)
          if f.ord = 2 ∨ f.ord = 3 then t.afterStores true act else act t

/-- RDADD (R274). -/
def execRdadd (f : MEM) (s : State) : Out := s.reduce f 0x10

/-- RDMIN (R274). -/
def execRdmin (f : MEM) (s : State) : Out := s.reduce f 0x11

/-- RDMAX (R274). -/
def execRdmax (f : MEM) (s : State) : Out := s.reduce f 0x12

/-- RDAND (R274). -/
def execRdand (f : MEM) (s : State) : Out := s.reduce f 0x13

/-- RDOR (R274). -/
def execRdor (f : MEM) (s : State) : Out := s.reduce f 0x14

/-- RDXOR (R274). -/
def execRdxor (f : MEM) (s : State) : Out := s.reduce f 0x15

/-- RDFADD (R274). -/
def execRdfadd (f : MEM) (s : State) : Out := s.reduce f 0x16

/-! Line operations (R275) -/

/-- The first byte of the line that holds an address. -/
def lineOf (va : Word) : Word := va >>> 7 <<< 7

/-- LINV: the line leaves L1D; a load-block line leaves its block broken (R275). -/
def execLinv (f : MEM) (s : State) : Out :=
  let va := s.ea f
  s.anchored [baseOf f, idxOf f] [] fun t =>
    t.access 1 {} (pieces (lineOf va) 128) fun parts t =>
      parts.foldl (fun t p => t.modCore t.issue.core (Core.strike p.1 p.2)) t

/-- LWB: inside a bound region the dirty sector is written back; elsewhere memory already holds the line's bytes, and its
translation leaves what a read's does (R247, R275). -/
def execLwb (f : MEM) (s : State) : Out :=
  let va := s.ea f
  s.anchored [baseOf f, idxOf f] [] fun t =>
    match (if bits va 48 16 ∈ [0xFF, 0xFE, 0xFD] || !canonical va then none else t.regionFor t.me va) with
    | some (n, r) =>
      let k := s.issue.pre
      t.writeBack t.issue.core n (((bits va 14 42 - r.page) * 16384 + bits va 0 14) / 1024) fun q =>
        { q with pc := k.pc, wid := k.wid, slot := t.issue.slot, bank := t.issue.bank, sup := k.mode = .supervisor }
    | none =>
      match t.resolveIn { write := true } (pieces (lineOf va) 128) with
      | (.error x, t1) => t1.raiseX 2 x
      | (.ok _, t1) => ({ t with free := t1.free }.resolveIn {} (pieces (lineOf va) 128)).2

/-- LZERO: a store of 128 zero bytes (R275). -/
def execLzero (f : MEM) (s : State) : Out :=
  let va := s.ea f
  s.anchored [baseOf f, idxOf f] [] fun t =>
    if misaligned va 128 then t.raise 0x0E va
    else
      t.access 2 { write := true } (pieces va 128) fun parts t =>
        t.commitStore plainMem (cutData parts (List.replicate 128 0))

end Sys2Proof.Machine
end

