-- ==== Sys2Proof/Machine/Scalar.lean ====
section
/-! DEFINITION. The S slot: integer arithmetic, logic, bitfields, compares, predicates, scalar floating point and random words (R166 to R178). -/
namespace Sys2Proof.Machine

/-! Shapes -/

/-- x[D] from x[A] and x[B]. -/
def State.sAB (s : State) (f : SR) (op : Word → Word → Word) : Out :=
  s.anchored [opA .x f, opB .x f] [.x f.d.toNat] fun t =>
    t.putX f.d.toNat (op (s.srcX (opA .x f)) (s.srcX (opB .x f)))

/-- x[D] from x[A]. -/
def State.sA (s : State) (f : SR) (op : Word → Word) : Out :=
  s.anchored [opA .x f] [.x f.d.toNat] fun t => t.putX f.d.toNat (op (s.srcX (opA .x f)))

/-- x[D] from x[A] of an SI body. -/
def State.siA (s : State) (f : SI) (op : Word → Word) : Out :=
  s.anchored [opReg .x f.a.toNat] [.x f.d.toNat] fun t => t.putX f.d.toNat (op (s.srcX (opReg .x f.a.toNat)))

/-- p[D] from x[A] and x[B]: a compare (R174). -/
def State.sCmp (s : State) (f : SR) (c : Word → Word → Bool) : Out :=
  s.anchored [opA .x f, opB .x f] [.p f.pd] fun t =>
    t.putP f.pd (allBits (c (s.srcX (opA .x f)) (s.srcX (opB .x f))))

/-- p[D] from x[A] and an immediate (R174). -/
def State.siCmp (s : State) (f : SI) (c : Word → Bool) : Out :=
  s.anchored [opReg .x f.a.toNat] [.p f.pd] fun t => t.putP f.pd (allBits (c (s.srcX (opReg .x f.a.toNat))))

/-- p[D] from p[A] and p[B] (R175). -/
def State.sPred (s : State) (f : SR) (op : Word → Word → Word) : Out :=
  s.anchored [opPA f, opPB f] [.p f.pd] fun t => t.putP f.pd (op (s.srcP (opPA f)) (s.srcP (opPB f)))

/-- x[D] from p[A] (R175). -/
def State.sFromP (s : State) (f : SR) (op : Word → Word) : Out :=
  s.anchored [opPA f] [.x f.d.toNat] fun t => t.putX f.d.toNat (op (s.srcP (opPA f)))

/-! Integer arithmetic (R168, R169) -/

/-- MULH's product (R168). -/
def mulHigh (a b : Word) : Word := BitVec.ofInt 64 (a.toInt * b.toInt / 2 ^ 64)

/-- MULHU's product (R168). -/
def mulHighU (a b : Word) : Word := word (a.toNat * b.toNat / 2 ^ 64)

/-- DIV: rounded toward zero; all ones for a zero divisor; −2^63 ÷ −1 wraps (R169). -/
def divSigned (a b : Word) : Word := if b = 0 then -1 else BitVec.ofInt 64 (a.toInt.tdiv b.toInt)

/-- DIVU (R169). -/
def divUnsigned (a b : Word) : Word := if b = 0 then -1 else word (a.toNat / b.toNat)

/-- REM: the sign of the dividend; the dividend for a zero divisor (R169). -/
def remSigned (a b : Word) : Word := if b = 0 then a else BitVec.ofInt 64 (a.toInt.tmod b.toInt)

/-- Leading zero bits, 64 for zero (R168). -/
def leadingZeros (a : Word) : Nat := if a = 0 then 64 else 63 - a.toNat.log2

/-- ADD (R168). -/
def execAdd (f : SR) (s : State) : Out := s.sAB f fun a b => a + b

/-- SUB (R168). -/
def execSub (f : SR) (s : State) : Out := s.sAB f fun a b => a - b

/-- ADDI (R168). -/
def execAddi (f : SI) (s : State) : Out := s.siA f fun a => a + f.sx

/-- MUL (R168). -/
def execMul (f : SR) (s : State) : Out := s.sAB f fun a b => a * b

/-- MULH (R168). -/
def execMulh (f : SR) (s : State) : Out := s.sAB f mulHigh

/-- MULHU (R168). -/
def execMulhu (f : SR) (s : State) : Out := s.sAB f mulHighU

/-- DIV (R169). -/
def execDiv (f : SR) (s : State) : Out := s.sAB f divSigned

/-- DIVU (R169). -/
def execDivu (f : SR) (s : State) : Out := s.sAB f divUnsigned

/-- REM (R169). -/
def execRem (f : SR) (s : State) : Out := s.sAB f remSigned

/-- CLZ (R168). -/
def execClz (f : SR) (s : State) : Out := s.sA f fun a => word (leadingZeros a)

/-- CTZ (R168). -/
def execCtz (f : SR) (s : State) : Out := s.sA f fun a => word (lowestSet a)

/-- POPC (R168). -/
def execPopc (f : SR) (s : State) : Out := s.sA f fun a => word (popCount a)

/-- MIN (R168). -/
def execMin (f : SR) (s : State) : Out := s.sAB f fun a b => if b.toInt < a.toInt then b else a

/-- MAX (R168). -/
def execMax (f : SR) (s : State) : Out := s.sAB f fun a b => if a.toInt < b.toInt then b else a

/-- MINU (R168). -/
def execMinu (f : SR) (s : State) : Out := s.sAB f fun a b => if b < a then b else a

/-- MAXU (R168). -/
def execMaxu (f : SR) (s : State) : Out := s.sAB f fun a b => if a < b then b else a

/-- ADDSH (R168). -/
def execAddsh (f : SR) (s : State) : Out := s.sAB f fun a b => a + b <<< (f.fn9.toNat % 8)

/-- SEL: bit 0 of the predicate named by C and FN9[6] (R168). -/
def execSel (f : SR) (s : State) : Out :=
  s.anchored [opA .x f, opB .x f, opPC f] [.x f.d.toNat] fun t =>
    t.putX f.d.toNat (if (s.srcP (opPC f)).getLsbD 0 then s.srcX (opA .x f) else s.srcX (opB .x f))

/-! Logic, shifts and constants (R170, R171) -/

/-- AND (R170). -/
def execAnd (f : SR) (s : State) : Out := s.sAB f fun a b => a &&& b

/-- OR (R170). -/
def execOr (f : SR) (s : State) : Out := s.sAB f fun a b => a ||| b

/-- XOR (R170). -/
def execXor (f : SR) (s : State) : Out := s.sAB f fun a b => a ^^^ b

/-- ANDI (R170). -/
def execAndi (f : SI) (s : State) : Out := s.siA f fun a => a &&& f.sx

/-- ORI (R170). -/
def execOri (f : SI) (s : State) : Out := s.siA f fun a => a ||| f.sx

/-- SHL (R170). -/
def execShl (f : SR) (s : State) : Out := s.sAB f fun a b => a <<< (b.toNat % 64)

/-- SHR (R170). -/
def execShr (f : SR) (s : State) : Out := s.sAB f fun a b => a >>> (b.toNat % 64)

/-- SAR (R170). -/
def execSar (f : SR) (s : State) : Out := s.sAB f fun a b => a.sshiftRight (b.toNat % 64)

/-- SHLI (R170). -/
def execShli (f : SI) (s : State) : Out := s.siA f fun a => a <<< (f.u % 64)

/-- SHRI (R170). -/
def execShri (f : SI) (s : State) : Out := s.siA f fun a => a >>> (f.u % 64)

/-- SARI (R170). -/
def execSari (f : SI) (s : State) : Out := s.siA f fun a => a.sshiftRight (f.u % 64)

/-- LI (R171). -/
def execLi (f : SI) (s : State) : Out := s.anchored [] [.x f.d.toNat] fun t => t.putX f.d.toNat f.sx

/-- LIH (R171). -/
def execLih (f : SI) (s : State) : Out := s.siA f fun a => word (f.u * 2 ^ 32) ||| word (a.toNat % 2 ^ 32)

/-! Bitfields and work-identifier fields (R172, R173) -/

/-- W of BFX and BFI. -/
def fieldWidth (f : SI) : Nat := f.u / 64 % 64 + 1

/-- BFX's value (R172). -/
def bitfieldOf (f : SI) (a : Word) : Word :=
  let n := bits a (f.u % 64) (fieldWidth f)
  if f.imm.getLsbD 12 then sextWord (fieldWidth f) n else word n

/-- BFX (R172). -/
def execBfx (f : SI) (s : State) : Out := s.siA f (bitfieldOf f)

/-- BFI's value (R172). -/
def insertField (f : SI) (d a : Word) : Word :=
  let mask := word ((2 ^ fieldWidth f - 1) * 2 ^ (f.u % 64))
  (d &&& ~~~mask) ||| ((a <<< (f.u % 64)) &&& mask)

/-- BFI (R172). -/
def execBfi (f : SI) (s : State) : Out :=
  s.anchored [opReg .x f.a.toNat, opReg .x f.d.toNat] [.x f.d.toNat] fun t =>
    t.putX f.d.toNat (insertField f (s.srcX (opReg .x f.d.toNat)) (s.srcX (opReg .x f.a.toNat)))

/-- lo_K of R29: the widths of the fields below field K. -/
def fieldLow (ws : List Nat) (k : Nat) : Nat := (ws.drop k).sum

/-- Field K of a work identifier, or its prefix of fields 1 to K (R173); bits above the width sum are
ignored. -/
def widField (ws : List Nat) (w : Word) (pfx : Bool) (k : Nat) : Word :=
  let n := w.toNat % 2 ^ ws.sum
  if pfx then (if k = 0 then 0 else word (n / 2 ^ fieldLow ws k))
  else word (n / 2 ^ fieldLow ws k % 2 ^ ws.getD (k - 1) 0)

/-- WIDF: the source is the WID register when A = 0 (R173). -/
def execWidf (f : SI) (s : State) : Out :=
  s.siA f fun a =>
    widField s.issue.pre.widths (if f.a = 0 then s.issue.pre.wid else a) (f.imm.getLsbD 3) (f.u % 8)

/-! Compares and predicates (R174, R175) -/

/-- CMPEQ (R174). -/
def execCmpeq (f : SR) (s : State) : Out := s.sCmp f fun a b => a = b

/-- CMPNE (R174). -/
def execCmpne (f : SR) (s : State) : Out := s.sCmp f fun a b => a ≠ b

/-- CMPLT (R174). -/
def execCmplt (f : SR) (s : State) : Out := s.sCmp f fun a b => a.toInt < b.toInt

/-- CMPLTU (R174). -/
def execCmpltu (f : SR) (s : State) : Out := s.sCmp f fun a b => a < b

/-- CMPLE (R174). -/
def execCmple (f : SR) (s : State) : Out := s.sCmp f fun a b => a.toInt ≤ b.toInt

/-- CMPLEU (R174). -/
def execCmpleu (f : SR) (s : State) : Out := s.sCmp f fun a b => a ≤ b

/-- CMPEQI (R174). -/
def execCmpeqi (f : SI) (s : State) : Out := s.siCmp f fun a => a = f.sx

/-- CMPLTI (R174). -/
def execCmplti (f : SI) (s : State) : Out := s.siCmp f fun a => a.toInt < f.sx.toInt

/-- CMPLTUI (R174). -/
def execCmpltui (f : SI) (s : State) : Out := s.siCmp f fun a => a.toNat < f.u

/-- PAND (R175). -/
def execPand (f : SR) (s : State) : Out := s.sPred f fun a b => a &&& b

/-- POR (R175). -/
def execPor (f : SR) (s : State) : Out := s.sPred f fun a b => a ||| b

/-- PXOR (R175). -/
def execPxor (f : SR) (s : State) : Out := s.sPred f fun a b => a ^^^ b

/-- PANDN (R175). -/
def execPandn (f : SR) (s : State) : Out := s.sPred f fun a b => a &&& ~~~b

/-- PSET (R175). -/
def execPset (f : SR) (s : State) : Out :=
  s.anchored [opA .x f] [.p f.pd] fun t => t.putP f.pd (s.srcX (opA .x f))

/-- PGET (R175). -/
def execPget (f : SR) (s : State) : Out := s.sFromP f id

/-- PCNT (R175). -/
def execPcnt (f : SR) (s : State) : Out := s.sFromP f fun a => word (popCount a)

/-- PFIRST (R175). -/
def execPfirst (f : SR) (s : State) : Out := s.sFromP f fun a => word (lowestSet a)

/-! Scalar floating point (R176, R177) -/

/-- The binary32 value in the low half of a register (R176). -/
def f32 (a : Word) : Num := Num.ofF32 (bits a 0 32)

/-- round(x, FP32) of an SR operation, in the low half of a register (R126, R176). -/
def roundF32 (f : SR) (x : Num) : Word := word (Num.pack Num.b32 (RM.ofRnd f.rnd) (f.sat = 1) x)

/-- FADD (R176). -/
def execFadd (f : SR) (s : State) : Out := s.sAB f fun a b => roundF32 f (Num.add (RM.ofRnd f.rnd) (f32 a) (f32 b))

/-- FSUB (R176). -/
def execFsub (f : SR) (s : State) : Out :=
  s.sAB f fun a b => roundF32 f (Num.add (RM.ofRnd f.rnd) (f32 a) (Num.neg (f32 b)))

/-- FMUL (R176). -/
def execFmul (f : SR) (s : State) : Out := s.sAB f fun a b => roundF32 f (Num.mul (f32 a) (f32 b))

/-- FFMA: one rounding (R176). -/
def execFfma (f : SR) (s : State) : Out :=
  s.anchored [opA .x f, opB .x f, opC .x f] [.x f.d.toNat] fun t =>
    t.putX f.d.toNat (roundF32 f (Num.add (RM.ofRnd f.rnd)
      (Num.mul (f32 (s.srcX (opA .x f))) (f32 (s.srcX (opB .x f)))) (f32 (s.srcX (opC .x f)))))

/-- FMIN (R176). -/
def execFmin (f : SR) (s : State) : Out := s.sAB f fun a b => roundF32 f (Num.minNum (f32 a) (f32 b))

/-- FMAX (R176). -/
def execFmax (f : SR) (s : State) : Out := s.sAB f fun a b => roundF32 f (Num.maxNum (f32 a) (f32 b))

/-- FCLT (R174). -/
def execFclt (f : SR) (s : State) : Out := s.sCmp f fun a b => Num.lt (f32 a) (f32 b)

/-- FCLE (R174). -/
def execFcle (f : SR) (s : State) : Out := s.sCmp f fun a b => Num.lt (f32 a) (f32 b) || Num.eq (f32 a) (f32 b)

/-- The integer format of FCVTI and FCVTF: width and signedness (R177). -/
def cvtFormat (f : SR) : Nat × Bool :=
  match f.fmt.toNat with
  | 0x33 => (32, true)
  | 0x34 => (16, true)
  | 0x14 => (8, true)
  | 0x35 => (32, false)
  | 0x15 => (8, false)
  | _ => (64, !f.fn9.getLsbD 0)

/-- FCVTI (R177). -/
def execFcvti (f : SR) (s : State) : Out :=
  s.sA f fun a => BitVec.ofInt 64 (Num.toInt (RM.ofRnd f.rnd) (cvtFormat f).1 (cvtFormat f).2 (f32 a))

/-- FCVTF (R177). -/
def execFcvtf (f : SR) (s : State) : Out :=
  s.sA f fun a =>
    word (Num.pack Num.b32 (RM.ofRnd f.rnd) false
      (Num.ofInt (Num.intOfBits (cvtFormat f).1 (cvtFormat f).2 a.toNat)))

/-! Random words (R178) -/

/-- x[D] from lane 0 of the popped word; an empty queue holds the bundle (R112, R178). -/
def State.sDraw (s : State) (f : SR) (op : Nat → Word) : Out :=
  s.anchored [] [.x f.d.toNat] fun t =>
    match t.popWords 1 with
    | none => t.holdFor none
    | some (ws, t1) => t1.putX f.d.toNat (op ((ws.getD 0 0).toNat % 2 ^ 32))

/-- RNDQ (R178). -/
def execRndq (f : SR) (s : State) : Out := s.sDraw f word

/-- RNDF (R129, R178). -/
def execRndf (f : SR) (s : State) : Out :=
  s.sDraw f fun n => word (Num.pack Num.b32 .rne false (.fin false (n / 256) (-24)))

end Sys2Proof.Machine
end

