-- ==== Sys2Proof/Machine/Dispatcher.lean ====
section
/-! DEFINITION. The dispatcher: task records, their checks and queues, posts, joins, retirement, and the Y operations POST, POSTN, POSTI, JADD, END and ENDP (R25 to R66, R147 to R150). -/
namespace Sys2Proof.Machine

/-! Task records (R36 to R39) -/

/-- A task record as it stands in memory (R36). -/
structure RecIn where
  entry : Word
  wid : Word
  arg : Word
  joinp : Word
  touch : Word
  handles : Word
  ctrl : Word
  count : Word
  deriving DecidableEq, Repr

/-- The eight words of 64 bytes. -/
def RecIn.ofBytes (bs : List Byte) : RecIn :=
  let w (i : Nat) : Word := word (ofLeBytes ((bs.drop (8 * i)).take 8))
  ⟨w 0, w 1, w 2, w 3, w 4, w 5, w 6, w 7⟩

/-- Fields of CTRL (R37). -/
def ctrlPipe (c : Word) : Nat := bits c 8 8
def ctrlRoam (c : Word) : Bool := c.getLsbD 6
def ctrlCnt (c : Word) : Bool := c.getLsbD 5
def ctrlStage (c : Word) : Nat := bits c 2 3
def ctrlPrio (c : Word) : Nat := bits c 0 2

/-- An undeclared stage (R34). -/
def StageDesc.none : StageDesc := ⟨0, 0, 0, 0, 0⟩

/-- A launch declares a pipeline number. -/
def Launch.owns (l : Launch) (pipe : Nat) : Bool := l.pipe0 ≤ pipe && pipe < l.pipe0 + l.npipe

/-- The running launch of a job that owns a pipeline. -/
def State.launchFor (s : State) (job pipe : Nat) : Option Launch :=
  s.disp.launches.find? fun l => l.job = job && l.owns pipe

/-- A stage descriptor of a launch. -/
def Launch.stage (l : Launch) (pipe stage : Nat) : StageDesc := l.stages.get .none (8 * (pipe - l.pipe0) + stage)

/-- L of R29: the number of the last field with nonzero width, or 0. -/
def lastField (ws : List Nat) : Nat := (List.range 7).foldl (fun n i => if ws.getD (i - 1) 0 ≠ 0 && i ≠ 0 then i else n) 0

/-- Field k (1 to 6) of a work identifier (R29). -/
def wField (ws : List Nat) (w : Word) (k : Nat) : Nat := w.toNat / 2 ^ fieldLow ws k % 2 ^ ws.getD (k - 1) 0

/-- A count is above the room left in the deepest field (R45). -/
def overCount (ws : List Nat) (wid : Word) (n : Nat) : Bool :=
  let l := lastField ws
  if l = 0 then 1 < n else 2 ^ ws.getD (l - 1) 0 - wField ws wid l < n || 2 ^ 32 - 1 < n

/-- The check of a record at posting (R39, R45); `kind` is 0 POST, 1 POSTN, 2 POSTI. -/
def State.recordOk (s : State) (job kind : Nat) (r : RecIn) : Bool :=
  match s.launchFor job (ctrlPipe r.ctrl) with
  | none => false
  | some l =>
    let st := l.stage (ctrlPipe r.ctrl) (ctrlStage r.ctrl)
    bits r.ctrl 16 48 = 0 && !r.ctrl.getLsbD 7 && bits r.handles 52 12 = 0 && bits r.entry 0 6 = 0 &&
    (r.entry ≠ 0 || st.entry ≠ 0) && st.qbound ≠ 0 && r.wid.toNat < 2 ^ l.widths.sum &&
    bits r.joinp 0 3 = 0 && (kind ≠ 2 || bits r.count 0 3 = 0) &&
    (kind ≠ 1 || !overCount l.widths r.wid r.count.toNat)

/-! Homes and queues (R31, R50) -/

/-- The XOR of the successive 5-bit chunks of a number, from bit 0 upward. -/
def chunkXor : Nat → Nat → Nat
  | 0, _ => 0
  | fuel + 1, n => (n % 32) ^^^ chunkXor fuel (n / 32)

/-- H(TOUCH) (R50). -/
def touchHome (touch : Word) : Nat := chunkXor 7 (bits touch 14 34)

/-- The home cluster of a record; `poster` is the cluster that counts as posting it (R31, R50). -/
def homeOf (l : Launch) (r : RecIn) (poster : Nat) : Nat :=
  if r.touch ≠ 0 then touchHome r.touch
  else if l.plevel = 0 then poster
  else chunkXor 13 (r.wid.toNat / 2 ^ fieldLow l.widths l.plevel)

/-- The online cores of a cluster. -/
def State.onlineIn (s : State) (cluster : Nat) : List Nat :=
  (List.range 8).map (8 * cluster + ·) |>.filter fun c => !s.offline c

/-- The queue that a record enters: a home queue, or its die's queue (R50); a bound core that has gone offline no longer
counts as bound (log entry 133). -/
def State.queueFor (s : State) (l : Launch) (pipe stage home prio : Nat) : Nat :=
  let included := s.disp.allocated.any fun a => a.1 = l.id && a.2.1 = pipe && a.2.2.1 = stage
  let bound := (s.onlineIn home).any fun c => (s.core c).stage = some (l.id, pipe, stage)
  if (s.onlineIn home).isEmpty || (included && !bound) then 1024 + 4 * (home / 8) + prio
  else (home * 8 + stage) * 4 + prio

/-! Handle gating (R58) -/

/-- The handles that a record names as valid (R38). -/
def validHandles (h : Word) : List Nat := ((List.range 4).filter fun n => h.getLsbD (48 + n)).map fun n => bits h (12 * n) 12

/-- A handle as a job sees it: FREE where it is not the job's (R153). -/
def State.handleState (s : State) (job h : Nat) : HState :=
  if (s.handle h).job = job then (s.handle h).state else .free

/-- A valid handle of the record is PENDING. -/
def State.gates (s : State) (r : Rec) : Bool :=
  !r.expand && !r.through && (validHandles r.handles).any fun h => s.handleState r.job h = .pending

/-- A record GATED or QUEUED as the handles it names stand (R56). -/
def State.regateOne (s : State) (r : Rec) : Rec :=
  { r with gated := if s.gates r then some (r.gated.getD s.sidereal) else none }

/-- Records become GATED and QUEUED as the handles they name change (R56, R58). -/
def State.regate (s : State) : State :=
  { s with disp := { s.disp with recs := s.disp.recs.map s.regateOne } }

/-! Entering a queue (R40, R44, R50) -/

/-- A record that has passed its check enters its queue; a counted one is held by an interface. -/
def State.queueRec (s : State) (r : RecIn) (kind job : Nat) (trec : Word) (iface poster : Nat) (launch : Option Nat) : State :=
  match s.launchFor job (ctrlPipe r.ctrl) with
  | none => s
  | some l =>
    let pipe := ctrlPipe r.ctrl
    let stage := ctrlStage r.ctrl
    let st := l.stage pipe stage
    let home := homeOf l r poster
    let prio := min (s.job job).ceil (max (ctrlPrio r.ctrl) st.sprio)
    let rec_ : Rec :=
      { id := s.disp.nextRec, job := job, entry := if r.entry = 0 then st.entry else r.entry, wid := r.wid, arg := r.arg
        joinp := r.joinp, touch := r.touch, handles := r.handles, ctrl := r.ctrl, trec := trec, prio0 := prio, prio := prio
        home := home, queue := s.queueFor l pipe stage home prio, time := s.sidereal, gated := none, through := false
        expand := kind ≠ 0, total := if kind = 1 then some r.count.toNat else none, made := 0, countVA := r.count
        asid := (s.job job).asid, counted := if ctrlCnt r.ctrl then some iface else none, launch := launch
        widths := l.widths, maxc := st.maxc }
    { s with disp := { s.disp with recs := s.disp.recs ++ [rec_], nextRec := s.disp.nextRec + 1 } }.regate

/-- A record that has passed its check enters its queue; a counted one is injected at an interface (R40, R355). -/
def State.enterRec (s : State) (r : RecIn) (kind job : Nat) (trec : Word) (iface poster : Nat) (launch : Option Nat) : State :=
  (if ctrlCnt r.ctrl then s.inject iface job else s).queueRec r kind job trec iface poster launch

/-- The fault record of a record that fails its check (R39): VA is the record's address. -/
def State.rejectRec (s : State) (job c b : Nat) (r : RecIn) (trec : Word) : State :=
  s.report { faultOf s c b 0x20 1 0 trec 0 with job := job, wid := r.wid }

/-- A record posted by a retirement: never refused or stalled (R55). -/
def State.postAlways (s : State) (c b job : Nat) (r : RecIn) (trec : Word) (launch : Option Nat) : State :=
  if s.recordOk job 0 r then s.enterRec r 0 job trec (clusterOf c) (clusterOf c) launch else s.rejectRec job c b r trec

/-! Room in a stage (R63, R64) -/

/-- Records that a stage holds in all queues. -/
def State.stageHolds (s : State) (job pipe stage : Nat) : Nat :=
  (s.disp.recs.filter fun r => r.job = job && ctrlPipe r.ctrl = pipe && ctrlStage r.ctrl = stage).length

/-- The contexts that are blocked in a post, as (core, bank, post). -/
def State.blockedPosts (s : State) : List (Nat × Nat × Blocked) :=
  s.cores.flatMap fun e =>
    (match e.2.b0.blocked with | some b => [(e.1, 0, b)] | none => []) ++
    (match e.2.b1.blocked with | some b => [(e.1, 1, b)] | none => [])

/-- A blocked post is one on a stage. -/
def Blocked.on (b : Blocked) (job pipe stage : Nat) : Bool := b.job = job && b.pipe = pipe && b.stage = stage

/-- QBOUND of a stage. -/
def State.qbound (s : State) (job pipe stage : Nat) : Nat :=
  match s.launchFor job pipe with
  | some l => (l.stage pipe stage).qbound
  | none => 0

/-- A stage has an entry free for an ordinary post: those admitted already count as held. -/
def State.stageRoom (s : State) (job pipe stage : Nat) : Bool :=
  s.stageHolds job pipe stage + (s.blockedPosts.filter fun p => p.2.2.on job pipe stage && p.2.2.admitted).length <
    s.qbound job pipe stage

/-- A fresh post of a stage may enter: there is room and nobody waits before it (R63). -/
def State.mayEnter (s : State) (job pipe stage : Nat) : Bool :=
  s.stageRoom job pipe stage && !(s.blockedPosts.any fun p => p.2.2.on job pipe stage && !p.2.2.admitted)

/-! POST, POSTN, POSTI (R43, R147) -/

/-- The bundle waits, blocked in a post (R63). -/
def State.blockPost (t : State) (job pipe stage : Nat) : State :=
  (t.holdFor none).modCur fun k =>
    { k with blocked := some (k.blocked.getD ⟨job, pipe, stage, t.sidereal, none, false, false⟩) }

/-- A post: record read, check, room, and the release of R43. -/
def State.post (s : State) (f : SR) (kind : Nat) : Out :=
  let va := s.srcX (opA .x f)
  s.anchored [opA .x f] [] fun t =>
    if misaligned va 64 then t.raise 0x0E va
    else
      t.access 1 {} (pieces va 64) fun parts t =>
        if t.badRead parts then t.raise 0x10 va
        else
          let r := RecIn.ofBytes (t.bytesRead parts)
          let k := s.issue.pre
          let c := s.issue.core
          let pipe := ctrlPipe r.ctrl
          let stage := ctrlStage r.ctrl
          let t := t.afterRead parts
          if !t.recordOk k.job kind r then (t.rejectRec k.job c s.issue.bank r va).modCur fun k => { k with blocked := none }
          else if (match k.blocked with | some b => !b.admitted | none => !t.mayEnter k.job pipe stage) then
            t.blockPost k.job pipe stage
          else if t.imagesOut then t.holdFor none
          else
            t.afterStores false fun t =>
              (t.enterRec r kind k.job va (clusterOf c) (clusterOf c) none).modCur fun k => { k with blocked := none }

/-- POST (R147). -/
def execPost (f : SR) (s : State) : Out := s.post f 0

/-- POSTN (R147). -/
def execPostn (f : SR) (s : State) : Out := s.post f 1

/-- POSTI (R147). -/
def execPosti (f : SR) (s : State) : Out := s.post f 2

/-! Joins (R32, R51, R52) -/

/-- The joining levels of a launch, shallowest first. -/
def Launch.levels (l : Launch) : List Nat := (List.range 7).filter fun k => l.jmask.testBit k

/-- G_k (R32). -/
def Launch.groups (l : Launch) (k : Nat) : Nat := (l.ext.take k).foldl (· * ·) 1

/-- OFF_k (R32). -/
def Launch.offset (l : Launch) (k : Nat) : Nat := ((l.levels.filter (· < k)).map l.groups).sum

/-- Counters of a launch. -/
def Launch.counters (l : Launch) : Nat := (l.levels.map l.groups).sum

/-- The address of the counter of group g at level k (R32). -/
def Launch.counterVA (l : Launch) (k g : Nat) : Word := l.jbase + word (8 * (l.offset k + g))

/-- Members of a group of level k: up to the next deeper joining level, or the grid (R32). -/
def Launch.members (l : Launch) (k : Nat) : Nat :=
  let upTo := ((l.levels.filter (k < ·)).head?).getD 6
  (((l.ext.take upTo).drop k)).foldl (· * ·) 1

/-- The group of level j that holds group g of a deeper level k. -/
def Launch.outer (l : Launch) (k j g : Nat) : Nat := g / (((l.ext.take k).drop j).foldl (· * ·) 1)

/-- JOINP of a member whose group at level k is g: its counter at the deepest joining level below k
(R32); for a grid task k is 7. -/
def Launch.joinpFor (l : Launch) (k g : Nat) : Word :=
  match (l.levels.filter (· < k)).getLast? with
  | some j => l.counterVA j (l.outer (min k 6) j g)
  | none => 0

/-- The indexes of a row-major number over the first k extents. -/
def Launch.indexes (l : Launch) (k g : Nat) : List Nat :=
  (List.range k).map fun j => g / (((l.ext.take k).drop (j + 1)).foldl (· * ·) 1) % max 1 (l.ext.getD j 1)

/-- WBASE with indexes added to its first fields (R30, R32). -/
def Launch.widAt (l : Launch) (idx : List Nat) : Word :=
  l.wbase + word ((idx.mapIdx fun j i => i * 2 ^ fieldLow l.widths (j + 1)).sum)

/-- The launch, level and group of a launch counter; none for a join block (R51). -/
def State.launchCounter (s : State) (job : Nat) (va : Word) : Option (Launch × Nat × Nat) :=
  (s.disp.launches.filter fun l => l.job = job).findSome? fun l =>
    let n := (va - l.jbase).toNat / 8
    if n < l.counters && bits (va - l.jbase) 0 3 = 0 then
      (l.levels.find? fun k => l.offset k ≤ n && n < l.offset k + l.groups k).map fun k => (l, k, n - l.offset k)
    else none

/-- The continuation of group g at level k of a launch: record and TREC; CTRL[63:16] count as zero (R32, R113; log entry 112). -/
def Launch.continuation (l : Launch) (k g : Nat) : RecIn × Word :=
  let (entry, arg, touch, ctrl) := l.joins.get (0, 0, 0, 0) k
  (⟨entry, l.widAt (l.indexes k g), arg, l.joinpFor k g, touch, 0, ctrl &&& 0xFFFF, 0⟩, l.joint + word (32 * k))

/-- A continuation of a launch has been posted; one more than the launch's own, where its counter has reached 1 again, has to
retire too (R28, R33). -/
def State.noteFired (s : State) (id lev g : Nat) : State :=
  let note (l : Launch) : Launch :=
    if l.id ≠ id then l
    else if l.fired.contains (lev, g) then { l with live := l.live + 1 }
    else { l with fired := (lev, g) :: l.fired }
  { s with disp := { s.disp with launches := s.disp.launches.map note } }

/-- The continuation of a group at a level of a launch is posted (R32, R33, R55). -/
def State.postContinuation (s : State) (c b job : Nat) (l : Launch) (lev g : Nat) : State :=
  let (r, trec) := l.continuation lev g
  (if s.recordOk job 0 r then s.noteFired l.id lev g else s).postAlways c b job r trec (some l.id)

/-- The retirement decrement of the issuing task's JOINP, translated as the task's own access (R52; log entry 116); a
record of a join block that is marked uncorrectable can not be read (log entry 134). -/
def State.joinDown (t : State) : State :=
  let k := t.issue.pre
  let c := t.issue.core
  let b := t.issue.bank
  let note (t : State) (cause : Nat) : State := t.report (faultOf t c b cause 3 0 k.joinp 0)
  if k.joinp = 0 then t
  else
    let hit := t.launchCounter k.job k.joinp
    if (hit.isNone && bits k.joinp 0 6 ≠ 0) || bits k.joinp 0 3 ≠ 0 then note t 0x26
    else
      match t.resolve t.me { write := true, atomic := true } (pieces k.joinp 8) with
      | (.error _, t1) => note t1 0x26
      | (.ok parts, t1) =>
        if viewBad t1.bad parts then note t1 0x26
        else
          let n := (word (ofLeBytes (t1.view t1.mem parts)))
          let down (t : State) : State := t.writeParts t.asHome (cutData parts (leBytes 8 (n - 1).toNat))
          if n.toInt ≤ 0 then note t1 0x25
          else if n ≠ 1 then down t1
          else
            match hit with
            | some (l, lev, g) => (down t1).postContinuation c b k.job l lev g
            | none =>
              match t1.resolve t1.me {} (pieces (k.joinp + 64) 64) with
              | (.error _, t2) => note t2 0x26
              | (.ok ps, t2) =>
                if viewBad t2.bad ps then note t2 0x26
                else (down t2).postAlways c b k.job (RecIn.ofBytes (t2.view t2.mem ps)) (k.joinp + 64) none

/-- JADD (R148, R54). -/
def execJadd (f : SI) (s : State) : Out :=
  let va := s.srcX (opReg .x f.a.toNat)
  s.anchored [opReg .x f.a.toNat] [] fun t =>
    if misaligned va 8 then t.raise 0x0E va
    else
      t.access 3 { write := true, atomic := true } (pieces va 8) fun parts t =>
        let key := (parts.headD (0, 0)).1
        let act (t : State) : State := (t.atomicAt t.asHome 0x18 key 8 f.u 0).2
        if t.behindOwn [(key, 8)] || t.imageBefore [(key, 8)] then t.holdFor none
        else if t.storesFirst [(key, 8)] then t.afterStores false act else act t

/-! Retirement (R149, R150, R392) -/

/-- The slot queues are empty and no tile or accumulator of the bank is busy (R149). -/
def Ctx.settled (k : Ctx) : Bool :=
  k.queue.isEmpty && !(k.pend.any fun e => match e.reg with
    | .t _ | .a _ => true
    | _ => false)

/-- The task retires when the bundle commits. -/
def State.willRetire (t : State) : State := { t with issue := { t.issue with after := .retire } }

/-- END retires the task without decrement: NODEC in supervisor mode (R388, R392). -/
def Ctx.keepsJoin (k : Ctx) : Bool := k.mode = .supervisor && k.nodec

/-- END (R149). -/
def execEndTask (s : State) : Out :=
  s.anchored [] [] fun t =>
    if !s.issue.pre.settled then t.holdFor none
    else t.afterStores false fun t => (if s.issue.pre.keepsJoin then t else t.joinDown).willRetire

/-- ENDP; NODEC concerns END alone (R53, R150, R388, R392; log entry 124). -/
def execEndp (f : SR) (s : State) : Out :=
  let va := s.srcX (opA .x f)
  let k := s.issue.pre
  s.anchored [opA .x f] [] fun t =>
    if !k.settled then t.holdFor none
    else if misaligned va 64 then t.raise 0x0E va
    else
      t.access 1 {} (pieces va 64) fun parts t =>
        if t.badRead parts then t.raise 0x10 va
        else
          let r := RecIn.ofBytes (t.bytesRead parts)
          (t.afterRead parts).afterStores false fun t =>
            let t := t.postAlways s.issue.core s.issue.bank k.job r va none
            (if r.joinp = k.joinp then t else t.joinDown).willRetire

/-! What a retirement leaves (R28, R40, R355) -/

/-- An 8-byte word of the job's space written by the Orvan; it is dropped where translation fails. -/
def State.iodWrite (s : State) (job : Nat) (va : Word) (v : Nat) : State :=
  match s.resolve (s.iod job) { write := true } (pieces va 8) with
  | (.ok parts, s1) => s1.writeParts 256 (cutData parts (leBytes 8 v))
  | (.error _, s1) => { s with free := s1.free }

/-- A launch's STATUS written: the low byte of an 8-byte word, and MSI-X kind 1 (R28, R431). -/
def State.putStatus (s : State) (job : Nat) (hdr : Word) (v : Nat) : State :=
  (s.iodWrite job (hdr + 0x58) v).signal (16 * job + 1)

/-- One grid task or continuation less of a launch; the last one completes it (R28). -/
def State.launchLess (s : State) (id : Nat) : State :=
  match s.disp.launches.find? fun l => l.id = id with
  | none => s
  | some l =>
    if l.live = 1 then
      { s with disp := { s.disp with launches := s.disp.launches.filter fun x => x.id ≠ id } }.putStatus l.job l.hdr 2
    else
      { s with disp := { s.disp with launches := s.disp.launches.map fun x => if x.id = id then { x with live := x.live - 1 } else x } }

/-- The bank of a retired task is released; its retirement notice sets out (R149, R355). -/
def State.retired (s : State) (c b : Nat) : State :=
  let k := s.ctx c b
  let s1 := match k.counted with
    | some i => s.sendNotice .retirement i k.job
    | none => s
  let s2 := match k.launch with
    | some l => s1.launchLess l
    | none => s1
  s2.release c b

end Sys2Proof.Machine
end

