-- ==== Sys2Proof/Machine/Image.lean ====
section
/-! DEFINITION. The context image of CSAVE and CLOAD (R402 to R405). -/
namespace Sys2Proof.Machine

/-- Bytes of an image (R402). -/
def ctxImageLen : Nat := 1441792

/-- Fields at offsets, in rising order, laid out from `pos` to `end_` with zeros between them. -/
def layOut (end_ : Nat) : Nat → List (Nat × List Byte) → List Byte
  | pos, [] => List.replicate (end_ - pos) 0
  | pos, (off, bs) :: r => List.replicate (off - pos) 0 ++ (bs ++ layOut end_ (off + bs.length) r)

/-- Eight bytes of a word. -/
def wordBytes (v : Word) : List Byte := leBytes 8 v.toNat

/-- ESTAT as it reads (R388). -/
def Ctx.estat (k : Ctx) : Word :=
  word (128 * bit k.nodec + 64 * bit k.nores + 2 * bit k.amask + bit (k.pmode = .supervisor))

/-- A ring descriptor as a word (R104). -/
def Ring.code (r : Ring) : Nat := r.first + 2 ^ 5 * r.len + 2 ^ 11 * r.head + 2 ^ 16 * r.fill + 2 ^ 22 * r.rsv

/-- A loop entry's 32 bytes (R403). -/
def LoopEntry.bytes (e : LoopEntry) : List Byte :=
  leBytes 8 (1 + 2 * bit e.repf) ++ leBytes 8 e.start.toNat ++ leBytes 8 e.last.toNat ++
    leBytes 4 e.rem.toNat ++ leBytes 4 e.idx.toNat

/-- The shadow copy fields, one word each in the order of R277 (log entry 34). -/
def CopyDesc.words (d : CopyDesc) : List Nat :=
  [d.src.toNat, d.dst.toNat, bit d.srcf, bit d.dstf] ++ d.cnt ++ d.sstr.map (·.toNat) ++ d.dstr.map (·.toNat) ++
    [d.run, d.mode, d.mpar.toNat, d.aux.toNat, d.bar.toNat, d.flaga.toNat, d.flagv.toNat, d.fscope]

/-- A latch entry (R404). -/
def Latch.bytes : Latch → List Byte
  | .empty => List.replicate 320 0
  | .x w => layOut 320 0 [(0, wordBytes w), (289, [1])]
  | .p w => layOut 320 0 [(0, wordBytes w), (289, [2])]
  | .v r => layOut 320 0 [(0, leBytes 256 r.body.toNat ++ leBytes 32 r.side.toNat), (288, [r.tag.code.setWidth 8, 3])]
  | .tile n => layOut 320 0 [(0, [BitVec.ofNat 8 n]), (289, [4])]

/-- The latches in the order of R404: the M slot has no C latch. -/
def latchOrder : List Nat := (List.range 24).filter (· ≠ 14)

/-- A tag as a byte. -/
def tagByte (f : Fmt) : Byte := f.code.setWidth 8

/-- The header without CHECK (R403). -/
def Ctx.header (k : Ctx) : List Byte :=
  layOut 0x7F8 0 [
    (0x000, [0x43, 0x54, 0x58, 0x00, 0x00, 0x01]),
    (0x008, wordBytes k.pc ++ wordBytes k.wid ++ wordBytes k.argp ++ wordBytes k.trec ++ wordBytes k.cycles),
    (0x030, leBytes 8 (k.asid + 2 ^ 16 * k.job + 2 ^ 24 * k.prio + 2 ^ 26 * bit k.event +
      2 ^ 27 * bit (k.mode = .supervisor) + 2 ^ 28 * (k.rot % 16))),
    (0x038, leBytes 8 (k.widths.foldr (fun w acc => w % 64 + 64 * acc) 0)),
    (0x040, wordBytes k.tcause ++ wordBytes k.taddr ++ leBytes 8 k.tslot ++ wordBytes k.epc ++ wordBytes k.estat),
    (0x068, leBytes 4 k.rngKey.toNat ++ leBytes 4 k.rngCtr.toNat),
    (0x070, leBytes 8 k.rbq.length),
    (0x078, leBytes 8 k.xbad.toNat ++ leBytes 16 k.pbad.toNat),
    (0x090, (List.range 4).flatMap fun i =>
      let d := k.exp.get .none i
      wordBytes d.va ++ leBytes 8 (bit d.valid)),
    (0x0D0, (List.range 8).flatMap fun i => leBytes 4 (k.getRing i).code),
    (0x100, k.loop.reverse.flatMap LoopEntry.bytes),
    (0x1C0, (List.range 64).map fun i => tagByte (k.getV i).tag),
    (0x200, ((List.range 32).map fun i => tagByte (k.getT i).tag) ++ (List.range 8).map fun i => tagByte (k.getA i).tag),
    (0x228, (List.range 8).flatMap fun i => leBytes 4 (k.getA i).bound),
    (0x250, wordBytes k.joinp ++ wordBytes k.ctrl)]

/-- The image after the header (R402). -/
def Ctx.imageBody (k : Ctx) : List Byte :=
  ((List.range 64).flatMap fun i => wordBytes (k.getX i)) ++
  ((List.range 128).flatMap fun i => wordBytes (k.getP i)) ++
  (latchOrder.flatMap fun i => (k.latch.get .empty i).bytes) ++
  List.replicate 64 0 ++
  layOut 512 0 [(0, k.rbq.flatMap fun w => leBytes 64 w.toNat)] ++
  layOut 512 0 [(0, k.shadow.words.flatMap (leBytes 8))] ++
  List.replicate 2304 0 ++
  ((List.range 64).flatMap fun i => leBytes 256 (k.getV i).body.toNat ++ leBytes 32 (k.getV i).side.toNat) ++
  ((List.range 32).flatMap fun i => (List.range 128).flatMap fun r => leBytes 216 ((k.getT i).row r).toNat) ++
  ((List.range 8).flatMap fun i => (List.range 128).flatMap fun r => leBytes 512 ((k.getA i).row r).toNat)

/-- The XOR of the 8-byte words of a list of bytes, at most `fuel` of them. -/
def xorWords : Nat → List Byte → Nat
  | 0, _ => 0
  | fuel + 1, bs => if bs.isEmpty then 0 else ofLeBytes (bs.take 8) ^^^ xorWords fuel (bs.drop 8)

/-- The context image (R402, R403). -/
def Ctx.image (k : Ctx) : List Byte :=
  let h := k.header
  let b := k.imageBody
  h ++ leBytes 8 (xorWords 180224 h ^^^ xorWords 180224 b) ++ b

/-! Reading an image -/

/-- n bytes at an offset, and the number they stand for. -/
def cutBytes (bs : List Byte) (off n : Nat) : List Byte := (bs.drop off).take n
def numOf (bs : List Byte) (off n : Nat) : Nat := ofLeBytes (cutBytes bs off n)

/-- A ring from its word (R104). -/
def Ring.ofCode (n : Nat) : Ring := ⟨n % 32, n / 2 ^ 5 % 64, n / 2 ^ 11 % 32, n / 2 ^ 16 % 64, n / 2 ^ 22 % 64⟩

/-- A descriptor obeys R104 and has no load in flight (R405). -/
def Ring.storable (r : Ring) : Bool :=
  if r.len = 0 then r.head = 0 && r.fill = 0 && r.rsv = 0 else r.first + r.len ≤ 32 && r.head < r.len && r.fill = r.rsv && r.rsv ≤ r.len

/-- A tag read from a byte. -/
def tagOf (b : Byte) : Fmt := (Fmt.ofCode (b.setWidth 6)).getD .poison

/-- A byte is a code that its file may carry (R117). -/
def tagFits (ok : Fmt → Bool) (b : Byte) : Bool :=
  b.toNat < 64 && (match Fmt.ofCode (b.setWidth 6) with
    | some f => ok f
    | none => false)

/-- A latch from its entry; an unknown file reads as empty. -/
def Latch.ofBytes (bs : List Byte) : Latch :=
  match (numOf bs 289 1) with
  | 1 => .x (word (numOf bs 0 8))
  | 2 => .p (word (numOf bs 0 8))
  | 3 => .v ⟨tagOf (bs.getD 288 0), BitVec.ofNat 2048 (numOf bs 0 256), BitVec.ofNat 256 (numOf bs 256 32)⟩
  | 4 => .tile (numOf bs 0 1)
  | _ => .empty

/-- The shadow fields from their words. -/
def CopyDesc.ofBytes (bs : List Byte) : CopyDesc :=
  let w (i : Nat) : Nat := numOf bs (8 * i) 8
  let six (i : Nat) : List (BitVec 40) := (List.range 6).map fun j => BitVec.ofNat 40 (w (i + j))
  { src := word (w 0), dst := word (w 1), srcf := w 2 % 2 = 1, dstf := w 3 % 2 = 1
    cnt := (List.range 6).map fun j => w (4 + j) % 2 ^ 24
    sstr := six 10, dstr := six 16, run := w 22 % 512, mode := w 23 % 16, mpar := BitVec.ofNat 16 (w 24)
    aux := word (w 25), bar := word (w 26), flaga := word (w 27), flagv := word (w 28), fscope := w 29 % 8 }

/-- The loop entries of an image, entry 0 first; none where they are not contiguous from entry 0. -/
def loopOf (bs : List Byte) : Option (List LoopEntry) :=
  let entry (i : Nat) : Option LoopEntry :=
    let o := 0x100 + 32 * i
    if numOf bs o 8 % 2 = 0 then none
    else some ⟨numOf bs o 8 / 2 % 2 = 1, BitVec.ofNat 58 (numOf bs (o + 8) 8), BitVec.ofNat 58 (numOf bs (o + 16) 8),
      BitVec.ofNat 32 (numOf bs (o + 24) 4), BitVec.ofNat 32 (numOf bs (o + 28) 4)⟩
  let es := (List.range 6).map entry
  let live := es.takeWhile (·.isSome)
  if (es.drop live.length).any (·.isSome) then none else some (live.filterMap id)

/-- The context that an image describes; its image is the image itself where no byte is out of place. -/
def Ctx.ofImage (bs : List Byte) : Ctx :=
  let at8 (o : Nat) : Word := word (numOf bs o 8)
  let id_ := numOf bs 0x030 8
  let tagAt (o : Nat) : Fmt := tagOf (bs.getD o 0)
  { Ctx.idle with
    status := .resumable
    pc := at8 0x008 >>> 6 <<< 6
    wid := at8 0x010
    argp := at8 0x018
    trec := at8 0x020
    cycles := at8 0x028
    asid := id_ % 2 ^ 16
    job := id_ / 2 ^ 16 % 64
    prio := id_ / 2 ^ 24 % 4
    event := id_ / 2 ^ 26 % 2 = 1
    mode := if id_ / 2 ^ 27 % 2 = 1 then .supervisor else .user
    rot := id_ / 2 ^ 28 % 16
    widths := (List.range 6).map fun i => numOf bs 0x038 8 / 64 ^ i % 64
    tcause := at8 0x040
    taddr := at8 0x048
    tslot := numOf bs 0x050 8 % 8
    epc := at8 0x058 >>> 6 <<< 6
    nodec := (at8 0x060).getLsbD 7
    nores := (at8 0x060).getLsbD 6
    amask := (at8 0x060).getLsbD 1
    pmode := if (at8 0x060).getLsbD 0 then .supervisor else .user
    rngKey := BitVec.ofNat 32 (numOf bs 0x068 4)
    rngCtr := BitVec.ofNat 32 (numOf bs 0x06C 4)
    rbq := (List.range (min 8 (numOf bs 0x070 8))).map fun i => BitVec.ofNat 512 (numOf bs (0x2B00 + 64 * i) 64)
    xbad := BitVec.ofNat 64 (numOf bs 0x078 8)
    pbad := BitVec.ofNat 128 (numOf bs 0x080 16)
    exp := Sparse.run .none 0 ((List.range 4).map fun i => ⟨numOf bs (0x098 + 16 * i) 8 % 2 = 1, at8 (0x090 + 16 * i)⟩)
    ring := Sparse.run .none 0 ((List.range 8).map fun i => Ring.ofCode (numOf bs (0x0D0 + 4 * i) 4))
    loop := ((loopOf bs).getD []).reverse
    joinp := at8 0x250
    ctrl := at8 0x258
    x := Sparse.run 0 0 ((List.range 64).map fun i => if i = 0 then 0 else at8 (0x800 + 8 * i))
    p := Sparse.run 0 0 ((List.range 128).map fun i => if i = 0 then 0 else at8 (0xA00 + 8 * i))
    latch := Sparse.run .empty 0 ((List.range 24).map fun i =>
      if i = 14 then .empty else Latch.ofBytes (cutBytes bs (0xE00 + 320 * (if i < 14 then i else i - 1)) 320))
    shadow := CopyDesc.ofBytes (cutBytes bs 0x2D00 512)
    v := Sparse.run .zero 0 ((List.range 64).map fun i =>
      ⟨tagAt (0x1C0 + i), BitVec.ofNat 2048 (numOf bs (0x3800 + 288 * i) 256), BitVec.ofNat 256 (numOf bs (0x3900 + 288 * i) 32)⟩)
    t := Sparse.run .zero 0 ((List.range 32).map fun i =>
      ⟨tagAt (0x200 + i), Sparse.run 0 0 ((List.range 128).map fun r => BitVec.ofNat 1728 (numOf bs (0x8000 + 27648 * i + 216 * r) 216))⟩)
    a := Sparse.run .zero 0 ((List.range 8).map fun i =>
      ⟨tagAt (0x220 + i), numOf bs (0x228 + 4 * i) 4 % 2 ^ 24,
        Sparse.run 0 0 ((List.range 128).map fun r => BitVec.ofNat 4096 (numOf bs (0xE0000 + 65536 * i + 512 * r) 512))⟩) }

/-- The bytes of an image that R402 and R403 give as zero, those of a field that its contents never reach among them:
offset and length. -/
def zeroRuns : List (Nat × Nat) :=
  [(0x006, 2), (0x034, 4), (0x03D, 3), (0x042, 2), (0x051, 7), (0x061, 7), (0x071, 7), (0x0F0, 16), (0x248, 8), (0x260, 0x598),
    (0x2AC0, 64), (0x2DF0, 272), (0x2F00, 2304)] ++
  (List.range 4).map (fun i => (0x099 + 16 * i, 7)) ++ (List.range 6).map (fun i => (0x101 + 32 * i, 7)) ++
  (List.range 8).map fun i => (0x22B + 4 * i, 1)

/-- A latched vector's tag is one that vectors may carry (R117). -/
def Latch.tagOk : Latch → Bool
  | .v r => r.tag.inVector
  | _ => true

/-- The checks of CLOAD that depend on the image alone (R405). -/
def imageOk (bs : List Byte) : Bool :=
  cutBytes bs 0 6 = [0x43, 0x54, 0x58, 0x00, 0x00, 0x01] &&
  xorWords 180224 (bs.take 0x7F8) ^^^ xorWords 180224 (bs.drop 0x800) = numOf bs 0x7F8 8 &&
  (zeroRuns.all fun z => (cutBytes bs z.1 z.2).all (· = 0)) &&
  ((List.range 23).all fun i =>
    let l := Latch.ofBytes (cutBytes bs (0xE00 + 320 * i) 320)
    l.bytes = cutBytes bs (0xE00 + 320 * i) 320 && l.tagOk) &&
  (loopOf bs).isSome &&
  (cutBytes bs 0x1C0 64).all (tagFits Fmt.inVector) && (cutBytes bs 0x200 32).all (tagFits Fmt.inTile) &&
  (cutBytes bs 0x220 8).all (tagFits fun f => f.isAcc || f = .poison) &&
  (List.range 8).all (fun i => numOf bs (0x0D0 + 4 * i) 4 < 2 ^ 28 && (Ring.ofCode (numOf bs (0x0D0 + 4 * i) 4)).storable) &&
  (Ctx.ofImage bs).mode = .user

end Sys2Proof.Machine
end

