-- ==== Sys2Proof/Machine/Control.lean ====
section
/-! DEFINITION. The Y slot: branches, loops, repeats, waits, barriers, fences, rings, traps, system registers and context moves (R140 to R165). -/
namespace Sys2Proof.Machine

/-- NOP: nothing (R70). -/
def execNop (s : State) : Out := .next s

/-! Branches and calls (R142) -/

/-- The bundle transfers control to an address (R85). -/
def State.goTo (t : State) (pc : Word) : State := { t with issue := { t.issue with npc := some pc } }

/-- The running bundle's address. -/
def State.here (s : State) : Word := s.issue.pre.pc

/-- The address that a signed displacement in bundles gives. -/
def State.label (s : State) (f : SI) : Word := s.here + f.sx <<< 6

/-- A jump to the address in a register: its low six bits must be zero (R142). -/
def State.jump (t : State) (a : Word) (k : State → State) : State :=
  if misaligned a 64 then t.raise 0x0E a else k (t.goTo a)

/-- BR (R142). -/
def execBr (f : SI) (s : State) : Out := s.anchored [] [] fun t => t.goTo (s.label f)

/-- BRX (R142). -/
def execBrx (f : SR) (s : State) : Out := s.anchored [opA .x f] [] fun t => t.jump (s.srcX (opA .x f)) id

/-- CALL (R142). -/
def execCall (f : SI) (s : State) : Out :=
  s.anchored [] [.x f.d.toNat] fun t => (t.goTo (s.label f)).putX f.d.toNat (s.here + 64)

/-- CALLX (R142). -/
def execCallx (f : SR) (s : State) : Out :=
  s.anchored [opA .x f] [.x f.d.toNat] fun t => t.jump (s.srcX (opA .x f)) fun t => t.putX f.d.toNat (s.here + 64)

/-- RET (R142). -/
def execRet (f : SR) (s : State) : Out := s.anchored [opA .x f] [] fun t => t.jump (s.srcX (opA .x f)) id

/-! Loops and repeats (R84 to R88, R143 to R146) -/

/-- Addresses in bundles. -/
def bundleOf (va : Word) : BitVec 58 := (va >>> 6).setWidth 58

/-- The address of a bundle. -/
def bundleVA (b : BitVec 58) : Word := b.setWidth 64 <<< 6

/-- An entry is pushed when the bundle commits; a full stack is illegal encoding with TSLOT 0 (R86). -/
def State.pushLoop (t : State) (e : LoopEntry) : State :=
  if 6 ≤ t.issue.pre.loop.length then t.raise 0x0A 0 else { t with issue := { t.issue with push := some e } }

/-- A loop of LEN bundles with a count (R84). -/
def State.openLoop (t : State) (count : BitVec 32) (len : Nat) : State :=
  if count = 0 then t.goTo (t.here + word (64 * (len + 1)))
  else
    let start := bundleOf t.here + 1
    t.pushLoop ⟨false, start, start + BitVec.ofNat 58 (len - 1), count, 0⟩

/-- LOOP (R84). -/
def execLoop (f : SI) (s : State) : Out :=
  let a := opReg .x f.a.toNat
  s.anchored [a] [] fun t => t.openLoop ((s.srcX a).setWidth 32) (f.u % 65536)

/-- LOOPI (R84, R143). -/
def execLoopi (f : SI) (s : State) : Out :=
  s.anchored [] [] fun t => t.openLoop (BitVec.ofNat 32 (f.u / 65536)) (f.u % 65536)

/-- LBRK (R144). -/
def execLbrk (f : SR) (s : State) : Out :=
  let n := f.fn9.toNat % 8
  s.anchored [] [] fun t =>
    match s.issue.pre.loop[n - 1]? with
    | none => t.raise 0x0A 0
    | some e => (t.goTo (bundleVA (e.last + 1))).modCur fun k => { k with loop := s.issue.pre.loop.drop n }

/-- LIDX (R145). -/
def execLidx (f : SR) (s : State) : Out :=
  let v : BitVec 32 := match s.issue.pre.loop[f.fn9.toNat % 8]? with
    | none => 0
    | some e => if f.fn9.getLsbD 3 then e.rem else e.idx
  s.anchored [] [.x f.d.toNat] fun t => t.putX f.d.toNat (v.setWidth 64)

/-- The top entry is the repeat of the bundle at an address. -/
def Ctx.repeating (k : Ctx) (pc : Word) : Bool :=
  match k.loop.head? with
  | some e => e.repf && e.start = bundleOf pc
  | none => false

/-- B of a REP (R146). -/
def repBody (f : SI) : Nat := f.u / 4096 % 16 + 1

/-- The strides of a REP (R146). -/
def repStride (f : SI) (j : Nat) : Word :=
  sextWord 6 (f.u / (if j = 0 then 64 else 1) % 64) <<< (f.fn5.toNat % 16)

/-- REP: the first issue pushes the repeat; later issues of the bundle repeat its other slots (R88). -/
def execRep (f : SI) (s : State) : Out :=
  if s.issue.pre.repeating s.here then .next s
  else
    s.anchored [opReg .x f.d.toNat, opReg .x f.a.toNat] [] fun t =>
      if !finderCapable s.issue.core then t.raise 0x0A 0
      else
        let start := bundleOf s.here
        t.pushLoop ⟨true, start, start + BitVec.ofNat 58 (repBody f - 1), BitVec.ofNat 32 (f.u / 65536), 0⟩

/-! Yield, park, events (R151, R152) -/

/-- What becomes of the task when the bundle commits. -/
def State.thenDo (t : State) (a : After) : State := { t with issue := { t.issue with after := a } }

/-- YIELD (R151). -/
def execYield (s : State) : Out := s.anchored [] [] fun t => t.thenDo .yield

/-- PARK (R152). -/
def execPark (s : State) : Out := s.anchored [] [] fun t => t.thenDo .park

/-- EVT, wake form (R152). -/
def execEvt (f : SI) (s : State) : Out :=
  let a := opReg .x f.a.toNat
  let v := s.srcX a
  let k := s.issue.pre
  s.anchored [a] [] fun t =>
    if bits v 9 55 ≠ 0 then t.raise 0x0F 0
    else
      { t with fabric := { t.fabric with
          events := t.fabric.events ++ [(t.fabric.nextItem, bits v 0 8, bits v 8 1, k.job, decide (k.mode = .supervisor))]
          nextItem := t.fabric.nextItem + 1 } }

/-- Records of the trace ring (R429). -/
def Pkg.traceSize (p : Pkg) : Nat := 2 ^ (p.trcSz + 7)

/-- A trace record written, or dropped while tracing is off or the core's previous record is still being
written, which is left open (R152, R429). -/
def State.trace (t : State) (c : Nat) (record : BitVec 256) : State :=
  let drop (t : State) : State := { t with pkg := { t.pkg with trcdrop := t.pkg.trcdrop + 1 } }
  if !t.pkg.trcEn then drop t
  else
    let busy := (t.core c).tracing && Config.freeBool t.free
    let t := if (t.core c).tracing then t.useFree.2 else t
    if busy then drop t
    else
      let n := t.pkg.trchead.toNat % t.pkg.traceSize
      let t := t.putNum 256 (bits t.pkg.trcbase 12 40 * 4096 + 32 * n) 32 record.toNat
      let t := { t with pkg := { t.pkg with trchead := t.pkg.trchead + 1 } }
      let t := t.modCore c fun k => { k with tracing := true }
      if n + 1 = t.pkg.traceSize then t.signal 1028 else t

/-- EVT.tr (R152). -/
def execEvtTr (f : SI) (s : State) : Out :=
  let a := opReg .x f.a.toNat
  let k := s.issue.pre
  let c := s.issue.core
  s.anchored [a] [] fun t =>
    t.trace c (Config.traceRecord (t.siderealOn (dieOf c)) c s.issue.bank k.job (k.wid.setWidth 32) f.imm (s.srcX a))

/-! Weight handles (R153) -/

/-- The handle that a register names, and its state for the task's job. -/
def State.handleOf (s : State) (f : SR) : Nat × HState :=
  let h := (s.srcX (opA .x f)).toNat % 4096
  (h, s.handleState s.issue.pre.job h)

/-- WHWAIT (R153). -/
def execWhwait (f : SR) (s : State) : Out :=
  let (h, st) := s.handleOf f
  s.anchored [opA .x f] [] fun t =>
    match st with
    | .free => t.raise 0x11 (word h)
    | .error => t.raise 0x11 (word h)
    | .pending => t.parkFor (.handle h)
    | .ready => t

/-- The number that WHTEST gives a state (R153). -/
def HState.number : HState → Nat
  | .free => 0
  | .pending => 1
  | .ready => 2
  | .error => 3

/-- WHTEST (R153). -/
def execWhtest (f : SR) (s : State) : Out :=
  s.anchored [opA .x f] [.x f.d.toNat] fun t => t.putX f.d.toNat (word (s.handleOf f).2.number)

/-! Transaction barriers (R154 to R156) -/

/-- A barrier (R154). -/
structure Barrier where
  phase : Nat
  pending : Nat
  init : Nat
  sectors : Nat
  err : Bool
  deriving DecidableEq, Repr

/-- A barrier from its 16 bytes. -/
def Barrier.ofNat (n : Nat) : Barrier :=
  ⟨n % 16, n / 2 ^ 4 % 2 ^ 20, n / 2 ^ 24 % 2 ^ 20, n / 2 ^ 44 % 2 ^ 40, n / 2 ^ 84 % 2 = 1⟩

/-- The 16 bytes of a barrier; bits [127:85] are zero. -/
def Barrier.toNat (b : Barrier) : Nat :=
  b.phase + 2 ^ 4 * b.pending + 2 ^ 24 * b.init + 2 ^ 44 * b.sectors + 2 ^ 84 * bit b.err

/-- flipcheck (R155). -/
def Barrier.flip (b : Barrier) : Barrier :=
  if b.pending = 0 ∧ b.sectors = 0 then { b with phase := (b.phase + 1) % 16, pending := b.init } else b

/-- binit (R155). -/
def Barrier.fresh (n : Nat) : Barrier := ⟨0, n, n, 0, false⟩

/-- bexp: a signed number of sectors more, modulo 2^40 (R155). -/
def Barrier.expect (b : Barrier) (n : Int) : Barrier :=
  { b with sectors := ((b.sectors + n) % 2 ^ 40).toNat }.flip

/-- barv (R155). -/
def Barrier.arrive (b : Barrier) (n : Int) : Barrier :=
  let b := { b with sectors := ((b.sectors + n) % 2 ^ 40).toNat }
  (if b.pending = 0 then { b with err := true } else { b with pending := b.pending - 1 }).flip

/-- BWAIT's result (R156). -/
def Barrier.result (b : Barrier) : Nat := 16 * bit b.err + b.phase

/-- The barrier at a key. -/
def State.barrier (s : State) (key : Nat) : Barrier := Barrier.ofNat (s.numAt key 16)

/-- A barrier written by its owner's LDM. -/
def State.setBarrier (s : State) (writer key : Nat) (b : Barrier) : State := s.putNum writer key 16 b.toNat

/-- The key of a barrier, or the fault of an address that names none (R154). -/
def State.barrierKey (s : State) (g : Agent) (va : Word) : Except Nat Nat :=
  if bits va 48 16 = 0xFF || bits va 48 16 = 0xFE then
    match (s.place g {} va 16).1 with
    | .ok key => .ok key
    | .error x => .error x.cause
  else .error 8

/-- The checks of a barrier instruction: alignment, its own bounds, then the address (R154, R259). -/
def State.barrierOp (t : State) (kind : Nat) (va : Word) (ok : Bool) (k : Nat → State → State) : State :=
  if misaligned va 16 then t.raise 0x0E va
  else if !ok then t.raise 0x0F 0
  else
    match t.barrierKey t.me va with
    | .error c => t.raiseFault c kind va 0
    | .ok key =>
      if t.imageBefore [(key, 16)] || t.behindOwn [(key, 16)] then t.holdFor none
      else if t.storesFirst [(key, 16)] then t.afterStores false (k key)
      else k key t

/-- BINIT (R155). -/
def execBinit (f : SR) (s : State) : Out :=
  let n := (s.srcX (opB .x f)).toNat % 2 ^ 20
  s.anchored [opA .x f, opB .x f] [] fun t =>
    t.barrierOp 2 (s.srcX (opA .x f)) (n ≠ 0) fun key t => t.setBarrier t.issue.core key (.fresh n)

/-- A signed number of sectors that BEXP and BARV accept (R155). -/
def sectorsOk (v : Word) : Bool := -(2 ^ 39 : Int) ≤ v.toInt && v.toInt < 2 ^ 39

/-- BEXP (R155). -/
def execBexp (f : SR) (s : State) : Out :=
  let n := s.srcX (opB .x f)
  s.anchored [opA .x f, opB .x f] [] fun t =>
    t.barrierOp 2 (s.srcX (opA .x f)) (sectorsOk n) fun key t =>
      t.setBarrier t.issue.core key ((t.barrier key).expect n.toInt)

/-- BARV: a release of the task's earlier accesses, then the arrival; a number of sectors outside 40 bits
counts modulo 2^40 (R155). -/
def execBarv (f : SR) (s : State) : Out :=
  s.anchored [opA .x f, opB .x f] [] fun t =>
    t.barrierOp 2 (s.srcX (opA .x f)) true fun key t =>
      t.afterStores true fun t =>
        t.setBarrier t.issue.core key ((t.barrier key).arrive (s.srcX (opB .x f)).toInt)

/-- x n written by a read; uncorrectable data poisons it (R260). -/
def State.putRead (t : State) (n : Nat) (v : Word) (bad : Bool) : State :=
  t.modCur fun k => if bad then (k.setX n v).spoilX n else k.setX n v

/-- BWAIT (R156). -/
def execBwait (f : SR) (s : State) : Out :=
  let phase := (s.srcX (opB .x f)).toNat % 16
  s.anchored [opA .x f, opB .x f] [.x f.d.toNat] fun t =>
    t.barrierOp 1 (s.srcX (opA .x f)) true fun key t =>
      let b := t.barrier key
      let bad := anyBad t.bad key 16
      if b.phase ≠ phase || bad then t.putRead f.d.toNat (word b.result) bad
      else t.holdFor (some (.barrier key phase))

/-- BTEST (R156). -/
def execBtest (f : SR) (s : State) : Out :=
  let phase := (s.srcX (opB .x f)).toNat % 16
  s.anchored [opA .x f, opB .x f] [.x f.d.toNat] fun t =>
    t.barrierOp 1 (s.srcX (opA .x f)) true fun key t =>
      let b := t.barrier key
      t.putRead f.d.toNat (word (b.result + 256 * bit (b.phase ≠ phase))) (anyBad t.bad key 16)

/-- The phase that BWANY expects of barrier j (R156). -/
def expectedPhase (v : Word) (j : Nat) : Nat := bits v (4 * j) 4

/-- The keys of n consecutive barriers, or the first address that names none and its fault. -/
def State.barrierKeys (s : State) (va : Word) : Nat → Nat → List Nat → Except (Nat × Word) (List Nat)
  | 0, _, ks => .ok ks.reverse
  | n + 1, i, ks =>
    let a := va + word (16 * i)
    match s.barrierKey s.me a with
    | .error c => .error (c, a)
    | .ok key => s.barrierKeys va n (i + 1) (key :: ks)

/-- The first barrier, in rotation from ROT, whose phase differs (R156). -/
def State.flipped (s : State) (keys : List Nat) (phases : Word) (rot : Nat) : Option (Nat × Nat) :=
  let n := keys.length
  (((List.range n).map fun i => (rot + i) % n).map fun j => (j, keys.getD j 0)).find? fun e =>
    (s.barrier e.2).phase ≠ expectedPhase phases e.1 || anyBad s.bad e.2 16

/-- BWANY (R156). -/
def execBwany (f : SR) (s : State) : Out :=
  let va := s.srcX (opA .x f)
  let phases := s.srcX (opB .x f)
  let n := f.fn9.toNat % 32
  s.anchored [opA .x f, opB .x f] [.x f.d.toNat] fun t =>
    if misaligned va 16 then t.raise 0x0E va
    else
      match t.barrierKeys va n 0 [] with
      | .error (c, a) => t.raiseFault c 1 a 0
      | .ok keys =>
        let look (t : State) : State :=
          match t.flipped keys phases s.issue.pre.rot with
          | some (j, key) =>
            let b := t.barrier key
            (t.putRead f.d.toNat (word (j + 16 * bit b.err + 256 * b.phase)) (anyBad t.bad key 16)).modCur fun k =>
              { k with rot := (j + 1) % n }
          | none => t.holdFor (some (.barriers (keys.headD 0) n phases))
        let runs := keys.map (·, 16)
        if t.behindOwn runs then t.holdFor none else if t.storesFirst runs then t.afterStores false look else look t

/-! Waiting on an address (R157) -/

/-- WAITA (R157). -/
def execWaita (f : SR) (s : State) : Out :=
  let va := s.srcX (opA .x f)
  let eq := f.fn9.getLsbD 0
  let want := s.srcX (opB .x f)
  s.anchored [opA .x f, opB .x f, opC .x f] [.x f.d.toNat] fun t =>
    if misaligned va 8 then t.raise 0x0E va
    else
      t.access 1 {} (pieces va 8) fun parts t =>
        let v := word (ofLeBytes (t.bytesRead parts))
        let bad := t.badRead parts
        if bad || decide (v = want) = eq || s.issue.pre.expired then (t.afterRead parts).putRead f.d.toNat v bad
        else
          (t.holdFor (some (.word (parts.headD (0, 0)).1 eq want))).modCur fun k =>
            { k with timeout := (s.srcX (opC .x f)).toNat }

/-! Fences, drains and slip waits (R159) -/

/-- Memory as a task's fetch sees it after a FENCE of its core: what the writers of the scope wrote is as it stands, the rest as
it was seen before (R92, R159, R352, log entry 12). -/
def State.seenCode (s : State) (core scope : Nat) (code : Sparse Byte) : Sparse Byte :=
  if 4 ≤ scope then s.mem
  else
    let seen (key : Nat) : Bool := inScope core scope (s.origin.get 0 key)
    Sparse.merge (s.mem.filter fun e => seen e.1) (code.filter fun e => !seen e.1)

/-- A bank whose fetch sees what a FENCE shows; a repeat's bundles are fetched again (R352). -/
def Ctx.refetch (k : Ctx) (see : Sparse Byte → Sparse Byte) : Ctx := { k with code := see k.code, loopBuf := [] }

/-- Fetch of both banks of the core sees what a FENCE at a scope shows. -/
def State.refetch (t : State) (scope : Nat) : State :=
  let see := t.seenCode t.issue.core scope
  t.modCore t.issue.core fun k => { k with b0 := k.b0.refetch see, b1 := k.b1.refetch see }

/-- The scope of FENCE and DRAIN (R159). -/
def fenceScope (f : SR) : Nat := f.fn9.toNat % 8

/-- An ordered reduction of the bank has not performed (R159, R344). -/
def State.orderedOut (s : State) (c b : Nat) : Bool := s.fabric.reductions.any fun r => s.holdsBack c b r && r.ord ≠ 0

/-- FENCE (R159). -/
def execFence (f : SR) (s : State) : Out :=
  s.anchored [] [] fun t =>
    if t.imagesOut then t.holdFor none
    else t.afterStores (t.orderedOut t.issue.core t.issue.bank) (·.refetch (fenceScope f))

/-- A copy that the context started is current or waiting, on the engine of whichever core it ran on then (R159). -/
def State.copiesOut (s : State) : Bool :=
  s.cores.any fun e => (e.2.engine.current.toList ++ e.2.engine.waiting.toList).any fun q => q.ctx = s.issue.pre.serial

/-- DRAIN (R159). -/
def execDrain (f : SR) (s : State) : Out :=
  s.anchored [] [] fun t =>
    if t.copiesOut || t.imagesOut || t.reductionsOut t.issue.core t.issue.bank then t.holdFor none
    else t.afterStores false (·.refetch (fenceScope f))

/-- SLIPW (R159). -/
def execSlipw (s : State) : Out :=
  s.anchored [] [] fun t => if s.issue.pre.queue.isEmpty then t else t.holdFor none

/-! Quiet detection (R160, R361, R362) -/

/-- NM1 of XQCTL: the job's packages less 1 (R362). -/
def Job.nm1 (q : Job) : Nat := bits q.xqctl 32 16

/-- A wave that began after QUIET issued reported the job quiet (R160, R361, R362). -/
def Job.quietSince (q : Job) (since : Word) : Bool :=
  q.qstat.getLsbD 0 &&
  (if q.nm1 = 0 then decide (since < q.qstat >>> 1) else decide (since < q.qreached))

/-- QUIET (R160). -/
def execQuiet (s : State) : Out :=
  s.anchored [] [] fun t =>
    match s.issue.pre.since with
    | some w => if (s.job s.issue.pre.job).quietSince w then t else t.holdFor (some .quiet)
    | none => t.holdFor (some .quiet)

/-- QTEST (R160). -/
def execQtest (f : SR) (s : State) : Out :=
  s.anchored [] [.x f.d.toNat] fun t => t.putX f.d.toNat (s.job s.issue.pre.job).qstat

/-! Ring control (R106, R161) -/

/-- QINIT (R106). -/
def execQinit (f : SI) (s : State) : Out :=
  let q := f.u % 8
  s.anchored [] [] fun t =>
    let r := s.issue.pre.getRing q
    if r.fill ≠ r.rsv then t.holdFor none
    else t.modCur fun k => k.setRing q ⟨f.u / 256 % 32, f.u / 65536 % 64, 0, 0, 0⟩

/-- QADVH (R106, R161). -/
def execQadvh (f : SI) (s : State) : Out :=
  let q := f.u % 8
  let n := f.u / 65536 % 64
  s.anchored [] [] fun t =>
    let r := s.issue.pre.getRing q
    if r.len = 0 || r.len < n || r.rsv < n then t.raise 0x0F 0
    else if r.fill < n then t.holdFor none
    else t.modCur fun k => k.setRing q { r with head := (r.head + n) % r.len, fill := r.fill - n, rsv := r.rsv - n }

/-- QADVT: the slots count as filled once every slot reserved before them has completed (R106, R161). -/
def execQadvt (f : SI) (s : State) : Out :=
  let q := f.u % 8
  let n := f.u / 65536 % 64
  s.anchored [] [] fun t =>
    let r := s.issue.pre.getRing q
    if r.len = 0 || r.len < n || r.len < r.rsv + n then t.raise 0x0F 0
    else if r.fill = r.rsv then t.modCur fun k => k.setRing q { r with fill := r.fill + n, rsv := r.rsv + n }
    else t.modCur fun k => (k.setRing q { r with rsv := r.rsv + n }).pendOn (.t 99) (.mark q) n

/-! Traps and returns (R162, R163) -/

/-- TRAP (R162). -/
def execTrap (f : SI) (s : State) : Out := s.anchored [] [] fun t => t.raise 0x13 0 f.imm

/-- SVC (R162). -/
def execSvc (f : SI) (s : State) : Out := s.anchored [] [] fun t => t.raise 0x14 0 f.imm

/-- A supervisor-only operation: in user mode the privilege trap, active or not (R83). -/
def State.supervised (s : State) (k : Out) : Out := if s.issue.pre.mode = .user then .next (s.raise 0x0B 0) else k

/-- ERET (R163, R390, R392). -/
def execEret (s : State) : Out :=
  s.supervised (s.anchored [] [] fun t =>
    if s.issue.pre.nores then t.raise 0x0B 0
    else (t.goTo s.issue.pre.epc).modCur Ctx.returned)

/-! System registers (R113 to R115, R164) -/

/-- MRGCTL as it reads (R230). -/
def Cluster.mrgctl (cl : Cluster) : Word := word (65536 * bit cl.mrgDis + cl.mrgHold)

/-- SLOTMAP as it reads (R90). -/
def Core.slotmap (k : Core) : Word := word (64 * k.vuok + 4 * bit (k.v0u = k.v1u) + 2 * k.v1u + k.v0u)

/-- A write of SLOTMAP: ignored as a whole if it binds a slot to a failed unit (R90). -/
def Core.writeSlotmap (k : Core) (v : Word) : Core :=
  if k.vuok.testBit (bits v 0 1) && k.vuok.testBit (bits v 1 1) then { k with v0u := bits v 0 1, v1u := bits v 1 1 } else k

/-- FINDCTL as it reads (R300). -/
def Core.findctl (k : Core) : Word := word (65536 * k.findConf + 256 * k.findDist + bit k.findEn)

/-- RBQCNT (R115): words queued and the counter of the next word popped. -/
def Ctx.rbqcnt (k : Ctx) : Word :=
  word (2 ^ 32 * k.rbq.length + (k.rngCtr - BitVec.ofNat 32 (16 * k.rbq.length)).toNat)

/-- BOOTSTAGE (R425). -/
def Pkg.bootstage (p : Pkg) : Word := word (256 * p.err + 8 * bit p.busy + p.stage)

/-- A system register as MFS reads it (R113). -/
def State.sysReg (s : State) (sel : Nat) : Word :=
  let c := s.issue.core
  let k := s.issue.pre
  match sel with
  | 0x00 => word c
  | 0x01 => word (clusterOf c)
  | 0x02 => word (dieOf c)
  | 0x03 => word k.job
  | 0x04 => word k.asid
  | 0x05 => k.wid
  | 0x06 => k.argp
  | 0x07 => k.trec
  | 0x08 => word k.prio
  | 0x09 => s.siderealOn (dieOf c)
  | 0x0A => k.cycles
  | 0x10 => (s.core c).tvec
  | 0x11 => k.tcause
  | 0x12 => k.taddr
  | 0x13 => word k.tslot
  | 0x14 => k.epc
  | 0x15 => k.estat
  | 0x18 => (s.core c).slotmap
  | 0x19 => (s.cluster (clusterOf c)).mrgctl
  | 0x1A => k.rbqcnt
  | 0x1B => (s.core c).findctl
  | _ => s.pkg.bootstage

/-- The multiples of TSLICE that a count of cycles has passed (R391). -/
def Job.slicesAt (q : Job) (cycles : Word) : Nat := if q.tslice = 0 then 0 else cycles.toNat / q.tslice

/-- CYCLES written: crossings of TSLICE count from here (R391). -/
def State.setCycles (s : State) (v : Word) : State :=
  let n := (s.job s.cur.job).slicesAt v
  s.modCur fun k => { k with cycles := v, slices := n }

/-- A system register written by MTS: its writable fields (R90, R113, R230, R300, R388). -/
def State.setSysReg (s : State) (sel : Nat) (v : Word) : State :=
  let c := s.issue.core
  match sel with
  | 0x05 => s.modCur fun k => { k with wid := v }
  | 0x06 => s.modCur fun k => { k with argp := v }
  | 0x07 => s.modCur fun k => { k with trec := v }
  | 0x08 => s.modCur fun k => { k with prio := bits v 0 2 }
  | 0x0A => s.setCycles v
  | 0x10 => s.modCore c fun k => { k with tvec := v >>> 12 <<< 12 }
  | 0x11 => s.modCur fun k => { k with tcause := v &&& 0xFFFFFFFF000001FF }
  | 0x12 => s.modCur fun k => { k with taddr := v }
  | 0x13 => s.modCur fun k => { k with tslot := bits v 0 3 }
  | 0x14 => s.modCur fun k => { k with epc := v >>> 6 <<< 6 }
  | 0x15 => s.modCur fun k =>
    { k with nodec := v.getLsbD 7, amask := v.getLsbD 1, pmode := if v.getLsbD 0 then .supervisor else .user }
  | 0x18 => s.modCore c (·.writeSlotmap v)
  | 0x19 => s.writeMrgctl (clusterOf c) v
  | 0x1B => s.modCore c fun k => { k with findEn := v.getLsbD 0, findDist := bits v 8 3, findConf := bits v 16 8 }
  | _ => s

/-- The selector of MFS and MTS. -/
def selOf (f : SI) : Nat := f.u % 4096

/-- MFS of a register is supervisor-only (R113). -/
def readNeedsSup (sel : Nat) : Bool := 0x10 ≤ sel && sel ≤ 0x15

/-- MTS of a register is supervisor-only (R113). -/
def writeNeedsSup (sel : Nat) : Bool := sel ≠ 0x1B

/-- A finder register on a core that is not finder-capable (R82). -/
def State.findRefused (s : State) (sel : Nat) : Bool := sel = 0x1B && !finderCapable s.issue.core

/-- MFS (R164). -/
def execMfs (f : SI) (s : State) : Out :=
  if s.findRefused (selOf f) then .next (s.raise 0x0A 0)
  else if readNeedsSup (selOf f) && s.issue.pre.mode = .user then .next (s.raise 0x0B 0)
  else s.anchored [] [.x f.d.toNat] fun t => t.putX f.d.toNat (s.sysReg (selOf f))

/-- MTS (R164). -/
def execMts (f : SI) (s : State) : Out :=
  let a := opReg .x f.a.toNat
  if s.findRefused (selOf f) then .next (s.raise 0x0A 0)
  else if writeNeedsSup (selOf f) && s.issue.pre.mode = .user then .next (s.raise 0x0B 0)
  else s.anchored [a] [] fun t => t.setSysReg (selOf f) (s.srcX a)

/-! Context save, load and switch (R165, R402 to R405) -/

/-- The other bank of the issuing core. -/
def State.otherBank (s : State) : Nat := 1 - s.issue.bank

/-- The saved task's data that the image does not hold (log entry 33). -/
def Ctx.saved (k : Ctx) : Saved := ⟨k.serial, k.job, k.wid, k.trec, k.joinp, k.ctrl, k.kind, k.counted, k.launch⟩

/-- CSAVE of a parked or resumable bank: its members of unreleased stacks are withdrawn; its queues, loads and stores
complete first (R229, R405). -/
def State.saveBank (t : State) (f : SR) (parts : List (Nat × Nat)) : State :=
  let c := t.issue.core
  let b := t.otherBank
  let k := t.ctx c b
  if !t.issue.pre.queue.isEmpty || !k.queue.isEmpty || !k.pend.isEmpty || t.storesStuck c b then (t.withdraw c b).holdFor none
  else
    let t := (t.flush c b).dropQw c b
    let t := t.writeParts c (cutData parts (t.ctx c b).image)
    let t := { t with saved := t.saved ++ [k.saved] }.release c b
    t.putX f.d.toNat 1

/-- CSAVE (R165). -/
def execCsave (f : SR) (s : State) : Out :=
  let va := s.srcX (opA .x f)
  s.supervised (s.anchored [opA .x f] [.x f.d.toNat] fun t =>
    if misaligned va 4096 then t.raise 0x0E va
    else
      match (t.ctx t.issue.core t.otherBank).status with
      | .idle => t.putX f.d.toNat 0
      | .running => t.putX f.d.toNat 0
      | _ => t.access 2 { write := true } (pieces va ctxImageLen) fun parts t => t.saveBank f parts)

/-- The saved task that a context belongs to. -/
def State.savedOf (s : State) (k : Ctx) : Option Saved :=
  s.saved.find? fun r => r.job = k.job && r.wid = k.wid && r.trec = k.trec && r.joinp = k.joinp && r.ctrl = k.ctrl

/-- A context whose image passed its checks enters a bank (R165, R391). -/
def State.loadBank (t : State) (c b : Nat) (k : Ctx) : State :=
  let t := t.modCore c fun o => { o with bound := o.stage }
  let k := { k with token := (t.ctx c b).token, slices := (t.job k.job).slicesAt k.cycles, code := t.mem }
  match t.savedOf k with
  | some r =>
    ({ t with saved := t.saved.erase r }).setCtx c b
      { k with serial := r.serial, kind := r.kind, counted := r.counted, launch := r.launch }
  | none => { t with disp := { t.disp with nextCtx := t.disp.nextCtx + 1 } }.setCtx c b { k with serial := t.disp.nextCtx }

/-- The image names a live job with its ASID (R405). -/
def State.imageLives (s : State) (k : Ctx) : Bool :=
  (s.job k.job).active && (s.job k.job).kstat = 0 && (s.job k.job).asid = k.asid

/-- CLOAD (R165, R405). -/
def execCload (f : SR) (s : State) : Out :=
  let va := s.srcX (opA .x f)
  s.supervised (s.anchored [opA .x f] [.x f.d.toNat] fun t =>
    if misaligned va 4096 then t.raise 0x0E va
    else if (t.ctx t.issue.core t.otherBank).occupied then t.putX f.d.toNat 0
    else
      t.access 1 {} (pieces va ctxImageLen) fun parts t =>
        let bs := t.bytesRead parts
        if t.badRead parts then t.raise 0x10 va
        else if imageOk bs && t.imageLives (Ctx.ofImage bs) then
          (t.loadBank t.issue.core t.otherBank (Ctx.ofImage bs)).putX f.d.toNat 1
        else t.putX f.d.toNat 2)

/-- CTXSW (R165). -/
def execCtxsw (f : SR) (s : State) : Out :=
  s.supervised (s.anchored [] [.x f.d.toNat] fun t =>
    if (t.ctx t.issue.core t.otherBank).status = .resumable then (t.putX f.d.toNat 1).thenDo .switch
    else t.putX f.d.toNat 0)

end Sys2Proof.Machine
end

