-- ==== Sys2Proof/Machine/Hash.lean ====
section
/-! DEFINITION. SHA-256 and the verification of an ECDSA signature over P-256, which R283, R336 and R434 name by their published standards (log entry 45). -/
namespace Sys2Proof.Machine

/-! SHA-256 -/

/-- A 32-bit word. -/
abbrev W32 := BitVec 32

/-- The first `n` numbers that no smaller number above 1 divides. -/
def primes (n : Nat) : List Nat :=
  ((List.range 410).filter fun p => decide (2 ≤ p) && (List.range p).all fun d => d < 2 || p % d ≠ 0).take n

/-- The greatest number whose k-th power is at most n, below 2^w. -/
def rootBelow (k n : Nat) : Nat → Nat → Nat
  | 0, lo => lo
  | w + 1, lo => rootBelow k n w (if (lo + 2 ^ w) ^ k ≤ n then lo + 2 ^ w else lo)

/-- The first 32 bits of the fraction of the k-th root of a prime. -/
def rootBits (k p : Nat) : W32 := BitVec.ofNat 32 (rootBelow k (p * 2 ^ (32 * k)) 40 0)

/-- The round constants, and the state before the first block. -/
def shaK : List W32 := (primes 64).map (rootBits 3)
def shaInit : List W32 := (primes 8).map (rootBits 2)

/-- The functions of a round. -/
def shaRound (k w : W32) : List W32 → List W32
  | [a, b, c, d, e, f, g, h] =>
    let s1 := e.rotateRight 6 ^^^ e.rotateRight 11 ^^^ e.rotateRight 25
    let t1 := h + s1 + ((e &&& f) ^^^ (~~~e &&& g)) + k + w
    let s0 := a.rotateRight 2 ^^^ a.rotateRight 13 ^^^ a.rotateRight 22
    let t2 := s0 + ((a &&& b) ^^^ (a &&& c) ^^^ (b &&& c))
    [t1 + t2, a, b, c, d + t1, e, f, g]
  | s => s

/-- The message schedule: the latest sixteen words, newest first, extended n times; oldest first at the end. -/
def shaSchedule : Nat → List W32 → List W32
  | 0, ws => ws.reverse
  | n + 1, ws =>
    let w2 := ws.getD 1 0
    let w15 := ws.getD 14 0
    let s0 := w15.rotateRight 7 ^^^ w15.rotateRight 18 ^^^ w15 >>> 3
    let s1 := w2.rotateRight 17 ^^^ w2.rotateRight 19 ^^^ w2 >>> 10
    shaSchedule n ((s1 + ws.getD 6 0 + s0 + ws.getD 15 0) :: ws)

/-- A big-endian number. -/
def ofBeBytes (bs : List Byte) : Nat := bs.foldl (fun n b => 256 * n + b.toNat) 0

/-- n bytes of a number, most significant first. -/
def beBytes (n v : Nat) : List Byte := (leBytes n v).reverse

/-- Sixteen words of a block of 64 bytes. -/
def shaWords (block : List Byte) : List W32 :=
  (List.range 16).map fun i => BitVec.ofNat 32 (ofBeBytes ((block.drop (4 * i)).take 4))

/-- One block. -/
def shaBlock (s : List W32) (block : List Byte) : List W32 :=
  let ws := shaSchedule 48 (shaWords block).reverse
  List.zipWith (· + ·) s ((shaK.zip ws).foldl (fun s e => shaRound e.1 e.2 s) s)

/-- Blocks of 64 bytes. -/
def shaBlocks : Nat → List W32 → List Byte → List W32
  | 0, s, _ => s
  | n + 1, s, bs => shaBlocks n (shaBlock s (bs.take 64)) (bs.drop 64)

/-- SHA-256 of a list of bytes: 32 bytes. -/
def sha256 (bs : List Byte) : List Byte :=
  let padded := bs ++ 0x80 :: (List.replicate ((119 - bs.length % 64) % 64) 0 ++ beBytes 8 (8 * bs.length))
  (shaBlocks (padded.length / 64) shaInit padded).flatMap fun w => beBytes 4 w.toNat

/-! ECDSA over P-256 -/

/-- The curve's field, order, coefficient and base point. -/
def p256 : Nat := 2 ^ 256 - 2 ^ 224 + 2 ^ 192 + 2 ^ 96 - 1
def n256 : Nat := 0xffffffff00000000ffffffffffffffffbce6faada7179e84f3b9cac2fc632551
def b256 : Nat := 0x5ac635d8aa3a93e7b3ebbd55769886bc651d06b0cc53b0f63bce3c3e27d2604b
def g256 : Nat × Nat :=
  (0x6b17d1f2e12c4247f8bce6e563a440f277037d812deb33a0f4a13945d898c296,
   0x4fe342e2fe1a7f9b8ee7eb4a7c0f9e162bce33576b315ececbb6406837bf51f5)

/-- A power modulo m, over the low `w` bits of the exponent. -/
def powMod (m : Nat) : Nat → Nat → Nat → Nat → Nat
  | 0, _, _, acc => acc
  | w + 1, b, e, acc => powMod m w (b * b % m) (e / 2) (if e % 2 = 1 then acc * b % m else acc)

/-- The inverse modulo a prime. -/
def invMod (m a : Nat) : Nat := powMod m 256 (a % m) (m - 2) 1

/-- The sum of two points; none is the point at infinity. -/
def addPoint : Option (Nat × Nat) → Option (Nat × Nat) → Option (Nat × Nat)
  | none, q => q
  | p, none => p
  | some (x1, y1), some (x2, y2) =>
    let sub (a b : Nat) : Nat := (a + p256 - b) % p256
    if x1 = x2 ∧ (y1 ≠ y2 ∨ y1 = 0) then none
    else
      let l := if x1 = x2 then sub (3 * x1 * x1 % p256) 3 * invMod p256 (2 * y1) % p256 else sub y2 y1 * invMod p256 (sub x2 x1) % p256
      let x3 := sub (sub (l * l % p256) x1) x2
      some (x3, sub (l * sub x1 x3 % p256) y1)

/-- A multiple of a point, over the low `w` bits of the factor. -/
def mulPoint : Nat → Nat → Option (Nat × Nat) → Option (Nat × Nat)
  | 0, _, _ => none
  | w + 1, k, p =>
    let r := mulPoint w (k / 2) (addPoint p p)
    if k % 2 = 1 then addPoint p r else r

/-- A point of the curve with both coordinates in the field. -/
def onCurve (x y : Nat) : Bool :=
  decide (x < p256) && decide (y < p256) && (y * y) % p256 = (x * x % p256 * x + (p256 - 3) * x + b256) % p256

/-- The signature (r, s) over a digest verifies under a public key. -/
def ecdsaVerify (digest x y r s : Nat) : Bool :=
  if !onCurve x y || r = 0 || s = 0 || decide (n256 ≤ r) || decide (n256 ≤ s) then false
  else
    let w := invMod n256 s
    match addPoint (mulPoint 256 (digest * w % n256) (some g256)) (mulPoint 256 (r * w % n256) (some (x, y))) with
    | none => false
    | some (x1, _) => x1 % n256 = r

end Sys2Proof.Machine
end

