-- ==== Sys2Proof/Machine/Engine.lean ====
section
/-! DEFINITION. The C slot: the copy engine's descriptor and commands, weight-handle requests, messages, link queues and the generator key (R277 to R322). -/
namespace Sys2Proof.Machine

/-! The shadow set (R277, R307, R308) -/

/-- The shadow set changed. -/
def State.modShadow (t : State) (f : CopyDesc → CopyDesc) : State := t.modCur fun k => { k with shadow := f k.shadow }

/-- CSRC (R308). -/
def execCsrc (f : SR) (s : State) : Out :=
  s.anchored [opA .x f] [] fun t => t.modShadow fun d => { d with src := s.srcX (opA .x f), srcf := f.fn9.getLsbD 0 }

/-- CDST (R308). -/
def execCdst (f : SR) (s : State) : Out :=
  s.anchored [opA .x f] [] fun t => t.modShadow fun d => { d with dst := s.srcX (opA .x f), dstf := f.fn9.getLsbD 0 }

/-- A word is the sign extension of its low 40 bits. -/
def fits40 (v : Word) : Bool := sextWord 40 (bits v 0 40) = v

/-- CDIM (R308). -/
def execCdim (f : SR) (s : State) : Out :=
  let a := s.srcX (opA .x f)
  let b := s.srcX (opB .x f)
  let c := s.srcX (opC .x f)
  let k := f.fn9.toNat % 8
  s.anchored [opA .x f, opB .x f, opC .x f] [] fun t =>
    if bits a 24 40 ≠ 0 || !fits40 b || !fits40 c then t.raise 0x0F 0
    else
      t.modShadow fun d =>
        { d with cnt := d.cnt.set k (bits a 0 24), sstr := d.sstr.set k (b.setWidth 40), dstr := d.dstr.set k (c.setWidth 40) }

/-- CELT (R308). -/
def execCelt (f : SR) (s : State) : Out :=
  let n := (s.srcX (opA .x f)).toNat
  s.anchored [opA .x f, opB .x f] [] fun t =>
    if n < 1 || 256 < n then t.raise 0x0F 0 else t.modShadow fun d => { d with run := n, aux := s.srcX (opB .x f) }

/-- CMODE (R308). -/
def execCmode (f : SI) (s : State) : Out :=
  s.anchored [] [] fun t => t.modShadow fun d => { d with mode := f.u % 16, mpar := BitVec.ofNat 16 (f.u / 16) }

/-- CBAR: a nonzero address obeys the rules of a barrier (R154, R308). -/
def execCbar (f : SR) (s : State) : Out :=
  let va := s.srcX (opA .x f)
  let put (t : State) : State := t.modShadow fun d => { d with bar := va }
  s.anchored [opA .x f] [] fun t =>
    if va = 0 then put t
    else if misaligned va 16 then t.raise 0x0E va
    else
      match t.barrierKey t.me va with
      | .error c => t.raiseFault c 2 va 0
      | .ok _ => put t

/-- CFLAG (R308). -/
def execCflag (f : SR) (s : State) : Out :=
  let va := s.srcX (opA .x f)
  s.anchored [opA .x f, opB .x f] [] fun t =>
    if misaligned va 8 then t.raise 0x0E va
    else t.modShadow fun d => { d with flaga := va, flagv := s.srcX (opB .x f), fscope := f.fn9.toNat % 8 }

/-! What a descriptor asks for (R279 to R289) -/

/-- Elements of a walk. -/
def CopyDesc.elements (d : CopyDesc) : Nat := d.cnt.foldl (· * ·) 1

/-- Bytes that the source, or the destination before conversion, covers. -/
def CopyDesc.bytes (d : CopyDesc) : Nat := d.run * d.elements

/-- The indexes i0 to i5 of element n of the walk (R279). -/
def CopyDesc.index (d : CopyDesc) (n : Nat) : List Nat :=
  (List.range 6).map fun k => n / (d.cnt.take k).foldl (· * ·) 1 % max 1 (d.cnt.getD k 1)

/-- A base address and indexes times strides (R279). -/
def strideSum (base : Word) (idx : List Nat) (strides : List (BitVec 40)) : Word :=
  (idx.zip strides).foldl (fun a e => a + word e.1 * e.2.signExtend 64) base

/-- Source and destination formats of CONVERT (R281). -/
def CopyDesc.from_ (d : CopyDesc) : Fmt := (Fmt.ofCode (d.mpar.setWidth 6)).getD .poison
def CopyDesc.into_ (d : CopyDesc) : Fmt := (Fmt.ofCode ((d.mpar >>> 6).setWidth 6)).getD .poison

/-- Bytes of a destination element (R281). -/
def CopyDesc.outRun (d : CopyDesc) : Nat :=
  if d.mode = 1 then 8 * d.run / d.from_.width * d.into_.width / 8 else d.run

/-- A CONVERT's formats and run (R281). -/
def CopyDesc.convertOk (d : CopyDesc) : Bool :=
  d.mpar.toNat < 2 ^ 13 && d.from_.inVcvt && d.into_.inVcvt && 8 * d.run % d.from_.width = 0 &&
  8 * d.run / d.from_.width * d.into_.width % 8 = 0

/-- A flash destination's rules (R285). -/
def CopyDesc.flashOk (d : CopyDesc) : Bool :=
  d.mode = 0 && d.cnt.drop 1 = [1, 1, 1, 1, 1] && d.sstr.head? = some (BitVec.ofNat 40 d.run) &&
  d.dstr.head? = some (BitVec.ofNat 40 d.run) && misaligned d.dst 16384 = false && d.bytes % 16384 = 0

/-- Every stride is zero. -/
def CopyDesc.still (d : CopyDesc) : Bool := d.sstr.all (· = 0) && d.dstr.all (· = 0)

/-- MPAR and the mode's own rules (R281, R283, R289, R293, R295). -/
def CopyDesc.modeOk (d : CopyDesc) : Bool :=
  match d.mode with
  | 1 => d.convertOk
  | 2 => d.mpar = 0 && d.cnt = [1, 1, 1, 1, 1, 1]
  | 3 => d.mpar.toNat < 2 && d.still
  | 4 => d.mpar = 0 && d.bytes % 16384 = 0
  | 5 => d.mpar.toNat < 2 && d.still && !misaligned d.src 16384 && !misaligned d.dst 16384 && d.bytes % 16384 = 0
  | 0 => d.mpar = 0
  | 6 => d.mpar = 0
  | 7 => d.mpar = 0
  | _ => false

/-- The checks of CGO (R278). -/
def CopyDesc.ok (d : CopyDesc) : Bool :=
  d.modeOk && (!d.srcf || d.mode = 0 || d.mode = 4) && (!d.dstf || d.flashOk) && !(d.flaga ≠ 0 && d.flagv = -1)

/-! Commit, status, cancel (R309 to R311) -/

/-- The number after a sequence number: modulo 2^32, without 0 (R309). -/
def seqAfter (n : Nat) : Nat := if (n + 1) % 2 ^ 32 = 0 then 1 else (n + 1) % 2 ^ 32

/-- The engine of a core changed. -/
def State.modEngine (s : State) (c : Nat) (f : Engine → Engine) : State := s.modCore c fun k => { k with engine := f k.engine }

/-- A committed copy starts on an idle engine, or waits (R278). -/
def Engine.accept (e : Engine) (q : Copy) : Engine :=
  match e.current with
  | none => { e with current := some { q with started := true }, nextSeq := seqAfter e.nextSeq }
  | some _ => { e with waiting := some q, nextSeq := seqAfter e.nextSeq }

/-- The copy that a context commits. -/
def Ctx.newCopy (k : Ctx) (bank seq : Nat) : Copy :=
  { seq := seq, job := k.job, asid := k.asid, sup := k.mode = .supervisor, wid := k.wid, bank := bank, ctx := k.serial, pc := k.pc
    desc := k.shadow, pos := 0, inOff := 0, outOff := 0, started := false, err := false, stopped := false, quiet := false
    pages := [], program := none, stream := none, land := none, owed := (0, false) }

/-- Another context of the core issued its CGO first: it is parked, or not yet resumed, at the CGO that found the waiting position
taken (R309). -/
def Core.claimed (k : Core) (serial : Nat) : Bool :=
  match k.engine.claims.find? fun e => [k.b0, k.b1].any fun b => decide (b.serial = e.1) && decide (b.pc = e.2) && b.status ≠ .idle with
  | some e => decide (e.1 ≠ serial)
  | none => false

/-- CGO (R278, R280, R309). -/
def execCgo (f : SR) (s : State) : Out :=
  let c := s.issue.core
  s.anchored [] [.x f.d.toNat] fun t =>
    let e := (t.core c).engine
    if !s.issue.pre.shadow.ok then t.raise 0x0F 0
    else if e.waiting.isSome || (t.core c).claimed s.issue.pre.serial then t.holdFor (some .swap)
    else
      t.afterStores true fun t =>
        (t.modEngine c fun e => { e with claims := e.claims.filter fun x => decide (x.1 ≠ s.issue.pre.serial) }.accept
          (s.issue.pre.newCopy s.issue.bank e.nextSeq)).putX f.d.toNat (word e.nextSeq)

/-- Copies of an engine, the current one first. -/
def Engine.copies (e : Engine) : List Copy := e.current.toList ++ e.waiting.toList

/-- CSTAT's value for a job (R310). -/
def Engine.stat (e : Engine) (job : Nat) : Word :=
  let (seq, err) := e.done.get (0, false) job
  word (2 ^ 32 * seq + 4 * bit err + (e.copies.filter (·.job = job)).length)

/-- CSTAT (R310). -/
def execCstat (f : SR) (s : State) : Out :=
  s.anchored [] [.x f.d.toNat] fun t => t.putX f.d.toNat ((t.core s.issue.core).engine.stat s.issue.pre.job)

/-- A copy is stopped by a cancel: it completes as a faulted copy (R311). -/
def Copy.cancelled (hit : Copy → Bool) (q : Copy) : Copy := if hit q then { q with stopped := true, err := true } else q

/-- The copies that a cancel stops, and their number. -/
def State.cancel (t : State) (d : Nat) (hit : Copy → Bool) : State :=
  let c := t.issue.core
  let live (q : Copy) : Bool := q.job = t.issue.pre.job && !q.stopped && hit q
  let n := ((t.core c).engine.copies.filter live).length
  (t.modEngine c fun e =>
    { e with current := e.current.map (Copy.cancelled live), waiting := e.waiting.map (Copy.cancelled live) }).putX d (word n)

/-- CCAN (R311). -/
def execCcan (f : SR) (s : State) : Out :=
  s.anchored [opA .x f] [.x f.d.toNat] fun t =>
    t.cancel f.d.toNat fun q => q.seq = (s.srcX (opA .x f)).toNat % 2 ^ 32

/-- CCAN.all (R311). -/
def execCcanAll (f : SR) (s : State) : Out := s.anchored [opA .x f] [.x f.d.toNat] fun t => t.cancel f.d.toNat fun _ => true

/-! Weight-handle requests (R312 to R315) -/

/-- A request sets out for the handle table; its register is pending (R312, R315). -/
def State.askTable (t : State) (d : Nat) (kind : HReqKind) : State :=
  let k := t.issue.pre
  let c := t.issue.core
  let tok := t.cur.token
  ({ t with
      hreqs := t.hreqs ++ [(⟨t.nextRead, c, t.issue.bank, k.job, k.asid, k.mode = Mode.supervisor, d, tok, kind⟩ : HReq)]
      nextRead := t.nextRead + 1 }).modCur fun k => (k.pendOn (.x d) .handle tok).useToken

/-- Flash logical pages of the package (R301). -/
def flashPages : Nat := 488281248

/-- First page and count of an extent operand, where it is in bounds (R312). -/
def extentOf (v : Word) : Option (Nat × Nat) :=
  let first := bits v 0 29
  let n := bits v 32 15
  if bits v 29 3 ≠ 0 || bits v 47 17 ≠ 0 || n = 0 || 16384 < n || flashPages < first + n then none else some (first, n)

/-- A request for an extent: alignment, bounds, then the request (R312). -/
def State.request (t : State) (d : Nat) (extent dest : Word) (demand below : Bool) : State :=
  if misaligned dest 16384 then t.raise 0x0E dest
  else
    match extentOf extent with
    | none => t.raise 0x0F 0
    | some (first, n) => t.askTable d (.request first n dest demand below)

/-- WHREQ: the confidence is read only where the core's WHREQs are finder requests; where they are not, C has its hold action
alone (R71, R300, R312). -/
def execWhreq (f : SR) (s : State) : Out :=
  let (find, conf) := s.issue.find
  let s' := if find then s else s.latchOne (opC .x f)
  if !find && (opC .x f).copies.any s.later then .next (s.holdFor none)
  else
    s'.anchored ([opA .x f, opB .x f] ++ if find then [opC .x f] else []) [.x f.d.toNat] fun t =>
      t.request f.d.toNat (s.srcX (opA .x f)) (s.srcX (opB .x f)) false
        (find && decide ((s.srcX (opC .x f)).toNat % 256 < conf))

/-- WHDMD (R312). -/
def execWhdmd (f : SR) (s : State) : Out :=
  s.anchored [opA .x f, opB .x f] [.x f.d.toNat] fun t =>
    t.request f.d.toNat (s.srcX (opA .x f)) (s.srcX (opB .x f)) true false

/-- WHDMD.up (R313). -/
def execWhdmdUp (f : SR) (s : State) : Out :=
  s.anchored [opA .x f, opB .x f] [.x f.d.toNat] fun t => t.askTable f.d.toNat (.upgrade ((s.srcX (opA .x f)).toNat % 4096))

/-- A request of the bundle's context is still under way: its handle operations act in bundle order (R109). -/
def State.asking (s : State) : Bool := s.hreqs.any fun r => r.core = s.issue.core && r.bank = s.issue.bank

/-- A handle of the job that is READY or in ERROR becomes FREE; x[d] says the state found (R153, R314). -/
def State.releaseHandle (t : State) (d h : Nat) : State :=
  match t.handleState t.issue.pre.job h with
  | .free => t.putX d 0
  | .pending => t.putX d 1
  | .ready => (t.setHandle h .free).regate.putX d 2
  | .error => (t.setHandle h .free).regate.putX d 3

/-- WHREL: on a PENDING handle the bundle waits, with the handle marked for release, until it is FREE;
the state found was PENDING (R314). -/
def execWhrel (f : SR) (s : State) : Out :=
  let (h, st) := s.handleOf f
  s.anchored [opA .x f] [.x f.d.toNat] fun t =>
    if s.issue.pre.await = some (.release h) && (st ≠ .pending || !(s.handle h).mark) then t.putX f.d.toNat 1
    else if s.asking then t.holdFor none
    else if st = .pending then t.holdFor (some (.release h))
    else t.releaseHandle f.d.toNat h

/-! The job's packages (R22, R316, R317, R422) -/

/-- A peer-table entry: endpoint and job slot. -/
def State.peer (s : State) (job chip : Nat) : BitVec 128 × Nat :=
  let at_ := bits (s.job job).peert 6 46 * 64 + 64 * chip
  (BitVec.ofNat 128 (s.numAt at_ 16), s.numAt (at_ + 16) 1 % 64)

/-- The package's own endpoint (R433). -/
def Port.endpoint (p : Port) : BitVec 128 := p.addr1 ++ p.addr0

/-- The package's own CHIP: the entry of the peer table that names it (R22). -/
def State.ownChip (s : State) (job : Nat) : Nat :=
  let n := (s.job job).nm1 + 1
  if n = 1 then 0 else ((List.range n).find? fun i => (s.peer job i).1 = s.port.endpoint).getD 0

/-- A CHIP names a peer package (R316). -/
def State.isPeer (s : State) (job chip : Nat) : Bool := chip ≤ (s.job job).nm1 && chip ≠ s.ownChip job

/-! Messages (R316) -/

/-- Two dies are linked (R17). -/
def diesLinked (a b : Nat) : Bool := a ≠ b && a + b ≠ 3

/-- The interface at a die's end of a link: to a linked die, and to the IOD; and the IOD's end (R354). -/
def dieEnd (die src : Nat) : Nat := 32 + 4 * die + bit ((List.range src).any (diesLinked die))
def dieIodEnd (die : Nat) : Nat := 32 + 4 * die + 2
def iodEnd (die : Nat) : Nat := 32 + 4 * die + 3

/-- The holders that a message between dies passes; between diagonal dies it crosses one of the other two dies, or the IOD, as
the fabric chooses, freely (R17, R356; log entry 109). -/
def dieRoute (a b choice : Nat) : List Nat :=
  if a = b then []
  else if diesLinked a b then [dieEnd b a]
  else
    match ((List.range 4).filter fun m => m ≠ a && m ≠ b)[choice % 3]? with
    | some m => [dieEnd m a, dieEnd b m]
    | none => [iodEnd a, dieIodEnd b]

/-- A send's target word is well formed (R316). -/
def targetOk (v : Word) : Bool := bits v 9 7 = 0 && bits v 32 32 = 0 && (v.getLsbD 8 || bits v 16 16 = 0)

/-- A message leaves: counted at the sender's cluster, with a send entry; it is delivered once the task's earlier loads, stores
and returning atomics have performed (R316, R319, R355). -/
def State.sendOut (t : State) (entry target : Word) (payload : Payload) : State :=
  let k := t.issue.pre
  let c := t.issue.core
  let rem := target.getLsbD 8
  let m : Msg :=
    { n := t.fabric.nextItem, job := k.job, core := c, bank := t.issue.bank, ctx := k.serial, target := bits target 0 8, rem := rem
      chip := bits target 16 16, entry := entry, payload := payload, word := target
      sender := word (c + 2 ^ 8 * t.issue.bank + 2 ^ 16 * t.ownChip k.job + 2 ^ 32 * bit rem), wid := k.wid
      widths := k.widths, prio := k.prio, holder := clusterOf c
      route := if rem then [portIface] else dieRoute (dieOf c) (dieOf (bits target 0 8)) (Config.freeNat t.free)
      entryHeld := true }
  ({ t.useFree.2 with fabric := { t.fabric with msgs := t.fabric.msgs ++ [m], nextItem := t.fabric.nextItem + 1 } }.inject
    (clusterOf c) k.job).modCluster (clusterOf c) fun cl => { cl with sends := cl.sends + 1 }

/-- The checks of a send: entry, target, peer, then the payload's own; it waits for a send entry (R316). -/
def State.send (t : State) (entry target : Word) (check : State → Option State) (payload : Payload) : State :=
  if misaligned entry 64 then t.raise 0x0E entry
  else if !targetOk target then t.raise 0x0F 0
  else if target.getLsbD 8 && (!t.isPeer t.issue.pre.job (bits target 16 16) || !t.port.up) then t.raise 0x12 0
  else
    match check t with
    | some bad => bad
    | none =>
      if 16 ≤ (t.cluster (clusterOf t.issue.core)).sends then t.holdFor none else t.sendOut entry target payload

/-- MSEND (R316). -/
def execMsend (f : SR) (s : State) : Out :=
  let d := opReg .x f.d.toNat
  s.anchored [opA .x f, opB .x f, opC .x f, d] [] fun t =>
    t.send (s.srcX (opA .x f)) (s.srcX (opB .x f)) (fun _ => none) (.words (s.srcX (opC .x f)) (s.srcX d))

/-- MSENDV (R316). -/
def execMsendv (f : SR) (s : State) : Out :=
  let v := s.srcV (opC .v f)
  s.anchored [opA .x f, opB .x f, opC .v f] [] fun t =>
    t.send (s.srcX (opA .x f)) (s.srcX (opB .x f)) (fun t => if v.tag = .poison then some (t.raise 0x10 0) else none)
      (.vec v.tag (leBytes 256 v.body.toNat ++ leBytes 32 v.side.toNat))

/-! Link queues (R320, R321, R366) -/

/-- Peer and queue of a link operand. -/
def linkPeer (v : Word) : Nat := bits v 0 16
def linkQueue (v : Word) : Nat := bits v 16 4

/-- The checks of LSEND and LRECV: alignment, bounds, a declared queue on a package with a link (R320, R425). -/
def State.linkOp (t : State) (va q n : Word) (recv : Bool) (k : State → State) : State :=
  if misaligned va 8 then t.raise 0x0E va
  else if bits q 20 44 ≠ 0 || n.toNat < 8 || 65536 < n.toNat || n.toNat % 8 ≠ 0 then t.raise 0x0F 0
  else if !((t.job t.issue.pre.job).links.contains (linkPeer q, linkQueue q, recv)) || !t.port.up then t.raise 0x12 0
  else k t

/-- The job whose peer table gives a packet's destination, and the CHIP (R422). -/
def Cargo.dest : Cargo → Nat × Nat
  | .message m => (m.job, m.chip)
  | .link job _ _ peer _ _ _ _ _ _ _ => (job, peer)
  | .control job peer _ _ => (job, peer)

/-- A packet leaves the port for its peer (R317, R365). -/
def State.transmit (t : State) (cargo : Cargo) : State :=
  let dest := t.peer cargo.dest.1 cargo.dest.2
  { t with port := { t.port with
      packets := t.port.packets ++ [(⟨t.port.nextPacket, 1, t.sidereal, t.port.retry, t.port.rto, cargo, dest⟩ : Packet)], nextPacket := t.port.nextPacket + 1 } }

/-- The packets of an LSEND, of at most 4,096 bytes each, leave the port in order (R321, R365). -/
def State.sendLink (t : State) (c b peer queue : Nat) (data : List Byte) (k : Ctx) : State :=
  (List.range ((data.length + 4095) / 4096)).foldl (fun s i =>
    s.transmit (.link k.job c b peer queue ((data.drop (4096 * i)).take 4096) t.port.nextPacket data.length k.wid k.prio k.widths)) t

/-- Where n bytes of a receive queue's stream stand, from its byte at an offset on: each declared receive queue has 64 KiB of the
job's link area, in link-table order, and its stream goes round in them (R366, R422; log entry 89). -/
def Job.linkParts (q : Job) (key off n : Nat) : List (Nat × Nat) :=
  let i := ((q.links.filter (·.2.2)).findIdx? fun e => 16 * e.1 + e.2.1 = key).getD 0
  let base := bits q.linkbase 16 36 * 65536 + 65536 * i
  let first := off % 65536
  let k := min n (65536 - first)
  [(base + first, k), (base, n - k)].filter fun p => p.2 ≠ 0

/-- LSEND (R321). -/
def execLsend (f : SR) (s : State) : Out :=
  let va := s.srcX (opA .x f)
  let q := s.srcX (opB .x f)
  let n := s.srcX (opC .x f)
  let k := s.issue.pre
  s.anchored [opA .x f, opB .x f, opC .x f] [] fun t =>
    t.linkOp va q n false fun t =>
      t.access 1 {} (pieces va n.toNat) fun parts t =>
        if t.badRead parts then t.raise 0x10 va
        else
          (t.afterRead parts).sendLink s.issue.core s.issue.bank (linkPeer q) (linkQueue q) (t.bytesRead parts) k

/-- LRECV: its stores have performed when its bundle commits (R321, R366). -/
def execLrecv (f : SR) (s : State) : Out :=
  let va := s.srcX (opA .x f)
  let q := s.srcX (opB .x f)
  let n := s.srcX (opC .x f)
  let job := s.issue.pre.job
  let key := 16 * linkPeer q + linkQueue q
  s.anchored [opA .x f, opB .x f, opC .x f] [] fun t =>
    t.linkOp va q n true fun t =>
      if (t.job job).broken.get false key then t.raise 0x12 0
      else
        t.access 2 { write := true } (pieces va n.toNat) fun parts t =>
          let (first, held) := (t.job job).stream.get (0, 0) key
          if held < n.toNat then t.holdFor (some (.link (linkPeer q) (linkQueue q) n.toNat))
          else
            t.afterStores false fun t =>
              if t.imageBefore parts || t.behindOwn parts then t.holdFor none
              else
                let from_ := (t.job job).linkParts key first n.toNat
                (t.modJob job fun j => { j with stream := j.stream.set (0, 0) key ((first + n.toNat) % 65536, held - n.toNat) }).writeParts
                  t.issue.core (cutData parts (t.view t.mem from_)) (viewBad t.bad from_)

/-! The generator key (R322) -/

/-- RBKEY: after every pop of the same bundle (R112, R322). -/
def execRbkey (f : SR) (s : State) : Out :=
  let a := s.srcX (opA .x f)
  let b := s.srcX (opB .x f)
  s.anchored [opA .x f, opB .x f] [] fun t =>
    t.modCur fun k => { k with rngKey := a.setWidth 32, rngCtr := b.setWidth 32, rbq := [] }

end Sys2Proof.Machine
end

