-- ==== Sys2Proof/Machine/Wake.lean ====
section
/-! DEFINITION. What follows from a change anywhere in the package: parked tasks whose event has come become resumable, and cores switch banks (R56, R60, R158). -/
namespace Sys2Proof.Machine

/-- What a context awaits has come (R56, R152, R153, R156 to R158, R309, R314, R321). -/
def State.awaitOver (s : State) (c b : Nat) (k : Ctx) : Await → Bool
  | .event => k.event
  | .replay => false
  | .handle h => s.handleState k.job h ≠ .pending
  | .barrier key phase => (s.barrier key).phase ≠ phase || anyBad s.bad key 16
  | .barriers key n phases =>
    (List.range n).any fun j =>
      (s.barrier (key + 16 * j)).phase ≠ expectedPhase phases j || anyBad s.bad (key + 16 * j) 16
  | .word key eq v =>
    let m := s.view (overlay s.mem (s.ctx c b).stores) [(key, 8)]
    decide (word (ofLeBytes m) = v) = eq || anyBad s.bad key 8
  | .quiet => match k.since with
    | some w => (s.job k.job).quietSince w
    | none => true
  | .swap => (s.core c).engine.waiting.isNone
  | .release h => s.handleState k.job h ≠ .pending || !(s.handle h).mark
  | .link peer queue n =>
    (s.job k.job).broken.get false (16 * peer + queue) || n ≤ ((s.job k.job).stream.get (0, 0) (16 * peer + queue)).2

/-- A parked context becomes resumable when its event occurs; PARK's event is consumed (R56, R152). -/
def State.wakeOne (s : State) (c b : Nat) : State :=
  let k := s.ctx c b
  match k.status with
  | .parked why =>
    if s.awaitOver c b k why then
      s.setCtx c b { k with status := .resumable, event := if why = .event then false else k.event }
    else s
  | _ => s

/-- A bank can be switched to: resumable and not held (R60, R399). -/
def Ctx.ready (k : Ctx) : Bool := k.status = .resumable && !k.held

/-- The active bank, where it does not run, gives way to the other bank, or runs on (R56, R60). -/
def Core.switchOver (k : Core) : Core :=
  let a := k.bank k.active
  let o := k.bank (1 - k.active)
  if a.status = .running then k
  else if o.ready then { k.setBank (1 - k.active) { o with status := .running } with active := 1 - k.active }
  else if a.ready then k.setBank k.active { a with status := .running }
  else k

/-- One core after a change. -/
def State.settleCore (s : State) (c : Nat) : State :=
  ((s.wakeOne c 0).wakeOne c 1).modCore c Core.switchOver

/-- Every core after a change. -/
def State.settle (s : State) : State := (s.cores.map (·.1)).foldl State.settleCore s

/-- An event of another agent: its effect, and what follows from it. -/
def State.event (s : State) (f : State → State) : Out := .next (f s).settle

end Sys2Proof.Machine
end

