-- ==== Sys2Proof/Machine/CopyEvents.lean ====
section
/-! DEFINITION. Events of the copy engines: start, elements and blocks, frames, faults, completion, flash pages programmed (R253, R254, R278 to R295). -/
namespace Sys2Proof.Machine

/-! Bytes with their marks (R260, R287) -/

/-- Bytes without a mark, and bytes all marked. -/
def Run.clean (bs : List Byte) : Run := ⟨bs, List.replicate bs.length false⟩
def Run.spoilt (bs : List Byte) : Run := ⟨bs, List.replicate bs.length true⟩

/-- A part of a run, and two runs one after the other. -/
def Run.part (r : Run) (off n : Nat) : Run := ⟨(r.data.drop off).take n, (r.marks.drop off).take n⟩
def Run.append (a b : Run) : Run := ⟨a.data ++ b.data, a.marks ++ b.marks⟩

/-- A mark stands in the run. -/
def Run.bad (r : Run) : Bool := r.marks.any id

/-- Bytes written by an agent, with their marks (R287). -/
def State.putRun (s : State) (writer key : Nat) (r : Run) : State :=
  if isReg key then s.ctlStore key r.data
  else if s.deadLdm key then s
  else
    let s1 := s.putBytes writer key r.data
    if r.bad then { s1 with bad := Sparse.splice false s1.bad key r.marks } else s1

/-- A run cut along keys. -/
def Run.along : List (Nat × Nat) → Run → List (Nat × Run)
  | [], _ => []
  | (key, n) :: ps, r => (key, r.part 0 n) :: Run.along ps (r.part n r.data.length)

/-- A run's parts in the aligned 8-byte chunks of memory (R341). -/
def Run.chunks (p : Nat × Run) : List (Nat × Run) :=
  let n := p.2.data.length
  (List.range ((p.1 % 8 + n + 7) / 8)).map fun i =>
    let lo := max p.1 (p.1 / 8 * 8 + 8 * i)
    let hi := min (p.1 + n) (p.1 / 8 * 8 + 8 * i + 8)
    (lo, p.2.part (lo - p.1) (hi - lo))

/-- A chunk of what has yet to land, which one is left open but that chunks that meet land in order, and the rest (R279, R341). -/
def pickChunk (free : Nat) (l : List (Nat × Run)) : List (Nat × Run) × List (Nat × Run) :=
  let cs := l.flatMap Run.chunks
  match cs[Config.freeNat free % cs.length]? with
  | none => ([], [])
  | some p =>
    let i := cs.findIdx fun q => runsMeet (q.1, q.2.data.length) (p.1, p.2.data.length)
    (cs[i]?.toList, cs.eraseIdx i)

/-- Runs written at their keys, in order. -/
def State.putRuns (s : State) (writer : Nat) (l : List (Nat × Run)) : State := l.foldl (fun s p => s.putRun writer p.1 p.2) s

/-- Runs of bytes written along keys. -/
def State.putAlong (s : State) (writer : Nat) : List (Nat × Nat) → Run → State
  | [], _ => s
  | (key, n) :: ps, r => (s.putRun writer key (r.part 0 n)).putAlong writer ps (r.part n r.data.length)

/-- Bytes and marks read along keys. -/
def State.runAt (s : State) (parts : List (Nat × Nat)) : Run :=
  ⟨s.view s.mem parts, parts.flatMap fun p => Sparse.slice false s.bad p.1 p.2⟩

/-! A copy's accesses (R278, R287) -/

/-- Why a copy stops: cause, address, DETAIL and ACCESS (R287). -/
structure CopyFault where
  cause : Nat
  va : Word
  detail : Word
  access : Nat
  deriving DecidableEq, Repr

/-- The agent of a copy: its core's windows and its job's tables; LDM regions do not serve it (R247). -/
def Copy.agent (q : Copy) (c : Nat) : Agent := ⟨c, q.asid, q.job, q.sup, false⟩

/-- Bytes of the source side. -/
def State.copyRead (s : State) (c : Nat) (q : Copy) (va : Word) (n : Nat) : Except CopyFault Run × State :=
  match s.resolve (q.agent c) {} (pieces va n) with
  | (.error x, s1) => (.error ⟨x.cause, x.va, x.detail, 8⟩, s1)
  | (.ok parts, s1) => (.ok (s1.runAt parts), s1.afterRead parts)

/-- The engine's current copy changed. -/
def State.modCopy (s : State) (c : Nat) (f : Copy → Copy) : State := s.modEngine c fun e => { e with current := e.current.map f }

/-- What the unit of a copy at work has yet to write, where its writes land apart (R341). -/
def State.landing (s : State) (c : Nat) (q : Copy) : Option (List (Nat × Run)) :=
  ((s.core c).engine.current.filter (·.seq = q.seq)).bind (·.land)

/-- A copy's bytes land along keys: at once, or they join what its unit has yet to write. -/
def State.landAlong (s : State) (c : Nat) (q : Copy) (parts : List (Nat × Nat)) (r : Run) : State :=
  match s.landing c q with
  | none => s.putAlong (engineWriter c) parts r
  | some l => s.modCopy c fun q => { q with land := some (l ++ r.along parts) }

/-- Bytes of the destination side. -/
def State.copyWrite (s : State) (c : Nat) (q : Copy) (va : Word) (r : Run) : Except CopyFault Unit × State :=
  match s.resolve (q.agent c) { write := true } (pieces va r.data.length) with
  | (.error x, s1) => (.error ⟨x.cause, x.va, x.detail, 9⟩, s1)
  | (.ok parts, s1) => (.ok (), s1.landAlong c q parts r)

/-- The ASYNC record of a copy (R243, R244, R287): a notice follows one with cause 0x10 (R393). -/
def State.copyRecord (s : State) (c : Nat) (q : Copy) (cause access : Nat) (va detail : Word) : State :=
  s.report { job := q.job, cause := cause, access := access, slot := 7, bank := q.bank, core := c, sup := q.sup, async := true
             asid := q.asid, rop := 0, va := va, pc := q.pc, wid := q.wid, time := s.sidereal, operand := 0, detail := detail
             notice := cause = 0x10 }

/-- Sectors counted on the copy's barrier, and ERR set there (R155, R282, R287); where the writes of its unit land apart, they are
counted once all have landed. -/
def State.countSectors (s : State) (c : Nat) (q : Copy) (n : Nat) (err : Bool) : State :=
  if (s.landing c q).isSome then s.modCopy c fun q => { q with owed := (q.owed.1 + n, q.owed.2 || err) }
  else if q.desc.bar = 0 || (n = 0 && !err) then s
  else
    match s.barrierKey (q.agent c) q.desc.bar with
    | .error _ => s
    | .ok key =>
      let b := s.barrier key
      let b := { b with err := b.err || err }
      s.setBarrier c key (if n = 0 then b else b.expect (-(n : Int)))

/-- A data fault: the copy and its barrier set ERR, with a record; the copy goes on (R287). -/
def State.dataFault (s : State) (c : Nat) (q : Copy) (cause access : Nat) (va : Word) : State :=
  ((s.modCopy c fun q => { q with err := true }).countSectors c q 0 true).copyRecord c q cause access va 0

/-! Sectors (R282) -/

/-- The 32-byte sectors that n bytes at an address touch. -/
def sectorsAt (va : Word) (n : Nat) : Nat := if n = 0 then 0 else (bits va 0 5 + n + 31) / 32

/-- The destination address of element i. -/
def CopyDesc.dstAt (d : CopyDesc) (i : Nat) : Word := strideSum d.dst (d.index i) d.dstr

/-- The source address of element i; `slot` stands for the level-0 index under COMPACT (R279, R284). -/
def CopyDesc.srcAt (d : CopyDesc) (i : Nat) (slot : Option Nat) : Word :=
  let idx := d.index i
  strideSum d.src (match slot with
    | some n => idx.set 0 n
    | none => idx) d.sstr

/-- Sectors of element i. -/
def CopyDesc.sectors (d : CopyDesc) (i : Nat) : Nat := sectorsAt (d.dstAt i) d.outRun

/-- The copy works in whole 16 KiB pages of its stream: HASHCHK, and a flash destination (R283, R285). -/
def CopyDesc.paged (d : CopyDesc) : Bool := d.mode = 4 || d.dstf

/-- Pages or frames of 16 KiB. -/
def CopyDesc.pages (d : CopyDesc) : Nat := d.bytes / 16384

/-- Elements whose last byte lies in a page of the stream. -/
def CopyDesc.endingIn (d : CopyDesc) (page : Nat) : List Nat :=
  (List.range (16384 / max 1 d.run + 2)).map (16384 * page / max 1 d.run + ·) |>.filter fun e =>
    decide (16384 * page < (e + 1) * d.run) && decide ((e + 1) * d.run ≤ 16384 * (page + 1))

/-- The copy has nothing more to write. -/
def Copy.finished (q : Copy) : Bool :=
  let d := q.desc
  match d.mode with
  | 2 => (match q.stream with
    | some st => decide (st.blocks ≤ q.pos)
    | none => false)
  | 3 => d.bytes = 0 || (match q.stream with
    | some st => decide (st.blocks < q.pos)
    | none => false)
  | 5 => decide (d.pages ≤ q.pos)
  | _ => if d.paged then decide (d.pages ≤ q.pos) else decide (d.elements ≤ q.pos)

/-- Sectors that the copy has not counted yet. -/
def Copy.left (q : Copy) : Nat :=
  let d := q.desc
  if q.finished then 0
  else
    match d.mode with
    | 2 => (match q.stream with
      | some st => sectorsAt d.dst st.raw - sectorsAt d.dst (min q.outOff st.raw)
      | none => 0)
    | 3 => 1
    | 5 => 512 * d.pages
    | _ =>
      if d.paged then (((List.range (d.pages - q.pos)).map fun k => ((d.endingIn (q.pos + k)).map d.sectors).sum)).sum
      else ((List.range (d.elements - q.pos)).map fun k => d.sectors (q.pos + k)).sum

/-! Flash sides (R285, R301, R303) -/

/-- A flash page lies in an extent granted to a job (R301, R422). -/
def Job.granted (j : Job) (page : Nat) (write : Bool) : Bool :=
  decide (page < flashPages) && j.fgrant.any fun e =>
    e.2.1.getLsbD 63 && (!write || e.2.1.getLsbD 62) && decide (bits e.2.1 0 29 ≤ page) && decide (page < bits e.2.1 0 29 + bits e.2.2 0 29)

/-- Flash pages that n bytes from a flash logical address touch. -/
def flashTouched (fla : Word) (n : Nat) : List Nat :=
  if n = 0 then []
  else (List.range (n / 16384 + 2)).map (fla.toNat / 16384 + ·) |>.filter fun p => decide (p * 16384 < fla.toNat + n)

/-- The erase block that a page stands in: of its run of 2,048 logical pages, or where it was written since (R301; log entry 54). -/
def FlashStack.blockOf (k : FlashStack) (page : Nat) : Nat :=
  let b := k.moved.get 0 page
  if b = 0 then k.place.get (page / 8 / 2048) (page / 8 / 2048) else b

/-- A page is written out of place: in the block that takes written pages, or in a new one once that is full (R301; log entry 54). -/
def FlashStack.rewrite (k : FlashStack) (page : Nat) : FlashStack :=
  let (b, n, next) := match k.fresh with
    | some (b, n) => if n < 2048 then (b, n, k.nextBlock) else (k.nextBlock, 0, k.nextBlock + 1)
    | none => (k.nextBlock, 0, k.nextBlock + 1)
  { k with moved := k.moved.set 0 page b, fresh := some (b, n + 1), nextBlock := next, lost := k.lost.filter (· ≠ page)
           failed := k.failed.filter (· ≠ page) }

/-- A flash read sets out for its stack; it is held while the page's block is being relocated (R298, R302). -/
def State.readFlash (s : State) (page : Nat) (r : Reader) (demand : Bool) : State :=
  let st := s.flashStack (page % 8)
  { s with
    reads := s.reads ++ [⟨s.nextRead, page, r, demand, st.moving.contains (st.blockOf page), none, none⟩]
    nextRead := s.nextRead + 1 }

/-- A reader is the copy of a core. -/
def Reader.copyOf (c : Nat) : Reader → Bool
  | .copy k _ => k = c
  | .handle _ _ => false

/-- The copy's flash reads that are under way. -/
def State.copyReads (s : State) (c : Nat) : List FlashRead := s.reads.filter fun r => r.reader.copyOf c

/-- Bytes of flash for element e, the pages read as uncorrectable for it marked (R303). -/
def State.flashRun (s : State) (q : Copy) (e : Nat) (fla : Word) (n : Nat) : Run :=
  let lost (i : Nat) : Bool := q.pages.contains (e, (fla.toNat + i) / 16384, true)
  let data := s.bytesAt (flashKey fla.toNat) n
  let marks := Sparse.slice false s.bad (flashKey fla.toNat) n
  ⟨data, marks.mapIdx fun i b => b || lost i⟩

/-- The first destination byte of each uncorrectable flash page of element e (R303). -/
def lostPages (q : Copy) (e : Nat) (fla : Word) (n : Nat) (dst : Word) : List Word :=
  ((flashTouched fla n).filter fun p => q.pages.contains (e, p, true)).map fun p => dst + word (p * 16384 - fla.toNat)

/-! One element's source (R279, R281, R284, R285) -/

/-- The records of an element's source that is uncorrectable (R287, R303). -/
def State.sourceFaults (s : State) (c : Nat) (q : Copy) (e : Nat) (src dst : Word) (r : Run) : State :=
  if q.desc.srcf then (lostPages q e src q.desc.run dst).foldl (fun s va => s.dataFault c q 0x2A 8 va) s
  else if r.bad then s.dataFault c q 0x10 8 src
  else s

/-- The source address of element i, with COMPACT's slot number read (R284). -/
def State.elementSrc (s : State) (c : Nat) (q : Copy) (i : Nat) : Except CopyFault Word × State :=
  if q.desc.mode ≠ 6 then (.ok (q.desc.srcAt i none), s)
  else
    match s.copyRead c q (q.desc.aux + word (4 * i)) 4 with
    | (.error x, s1) => (.error { x with va := q.desc.aux + word (4 * i) }, s1)
    | (.ok r, s1) => (.ok (q.desc.srcAt i (some (ofLeBytes r.data))), s1)

/-- RUN bytes of element i's source, with the records they leave. -/
def State.elementIn (s : State) (c : Nat) (q : Copy) (i : Nat) : Except CopyFault Run × State :=
  if q.desc.mode = 7 then (.ok (.clean (List.replicate q.desc.run 0)), s)
  else
    match s.elementSrc c q i with
    | (.error x, s1) => (.error x, s1)
    | (.ok src, s1) =>
      if q.desc.srcf then
        let r := s1.flashRun q i src q.desc.run
        (.ok r, s1.sourceFaults c q i src (q.desc.dstAt i) r)
      else
        match s1.copyRead c q src q.desc.run with
        | (.error x, s2) => (.error x, s2)
        | (.ok r, s2) => (.ok r, s2.sourceFaults c q i src (q.desc.dstAt i) r)

/-- Elements of n bits in a run of bytes, and back. -/
def cutBits (w n v : Nat) : List Nat := (List.range n).map fun i => v / 2 ^ (w * i) % 2 ^ w
def joinBits (w : Nat) (es : List Nat) : Nat := es.foldr (fun e a => e % 2 ^ w + a * 2 ^ w) 0

/-- One of n bits from bit lo on lies in a marked byte. -/
def bitsMarked (marks : List Bool) (lo n : Nat) : Bool := ((marks.drop (lo / 8)).take ((lo + n + 7) / 8 - lo / 8)).any id

/-- CONVERT of a run (R281): a byte of the result is marked where an element that it holds comes from a marked byte (R287). -/
def CopyDesc.convert (d : CopyDesc) (r : Run) : Run :=
  let f := d.from_
  let g := d.into_
  let es := cutBits f.width (8 * d.run / f.width) (ofLeBytes r.data)
  let out := es.map fun e => Num.toElem g .rne (d.mpar.getLsbD 12) f.intBits.isSome (Num.ofElem f e)
  let fed (i : Nat) : Bool :=
    let lo := 8 * i / g.width
    let n := (8 * i + 7) / g.width + 1 - lo
    bitsMarked r.marks (f.width * lo) (f.width * n)
  ⟨leBytes d.outRun (joinBits g.width out), (List.range d.outRun).map fed⟩

/-- Flash pages that a unit of the copy needs, by element: one element, or the elements with bytes in a page of the stream (R285). -/
def CopyDesc.flashNeeds (d : CopyDesc) (pos : Nat) : List (Nat × Nat) :=
  let of (e : Nat) : List (Nat × Nat) := (flashTouched (d.srcAt e none) d.run).map fun p => (e, p)
  if !d.srcf then []
  else if d.paged then
    let first := 16384 * pos / max 1 d.run
    ((List.range (16384 / max 1 d.run + 2)).map (first + ·) |>.filter fun e => decide (e * d.run < 16384 * (pos + 1)) && decide (16384 * pos < (e + 1) * d.run)).flatMap of
  else of pos

/-! The units of a copy -/

/-- One element of a walk (R279). -/
def State.walkUnit (s : State) (c : Nat) (q : Copy) : Except CopyFault Unit × State :=
  match s.elementIn c q q.pos with
  | (.error x, s1) => (.error x, s1)
  | (.ok r, s1) =>
    let r := if q.desc.mode = 1 then q.desc.convert r else r
    match s1.copyWrite c q (q.desc.dstAt q.pos) r with
    | (.error x, s2) => (.error x, s2)
    | (.ok (), s2) => (.ok (), (s2.modCopy c fun q => { q with pos := q.pos + 1, pages := [] }).countSectors c q (q.desc.sectors q.pos) false)

/-- The pieces of a page of the stream: element, first byte within it, bytes. -/
def CopyDesc.pagePieces (d : CopyDesc) (page : Nat) : List (Nat × Nat × Nat) :=
  let first := 16384 * page / max 1 d.run
  ((List.range (16384 / max 1 d.run + 2)).map fun i =>
    let e := first + i
    let lo := max (e * d.run) (16384 * page)
    let hi := min ((e + 1) * d.run) (16384 * (page + 1))
    (e, lo - e * d.run, hi - lo)).filter fun p => p.2.2 ≠ 0

/-- The pieces read; an element that began in the page before has left its records there (R287). -/
def State.readPieces (s : State) (c : Nat) (q : Copy) : List (Nat × Nat × Nat) → Except CopyFault (List Run) × State
  | [] => (.ok [], s)
  | (e, off, n) :: r =>
    match s.elementIn c q e with
    | (.error x, s1) => (.error x, s1)
    | (.ok run, s1) =>
      match (if off = 0 then s1 else { s1 with faults := s.faults }).readPieces c q r with
      | (.error x, s2) => (.error x, s2)
      | (.ok rs, s2) => (.ok (run.part off n :: rs), s2)

/-- The pieces written. -/
def State.writePieces (s : State) (c : Nat) (q : Copy) : List ((Nat × Nat × Nat) × Run) → Except CopyFault Unit × State
  | [] => (.ok (), s)
  | ((e, off, _), run) :: r =>
    match s.copyWrite c q (q.desc.dstAt e + word off) run with
    | (.error x, s1) => (.error x, s1)
    | (.ok (), s1) => s1.writePieces c q r

/-- Sectors of a page's elements. -/
def CopyDesc.pageSectors (d : CopyDesc) (page : Nat) : Nat := ((d.endingIn page).map d.sectors).sum

/-- A page done: its sectors are counted; what was read for an element that goes on in the next page stays (R282, R283, R285). -/
def State.pageDone (s : State) (c : Nat) (q : Copy) : State :=
  (s.modCopy c fun q =>
    { q with pos := q.pos + 1
             pages := q.pages.filter fun e => decide (16384 * (q.pos + 1) < (e.1 + 1) * q.desc.run) }).countSectors c q (q.desc.pageSectors q.pos) false

/-- One 16 KiB page of HASHCHK, or of a flash destination (R283, R285). -/
def State.pageUnit (s : State) (c : Nat) (q : Copy) : Except CopyFault Unit × State :=
  let d := q.desc
  let ps := d.pagePieces q.pos
  match s.readPieces c q ps with
  | (.error x, s1) => (.error x, s1)
  | (.ok rs, s1) =>
    let page := rs.foldl Run.append (.clean [])
    if d.dstf then
      let fp := d.dst.toNat / 16384 + q.pos
      if !(s1.job q.job).granted fp true then (.error ⟨0x2F, d.dst + word (16384 * q.pos), 0, 9⟩, s1)
      else (.ok (), s1.modCopy c fun q => { q with program := some (fp, page.data, page.marks) })
    else
      match s1.copyRead c q (d.aux + word (32 * q.pos)) 32 with
      | (.error x, s2) => (.error x, s2)
      | (.ok tag, s2) =>
        if sha256 page.data = tag.data then
          match s2.writePieces c q (ps.zip rs) with
          | (.error x, s3) => (.error x, s3)
          | (.ok (), s3) => (.ok (), s3.pageDone c q)
        else
          let p := ps.headD (0, 0, 0)
          (.ok (), (s2.dataFault c q 0x27 9 (d.dstAt p.1 + word p.2.1)).pageDone c q)

/-! Packed streams (R253, R254, R291 to R295) -/

/-- Bytes of a stream's header. -/
def kpsHeader : Nat := 144

/-- The code lengths in a header (R291). -/
def codeLens (hdr : List Byte) : List Nat :=
  (hdr.drop 16).take 128 |>.flatMap fun b => [b.toNat % 16, b.toNat / 16]

/-- A table that damages no block: no invalid length, and the sum of 2^−length at most 1 (R293). -/
def tableOk (lens : List Nat) : Bool :=
  lens.all (· ≤ 12) && decide (((lens.filter (· ≠ 0)).map fun l => 2 ^ (12 - l)).sum ≤ 4096)

/-- The canonical codes: length, code and symbol, in order (R292). -/
def codesOf (lens : List Nat) : List (Nat × Nat × Nat) :=
  let syms := (List.range 12).flatMap fun l => ((List.range 256).filter fun y => lens.getD y 0 = l + 1).map fun y => (l + 1, y)
  (syms.foldl (fun (st : Nat × Nat × List (Nat × Nat × Nat)) e =>
    let code := st.2.1 * 2 ^ (e.1 - st.1)
    (e.1, code + 1, (e.1, code, e.2) :: st.2.2)) (0, 0, [])).2.2.reverse

/-- Bits of bytes, from bit 7 of each downward (R292). -/
def bitsOf (bs : List Byte) : List Bool := bs.flatMap fun b => (List.range 8).map fun i => b.getLsbD (7 - i)

/-- The number that bits stand for, most significant first. -/
def ofBits (l : List Bool) : Nat := l.foldl (fun n b => 2 * n + bit b) 0

/-- The symbol at the front of some bits, and its length. -/
def nextSymbol (codes : List (Nat × Nat × Nat)) (l : List Bool) : Option (Nat × Nat) :=
  (List.range 12).findSome? fun i =>
    if l.length ≤ i then none
    else
      let v := ofBits (l.take (i + 1))
      (codes.find? fun c => c.1 = i + 1 && c.2.1 = v).map fun c => (c.2.2, i + 1)

/-- n symbols and the bits left over. -/
def decodeSymbols (codes : List (Nat × Nat × Nat)) : Nat → List Bool → Option (List Byte × List Bool)
  | 0, l => some ([], l)
  | n + 1, l =>
    match nextSymbol codes l with
    | none => none
    | some (y, k) => (decodeSymbols codes n (l.drop k)).map fun r => (BitVec.ofNat 8 y :: r.1, r.2)

/-- A block's header (R292). -/
structure BlockHead where
  comp : Nat
  raw : Nat
  isRaw : Bool
  rest : Nat
  deriving DecidableEq, Repr

/-- A block's header from its 8 bytes, and its 8 bytes. -/
def BlockHead.ofBytes (bs : List Byte) : BlockHead :=
  let w := word (ofLeBytes bs)
  ⟨bits w 0 24, bits w 24 24, w.getLsbD 48, bits w 49 15⟩
def BlockHead.bytes (h : BlockHead) : List Byte := leBytes 8 (h.comp + 2 ^ 24 * h.raw + 2 ^ 48 * bit h.isRaw)

/-- How many symbols the bits hold in full. -/
def wholeSymbols (codes : List (Nat × Nat × Nat)) : Nat → List Bool → Nat
  | 0, _ => 0
  | n + 1, l =>
    match nextSymbol codes l with
    | none => 0
    | some (_, k) => wholeSymbols codes n (l.drop k) + 1

/-- Marks of n bytes of which those from byte k on are marked. -/
def marksFrom (k n : Nat) : List Bool := (List.range n).map fun i => decide (k ≤ i)

/-- The raw bytes that a payload's marked bytes feed: the same bytes of a RAW block; in a coded one those of the first code with a
bit in a marked byte and every byte after it, whose code begins where that one ends (R287, R292; log entry 46). -/
def decodedMarks (lens : List Nat) (h : BlockHead) (payload : Run) : List Bool :=
  if h.isRaw then payload.marks
  else if !payload.bad then List.replicate h.raw false
  else marksFrom (wholeSymbols (codesOf lens) h.raw (bitsOf (payload.data.take (payload.marks.idxOf true)))) h.raw

/-- A block's raw bytes; none for a damaged block (R293). -/
def blockBytes (lens : List Nat) (h : BlockHead) (payload : List Byte) : Option (List Byte) :=
  if h.raw = 0 || 65536 < h.raw || h.rest ≠ 0 || !tableOk lens then none
  else if h.isRaw then (if h.comp = h.raw then some payload else none)
  else if lens.all (· = 0) then none
  else
    match decodeSymbols (codesOf lens) h.raw (bitsOf payload) with
    | some (bs, l) => if decide (l.length < 8) && l.all (!·) then some bs else none
    | none => none

/-- The offset of the next block in a stream (R291). -/
def next8 (n : Nat) : Nat := (n + 7) / 8 * 8

/-- The leaf of a page is one of a packed region (R236, R253). -/
def State.packedLeaf (s : State) (job : Nat) (va : Word) : Bool :=
  canonical va && (bits va 48 16 < 0xFD || 0xFF < bits va 48 16) && (match s.walk job (bits va 14 42) with
    | .ok l => pteZ l.entry
    | .error _ => false)

/-- The logical address of a packed block's first byte; every page that its n raw bytes stand in is translated and checked, and
must be one of a packed region (R242, R253, R254; log entry 46). -/
def State.packedPlace (s : State) (c : Nat) (q : Copy) (write : Bool) (va : Word) (n : Nat) : Except CopyFault Nat × State :=
  let access := if write then 9 else 8
  match s.resolve (q.agent c) { write := write, packed := true } (pieces va n) with
  | (.error x, s1) => (.error ⟨x.cause, x.va, x.detail, access⟩, s1)
  | (.ok parts, s1) =>
    match (pieces va n).find? fun p => !s1.packedLeaf q.job p.1 with
    | some p => (.error ⟨9, p.1, 0, access⟩, s1)
    | none => (.ok ((parts.map (·.1)).headD 0), s1)

/-- Raw bytes of a stream's block: 65,536, but for the last one (R291). -/
def KpsStream.blockLen (st : KpsStream) (i : Nat) : Nat := min 65536 (st.raw - 65536 * i)

/-- The chunk-table entry of a logical block, by logical address (R253). -/
def State.chunkEntry (s : State) (la : Nat) : Nat :=
  bits (s.hbmStack (la / 2 ^ 36)).ztbase 7 45 * 128 + 128 * (la % 2 ^ 36 / 65536)

/-- Chunks that a payload takes. -/
def chunksFor (n : Nat) : Nat := (n + 4095) / 4096

/-- Where the first n bytes of an entry's chunks stand. -/
def State.chunkParts (s : State) (la entry n : Nat) : List (Nat × Nat) :=
  (List.range (chunksFor n)).map fun i =>
    (la / 2 ^ 36 * 2 ^ 36 + 4096 * s.numAt (entry + 8 + 4 * i) 4, min 4096 (n - 4096 * i))

/-- The address of a stream's header: the stream's own start, or AUX for a packed region (R277, log entry 46). -/
def Copy.headerVA (q : Copy) (packed : Bool) (start : Word) : Word := if packed then q.desc.aux else start

/-- The rest of a DECODE's raw range written poisoned; the copy has ended (R293). -/
def State.decodeLost (s : State) (c : Nat) (q : Copy) (st : KpsStream) (cause access : Nat) (va : Word) : Except CopyFault Unit × State :=
  let n := st.raw - q.outOff
  let s1 := s.dataFault c q cause access va
  match s1.copyWrite c q (q.desc.dst + word q.outOff) (.spoilt (List.replicate n 0)) with
  | (.error x, s2) => (.error x, s2)
  | (.ok (), s2) =>
    (.ok (), (s2.modCopy c fun q => { q with stream := some st, pos := st.blocks, outOff := st.raw }).countSectors c q
      (sectorsAt q.desc.dst st.raw - sectorsAt q.desc.dst (min q.outOff st.raw)) false)

/-- DECODE's first unit: the header (R291, R293). -/
def State.decodeHead (s : State) (c : Nat) (q : Copy) : Except CopyFault Unit × State :=
  let packed := s.packedLeaf q.job q.desc.src
  match s.copyRead c q (q.headerVA packed q.desc.src) kpsHeader with
  | (.error x, s1) => (.error x, s1)
  | (.ok r, s1) =>
    let st : KpsStream := ⟨codeLens r.data, ofLeBytes ((r.data.drop 8).take 8), ofLeBytes ((r.data.drop 4).take 4)⟩
    if r.bad then s1.decodeLost c q st 0x10 8 (q.headerVA packed q.desc.src)
    else if r.data.take 4 ≠ [0x4B, 0x50, 0x53, 0x01] then s1.decodeLost c q st 0x28 9 q.desc.dst
    else (.ok (), s1.modCopy c fun q => { q with stream := some st, inOff := kpsHeader })

/-- A block's header and payload, from a stream in memory or through the chunk table; none where the header itself is marked
uncorrectable: then the next block cannot be located (R293, log entry 46). -/
def State.blockIn (s : State) (c : Nat) (q : Copy) (st : KpsStream) : Except CopyFault (Option (BlockHead × Run)) × State :=
  if s.packedLeaf q.job q.desc.src then
    match s.packedPlace c q false (q.desc.src + word (65536 * q.pos)) (max 1 (st.blockLen q.pos)) with
    | (.error x, s1) => (.error x, s1)
    | (.ok la, s1) =>
      let e := s1.chunkEntry la
      let h := BlockHead.ofBytes (s1.bytesAt e 8)
      (.ok (if anyBad s1.bad e 128 then none else some (h, s1.runAt (s1.chunkParts la e (min 65536 h.comp)))), s1)
  else
    let at_ := q.desc.src + word (next8 q.inOff)
    match s.copyRead c q at_ 8 with
    | (.error x, s1) => (.error x, s1)
    | (.ok hr, s1) =>
      let h := BlockHead.ofBytes hr.data
      if hr.bad then (.ok none, s1)
      else
        match s1.copyRead c q (at_ + 8) h.comp with
        | (.error x, s2) => (.error x, s2)
        | (.ok r, s2) => (.ok (some (h, r)), s2)

/-- The first source byte of a DECODE's next block (R287, R293). -/
def State.blockVA (s : State) (q : Copy) : Word :=
  q.desc.src + word (if s.packedLeaf q.job q.desc.src then 65536 * q.pos else next8 q.inOff)

/-- DECODE's next block (R293). -/
def State.decodeBlock (s : State) (c : Nat) (q : Copy) (st : KpsStream) : Except CopyFault Unit × State :=
  match s.blockIn c q st with
  | (.error x, s1) => (.error x, s1)
  | (.ok none, s1) => s1.decodeLost c q st 0x10 8 (s1.blockVA q)
  | (.ok (some (h, r)), s1) =>
    let va := q.desc.dst + word q.outOff
    let out := blockBytes st.table h r.data
    let s2 :=
      if r.bad then s1.dataFault c q 0x10 8 (s1.blockVA q)
      else if out.isNone then s1.dataFault c q 0x28 9 va
      else s1
    let run : Run := match out with
      | some bs => ⟨bs, decodedMarks st.table h r⟩
      | none => .spoilt (List.replicate (min h.raw (st.raw - q.outOff)) 0)
    match s2.copyWrite c q va run with
    | (.error x, s3) => (.error x, s3)
    | (.ok (), s3) =>
      let out' := q.outOff + h.raw
      let upTo := if q.pos + 1 = st.blocks then st.raw else min out' st.raw
      (.ok (), (s3.modCopy c fun q => { q with pos := q.pos + 1, inOff := next8 q.inOff + 8 + h.comp, outOff := out' }).countSectors c q
        (sectorsAt q.desc.dst upTo - sectorsAt q.desc.dst (min q.outOff st.raw)) false)

/-- How often each byte value occurs. -/
def histogram (bs : List Byte) : List Nat := (List.range 256).map fun y => (bs.filter fun b => b.toNat = y).length

/-- Code lengths that code every symbol of a histogram. -/
def codesAll (lens counts : List Nat) : Bool :=
  lens.length = 256 && lens.all (· ≤ 12) && decide (((lens.filter (· ≠ 0)).map fun l => 2 ^ (12 - l)).sum ≤ 4096) &&
  (List.range 256).all fun y => counts.getD y 0 = 0 || lens.getD y 0 ≠ 0

/-- The table that the histogram pass builds: which one is left open (R295, log entry 40). -/
def buildTable (counts : List Nat) : List Nat :=
  let t := Config.codeLengths counts
  if codesAll t counts then t else List.replicate 256 8

/-- A header's 144 bytes (R291). -/
def KpsStream.header (st : KpsStream) : List Byte :=
  [0x4B, 0x50, 0x53, 0x01] ++ leBytes 4 st.blocks ++ leBytes 8 st.raw ++
    (List.range 128).map fun k => BitVec.ofNat 8 (st.table.getD (2 * k) 0 + 16 * st.table.getD (2 * k + 1) 0)

/-- Bytes of bits, the last padded with zeros (R292, R293). -/
def bytesOfBits : Nat → List Bool → List Byte
  | 0, _ => []
  | n + 1, l => if l.isEmpty then [] else BitVec.ofNat 8 (ofBits (l.take 8 ++ List.replicate (8 - (l.take 8).length) false)) :: bytesOfBits n (l.drop 8)

/-- A block coded, or RAW where the code exceeds 15/16 of it (R292, R295). -/
def encodeBlock (lens : List Nat) (raw : List Byte) : BlockHead × List Byte :=
  let codes := codesOf lens
  let l := raw.flatMap fun b =>
    match codes.find? fun c => c.2.2 = b.toNat with
    | some (n, v, _) => (List.range n).map fun i => v.testBit (n - 1 - i)
    | none => []
  let out := bytesOfBits (l.length / 8 + 1) l
  if 15 * raw.length < 16 * out.length then (⟨raw.length, raw.length, true, 0⟩, raw) else (⟨out.length, raw.length, false, 0⟩, out)

/-- The payload bytes that a block's marked bytes feed: the same bytes of a RAW block; in a coded one those with the code of the
first marked byte and all after it (R287, R292; log entry 46). -/
def encodedMarks (lens : List Nat) (h : BlockHead) (raw : Run) : List Bool :=
  if h.isRaw then raw.marks
  else if !raw.bad then List.replicate h.comp false
  else marksFrom (((raw.data.take (raw.marks.idxOf true)).map fun b => lens.getD b.toNat 0).sum / 8) h.comp

/-- ENCODE's first unit: the histogram pass and the header (R295). -/
def State.encodeHead (s : State) (c : Nat) (q : Copy) : Except CopyFault Unit × State :=
  let d := q.desc
  match s.copyRead c q d.src d.bytes with
  | (.error x, s1) => (.error x, s1)
  | (.ok r, s1) =>
    let st : KpsStream := ⟨buildTable (histogram r.data), d.bytes, (d.bytes + 65535) / 65536⟩
    match s1.copyWrite c q (q.headerVA (d.mpar.getLsbD 0) d.dst) (.clean st.header) with
    | (.error x, s2) => (.error x, s2)
    | (.ok (), s2) => (.ok (), s2.modCopy c fun q => { q with stream := some st, outOff := kpsHeader })

/-- A block written to its logical block of a packed region; with too few free chunks nothing is
written (R253, R254). -/
def State.packBlock (s : State) (c : Nat) (q : Copy) (h : BlockHead) (payload : Run) : Except CopyFault Unit × State :=
  let va := q.desc.dst + word (65536 * q.pos)
  match s.packedPlace c q true va h.raw with
  | (.error x, s1) => (.error x, s1)
  | (.ok la, s1) =>
    let stack := la / 2 ^ 36
    let e := s1.chunkEntry la
    let n := chunksFor payload.data.length
    let free := (s1.hbmStack stack).free
    if free.length < n then (.ok (), s1.dataFault c q 0x29 9 va)
    else
      let old := (List.range (min 16 (chunksFor (BlockHead.ofBytes (s1.bytesAt e 8)).comp))).map fun i => s1.numAt (e + 8 + 4 * i) 4
      let mine := free.take n
      let entry := h.bytes ++ (mine.flatMap (leBytes 4)) ++ List.replicate (120 - 4 * n) 0
      let s2 := (s1.putBytes (engineWriter c) e entry).modHbm stack fun k => { k with free := free.drop n ++ old }
      (.ok (), s2.landAlong c q (s2.chunkParts la e payload.data.length) payload)

/-- ENCODE's next block (R295). -/
def State.encodeBlockUnit (s : State) (c : Nat) (q : Copy) (st : KpsStream) : Except CopyFault Unit × State :=
  let d := q.desc
  let src := d.src + word (65536 * q.pos)
  match s.copyRead c q src (st.blockLen q.pos) with
  | (.error x, s1) => (.error x, s1)
  | (.ok r, s1) =>
    let (h, out) := encodeBlock st.table r.data
    let payload : Run := ⟨out, encodedMarks st.table h r⟩
    let s2 := if r.bad then s1.dataFault c q 0x10 8 src else s1
    let at_ := next8 q.outOff
    let (res, s3) :=
      if d.mpar.getLsbD 0 then s2.packBlock c q h payload
      else s2.copyWrite c q (d.dst + word at_) ((Run.clean h.bytes).append payload)
    match res with
    | .error x => (.error x, s3)
    | .ok () => (.ok (), s3.modCopy c fun q => { q with pos := q.pos + 1, outOff := at_ + 8 + out.length })

/-- ENCODE's end: the total length at AUX, and the copy's one sector (R281, R295). -/
def State.encodeEnd (s : State) (c : Nat) (q : Copy) : Except CopyFault Unit × State :=
  let done (s : State) : Except CopyFault Unit × State :=
    (.ok (), (s.modCopy c fun q => { q with pos := q.pos + 1 }).countSectors c q 1 false)
  if q.desc.mpar.getLsbD 0 then done s
  else
    match s.copyWrite c q q.desc.aux (.clean (leBytes 8 q.outOff)) with
    | (.error x, s1) => (.error x, s1)
    | (.ok (), s1) => done s1

/-- The next unit of a copy: element, page or block; or the flash reads that it needs first. -/
def State.copyUnit (s : State) (c : Nat) (q : Copy) : Except CopyFault Unit × State :=
  match q.desc.mode, q.stream with
  | 2, none => s.decodeHead c q
  | 2, some st => s.decodeBlock c q st
  | 3, none => s.encodeHead c q
  | 3, some st => if q.pos < st.blocks then s.encodeBlockUnit c q st else s.encodeEnd c q
  | _, _ =>
    let needs := (q.desc.flashNeeds q.pos).filter fun n => !(q.pages.any fun e => e.1 = n.1 && e.2.1 = n.2)
    if !needs.isEmpty then
      if !(s.copyReads c).isEmpty then (.ok (), s)
      else
        match needs.find? fun n => !(s.job q.job).granted n.2 false with
        | some n => (.error ⟨0x2F, word (16384 * n.2), 0, 8⟩, s)
        | none => (.ok (), needs.foldl (fun s n => s.readFlash n.2 (.copy c n.1) true) s)
    else if q.desc.paged then s.pageUnit c q
    else s.walkUnit c q

/-! Events -/

/-- The copy at work on an engine: started, not stopped, with something left, no page being programmed, no write under way. -/
def State.working (s : State) (c : Nat) : Option Copy :=
  (s.core c).engine.current.filter fun q => q.started && !q.stopped && !q.finished && q.program.isNone && q.land.isNone

/-- What the unit in progress has yet to write lands, of a stopped copy too: all of it, or one chunk; once all has landed its sectors
are counted, but for a copy that a kill stopped (R311, R341, R407). -/
def State.landCopy (s : State) (c : Nat) (all : Bool) : State :=
  match (s.core c).engine.current with
  | none => s
  | some q =>
    match q.land with
    | none => s
    | some l =>
      let (now, rest) := if all then (l, []) else pickChunk s.free l
      let s1 := (if all then s else s.useFree.2).putRuns (engineWriter c) now
      if !rest.isEmpty then s1.modCopy c fun q => { q with land := some rest }
      else
        let s2 := s1.modCopy c fun q => { q with land := none, owed := (0, false) }
        if q.quiet then s2 else s2.countSectors c q q.owed.1 q.owed.2

/-- A unit of a copy: its writes land with it or, with `apart`, chunk by chunk from now on; an address fault leaves it undone (R279,
R287, R341). -/
def State.runUnit (s : State) (c : Nat) (apart : Bool) (unit : State → Except CopyFault Unit × State) : State :=
  match unit (if apart then s.modCopy c fun q => { q with land := some [] } else s) with
  | (.ok (), s1) => if apart then s1.landCopy c false else s1
  | (.error _, _) => s

/-- COPY_START: the waiting copy swaps in (R278). -/
def execCopyStart (s : State) : Out :=
  s.event fun s =>
    s.modEngine s.arg.core fun e =>
      match e.current, e.waiting with
      | none, some q => { e with current := some { q with started := true }, waiting := none }
      | _, _ => e

/-- COPY_ELEMENT_WRITE (R279): the next unit, or more of one whose writes land apart; with the flag one chunk lands (R341). -/
def execCopyElementWrite (s : State) : Out :=
  s.event fun s =>
    let c := s.arg.core
    match s.working c with
    | some q => if q.desc.mode = 5 then s else s.runUnit c s.arg.flag fun s => s.copyUnit c q
    | none => s.landCopy c !s.arg.flag

/-- A page of a DRAMLOC copy: HOME 10 and the windows give home violation (R289). -/
def State.framePlace (s : State) (c : Nat) (q : Copy) (write : Bool) (va : Word) : Except CopyFault Nat × State :=
  let access := if write then 9 else 8
  let home := match s.walk q.job (bits va 14 42) with
    | .ok l => pteHome l.entry
    | .error _ => 0
  match s.place (q.agent c) { write := write } va 16384 with
  | (.error x, s1) => (.error ⟨x.cause, x.va, x.detail, access⟩, s1)
  | (.ok key, s1) =>
    if 0xFD ≤ bits va 48 16 && bits va 48 16 ≤ 0xFF then (.error ⟨8, va, 0, access⟩, s)
    else if home = 2 then (.error ⟨8, va, 0, access⟩, s)
    else (.ok key, s1)

/-- A frame moved or zeroed, with its marks (R287, R289). -/
def State.moveFrame (s : State) (c : Nat) (q : Copy) (src : Option Nat) (dst : Nat) : State :=
  match src with
  | none => s.landAlong c q [(dst, 16384)] (.clean (List.replicate 16384 0))
  | some k =>
    let r := s.runAt [(k, 16384)]
    let s1 := s.landAlong c q [(dst, 16384)] r
    if r.bad then s1.dataFault c q 0x10 8 (q.desc.src + word (16384 * q.pos)) else s1

/-- The next frame of a DRAMLOC copy; the sectors of all frames are counted once the last one has been moved and invalidated (R289,
R290). -/
def State.frameUnit (s : State) (c : Nat) (q : Copy) : Except CopyFault Unit × State :=
  let off := word (16384 * q.pos)
  let last := if q.pos + 1 = q.desc.pages then 512 * q.desc.pages else 0
  let done (s : State) (src : Option Nat) (dst : Nat) : Except CopyFault Unit × State :=
    (.ok (), ((s.moveFrame c q src dst).modCopy c fun q => { q with pos := q.pos + 1 }).countSectors c q last false)
  let source : Except CopyFault (Option Nat) × State := if q.desc.mpar.getLsbD 0 then (.ok none, s) else
    match s.framePlace c q false (q.desc.src + off) with
    | (.error x, s1) => (.error x, s1)
    | (.ok k, s1) => (.ok (some k), s1)
  match source with
  | (.error x, s1) => (.error x, s1)
  | (.ok src, s1) =>
    match s1.framePlace c q true (q.desc.dst + off) with
    | (.error x, s2) => (.error x, s2)
    | (.ok dst, s2) => done s2 src dst

/-- DRAMLOC_FRAME (R289); with the flag its writes land chunk by chunk (R341). -/
def execDramlocFrame (s : State) : Out :=
  s.event fun s =>
    match s.working s.arg.core with
    | some q => if q.desc.mode ≠ 5 then s else s.runUnit s.arg.core s.arg.flag fun s => s.frameUnit s.arg.core q
    | none => s

/-- A copy that has nothing left to write or count. -/
def Copy.exhausted (q : Copy) : Copy :=
  match q.desc.mode with
  | 2 => { q with stream := some ⟨[], 0, 0⟩, pos := 1 }
  | 3 => { q with stream := some ⟨[], 0, 0⟩, pos := 1 }
  | 5 => { q with pos := q.desc.pages }
  | _ => { q with pos := if q.desc.paged then q.desc.pages else q.desc.elements }

/-- The copy stopped by an address fault: its record, its unwritten sectors counted, ERR (R287). -/
def State.stopCopy (s : State) (c : Nat) (q : Copy) (x : CopyFault) : State :=
  ((s.copyRecord c q x.cause x.access x.va x.detail).countSectors c q (((s.core c).engine.current.getD q).left) true).modCopy c fun q =>
    { q.exhausted with err := true, stopped := true, pages := [] }

/-- COPY_FAULT: the next element of the current copy meets an address fault (R287). -/
def execCopyFault (s : State) : Out :=
  s.event fun s =>
    match s.working s.arg.core with
    | some q =>
      match (if q.desc.mode = 5 then s.frameUnit s.arg.core q else s.copyUnit s.arg.core q) with
      | (.error x, s1) => s1.stopCopy s.arg.core q x
      | (.ok (), _) => s
    | none => s

/-- The flag written; where it cannot be, a record, ERR in the barrier, and the copy reports ERR (R286, R287). -/
def State.writeFlag (s : State) (c : Nat) (q : Copy) : Bool × State :=
  if q.desc.flaga = 0 then (q.err, s)
  else
    match s.resolve (q.agent c) { write := true } (pieces q.desc.flaga 8) with
    | (.ok parts, s1) => (q.err, s1.writeParts (engineWriter c) (cutData parts (leBytes 8 (if q.err then -1 else q.desc.flagv).toNat)))
    | (.error x, s1) => (true, (s1.copyRecord c q x.cause 9 q.desc.flaga x.detail).countSectors c q 0 true)

/-- The current copy leaves its engine; flash reads still under way for it are dropped. -/
def State.dropCopy (s : State) (c : Nat) : State :=
  { s with reads := s.reads.filter fun r => !r.reader.copyOf c }.modEngine c fun e => { e with current := none }

/-- Sectors that a stopped copy has not counted yet; a DECODE that has not read its stream's header reads it for the raw length,
and counts none where it cannot (R293, R311; log entry 129). -/
def State.unwritten (s : State) (c : Nat) (q : Copy) : Nat × State :=
  if q.desc.mode = 2 && q.stream.isNone then
    match s.copyRead c q (q.headerVA (s.packedLeaf q.job q.desc.src) q.desc.src) kpsHeader with
    | (.ok r, s1) => (sectorsAt q.desc.dst (ofLeBytes ((r.data.drop 8).take 8)), s1)
    | (.error _, s1) => (0, s1)
  else (q.left, s)

/-- A copy completes: sectors left by a cancel are counted, the flag is written, and CSTAT reports the copy
(R286, R310, R311); a copy that a kill stopped writes neither (R407). -/
def State.completeCopy (s : State) (c : Nat) (q : Copy) : State :=
  if q.quiet then s
  else
    let (n, s0) := s.unwritten c q
    let s1 := s0.countSectors c q n q.err
    let (err, s2) := s1.writeFlag c q
    s2.modEngine c fun e => { e with done := e.done.set (0, false) q.job (q.seq, err) }

/-- COPY_COMPLETE: the current copy, or a waiting one that a cancel or a kill stopped (R286, R311, R407). -/
def execCopyComplete (s : State) : Out :=
  s.event fun s =>
    let c := s.arg.core
    if s.arg.m = 0 then
      match (s.core c).engine.current with
      | none => s
      | some q =>
        if q.program.isSome || q.land.isSome || !(q.stopped || (q.started && q.finished)) then s else (s.completeCopy c q).dropCopy c
    else
      match (s.core c).engine.waiting with
      | none => s
      | some q => if q.stopped then (s.completeCopy c q).modEngine c fun e => { e with waiting := none } else s

/-- FLASH_PROGRAM_COMPLETE: the page is committed whole (R285). -/
def execFlashProgramComplete (s : State) : Out :=
  s.event fun s =>
    let c := s.arg.core
    match (s.core c).engine.current with
    | none => s
    | some q =>
      match q.program with
      | none => s
      | some (page, data, marks) =>
        let s1 := (s.putRun (engineWriter c) (flashKey (16384 * page)) ⟨data, marks⟩).modFlash (page % 8) (·.rewrite page)
        let s2 := s1.modCopy c fun q => { q with program := none }
        if q.quiet then s2.modCopy c fun q => { q with pos := q.pos + 1 } else s2.pageDone c q

end Sys2Proof.Machine
end

