-- ==== Sys2Proof/Machine/DispatchEvents.lean ====
section
/-! DEFINITION. Events of the dispatcher: placement, gating, aging, stage allocation, blocked posts and probes, expansion, host posts, launches and their grids (R25 to R32, R44 to R64). -/
namespace Sys2Proof.Machine

/-! Leaving a queue, and the probe reserve (R64) -/

/-- The reserves of stages that hold fewer than QBOUND records are full again (R64). -/
def State.refillReserves (s : State) : State :=
  { s with disp := { s.disp with spent := s.disp.spent.filter fun q =>
      !(decide (s.stageHolds q.1 q.2.1 q.2.2 < s.qbound q.1 q.2.1 q.2.2)) } }

/-- A record leaves the dispatcher. -/
def State.dropRec (s : State) (id : Nat) : State :=
  { s with disp := { s.disp with recs := s.disp.recs.filter fun r => r.id ≠ id } }.refillReserves

/-! Selection (R57) -/

/-- The stage that a record belongs to, as an allocation names it. -/
def State.stageOf (s : State) (r : Rec) : Option (Nat × Nat × Nat) :=
  (s.launchFor r.job (ctrlPipe r.ctrl)).map fun l => (l.id, ctrlPipe r.ctrl, ctrlStage r.ctrl)

/-- Cycles since a record entered its queue. -/
def State.recAge (s : State) (r : Rec) : Nat := (s.sidereal - r.time).toNat

/-- The tier of a record for a core (R57); none for a record that the core may not take. -/
def State.tierOf (s : State) (c : Nat) (r : Rec) : Option Nat :=
  let die := dieOf c
  let near := if r.queue < 1024 then r.home = clusterOf c else r.home / 8 = die
  if near then some (if (s.core c).stage.isSome && (s.core c).stage = s.stageOf r then 1 else 2)
  else if 1024 ≤ r.queue then none
  else if r.home / 8 = die then if 8192 ≤ s.recAge r then some 3 else none
  else if ctrlRoam r.ctrl && 16384 ≤ s.recAge r then some 4 else none

/-- A bank is occupied by a task of a stage (R57). -/
def Ctx.ofStage (k : Ctx) (job pipe stage : Nat) : Bool :=
  k.occupied && k.kind = .task && k.job = job && ctrlPipe k.ctrl = pipe && ctrlStage k.ctrl = stage

/-- Banks that a stage occupies (R57). -/
def State.stageBanks (s : State) (job pipe stage : Nat) : Nat :=
  (s.cores.map fun e => bit (e.2.b0.ofStage job pipe stage) + bit (e.2.b1.ofStage job pipe stage)).sum

/-- A record is QUEUED, and its stage occupies fewer banks than MAXC (R57). -/
def State.eligible (s : State) (r : Rec) : Bool :=
  r.gated.isNone && decide (s.stageBanks r.job (ctrlPipe r.ctrl) (ctrlStage r.ctrl) < r.maxc)

/-- What a core selects: a handler of its own queue, by position, or a record, by number. -/
inductive Choice where
  | handler (i : Nat)
  | record (id : Nat)
  deriving DecidableEq, Repr

/-- The order of selection as one number, least first: priority, tier (0 for a handler), entry time, queue (R57, R317). -/
def pickKey (prio tier : Nat) (time : Word) (queue : Nat) : Nat :=
  (((3 - prio) * 8 + tier) * 2 ^ 64 + time.toNat) * 2 ^ 16 + queue

/-- What a core may select, with its key and tier (R57, R317, R393). -/
def State.choices (s : State) (c : Nat) : List (Nat × Nat × Choice) :=
  ((s.core c).queue.mapIdx fun i a => (pickKey a.prio 0 a.time 0, 0, Choice.handler i)) ++
  (s.disp.recs.filter s.eligible).filterMap fun r =>
    (s.tierOf c r).map fun t => (pickKey r.prio t r.time r.queue, t, Choice.record r.id)

/-- The first of the least keys: equal ones go in the order of the list (log entry 135). -/
def leastKey : List (Nat × Nat × Choice) → Option (Nat × Nat × Choice)
  | [] => none
  | e :: r =>
    match leastKey r with
    | some b => if b.1 < e.1 then some b else some e
    | none => some e

/-- What a core selects. -/
def State.pick (s : State) (c : Nat) : Option (Nat × Nat × Choice) := leastKey (s.choices c)

/-! Loading a bank (R59, R317, R363, R393) -/

/-- A counter of DISPCNT, which saturates (R65). -/
def dispInc (n : Nat) : Nat := min (n + 1) 0xFFFF

/-- The bank as a task starts in it (R59). -/
def Rec.load (r : Rec) : Ctx :=
  { Ctx.idle with
    status := .running, pc := r.entry, wid := r.wid, argp := r.arg, trec := r.trec, prio := r.prio, job := r.job, asid := r.asid
    widths := r.widths, joinp := r.joinp, ctrl := r.ctrl, counted := r.counted, launch := r.launch }

/-- The bank as a task starts in it, with the widths that the launch of its PIPE gives as it is placed (R59, R173). -/
def State.loadRec (s : State) (r : Rec) : Ctx :=
  { r.load with widths := ((s.launchFor r.job (ctrlPipe r.ctrl)).map (·.widths)).getD r.widths }

/-- Words 0 and 1 of a payload, and v0 as it carries it (R317). -/
def payloadWord0 : Payload → Word
  | .words a _ => a
  | .vec _ _ => 0
def payloadWord1 : Payload → Word
  | .words _ b => b
  | .vec _ _ => 0
def payloadVector : Payload → VReg
  | .words _ _ => .zero
  | .vec t bs => ⟨t, BitVec.ofNat 2048 (ofLeBytes (bs.take 256)), BitVec.ofNat 256 (ofLeBytes (bs.drop 256))⟩

/-- A handler enters at a supervisor vector: a service task, and a loss handler without an entry (R363, R388, R393). -/
def Arrived.vectorAt (a : Arrived) : Option Nat :=
  match a.kind with
  | .service _ => some 0xC0
  | .loss => if a.entry = 0 then some 0x100 else none
  | _ => none

/-- The bank as a handler starts in it (R317, R363, R393). -/
def Arrived.load (a : Arrived) (asid : Nat) (tvec : Word) : Ctx :=
  let k : Ctx :=
    { Ctx.idle with
      status := .running, pc := a.entry, wid := a.wid, widths := a.widths, prio := a.prio, job := a.job, asid := asid
      kind := a.kind, counted := a.holder }
  let k := ((((((k.setX 3 (payloadWord0 a.payload)).setX 4 (payloadWord1 a.payload)).setX 5 a.x5).setX 6 a.x6).setX 7 a.x7).setX 8 a.x8).setV 0
    (payloadVector a.payload)
  match a.vectorAt with
  | some off => { k with pc := tvec >>> 12 <<< 12 + word off, mode := .supervisor }
  | none => k

/-- A bank takes a new task, whose fetch sees memory as it stands, and becomes the active one; the core keeps its stage while
it has no idle bank (R49, R57, R60, R62, R92). -/
def State.fill (s : State) (c b : Nat) (k : Ctx) : State :=
  { s with disp := { s.disp with nextCtx := s.disp.nextCtx + 1 } }.modCore c fun o =>
    { o.setBank b { k with token := (o.bank b).token, serial := s.disp.nextCtx, code := s.mem } with active := b, bound := o.stage }

/-- Messages, as against service tasks, in a core's queue (R318). -/
def Core.held (k : Core) : Nat := (k.queue.filter fun a => match a.kind with
  | .service _ => false
  | _ => true).length

/-- The overflow entry for a core that arrived first: its job, and the message (R318). -/
def State.oldestOverflow (s : State) (c : Nat) : Option (Nat × Arrived) :=
  (s.jobs.filterMap fun e => (e.2.overflow.find? fun o => o.1 = c).map fun o => (e.1, o.2)).foldl
    (fun best e => match best with
      | some b => if e.2.time < b.2.time then some e else some b
      | none => some e) none

/-- A message returns from an overflow area to its core's queue as an entry frees (R318). -/
def State.refillQueue (s : State) (c : Nat) : State :=
  if 64 ≤ (s.core c).held then s
  else
    match s.oldestOverflow c with
    | some (j, a) => (s.modJob j fun q => { q with overflow := q.overflow.erase (c, a) }).modCore c fun k => { k with queue := k.queue ++ [a] }
    | none => s

/-- A handler is placed. -/
def State.placeHandler (s : State) (c b i : Nat) : State :=
  match (s.core c).queue[i]? with
  | none => s
  | some a =>
    let s := (s.modCore c fun k => { k with queue := k.queue.eraseIdx i }).refillQueue c
    let s := if a.kind = .handler then { s with pkg := { s.pkg with msgs := s.pkg.msgs + 1 } } else s
    s.fill c b (a.load (s.job a.job).asid (s.core c).tvec)

/-! Expansion (R44, R45) -/

/-- An expansion entry leaves its queue; a counted one is consumed (R40). -/
def State.endExpansion (s : State) (r : Rec) : State :=
  let s := s.dropRec r.id
  match r.counted with
  | some i => s.consume i r.job
  | none => s

/-- The fault record about an expansion entry (R45). -/
def State.expansionFault (s : State) (c : Nat) (r : Rec) (cause : Nat) (va : Word) : State :=
  (s.endExpansion r).report { faultBare s r.job cause 1 va with core := c, wid := r.wid, asid := r.asid }

/-- The count of an entry: known, or read once; none where the entry has ended, as on a count that is marked uncorrectable
(R45; log entry 113). -/
def State.entryCount (s : State) (c : Nat) (r : Rec) : Option Nat × State :=
  match r.total with
  | some n => (some n, s)
  | none =>
    match s.resolve (s.iod r.job) {} (pieces r.countVA 8) with
    | (.error _, s1) => (none, s1.expansionFault c r 0x22 r.countVA)
    | (.ok parts, s1) =>
      let n := ofLeBytes (s1.view s1.mem parts)
      if viewBad s1.bad parts then (none, s1.expansionFault c r 0x22 r.countVA)
      else if overCount r.widths r.wid n then (none, s1.expansionFault c r 0x21 r.trec)
      else (some n, s1)

/-- The task that an expansion entry produces when it is selected; it keeps the entry's home and queue (R44; log entry 111). -/
def State.produce (s : State) (c : Nat) (r : Rec) : Option Rec × State :=
  match s.entryCount c r with
  | (none, s1) => (none, s1)
  | (some n, s1) =>
    if n = 0 then (none, s1.endExpansion r)
    else
      let t : Rec := { r with id := s1.disp.nextRec, wid := r.wid + word r.made, expand := false, total := none, made := 0 }
      let s2 : State := match r.counted with
        | some i => s1.inject i r.job
        | none => s1
      let left : Rec := { r with total := some n, made := r.made + 1 }
      let s3 := { s2 with disp := { s2.disp with
        nextRec := s2.disp.nextRec + 1
        recs := s2.disp.recs.map fun x => if x.id = r.id then left else x } }
      (some (s3.regateOne t), if r.made + 1 = n then s3.endExpansion r else s3)

/-- A produced task is placed, or waits GATED as a record of its own, which counts against QBOUND (R44, R56; log entry 111). -/
def State.placeProduced (s : State) (c b : Nat) (r : Rec) : State :=
  match s.produce c r with
  | (none, s1) => s1
  | (some t, s1) =>
    if t.gated.isSome then { s1 with disp := { s1.disp with recs := s1.disp.recs ++ [t] } } else s1.fill c b (s1.loadRec t)

/-- A selected record is placed (R57, R59). -/
def State.placeRecord (s : State) (c b tier id : Nat) : State :=
  match s.disp.recs.find? fun r => r.id = id with
  | none => s
  | some r =>
    let s := if tier = 3 then s.modJob r.job fun q => { q with stealDie := dispInc q.stealDie } else s
    if r.expand then s.placeProduced c b r else (s.dropRec id).fill c b (s.loadRec r)

/-- What a core selects is placed in a bank; the state is unchanged where there is nothing to select. -/
def State.placeInto (s : State) (c b : Nat) : State :=
  match s.pick c with
  | some (_, _, .handler i) => s.placeHandler c b i
  | some (_, tier, .record id) => s.placeRecord c b tier id
  | none => s

/-- The bank that a core may place a task in: an idle one, beside a bank that neither runs nor waits
to be switched to; none under collimation test (R57, R60, R427). -/
def Core.idleBank (k : Core) : Option Nat :=
  let fits (b : Nat) : Bool :=
    let o := k.bank (1 - b)
    (k.bank b).status = .idle && o.status ≠ .running && !o.ready
  if k.test.isSome then none else if fits 0 then some 0 else if fits 1 then some 1 else none

/-- A core with an idle bank places what it selects. -/
def State.placeOn (s : State) (c : Nat) : State :=
  if 256 ≤ c || s.offline c then s
  else
    match (s.core c).idleBank with
    | some b => s.placeInto c b
    | none => s

/-- PLACEMENT (R57). -/
def execPlacement (s : State) : Out := s.event fun s => s.placeOn s.arg.core

/-- EXPANSION_SELECT: the core's selection is an expansion entry (R44). -/
def execExpansionSelect (s : State) : Out :=
  s.event fun s =>
    match s.pick s.arg.core with
    | some (_, _, .record id) =>
      if id = s.arg.n && s.disp.recs.any (fun r => r.id = id && r.expand) then s.placeOn s.arg.core else s
    | _ => s

/-! Gating and aging (R58, R61) -/

/-- A record changed. -/
def State.modRec (s : State) (id : Nat) (f : Rec → Rec) : State :=
  { s with disp := { s.disp with recs := s.disp.recs.map fun r => if r.id = id then f r else r } }

/-- Cycles that a record may stay GATED: none with PTIMEOUT 0; 1 to 1,023 act as 1,024 (R58, R65). -/
def Job.gateLimit (q : Job) : Option Nat := if q.ptimeout = 0 then none else some (max 1024 q.ptimeout)

/-- A record has been GATED for its job's limit. -/
def State.gateOver (s : State) (r : Rec) : Bool :=
  match r.gated, (s.job r.job).gateLimit with
  | some t, some n => n ≤ (s.sidereal - t).toNat
  | _, _ => false

/-- GATING_TIMEOUT (R58). -/
def execGatingTimeout (s : State) : Out :=
  s.event fun s =>
    match s.disp.recs.find? fun r => r.id = s.arg.n && s.gateOver r with
    | none => s
    | some r =>
      (s.modRec r.id fun r => { r with gated := none, through := true }).modJob r.job fun q =>
        { q with tmoPlace := dispInc q.tmoPlace }

/-- A record's effective priority one step higher, when it has waited for it (R61). -/
def State.age (s : State) (r : Rec) : Rec :=
  if r.prio < min (min 3 (s.job r.job).ceil) (r.prio0 + s.recAge r / 2 ^ 20) then { r with prio := r.prio + 1, queue := r.queue + 1 } else r

/-- AGING (R61). -/
def execAging (s : State) : Out := s.event fun s => s.modRec s.arg.n s.age

/-! Stage allocation (R62) -/

/-- A declared stage of a running launch: launch, pipeline, stage, its job and its descriptor. -/
structure StageRef where
  launch : Nat
  pipe : Nat
  stage : Nat
  job : Nat
  desc : StageDesc
  deriving DecidableEq, Repr

/-- The declared stages of a launch, by stage number and then by pipeline (R62). -/
def Launch.refs (l : Launch) : List StageRef :=
  ((List.range 8).flatMap fun st => (List.range l.npipe).map fun p =>
    (⟨l.id, l.pipe0 + p, st, l.job, l.stages.get .none (8 * p + st)⟩ : StageRef)).filter fun r => r.desc.qbound ≠ 0

/-- A record of a stage. -/
def StageRef.has (q : StageRef) (r : Rec) : Bool := r.job = q.job && ctrlPipe r.ctrl = q.pipe && ctrlStage r.ctrl = q.stage

/-- What a record counts in an occupancy: an expansion entry its remaining tasks, up to 65,535 (R62). -/
def Rec.weight (r : Rec) : Nat :=
  if r.expand then (match r.total with
    | some n => min 65535 (n - r.made)
    | none => 1)
  else 1

/-- Occupancy of a stage (R62). -/
def State.occupancy (s : State) (q : StageRef) : Nat := ((s.disp.recs.filter q.has).map Rec.weight).sum

/-- The minimums, in the order of acceptance, until the cores are used up (R62 step 1). -/
def minimums : Nat → List StageRef → List Nat
  | _, [] => []
  | left, q :: r => min left q.desc.minc :: minimums (left - min left q.desc.minc) r

/-- Division in proportion to weights by largest remainder; of equal remainders the earlier wins (R62 step 2, log entry 42). -/
def proportion (n : Nat) (ws : List Nat) : List Nat :=
  let tot := ws.sum
  if tot = 0 then ws.map fun _ => 0
  else
    let rems := ws.map fun w => n * w % tot
    let extra := n - (ws.map fun w => n * w / tot).sum
    ws.mapIdx fun i w =>
      let r := n * w % tot
      let before := (rems.mapIdx fun j x => decide (r < x) || (x = r && decide (j < i))).filter id
      n * w / tot + bit (decide (before.length < extra))

/-- A stage with a nonempty queue and no core receives one while any remains; what a limit leaves over is not shared again
(R62 step 3; log entry 117). -/
def atLeastOne : Nat → List (StageRef × Bool × Nat) → List Nat
  | _, [] => []
  | left, (q, any, n) :: r =>
    if any && 1 ≤ q.desc.maxc && n = 0 && left ≠ 0 then 1 :: atLeastOne (left - 1) r else n :: atLeastOne left r

/-- The shares of all stages (R62 steps 1 to 3). -/
def State.shares (s : State) (online : Nat) (qs : List StageRef) : List Nat :=
  let occ := qs.map s.occupancy
  let mins := minimums online qs
  let sum := mins.zipWith (· + ·) (proportion (online - mins.sum) occ)
  let lim := sum.zipWith (fun n q => min n q.desc.maxc) qs
  atLeastOne (online - lim.sum) (qs.zip ((qs.map fun q => s.disp.recs.any q.has).zip lim))

/-- Records of a stage in a cluster's home queues. -/
def State.homeRecords (s : State) (q : StageRef) (cluster : Nat) : Nat :=
  (s.disp.recs.filter fun r => q.has r && r.queue < 1024 && r.home = cluster).length

/-- The clusters that hold most records of a stage first; of equal ones the lower first (R62 step 4, log entry 42). -/
def State.clusterOrder (s : State) (q : StageRef) : List Nat :=
  (List.range 32).mergeSort fun a b => decide (s.homeRecords q b < s.homeRecords q a) || (s.homeRecords q a = s.homeRecords q b && decide (a ≤ b))

/-- Cores for each share: (core, stage). -/
def State.assign (s : State) : List Nat → List (StageRef × Nat) → List (Nat × StageRef)
  | _, [] => []
  | free, (q, n) :: r =>
    let mine := (((s.clusterOrder q).flatMap fun d => (List.range 8).map (8 * d + ·)).filter free.contains).take n
    mine.map (fun c => (c, q)) ++ s.assign (free.filter fun c => !mine.contains c) r

/-- A bank of the core is idle. -/
def Core.anyIdle (k : Core) : Bool := k.b0.status = .idle || k.b1.status = .idle

/-- The allocation of an epoch (R62). -/
def State.allocate (s : State) : State :=
  let online := (List.range 256).filter fun c => !s.offline c
  let qs := s.disp.launches.flatMap Launch.refs
  let ns := s.shares online.length qs
  let want := s.assign online (qs.zip ns)
  let s := { s with disp := { s.disp with
    allocated := (qs.zip ns).map fun e => (e.1.launch, e.1.pipe, e.1.stage, e.2) } }
  (List.range 256).foldl (fun s c =>
    let w := (want.find? fun e => e.1 = c).map fun e => (e.2.launch, e.2.pipe, e.2.stage)
    if (s.core c).stage = w then s else s.modCore c fun k => { k with stage := w }) s

/-- STAGE_ALLOCATION (R62). -/
def execStageAllocation (s : State) : Out := s.event State.allocate

/-! Blocked posts and probes (R63, R64) -/

/-- The blocked poster of a stage that has waited longest. -/
def State.longestBlocked (s : State) (job pipe stage : Nat) : Option (Nat × Nat × Blocked) :=
  (s.blockedPosts.filter fun p => p.2.2.on job pipe stage && !p.2.2.admitted).foldl
    (fun best p => match best with
      | some b => if p.2.2.since < b.2.2.since then some p else some b
      | none => some p) none

/-- A poster is admitted. -/
def State.letIn (s : State) (p : Nat × Nat × Blocked) : State :=
  s.modCtx p.1 p.2.1 fun k => { k with blocked := some { p.2.2 with admitted := true } }

/-- BLOCKED_POST_ADMIT (R63). -/
def execBlockedPostAdmit (s : State) : Out :=
  s.event fun s =>
    if s.stageRoom s.arg.n s.arg.m s.arg.k then
      match s.longestBlocked s.arg.n s.arg.m s.arg.k with
      | some p => s.letIn p
      | none => s
    else s

/-- The stage that a core is bound to (R62). -/
def Core.boundTo (k : Core) : Option (Nat × Nat × Nat) := if k.anyIdle then k.stage else k.bound

/-- A probe at a queue goes on to a task: one of the queue's stage, or in a bank of a core bound to that stage (R64). -/
def State.probeMeets (s : State) (q : Nat × Nat × Nat) (c b : Nat) : Bool :=
  (s.ctx c b).ofStage q.1 q.2.1 q.2.2 ||
  (match s.launchFor q.1 q.2.1 with
    | some l => (s.core c).boundTo = some (l.id, q.2.1, q.2.2)
    | none => false)

/-- The queues that probes at some queues go on to, through tasks blocked in a post. -/
def State.probeNext (s : State) (qs : List (Nat × Nat × Nat)) : List (Nat × Nat × Nat) :=
  ((s.blockedPosts.filter fun p => !p.2.2.admitted && qs.any fun q => s.probeMeets q p.1 p.2.1).map fun p =>
    (p.2.2.job, p.2.2.pipe, p.2.2.stage)).dedup

/-- A probe that started at some queue reaches it again. -/
def State.probeFinds (s : State) (q0 : Nat × Nat × Nat) : Nat → List (Nat × Nat × Nat) → Bool
  | 0, _ => false
  | fuel + 1, qs =>
    let next := s.probeNext qs
    next.contains q0 || s.probeFinds q0 fuel (qs ++ next).dedup

/-- A poster has been blocked for more than 1,024 cycles, or for 1,024 since its latest probe (R64). -/
def State.probeDue (s : State) (b : Blocked) : Bool :=
  !b.admitted && match b.probe with
  | none => decide (1024 < (s.sidereal - b.since).toNat)
  | some t => decide (1024 ≤ (s.sidereal - t).toNat)

/-- PROBE_SEND: the probe travels along the waits-for relation as it stands (R64, log entry 43). -/
def execProbeSend (s : State) : Out :=
  s.event fun s =>
    match (s.ctx s.arg.core s.arg.bank).blocked with
    | some b =>
      if s.probeDue b then
        let q := (b.job, b.pipe, b.stage)
        s.modCtx s.arg.core s.arg.bank fun k =>
          { k with blocked := some { b with probe := some s.sidereal, returned := s.probeFinds q (s.blockedPosts.length + 1) [q] } }
      else s
    | none => s

/-- PROBE_GRANT: one entry beyond QBOUND from the queue's reserve (R64). -/
def execProbeGrant (s : State) : Out :=
  s.event fun s =>
    match (s.ctx s.arg.core s.arg.bank).blocked with
    | some b =>
      let q := (b.job, b.pipe, b.stage)
      if !b.returned || b.admitted then s
      else
        let s := s.modCtx s.arg.core s.arg.bank fun k => { k with blocked := some { b with returned := false } }
        if s.disp.spent.contains q then s
        else
          match s.longestBlocked b.job b.pipe b.stage with
          | none => s
          | some p =>
            (({ s with disp := { s.disp with spent := q :: s.disp.spent } } : State).letIn p).modJob b.job fun j =>
              { j with probeGrant := dispInc j.probeGrant }
    | none => s

/-! Host posts (R46 to R48) -/

/-- A slot takes host posts, launches and new work: active, neither killed nor torn down; a slot whose kill is complete
takes none either (R46, R424; log entry 114). -/
def Job.open (q : Job) : Bool := q.active && q.kstat = 0 && !q.tearing

/-- Host posts of a job that wait in the IOD. -/
def State.hostHeld (s : State) (job : Nat) : Nat := (s.disp.host.filter fun e => e.1 = job).length

/-- A PCIe write of some bytes into a slot's page of BAR2, at an offset; a counted record is injected as it is accepted (R46, R47,
R355). -/
def State.hostPost (s : State) (j off : Nat) (bs : List Byte) : State :=
  if 64 ≤ j || !(s.job j).open then s
  else if bs.length ≠ 64 || off % 64 ≠ 0 then s.report (faultBare s j 0x23 2 0)
  else if 32 ≤ s.hostHeld j then
    (s.modJob j fun q => { q with hpostDrop := dispInc q.hpostDrop }).report { faultBare s j 0x24 2 0 with wid := (RecIn.ofBytes bs).wid }
  else
    let s1 := if ctrlCnt (RecIn.ofBytes bs).ctrl then s.inject hostIface j else s
    { s1 with disp := { s1.disp with host := s1.disp.host ++ [(j, bs)] }, pkg := { s1.pkg with hposts := s1.pkg.hposts + 1 } }

/-- HOST_POST (R46, R47). -/
def execHostPost (s : State) : Out := s.event fun s => s.hostPost s.arg.n s.arg.m s.arg.data

/-- A record that no core posted and that fails its check (R39). -/
def State.rejectBare (s : State) (job : Nat) (r : RecIn) (trec : Word) : State :=
  s.report { faultBare s job 0x20 1 trec with wid := r.wid }

/-- HOST_POST_ENTER: the oldest post of a slot, behind core posters that are blocked on its stage (R47; log entry 115); a record that
fails its check is held by its interface no longer (R39, R48; log entry 110). -/
def execHostPostEnter (s : State) : Out :=
  s.event fun s =>
    let j := s.arg.n
    match s.disp.host.find? fun e => e.1 = j with
    | none => s
    | some e =>
      let r := RecIn.ofBytes e.2
      let s1 := { s with disp := { s.disp with host := s.disp.host.erase e } }
      if !s.recordOk j 0 r then (if ctrlCnt r.ctrl then s1.consume hostIface j else s1).rejectBare j r 0
      else if s.mayEnter j (ctrlPipe r.ctrl) (ctrlStage r.ctrl) then s1.queueRec r 0 j 0 hostIface (j % 32) none
      else s

/-! Launches (R25 to R32) -/

/-- A launch header (R26). -/
structure Header where
  shape : Word
  ext : List Nat
  pipet : Word
  joint : Word
  jbase : Word
  arg : Word
  gentry : Word
  gctrl : Word
  wbase : Word
  rest : Nat
  deriving DecidableEq, Repr

/-- The header in 128 bytes. -/
def Header.ofBytes (bs : List Byte) : Header :=
  let at_ (o n : Nat) : Nat := ofLeBytes ((bs.drop o).take n)
  let w (o : Nat) : Word := word (at_ o 8)
  { shape := w 0, ext := (List.range 6).map fun i => at_ (8 + 4 * i) 4, pipet := w 0x20, joint := w 0x28, jbase := w 0x30
    arg := w 0x38, gentry := w 0x40, gctrl := w 0x48, wbase := w 0x50, rest := at_ 0x60 32 }

/-- Widths of SHAPE (R27). -/
def Header.widths (h : Header) : List Nat := (List.range 6).map fun i => bits h.shape (6 * i) 6

/-- The launch that a header describes, without its tables. -/
def Header.launch (h : Header) (id job asid : Nat) (hdr : Word) : Launch :=
  { id := id, job := job, hdr := hdr, asid := asid, widths := h.widths, ext := h.ext, plevel := bits h.shape 36 3
    jmask := bits h.shape 39 7, pipe0 := bits h.shape 48 8, npipe := bits h.shape 56 8 + 1, joint := h.joint, jbase := h.jbase
    arg := h.arg, gentry := h.gentry, gctrl := h.gctrl, wbase := h.wbase, stages := [], joins := [], posted := 0, live := 0, fired := [] }

/-- Grid tasks of a launch (R30). -/
def Launch.grid (l : Launch) : Nat := l.ext.foldl (· * ·) 1

/-- The widths, extents and WBASE do not fit one another: status 0x81 (R28 to R30). -/
def Launch.badShape (l : Launch) : Bool :=
  decide (64 < l.widths.sum) || decide (2 ^ 32 - 1 < l.grid) || decide (2 ^ l.widths.sum ≤ l.wbase.toNat) ||
  (List.range 6).any fun i =>
    let e := l.ext.getD i 0
    let w := l.widths.getD i 0
    e = 0 || decide (2 ^ w < e) || decide (2 ^ w < wField l.widths l.wbase (i + 1) + e)

/-- PLEVEL or JMASK names a level below L: status 0x82 (R28). -/
def Launch.badLevels (l : Launch) : Bool :=
  decide (lastField l.widths < l.plevel) || l.levels.any fun k => lastField l.widths < k

/-- Too many counters, or a misaligned table: status 0x84 (R26, R28). -/
def Launch.badTables (l : Launch) (pipet : Word) : Bool :=
  decide (2 ^ 24 < l.counters) || bits pipet 0 7 ≠ 0 || (l.jmask ≠ 0 && (bits l.joint 0 5 ≠ 0 || bits l.jbase 0 3 ≠ 0))

/-- The first five checks of a launch, in their order; 0 where all hold (R28). -/
def State.launchCode (s : State) (h : Header) (l : Launch) : Nat :=
  if bits h.shape 46 2 ≠ 0 || h.rest ≠ 0 then 0x88
  else if l.badShape then 0x81
  else if l.badLevels then 0x82
  else if l.badTables h.pipet then 0x84
  else if 16 ≤ (s.disp.launches.filter fun x => x.job = l.job).length then 0x85
  else 0

/-- A stage descriptor in 16 bytes, and its reserved bits (R34). -/
def StageDesc.ofBytes (bs : List Byte) : StageDesc × Nat :=
  let w := word (ofLeBytes (bs.drop 8))
  (⟨word (ofLeBytes (bs.take 8)), bits w 34 2, bits w 25 9, bits w 16 9, bits w 0 16⟩, bits w 36 28)

/-- The stage descriptors of a pipeline table, by 8 × pipeline offset + stage. -/
def stageTable (bs : List Byte) (npipe : Nat) : List (StageDesc × Nat) :=
  (List.range (8 * npipe)).map fun i => StageDesc.ofBytes ((bs.drop (16 * i)).take 16)

/-- A declared stage's own limits (R34, R35). -/
def StageDesc.fits (d : StageDesc) : Bool :=
  decide (d.minc ≤ d.maxc) && decide (1 ≤ d.maxc) && decide (d.maxc ≤ 256) && bits d.entry 0 6 = 0

/-- The descriptors of one pipeline obey R35. -/
def pipeOk (ds : List (StageDesc × Nat)) : Bool :=
  let live := ds.takeWhile fun e => e.1.qbound ≠ 0
  live.length ≠ 0 && ((ds.drop live.length).all fun e => e.1.qbound = 0) && (ds.all fun e => e.2 = 0) && live.all fun e => e.1.fits

/-- The pipelines of a launch are free and well described; otherwise status 0x83 (R27, R28, R35). -/
def State.pipesOk (s : State) (l : Launch) (ds : List (StageDesc × Nat)) : Bool :=
  decide (l.pipe0 + l.npipe ≤ 256) &&
  !(s.disp.launches.any fun x => x.job = l.job && decide (x.pipe0 < l.pipe0 + l.npipe) && decide (l.pipe0 < x.pipe0 + x.npipe)) &&
  (List.range l.npipe).all fun j => pipeOk ((ds.drop (8 * j)).take 8)

/-- MINC summed over a launch's declared stages. -/
def Launch.minSum (l : Launch) : Nat := (l.refs.map fun r => r.desc.minc).sum

/-- The record that stands for a launch's grid tasks (R30). -/
def Launch.gridRec (l : Launch) (wid joinp : Word) : RecIn := ⟨l.gentry, wid, l.arg, joinp, 0, 0, l.gctrl, 0⟩

/-- The checks that need the tables: statuses 0x83, 0x86, 0x87; 0 where all hold (R28). -/
def State.launchCode2 (s : State) (l : Launch) (ds : List (StageDesc × Nat)) : Nat :=
  let with_ := { s with disp := { s.disp with launches := s.disp.launches ++ [l] } }
  if !s.pipesOk l ds then 0x83
  else if ((List.range 256).filter fun c => !s.offline c).length < ((with_.disp.launches.map Launch.minSum).sum) then 0x86
  else if !with_.recordOk l.job 0 (l.gridRec l.wbase 0) then 0x87
  else 0

/-- A translation fault of the Orvan's own access for a launch: its record (R25, R28). -/
def State.launchFault (s : State) (job access : Nat) (x : XFault) : State :=
  s.report { faultBare s job x.cause access x.va with detail := x.detail }

/-- Bytes of the job's space read by the Orvan; on a fault its record.  Bytes marked uncorrectable are read as they are (log entry
132). -/
def State.iodRead (s : State) (job : Nat) (va : Word) (n : Nat) : Option (List Byte) × State :=
  match s.resolve (s.iod job) {} (pieces va n) with
  | (.ok parts, s1) => (some (s1.view s1.mem parts), s1.afterRead parts)
  | (.error x, s1) => (none, s1.launchFault job 1 x)

/-- Several runs of bytes read; none where one fails. -/
def State.iodReadAll (s : State) (job n : Nat) : List Word → Option (List (List Byte)) × State
  | [] => (some [], s)
  | va :: r =>
    match s.iodRead job va n with
    | (none, s1) => (none, s1)
    | (some bs, s1) =>
      match s1.iodReadAll job n r with
      | (some l, s2) => (some (bs :: l), s2)
      | (none, s2) => (none, s2)

/-- Words written to consecutive addresses, page by page; a fault stops the writing and leaves its record (R28, R32). -/
def State.iodFill (s : State) (job : Nat) : List (Word × Nat) → List Byte → Bool × State
  | [], _ => (true, s)
  | (va, n) :: r, bs =>
    match s.place (s.iod job) { write := true } va n with
    | (.error x, s1) => (false, s1.launchFault job 2 x)
    | (.ok key, s1) => (s1.putBytes 256 key (bs.take n)).iodFill job r (bs.drop n)

/-- The initial values of a launch's counters (R32). -/
def Launch.counterBytes (l : Launch) : List Byte :=
  l.levels.flatMap fun k => (List.replicate (l.groups k) (leBytes 8 (l.members k))).flatten

/-- A join descriptor in 32 bytes: ENTRY, ARG, TOUCH, CTRL (R32). -/
def joinOf (bs : List Byte) : Word × Word × Word × Word :=
  let w (i : Nat) : Word := word (ofLeBytes ((bs.drop (8 * i)).take 8))
  (w 0, w 1, w 2, w 3)

/-- A launch whose first checks hold: tables read, the other checks, counters written, STATUS (R28, R32). -/
def State.launchTables (s : State) (h : Header) (l : Launch) : State :=
  match s.iodRead l.job h.pipet (128 * l.npipe) with
  | (none, s1) => s1.putStatus l.job l.hdr 0x89
  | (some pt, s1) =>
    match s1.iodReadAll l.job 32 (l.levels.map fun k => l.joint + word (32 * k)) with
    | (none, s2) => s2.putStatus l.job l.hdr 0x89
    | (some js, s2) =>
      let ds := stageTable pt l.npipe
      let l1 : Launch :=
        { l with
          stages := Sparse.run .none 0 (ds.map (·.1))
          joins := l.levels.zip (js.map joinOf)
          live := l.grid + l.counters }
      let code := s2.launchCode2 l1 ds
      if code ≠ 0 then s2.putStatus l.job l.hdr code
      else
        match s2.iodFill l.job (pieces l.jbase (8 * l.counters)) l1.counterBytes with
        | (false, s3) => s3.putStatus l.job l.hdr 0x89
        | (true, s3) =>
          ({ s3 with disp := { s3.disp with launches := s3.disp.launches ++ [l1], nextLaunch := s3.disp.nextLaunch + 1 } } : State).putStatus
            l.job l.hdr 1

/-- JSTAT.ERR set (R25, R424). -/
def State.jobError (s : State) (j : Nat) : State := s.modJob j fun q => { q with err := true }

/-- A write of the LAUNCH register (R25, R28). -/
def State.writeLaunch (s : State) (j : Nat) (va : Word) : State :=
  let s := s.modJob j fun q => { q with launchVA := va }
  if !(s.job j).open then s.jobError j
  else if misaligned va 128 then (s.jobError j).report (faultBare s j 0x0E 1 va)
  else
    match s.iodRead j va 128 with
    | (none, s1) => s1.jobError j
    | (some bs, s1) =>
      let h := Header.ofBytes bs
      let l := h.launch s1.disp.nextLaunch j (s1.job j).asid va
      let code := s1.launchCode h l
      if code ≠ 0 then s1.putStatus j va code else s1.launchTables h l

/-- LAUNCH (R25). -/
def execLaunch (s : State) : Out := s.event fun s => if s.arg.n < 64 then s.writeLaunch s.arg.n s.arg.v else s

/-- The grid task that a launch posts next: record, and whether it is the launch's to post (R30, R32). -/
def Launch.gridTask (l : Launch) : RecIn := l.gridRec (l.widAt (l.indexes 6 l.posted)) (l.joinpFor 7 l.posted)

/-- GRID_TASK_POST: the launch's next grid task enters its queue as a POST would, in index order (R30, log entry 44),
behind core posters that are blocked on its stage (log entry 115). -/
def execGridTaskPost (s : State) : Out :=
  s.event fun s =>
    match s.disp.launches.find? fun l => l.id = s.arg.n with
    | none => s
    | some l =>
      if l.grid ≤ l.posted then s
      else
        let r := l.gridTask
        let s1 := { s with disp := { s.disp with
          launches := s.disp.launches.map fun (x : Launch) => if x.id = l.id then { x with posted := x.posted + 1 } else x } }
        if !s.recordOk l.job 0 r then s1.rejectBare l.job r l.hdr
        else if s.mayEnter l.job (ctrlPipe r.ctrl) (ctrlStage r.ctrl) then
          s1.enterRec r 0 l.job l.hdr hostIface (l.job % 32) (some l.id)
        else s

end Sys2Proof.Machine
end

