-- ==== Sys2Proof/Machine/FabricEvents.lean ====
section
/-! DEFINITION. Events of the fabric: messages, notices, the meridian sweep, cross-package waves, and the Ultra Ethernet port (R316 to R319, R354 to R366, R438). -/
namespace Sys2Proof.Machine

/-! Messages on their way (R316, R318, R356) -/

/-- A message's send entry is free again (R316). -/
def State.freeSend (s : State) (m : Msg) : State :=
  if m.entryHeld then s.modCluster (clusterOf m.core) fun cl => { cl with sends := cl.sends - 1 } else s

/-- A message leaves the list of those on their way. -/
def State.dropMsg (s : State) (n : Nat) : State := { s with fabric := { s.fabric with msgs := s.fabric.msgs.filter fun m => m.n ≠ n } }

/-- A message enters its next holder, which counts it and acknowledges to the one before; at the port it becomes a packet (R356, R365). -/
def State.handOver (s : State) (m : Msg) (holder : Nat) (route : List Nat) : State :=
  let m' := { m with holder := holder, route := route, entryHeld := false }
  let s1 := ((s.inject holder m.job).sendNotice .handover m.holder m.job).freeSend m
  if holder = portIface then (s1.dropMsg m.n).transmit (.message m')
  else { s1 with fabric := { s1.fabric with msgs := s1.fabric.msgs.map fun x => if x.n = m.n then m' else x } }

/-- Stores and image reads of its sender before a message have yet to perform: a send is a release (R319, R342). -/
def State.sendWaits (s : State) (m : Msg) : Bool := match s.bankOf m.ctx with
  | some (c, b) => ((s.ctx c b).stores.any fun st => st.n < m.n) || !(s.imageRuns c b m.n).isEmpty
  | none => false

/-- MESSAGE_HANDOVER (R319, R356). -/
def execMessageHandover (s : State) : Out :=
  s.event fun s =>
    match s.fabric.msgs.find? fun m => m.n = s.arg.n with
    | some m => (match m.route with
      | h :: r => if s.sendWaits m then s else s.handOver m h r
      | [] => s)
    | none => s

/-- A notice in flight reaches its interface (R355, R356). -/
def State.noticeArrives (s : State) (kind : NoticeKind) (n : Nat) : State :=
  match s.fabric.notices.find? fun x => x.n = n && x.kind = kind with
  | some x => { s with fabric := { s.fabric with notices := s.fabric.notices.filter fun y => y.n ≠ n } }.consume x.iface x.job
  | none => s

/-- HANDOVER_ACK (R356). -/
def execHandoverAck (s : State) : Out := s.event fun s => s.noticeArrives .handover s.arg.n

/-- RETIREMENT_NOTICE (R355). -/
def execRetirementNotice (s : State) : Out := s.event fun s => s.noticeArrives .retirement s.arg.n

/-- Messages that a job's overflow area holds at most (R318); none without an area (R422). -/
def Job.overflowRoom (q : Job) : Nat := if bits q.movbase 12 40 = 0 then 0 else 2 ^ (bits q.movbase 52 4 + 6)

/-- An arrival that cannot wait: its record, and it counts as consumed (R318). -/
def State.dropArrival (s : State) (core cause : Nat) (a : Arrived) : State :=
  let s1 := s.report { faultBare s a.job cause 0 0 with core := core, wid := a.wid }
  match a.holder with
  | some i => s1.consume i a.job
  | none => s1

/-- A message joins its job's overflow area; what the bytes of its record there are is the Orvan's own (R318; log entry 89). -/
def State.overflow (s : State) (core : Nat) (a : Arrived) : State :=
  let q := s.job a.job
  (s.useFree.2.putBytes 256 (bits q.movbase 12 40 * 4096 + 320 * (q.overflow.length % q.overflowRoom))
    (leBytes 320 (Config.freeNat s.free))).modJob a.job fun q => { q with overflow := q.overflow ++ [(core, a)] }

/-- A handler arrives at a core: its queue, its job's overflow area, or nowhere (R318). -/
def State.arrive (s : State) (core : Nat) (a : Arrived) : State :=
  let q := s.job a.job
  let queued := (s.core core).held
  let waiting := q.overflow.any fun o => o.1 = core
  if 256 ≤ core || s.offline core then s.dropArrival core 0x2C a
  else if queued < 64 && !waiting then s.modCore core fun k => { k with queue := k.queue ++ [a] }
  else if q.overflow.length < q.overflowRoom then s.overflow core a
  else s.dropArrival core 0x2B a

/-- The handler that a message starts, at most at its job's ceiling (R24, R317). -/
def Msg.arrived (m : Msg) (ceil : Nat) (now : Word) : Arrived :=
  { kind := .handler, job := m.job, entry := m.entry, payload := m.payload, x5 := m.sender, x6 := 0, x7 := 0, x8 := 0, wid := m.wid
    widths := m.widths, prio := min ceil m.prio, holder := some m.holder, time := now }

/-- A job takes messages: active and not under kill (R318). -/
def Job.live (q : Job) : Bool := q.active && q.kstat = 0

/-- An earlier local message of the same context to the same core (R319). -/
def Msg.follows (m o : Msg) : Bool := decide (o.n < m.n) && o.ctx = m.ctx && o.target = m.target && o.rem = m.rem && o.sender = m.sender

/-- MESSAGE_ARRIVAL (R318, R319). -/
def execMessageArrival (s : State) : Out :=
  s.event fun s =>
    match s.fabric.msgs.find? fun m => m.n = s.arg.n with
    | none => s
    | some m =>
      if !m.route.isEmpty || s.sendWaits m || s.fabric.msgs.any m.follows then s
      else
        let s1 := (s.dropMsg m.n).freeSend m
        if (s.job m.job).live then s1.arrive m.target (m.arrived (s.job m.job).ceil s.sidereal) else s1

/-- REMOTE_MESSAGE_RECEIVE: delivered to the named slot, or acknowledged and dropped (R317, R356). -/
def execRemoteMessageReceive (s : State) : Out :=
  s.event fun s =>
    match s.arg.msg with
    | none => s
    | some w =>
      if !s.port.up || 64 ≤ w.slot || !(s.job w.slot).live || !s.isPeer w.slot w.chip || (s.peer w.slot w.chip).1 ≠ w.endpoint then s
      else
        let m : Msg :=
          { n := s.fabric.nextItem, job := w.slot, core := w.core % 256, bank := w.bank % 2, ctx := 0, target := w.target % 256, rem := false
            chip := w.chip, entry := w.entry, payload := w.payload, word := 0
            sender := word (w.core % 256 + 2 ^ 8 * (w.bank % 2) + 2 ^ 16 * w.chip + 2 ^ 32), wid := w.wid, widths := w.widths
            prio := w.prio % 4, holder := portIface, route := [dieIodEnd (dieOf (w.target % 256))], entryHeld := false }
        { s with fabric := { s.fabric with msgs := s.fabric.msgs ++ [m], nextItem := s.fabric.nextItem + 1 } }.inject portIface w.slot

/-! The meridian sweep (R358 to R361) -/

/-- INJ, CON + QW and ACT of a job at an interface, as a pass reads them (R357, R358). -/
def State.reading (s : State) (iface job : Nat) : Word × Word × Bool :=
  let c := s.counter iface job
  (c.inj, c.con + word c.qw, c.act)

/-- Two readings summed. -/
def addReading (a b : Word × Word × Bool) : Word × Word × Bool := (a.1 + b.1, a.2.1 + b.2.1, a.2.2 || b.2.2)

/-- ACT of a job cleared at an interface, as pass 1 reads it (R358). -/
def State.clearAct (s : State) (iface job : Nat) : State :=
  { s with fabric := { s.fabric with
      counters := s.fabric.counters.set .zero (64 * iface + job) { s.counter iface job with act := false } } }

/-- Fabric interfaces of the package (R354). -/
def interfaces : Nat := 50

/-- A pass has come to an interface: the root reaches the host interface, the port and the IOD's ends, and each IOD end its die's
clusters and link ends (R358). -/
def waveReaches (read : List Nat) (i : Nat) : Bool :=
  if i < 32 then read.contains (iodEnd (i / 8)) else if i < 48 && i % 4 ≠ 3 then read.contains (iodEnd ((i - 32) / 4)) else i < interfaces

/-- An interface that a pass has come to and not read. -/
def waveNext (read : List Nat) (i : Nat) : Bool := waveReaches read i && !read.contains i

/-- A pass has read every interface. -/
def waveRead (read : List Nat) : Bool := read.length = interfaces

/-- The wave as it serves the job slots: one that is not a single-package job's any more is neither read nor cleared, and the wave has
no verdict for it (R358). -/
def Wave.served (s : State) (w : Wave) : Wave :=
  let stays (j : Nat) : Bool := (s.job j).active && decide ((s.job j).nm1 = 0)
  if w.jobs.all stays then w
  else
    let l := (w.jobs.zip (w.sums1.zip w.sums2)).filter fun e => stays e.1
    { w with jobs := l.map (·.1), sums1 := l.map (·.2.1), sums2 := l.map (·.2.2) }

/-- A pass of the local wave reads one interface, for every job that the wave serves, in one indivisible action (R358). -/
def State.readWave (s : State) (w : Wave) (i : Nat) : State :=
  if !waveNext w.read i then s
  else
    let w := Wave.served s w
    let sums := ((if w.second then w.sums2 else w.sums1).zip w.jobs).map fun e => addReading e.1 (s.reading i e.2)
    let s1 := if w.second then s else w.jobs.foldl (fun s j => s.clearAct i j) s
    let w1 := { w with read := i :: w.read }
    { s1 with fabric := { s1.fabric with wave := some (if w.second then { w1 with sums2 := sums } else { w1 with sums1 := sums }) } }

/-- The job slots that a local wave serves (R358). -/
def State.waveJobs (s : State) : List Nat := (List.range 64).filter fun j => (s.job j).active && (s.job j).nm1 = 0

/-- Cycles between wave starts, by the PERIOD that the latest wave started under (R360). -/
def Fabric.wavePeriod (f : Fabric) : Nat := max 1024 f.period

/-- A local wave starts, unless the latest one started too short a time ago (R358, R360). -/
def State.startWave (s : State) : State :=
  let early := match s.fabric.lastWave with
    | some t => decide ((s.sidereal - t).toNat < s.fabric.wavePeriod)
    | none => false
  if !s.pkg.sweepEn || s.sidereal = 0 || early then s
  else
    let zero : List (Word × Word × Bool) := s.waveJobs.map fun _ => (0, 0, false)
    { s with fabric := { s.fabric with
        wave := some ⟨s.sidereal, s.waveJobs, false, [], zero, zero⟩, lastWave := some s.sidereal, period := s.pkg.period } }

/-- The verdict of two passes (R358). -/
def verdictOf (inj1 con1 inj2 con2 : Word) (act : Bool) : Bool := inj1 = inj2 && con1 = con2 && inj2 = con2 && !act

/-- A verdict in the job's registers (R160, R361). -/
def Job.verdict (q : Job) (quiet : Bool) (start : Word) : Job := { q with qstat := start <<< 1 ||| (if quiet then 1 else 0) }

/-- SWEEP_VERDICT (R359). -/
def execSweepVerdict (s : State) : Out :=
  s.event fun s =>
    match s.fabric.wave with
    | some w =>
      if !w.second || !waveRead w.read then s
      else
        let s1 := { s with fabric := { s.fabric with wave := none } }
        (w.jobs.zip (w.sums1.zip w.sums2)).foldl (fun s e =>
          let (j, (i1, c1, _), (i2, c2, act)) := e
          if (s.job j).active && (s.job j).nm1 = 0 then
            s.modJob j fun q => { q.verdict (verdictOf i1 c1 i2 c2 act) w.start with qsumI := i2, qsumC := c2 }
          else s) s1
    | none => s

/-! Cross-package waves (R362) -/

/-- ROOT and FAN of XQCTL (R362). -/
def Job.root (q : Job) : Nat := bits q.xqctl 0 16
def Job.fan (q : Job) : Nat := max 1 (bits q.xqctl 16 4) + 1

/-- The rank of a package, and the package of a rank. -/
def Job.rankOf (q : Job) (chip : Nat) : Nat := (chip + (q.nm1 + 1) - q.root % (q.nm1 + 1)) % (q.nm1 + 1)
def Job.chipOf (q : Job) (rank : Nat) : Nat := (rank + q.root) % (q.nm1 + 1)

/-- The CHIPs of this package's children, and of its parent. -/
def State.children (s : State) (job : Nat) : List Nat :=
  let q := s.job job
  let k := q.rankOf (s.ownChip job)
  ((List.range q.fan).map fun i => q.fan * k + 1 + i).filter (· ≤ q.nm1) |>.map q.chipOf
def State.parent (s : State) (job : Nat) : Nat :=
  let q := s.job job
  q.chipOf ((q.rankOf (s.ownChip job) - 1) / q.fan)

/-- This package is the job's root. -/
def State.isRoot (s : State) (job : Nat) : Bool := (s.job job).rankOf (s.ownChip job) = 0

/-- The wave of a job on this package. -/
def State.xwave (s : State) (job : Nat) : Option XWave := s.fabric.xwaves.find? fun x => x.job = job

/-- The wave of a job replaced, or ended. -/
def State.setXwave (s : State) (job : Nat) (x : Option XWave) : State :=
  { s with fabric := { s.fabric with xwaves := (s.fabric.xwaves.filter fun y => y.job ≠ job) ++ x.toList } }

/-- A control message to each child. -/
def State.tellChildren (s : State) (job wave : Nat) (what : Control) : State :=
  (s.children job).foldl (fun s c => s.transmit (.control job c wave what)) s

/-- The verdict reaches this package: QSTAT, then the children (R362). -/
def State.takeVerdict (s : State) (x : XWave) (quiet : Bool) (start : Word) : State :=
  ((s.modJob x.job fun q => { q.verdict quiet start with qreached := x.reached }).tellChildren x.job x.wave (.verdict quiet start)).setXwave
    x.job none

/-- A pass starts on this package: its own readings are still to come, the requests go to its children (R358, R362). -/
def State.startPass (s : State) (x : XWave) : State :=
  ((s.modJob x.job fun q => { q with xwave := some x.wave }).setXwave x.job
    (some { x with own := some (0, 0, false), read := [], asked := s.sidereal, replies := [], failed := false })).tellChildren x.job x.wave
    (.request x.second)

/-- The totals of a pass: this package's reading and its children's. -/
def XWave.total (x : XWave) : Word × Word × Bool :=
  x.replies.foldl (fun t r => (t.1 + r.inj, t.2.1 + r.con, t.2.2 || r.act)) (x.own.getD (0, 0, false))

/-- The reply of this package to its parent. -/
def State.replyUp (s : State) (x : XWave) : State :=
  let (i, c, a) := x.total
  let r : WaveReply := ⟨s.ownChip x.job, x.wave, x.second, x.failed, i, c, a⟩
  (s.transmit (.control x.job (s.parent x.job) x.wave (.reply r))).setXwave x.job (some { x with own := none })

/-- A pass has ended at the root (R362). -/
def State.rootPass (s : State) (x : XWave) : State :=
  let (i, c, a) := x.total
  if x.failed then s.takeVerdict x false x.start
  else
    match x.pass1 with
    | none => s.startPass { x with second := true, pass1 := some (i, c) }
    | some (i1, c1) => (s.modJob x.job fun q => { q with qsumI := i, qsumC := c }).takeVerdict x (verdictOf i1 c1 i c a) x.start

/-- A pass on this package: it ends at once with a failed reply, or with the last one (R362). -/
def State.passOn (s : State) (job : Nat) : State :=
  match s.xwave job with
  | none => s
  | some x =>
    let done := x.failed || (waveRead x.read && (s.children job).all fun c => x.replies.any fun r => r.child = c)
    if x.own.isNone || !done then s else if s.isRoot job then s.rootPass x else s.replyUp x

/-- The package's own pass of a cross-package wave reads one interface, with ACT cleared in pass 1 only (R358, R362). -/
def State.readX (s : State) (job : Nat) (second : Bool) (i : Nat) : State :=
  match s.xwave job with
  | some x =>
    match x.own with
    | some sum =>
      if x.second ≠ second || !waveNext x.read i then s
      else
        ((if second then s else s.clearAct i job).setXwave job
          (some { x with own := some (addReading sum (s.reading i job)), read := i :: x.read })).passOn job
    | none => s
  | none => s

/-- SWEEP_WAVE_START: a wave starts, and pass 1 reads its interfaces one by one, with ACT cleared; operands: the interface, and 0
for the local wave or 1 + the job of a cross-package wave (R358, R362). -/
def execSweepWaveStart (s : State) : Out :=
  s.event fun s =>
    if s.arg.m ≠ 0 then s.readX (s.arg.m - 1) false s.arg.n
    else
      match s.fabric.wave with
      | some w => if w.second then s else s.readWave w s.arg.n
      | none => s.startWave

/-- SWEEP_PASS2: pass 2 begins once pass 1 has read every interface, and reads them one by one; operands as for SWEEP_WAVE_START
(R358, R362). -/
def execSweepPass2 (s : State) : Out :=
  s.event fun s =>
    if s.arg.m ≠ 0 then s.readX (s.arg.m - 1) true s.arg.n
    else
      match s.fabric.wave with
      | some w =>
        if w.second then s.readWave w s.arg.n
        else if waveRead w.read then s.readWave { w with second := true, read := [] } s.arg.n
        else s
      | none => s

/-- Cycles in a number of µs (R18). -/
def usCycles (n : Nat) : Nat := 1200 * n

/-- XWAVE_START: this package is the root of a job on many packages, and XPERIOD has passed (R360, R362). -/
def execXwaveStart (s : State) : Out :=
  s.event fun s =>
    let j := s.arg.n
    let q := s.job j
    let early := match q.xlast with
      | some t => decide ((s.sidereal - t).toNat < usCycles (max 10 q.xperiod))
      | none => false
    if 64 ≤ j || !q.live || q.nm1 = 0 || !s.pkg.sweepEn || !s.isRoot j || (s.xwave j).isSome || early then s
    else
      let x : XWave :=
        { job := j, wave := s.fabric.nextXwave, second := false, start := s.sidereal, reached := s.sidereal, asked := s.sidereal
          own := none, read := [], pass1 := none, replies := [], failed := false }
      let s1 := { s with fabric := { s.fabric with nextXwave := s.fabric.nextXwave + 1 } }.modJob j fun q =>
        { q with xlast := some s.sidereal, xperiod := s.pkg.xperiod }
      (s1.startPass x).passOn j

/-- A control message of an earlier wave than the latest that this package knows of is ignored (R362). -/
def State.olderWave (s : State) (job wave : Nat) : Bool := match (s.job job).xwave with
  | some n => decide (wave < n)
  | none => false

/-- XWAVE_REQUEST_RECEIVE (R362). -/
def execXwaveRequestReceive (s : State) : Out :=
  s.event fun s =>
    let j := s.arg.n
    let q := s.job j
    if 64 ≤ j || !q.live || q.nm1 = 0 || s.isRoot j || s.olderWave j s.arg.m then s
    else if s.arg.flag then
      match s.xwave j with
      | some x => if x.wave = s.arg.m && !x.second then (s.startPass { x with second := true }).passOn j else s
      | none => s
    else
      let x : XWave :=
        { job := j, wave := s.arg.m, second := false, start := 0, reached := s.sidereal, asked := s.sidereal, own := none, read := []
          pass1 := none, replies := [], failed := false }
      (s.startPass x).passOn j

/-- A reply of the running pass from a child that has not replied. -/
def State.takeReply (s : State) (job : Nat) (r : WaveReply) : State :=
  match s.xwave job with
  | some x =>
    if x.own.isNone || r.wave ≠ x.wave || r.second ≠ x.second || !(s.children job).contains r.child || x.replies.any (fun o => o.child = r.child)
    then s
    else (s.setXwave job (some { x with replies := x.replies ++ [r], failed := x.failed || r.failed })).passOn job
  | none => s

/-- XWAVE_REPLY_RECEIVE (R362). -/
def execXwaveReplyReceive (s : State) : Out :=
  s.event fun s => match s.arg.reply with
    | some r => s.takeReply s.arg.n r
    | none => s

/-- A child that counts as having replied failed (R362). -/
def State.failChild (s : State) (job child : Nat) : State :=
  match s.xwave job with
  | some x => s.takeReply job ⟨child, x.wave, x.second, true, 0, 0, false⟩
  | none => s

/-- XWAVE_REPLY_TIMEOUT (R362). -/
def execXwaveReplyTimeout (s : State) : Out :=
  s.event fun s =>
    match s.xwave s.arg.n with
    | some x =>
      if usCycles (2 * s.port.retry * s.port.rto) ≤ (s.sidereal - x.asked).toNat then s.failChild s.arg.n s.arg.m else s
    | none => s

/-- The verdict of a wave whose requests did not reach this package (R362). -/
def State.lateVerdict (s : State) (job wave : Nat) (quiet : Bool) (start : Word) : State :=
  ((s.modJob job fun q => { q.verdict quiet start with xwave := some wave }).setXwave job none).tellChildren job wave (.verdict quiet start)

/-- XWAVE_VERDICT_RECEIVE: a verdict of an earlier wave is ignored, as is one that has been taken (R362). -/
def execXwaveVerdictReceive (s : State) : Out :=
  s.event fun s =>
    let j := s.arg.n
    let q := s.job j
    if 64 ≤ j || !q.live || q.nm1 = 0 || s.isRoot j || s.olderWave j s.arg.m then s
    else
      match s.xwave j with
      | some x =>
        if x.wave = s.arg.m then s.takeVerdict x s.arg.flag s.arg.v else s.lateVerdict j s.arg.m s.arg.flag s.arg.v
      | none => if q.xwave = some s.arg.m then s else s.lateVerdict j s.arg.m s.arg.flag s.arg.v

/-! The port (R363 to R365) -/

/-- A packet leaves the port's list. -/
def State.dropPacket (s : State) (n : Nat) : State := { s with port := { s.port with packets := s.port.packets.filter fun p => p.n ≠ n } }

/-- A packet carries bytes of an LSEND. -/
def Packet.ofLsend (n : Nat) (p : Packet) : Bool := match p.cargo with
  | .link _ _ _ _ _ _ lsend _ _ _ _ => lsend = n
  | _ => false

/-- The transfer of an LSEND is abandoned: no packet of it is transmitted any more (R321, R363). -/
def State.dropLink (s : State) (lsend : Nat) : State := { s with port := { s.port with packets := s.port.packets.filter fun p => !p.ofLsend lsend } }

/-- When a packet is abandoned, at the end of its last interval (R365). -/
def Packet.abandoned (p : Packet) : Word := p.last + word (usCycles p.rto)

/-- UERTO has passed since the packet's latest transmission (R365). -/
def State.rtoOver (s : State) (p : Packet) : Bool := decide (usCycles p.rto ≤ (s.sidereal - p.last).toNat)

/-- A packet transmitted once more, where it is due (R365). -/
def State.again (s : State) (p : Packet) : Packet :=
  if decide (p.sent < p.retry) && s.rtoOver p then { p with sent := p.sent + 1, last := s.sidereal } else p

/-- UE_RETRANSMIT (R365). -/
def execUeRetransmit (s : State) : Out :=
  s.event fun s =>
    { s with port := { s.port with packets := s.port.packets.map fun p => if p.n = s.arg.n then s.again p else p } }

/-- UE_ACK_RECEIVE: a message's holder here counts it consumed (R356, R365). -/
def execUeAckReceive (s : State) : Out :=
  s.event fun s =>
    match s.port.packets.find? fun p => p.n = s.arg.n with
    | some p => (match p.cargo with
      | .message m => (s.dropPacket p.n).consume portIface m.job
      | _ => s.dropPacket p.n)
    | none => s

/-- What is lost: the loss record's fields, and the loss handler's registers (R363, R364). -/
structure Loss where
  job : Nat
  entry : Word
  target : Word
  p0 : Word
  p1 : Word
  x3 : Word
  sender : Word
  wid : Word
  prio : Nat
  widths : List Nat
  kind : Nat
  deriving DecidableEq, Repr

/-- The loss of a message. -/
def Msg.loss (m : Msg) : Loss :=
  match m.payload with
  | .words a b => ⟨m.job, m.entry, m.word, a, b, a, m.sender, m.wid, m.prio, m.widths, 0⟩
  | .vec _ _ => ⟨m.job, m.entry, m.word, 0, 0, 0, m.sender, m.wid, m.prio, m.widths, 1⟩

/-- A job's loss log has room (R364, R422). -/
def Job.lossSize (q : Job) : Nat := 2 ^ (bits q.losslog 52 4 + 4)
def Job.lossRoom (q : Job) : Bool := bits q.losslog 12 40 ≠ 0 && decide ((q.losshead - q.losstail).toNat < q.lossSize)

/-- The 64 bytes of a loss record (R364). -/
def Loss.bytes (l : Loss) (now : Word) : List Byte :=
  [l.entry, l.target, l.p0, l.p1, l.sender, l.wid, now, word l.kind].flatMap fun v => leBytes 8 v.toNat

/-- The loss record written and the loss handler posted (R363, R364). -/
def State.lose (s : State) (when_ : Word) (l : Loss) : State :=
  let q := s.job l.job
  let s1 := s.putBytes 256 (bits q.losslog 12 40 * 4096 + 64 * (q.losshead.toNat % q.lossSize)) (l.bytes when_)
  let s2 := ((s1.modJob l.job fun q => { q with losshead := q.losshead + 1 }).signal (16 * l.job + 3)).inject portIface l.job
  s2.arrive q.lossCore
    { kind := .loss, job := l.job, entry := q.lossEntry, payload := .words l.x3 l.p1, x5 := l.sender, x6 := l.entry, x7 := l.target
      x8 := word l.kind, wid := l.wid, widths := l.widths, prio := min q.ceil l.prio, holder := some portIface, time := s.sidereal }

/-- An abandoned message: its count, its record, its loss handler; all wait for room in the loss log (R363, R364). -/
def State.abandonMessage (s : State) (p : Packet) (m : Msg) : State :=
  if !(s.job m.job).live then s.dropPacket p.n
  else if !(s.job m.job).lossRoom then s
  else ((s.dropPacket p.n).count portIface m.job fun c => { c with inj := c.inj - 1 }).lose p.abandoned m.loss

/-- UE_ABANDON (R362, R363). -/
def execUeAbandon (s : State) : Out :=
  s.event fun s =>
    match s.port.packets.find? fun p => p.n = s.arg.n with
    | none => s
    | some p =>
      if p.sent < p.retry || !s.rtoOver p then s
      else
        match p.cargo with
        | .message m => s.abandonMessage p m
        | .link job core bank peer queue _ lsend total wid prio widths =>
          if !(s.job job).live then s.dropPacket p.n
          else if !(s.job job).lossRoom then s
          else
            (s.dropLink lsend).lose p.abandoned
              { job := job, entry := 0, target := word (peer + 2 ^ 16 * queue), p0 := 0, p1 := 0, x3 := word total
                sender := word (core + 2 ^ 8 * bank + 2 ^ 16 * s.ownChip job + 2 ^ 32), wid := wid, prio := prio, widths := widths, kind := 2 }
        | .control job child wave what =>
          match what with
          | .request second =>
            (s.dropPacket p.n).takeReply job ⟨child, wave, second, true, 0, 0, false⟩
          | _ => s.dropPacket p.n

/-- LINK_ARRIVAL: the bytes of one LSEND, once all its packets are there, join a declared queue's stream, in the queue's storage, or
break it (R41, R42, R366; log entry 89). -/
def execLinkArrival (s : State) : Out :=
  s.event fun s =>
    let j := s.arg.n
    let q := s.job j
    let key := 16 * s.arg.m + s.arg.k
    if !s.port.up || 64 ≤ j || !q.live || !q.links.contains (s.arg.m, s.arg.k, true) then s
    else if 65536 < (q.stream.get (0, 0) key).2 + s.arg.data.length then
      (s.modJob j fun q => { q with broken := q.broken.set false key true }).report (faultBare s j 0x12 0 0)
    else
      let (first, held) := q.stream.get (0, 0) key
      (s.putParts 256 (cutData (q.linkParts key (first + held) s.arg.data.length) s.arg.data)).modJob j fun q =>
        { q with stream := q.stream.set (0, 0) key (first, held + s.arg.data.length) }

end Sys2Proof.Machine
end

