-- ==== Sys2Proof/Machine/FlashEvents.lean ====
section
/-! DEFINITION. Events of the flash stacks and of the handle table: page reads, relocation, erases, handle transfers, answers (R296 to R304, R312 to R315, R416). -/
namespace Sys2Proof.Machine

/-! Page reads and relocation (R298, R301, R302, R416) -/

/-- A counter of 32 bits that saturates (R304). -/
def healthInc (n : Nat) : Nat := min (n + 1) 0xFFFFFFFF

/-- One read goes before another on a stack: demand first, then arrival (R298). -/
def FlashRead.before (a b : FlashRead) : Bool := (a.demand && !b.demand) || (a.demand = b.demand && decide (a.n < b.n))

/-- A read that its stack serves next: none under way goes before it (R298, R302). -/
def State.nextFlashRead (s : State) (n : Nat) : Option FlashRead :=
  let open_ := s.reads.filter fun r => r.got.isNone && !r.held
  open_.find? fun r => r.n = n && !(open_.any fun o => o.page % 8 = r.page % 8 && o.before r)

/-- The job that a reader belongs to. -/
def State.readerJob (s : State) : Reader → Option Nat
  | .handle h _ => some (s.handle h).job
  | .copy c _ => (s.core c).engine.current.map (·.job)

/-- Logical pages that stand in an erase block: those of its runs that have not been written since, and written ones. -/
def FlashStack.pagesIn (k : FlashStack) (n b : Nat) : List Nat :=
  let runs := (b :: k.place.map (·.1)).dedup.filter fun r => k.place.get r r = b
  let kept := runs.flatMap fun r => (List.range 2048).map fun i => 8 * (2048 * r + i) + n
  (kept ++ k.moved.map (·.1)).dedup.filter fun p => p < flashPages && k.blockOf p = b

/-- A page is read once: whether the read finds it uncorrectable, and the stack after it; an ordinary failure of the decode is
left open, `weak` (R303, R416; log entry 125). -/
def FlashStack.decode (k : FlashStack) (page : Nat) (weak : Bool) : Bool × FlashStack :=
  let armed := k.arm && k.armPage = page
  let bad := armed || weak || k.lost.contains page
  (bad, { k with arm := k.arm && !armed, uncorr := if bad then healthInc k.uncorr else k.uncorr })

/-- The relocation of a block reads a page of it: one found uncorrectable is so in the new block (R302, R303, R416). -/
def FlashStack.relocate (k : FlashStack) (page : Nat) (weak : Bool) : FlashStack :=
  let (bad, k1) := k.decode page weak
  if bad then { k1 with failed := page :: k1.failed } else k1

/-- A read is counted against its erase block; a count that reaches the threshold starts the block's
relocation, which reads every page of it (R302, R304, R416). -/
def State.countRead (s : State) (page : Nat) : State :=
  let n := page % 8
  let k := s.flashStack n
  let b := k.blockOf page
  if k.moving.contains b then s
  else
    let count := k.reads.get 0 b + 1
    let k1 := { k with reads := k.reads.set 0 b count }
    if count < k.thresh then s.modFlash n fun _ => k1
    else
      let ps := k1.pagesIn n b
      let k2 := ps.zipIdx.foldl (fun k p => k.relocate p.1 (Config.freeBool (s.free + p.2))) { k1 with moving := b :: k1.moving }
      { s with free := s.free + ps.length }.modFlash n fun _ => k2

/-- What a reader gets (R285, R297). -/
def State.deliver (s : State) (r : FlashRead) (bad : Bool) : State :=
  match r.reader with
  | .handle _ _ => { s with reads := s.reads.map fun (o : FlashRead) => if o.n = r.n then { o with got := some bad } else o }
  | .copy c e => { s with reads := s.reads.filter fun o => o.n ≠ r.n }.modCopy c fun q => { q with pages := q.pages ++ [(e, r.page, bad)] }

/-- FLASH_PAGE_READ (R302). -/
def execFlashPageRead (s : State) : Out :=
  s.event fun s =>
    match s.nextFlashRead s.arg.n with
    | none => s
    | some r =>
      let (bad, k) := (s.flashStack (r.page % 8)).decode r.page (Config.freeBool s.free)
      let s := (s.useFree.2.modFlash (r.page % 8) fun _ => k).countRead r.page
      let s := match s.readerJob r.reader with
        | some j => s.modJob j fun q => { q with flashBytes := q.flashBytes + 16384 }
        | none => s
      s.deliver r bad

/-- RELOCATION_REMAP: the block's pages stand in a new block, in one step; held reads go on (R302). -/
def FlashStack.remap (k : FlashStack) (n b : Nat) : FlashStack :=
  let runs := (b :: k.place.map (·.1)).dedup.filter fun r => k.place.get r r = b
  let here := k.pagesIn n b
  { k with
    place := runs.foldl (fun m r => m.set r r k.nextBlock) k.place
    moved := k.moved.map fun e => if e.2 = b then (e.1, k.nextBlock) else e
    fresh := k.fresh.filter fun e => e.1 ≠ b
    lost := (k.failed.filter here.contains ++ k.lost).dedup
    failed := k.failed.filter fun p => !here.contains p
    reads := k.reads.set 0 b 0
    reloc := healthInc k.reloc
    spare := k.spare - 1
    moving := k.moving.filter (· ≠ b)
    erasing := b :: k.erasing
    nextBlock := k.nextBlock + 1 }

/-- A read is in progress at an erase block of a stack: it set out before the block's relocation began (R302). -/
def State.readsAt (s : State) (n b : Nat) : Bool :=
  s.reads.any fun r => decide (r.page % 8 = n) && r.got.isNone && !r.held && decide ((s.flashStack n).blockOf r.page = b)

/-- A held read goes on with the remap of its block; one whose page has been written since stands in a block that is not being
relocated (R302). -/
def FlashRead.remapped (r : FlashRead) (k : FlashStack) (n b : Nat) : FlashRead :=
  if decide (r.page % 8 = n) && (decide (k.blockOf r.page = b) || !k.moving.contains (k.blockOf r.page)) then { r with held := false } else r

/-- RELOCATION_REMAP (R302): reads in progress at the old block are served there first. -/
def execRelocationRemap (s : State) : Out :=
  s.event fun s =>
    let k := s.flashStack s.arg.n
    let b := s.arg.m
    if !k.moving.contains b || s.readsAt s.arg.n b then s
    else { s with reads := s.reads.map (fun (r : FlashRead) => r.remapped k s.arg.n b) }.modFlash s.arg.n fun k => k.remap s.arg.n b

/-- An erase block's erase ends: it is spare again, or retired; the erase counts rise as this block's
count, which the model does not keep, makes them (R302, R304). -/
def FlashStack.erased (k : FlashStack) (b : Nat) (failed worst mean : Bool) : FlashStack :=
  let k1 := { k with
    erasing := k.erasing.erase b
    eraseMax := if worst then healthInc k.eraseMax else k.eraseMax
    eraseMean := if mean then healthInc k.eraseMean else k.eraseMean }
  if failed then { k1 with badBlocks := healthInc k1.badBlocks } else { k1 with spare := healthInc k1.spare }

/-- BLOCK_ERASE_COMPLETE (R302). -/
def execBlockEraseComplete (s : State) : Out :=
  s.event fun s =>
    if !(s.flashStack s.arg.n).erasing.contains s.arg.m then s
    else
      ({ s with free := s.free + 2 } : State).modFlash s.arg.n fun k =>
        k.erased s.arg.m s.arg.flag (Config.freeBool s.free) (Config.freeBool (s.free + 1))

/-! The handle table (R296, R312 to R315) -/

/-- A handle changed, and the records that it gates (R56, R58). -/
def State.modHandle (s : State) (h : Nat) (f : Handle → Handle) : State := (s.setHandle h (f (s.handle h))).regate

/-- An answer reaches its register (R315). -/
def State.answer (s : State) (r : HReq) (v : Word) : State :=
  let mine (e : Pend) : Bool := e.why = .handle && e.n = r.token
  { s with hreqs := s.hreqs.filter fun q => q.n ≠ r.n }.modCtx r.core r.bank fun k =>
    if k.pend.any mine then { k.setX r.reg v with pend := k.pend.filter fun e => !mine e } else k

/-- A destination page that a handle may write: present, writable, HOME 00 or 11 (R296). -/
def State.destOk (s : State) (r : HReq) (va : Word) : Bool :=
  canonical va && (bits va 48 16 < 0xFD || decide (0xFF < bits va 48 16)) &&
  (match s.walk r.job (bits va 14 42) with
    | .ok l =>
      pteW l.entry && !pteS l.entry && !pteZ l.entry && (pteHome l.entry = 0 || pteHome l.entry = 3) && (pteU l.entry || r.sup) &&
      populated (l.pa va)
    | .error _ => false)

/-- The lowest FREE handle (R296). -/
def State.freeHandle (s : State) : Option Nat := (List.range 4096).find? fun h => (s.handle h).state = .free

/-- A refusal's code in x[D] (R312). -/
def refusal (code : Nat) : Word := word (2 ^ 63 + code)

/-- The answer to a WHREQ or WHDMD: a refusal, or a handle whose page reads set out (R296, R297, R312). -/
def State.answerRequest (s : State) (r : HReq) (first count : Nat) (dest : Word) (demand below : Bool) : State :=
  match s.freeHandle with
  | none => s.answer r (refusal 1)
  | some h =>
    if !((List.range count).all fun i => s.destOk r (dest + word (16384 * i))) then s.answer r (refusal 2)
    else if !((List.range count).all fun i => (s.job r.job).granted (first + i) false) then s.answer r (refusal 3)
    else if below then s.answer r (refusal 4)
    else
      let s1 := s.modHandle h fun _ =>
        { state := .pending, job := r.job, asid := r.asid, first := first, count := count, dest := dest, demand := demand, landed := []
          err := false, mark := false }
      ((List.range count).foldl (fun s i => s.readFlash (first + i) (.handle h i) demand) s1).answer r (word h)

/-- The answer to WHDMD.up (R313). -/
def State.answerUpgrade (s : State) (r : HReq) (h : Nat) : State :=
  match s.handleState r.job h with
  | .free => s.answer r (refusal 6)
  | .pending =>
    let mine (o : FlashRead) : Bool := match o.reader with
      | .handle g _ => g = h
      | .copy _ _ => false
    ({ s with reads := s.reads.map fun (o : FlashRead) => if mine o then { o with demand := true } else o }.modHandle h fun k =>
      { k with demand := true }).answer r (word h)
  | _ => s.answer r (word h)

/-- A request that the table can answer: no earlier one of its context is under way (R109, R315). -/
def State.nextAsk (s : State) (n : Nat) : Option HReq :=
  s.hreqs.find? fun r => r.n = n && !(s.hreqs.any fun o => o.core = r.core && o.bank = r.bank && decide (o.n < n))

/-- HANDLE_TABLE_ANSWER (R315). -/
def execHandleTableAnswer (s : State) : Out :=
  s.event fun s =>
    match s.nextAsk s.arg.n with
    | none => s
    | some r =>
      match r.kind with
      | .request first count dest demand below => s.answerRequest r first count dest demand below
      | .upgrade h => s.answerUpgrade r h

/-! Transfers (R297, R303) -/

/-- The ASYNC record of a handle transfer (R303). -/
def State.handleRecord (s : State) (k : Handle) (cause : Nat) (va detail : Word) : State :=
  s.report { faultBare s k.job cause 11 va with slot := 7, async := true, asid := k.asid, detail := detail }

/-- The destination address of a page of a handle. -/
def Handle.pageVA (k : Handle) (page : Nat) : Word := k.dest + word (16384 * page)

/-- A handle's page found its destination: where its bytes go, or the fault. -/
def State.pageDest (s : State) (k : Handle) (page : Nat) : Except XFault (List (Nat × Nat)) × State :=
  s.resolve ⟨256, k.asid, k.job, true, false⟩ { write := true } (pieces (k.pageVA page) 16384)

/-- The bytes of a flash page, all marked where the read found it uncorrectable (R303). -/
def State.pageRun (s : State) (fp : Nat) (bad : Bool) : Run :=
  let data := s.bytesAt (flashKey (16384 * fp)) 16384
  if bad then .spoilt data else ⟨data, Sparse.slice false s.bad (flashKey (16384 * fp)) 16384⟩

/-- A page of a handle lands: its bytes, or a destination fault (R297, R303). -/
def State.landPage (s : State) (h page fp : Nat) (bad : Bool) : State :=
  let k := s.handle h
  let s1 := s.setHandle h { k with landed := k.landed.set false page true, err := k.err || bad }
  match s1.pageDest k page with
  | (.error x, s2) => (s2.handleRecord k x.cause (k.pageVA page) x.detail).setHandle h { s2.handle h with err := true }
  | (.ok parts, s2) =>
    let s3 := s2.putAlong 256 parts (s2.pageRun fp bad)
    if bad then s3.handleRecord k 0x2A (k.pageVA page) 0 else s3

/-- A page of a handle lands chunk by chunk: one chunk of it, or with `all` what is left; with the last one the page has landed
(R297, R298, R341). -/
def State.landPart (s : State) (h page : Nat) (r : FlashRead) (l : List (Nat × Run)) (all : Bool) : State :=
  let (now, rest) := if all then (l, []) else pickChunk s.free l
  let s1 := (if all then s else s.useFree.2).putRuns 256 now
  if !rest.isEmpty then
    { s1 with reads := s1.reads.map fun (o : FlashRead) => if o.n = r.n then { o with land := some rest } else o }
  else
    let bad := r.got.getD false
    let k := s1.handle h
    let s2 := { s1 with reads := s1.reads.filter fun o => o.n ≠ r.n }.setHandle h { k with landed := k.landed.set false page true, err := k.err || bad }
    if bad then s2.handleRecord k 0x2A (k.pageVA page) 0 else s2

/-- HANDLE_PAGE_LAND (R297): a page lands, or more of one whose chunks land apart; with the flag one chunk lands (R341). -/
def execHandlePageLand (s : State) : Out :=
  s.event fun s =>
    let h := s.arg.n
    let page := s.arg.m
    match s.reads.find? fun r => r.reader = .handle h page && r.got.isSome with
    | none => s
    | some r =>
      let whole := { s with reads := s.reads.filter fun o => o.n ≠ r.n }.landPage h page r.page (r.got.getD false)
      match r.land with
      | some l => s.landPart h page r l !s.arg.flag
      | none =>
        if !s.arg.flag then whole
        else
          match s.pageDest (s.handle h) page with
          | (.error _, _) => whole
          | (.ok parts, s1) => s1.landPart h page r ((s1.pageRun r.page (r.got.getD false)).along parts) false

/-- Every page of a handle has landed. -/
def Handle.all (k : Handle) : Bool := k.state = .pending && k.landed.length = k.count

/-- HANDLE_READY (R297). -/
def execHandleReady (s : State) : Out :=
  s.event fun s => s.modHandle s.arg.n fun k => if k.all && !k.err && !k.mark then { k with state := .ready } else k

/-- HANDLE_ERROR (R297). -/
def execHandleError (s : State) : Out :=
  s.event fun s => s.modHandle s.arg.n fun k => if k.all && k.err && !k.mark then { k with state := .error } else k

/-- HANDLE_RELEASE_FREE (R297). -/
def execHandleReleaseFree (s : State) : Out :=
  s.event fun s => s.modHandle s.arg.n fun k => if k.all && k.mark then .free else k

end Sys2Proof.Machine
end

