-- ==== Sys2Proof/Machine/Queued.lean ====
section
/-! DEFINITION. The operations that wait in the slot queues M, V0 and V1, as they issue from them (R110). -/
namespace Sys2Proof.Machine

/-- An operation of a slot that slips, carried out as it leaves its queue; no other operation is ever queued (R109, R110). -/
def execQueued (i : Instr) (s : State) : Out :=
  match i with
  | .vadd v f => execVadd v f s
  | .vsub v f => execVsub v f s
  | .vmul v f => execVmul v f s
  | .vfma v f => execVfma v f s
  | .vfms v f => execVfms v f s
  | .vmin v f => execVmin v f s
  | .vmax v f => execVmax v f s
  | .vabs v f => execVabs v f s
  | .vneg v f => execVneg v f s
  | .vdiv f => execVdiv f s
  | .vrcp v f => execVrcp v f s
  | .vrsq v f => execVrsq v f s
  | .vexp2 v f => execVexp2 v f s
  | .vlog2 v f => execVlog2 v f s
  | .vand v f => execVand v f s
  | .vor v f => execVor v f s
  | .vxor v f => execVxor v f s
  | .vshl v f => execVshl v f s
  | .vshr v f => execVshr v f s
  | .vsar v f => execVsar v f s
  | .vceq v f => execVceq v f s
  | .vcne v f => execVcne v f s
  | .vclt v f => execVclt v f s
  | .vcle v f => execVcle v f s
  | .vsel v f => execVsel v f s
  | .vmov v f => execVmov v f s
  | .vbcst v f => execVbcst v f s
  | .viota v f => execViota v f s
  | .vxtr v f => execVxtr v f s
  | .vins v f => execVins v f s
  | .vradd f => execVradd f s
  | .vrmax f => execVrmax f s
  | .vrmin f => execVrmin f s
  | .vscan f => execVscan f s
  | .vargmx f => execVargmx f s
  | .vperm f => execVperm f s
  | .vrot v f => execVrot v f s
  | .vcmpr f => execVcmpr f s
  | .vsortk f => execVsortk f s
  | .vmrgk f => execVmrgk f s
  | .vcvt v f => execVcvt v f s
  | .vqnt v f => execVqnt v f s
  | .vdqnt v f => execVdqnt v f s
  | .vtag v f => execVtag v f s
  | .vgtag v f => execVgtag v f s
  | .mma f => execMma f s
  | .mmaAbs f => execMmaAbs f s
  | .mmam f => execMmam f s
  | .ttrn f => execTtrn f s
  | .tprm f => execTprm f s
  | .tred f => execTred f s
  | .azero f => execAzero f s
  | .aadd f => execAadd f s
  | .ascl f => execAscl f s
  | .acvt f => execAcvt f s
  | .afold f => execAfold f s
  | .arow f => execArow f s
  | .awrow f => execAwrow f s
  | .tzero f => execTzero f s
  | .tmov f => execTmov f s
  | .trow f => execTrow f s
  | .twrow f => execTwrow f s
  | .ttag f => execTtag f s
  | .lxld f => execLxld f s
  | .lxinv f => execLxinv f s
  | _ => .next s

end Sys2Proof.Machine
end

