-- ==== Sys2Proof/Machine/IssueEvents.lean ====
section
/-! DEFINITION. Events of the cores: waits that expire, operations that leave their queues, data that arrives, stores and reductions that perform, the slot wheel, timers (R106, R110, R128, R152, R157, R158, R212, R221, R246, R274, R276, R348, R349, R391, R437). -/
namespace Sys2Proof.Machine

/-- Cycles since a wait began. -/
def State.waited (s : State) (k : Ctx) : Nat :=
  match k.since with
  | some t => (s.sidereal - t).toNat
  | none => 0

/-- WAITA_TIMEOUT: the wait ends with the last value read (R157). -/
def State.expire (s : State) (c b : Nat) : State :=
  let k := s.ctx c b
  match k.status, k.await with
  | .idle, _ => s
  | st, some (.word _ _ _) =>
    if k.timeout ≠ 0 && k.since.isSome && k.timeout ≤ s.waited k then
      s.setCtx c b { k with expired := true, status := match st with
        | .parked _ => .resumable
        | st => st }
    else s
  | _, _ => s

/-- WAITA_TIMEOUT (R157). -/
def execWaitaTimeout (s : State) : Out := s.event fun s => s.expire s.arg.core s.arg.bank

/-- LONG_WAIT_PARK: after 512 cycles the task parks, which meets a pre-emption request (R158). -/
def State.parkLong (s : State) (c b : Nat) : State :=
  let k := s.ctx c b
  match k.status, k.await with
  | .running, some w =>
    if k.since.isSome && 512 ≤ s.waited k && k.mayLeave then
      let s1 := s.setCtx c b (k.suspend (.parked w))
      let s1 := if w = .swap then s1.modEngine c fun e => { e with claims := e.claims ++ [(k.serial, k.pc)] } else s1
      if k.preq.isSome && k.mode = .user then s1.landPreempt c b else s1
    else s
  | _, _ => s

/-- LONG_WAIT_PARK (R158). -/
def execLongWaitPark (s : State) : Out := s.event fun s => s.parkLong s.arg.core s.arg.bank

/-! Slot queues and data in flight (R106, R109 to R111, R212, R222, R276) -/

/-- MWAIT's conditions hold: no tile or accumulator that an earlier bundle wrote is busy, and no expander load that the
context began is under way (R222). -/
def State.mwaitOver (s : State) (c b bundle : Nat) : Bool :=
  !((s.ctx c b).pend.any fun e => decide (e.bundle < bundle) && (match e.reg, e.why with
    | _, .mark _ => false
    | .t _, _ | .a _, _ => true
    | _, _ => false)) &&
  !((s.core c).exp.any fun e => e.2.busy && e.2.loader = b)

/-- The load of the expander slot that an entry waits for is under way (R221). -/
def State.xsBusy (s : State) (c : Nat) (x : Option Nat) : Bool := match x with
  | some x => ((s.core c).exp.get .none x).busy
  | none => false

/-- A queued operation as its bundle found the registers, but for those whose values came later (R108, R109). -/
def LateOp.found (o : LateOp) (e : QEntry) (k : Ctx) : Ctx :=
  { o.wants.foldl (fun (q : Ctx) r => q.copyReg k r) (o.regs.onto k) with pc := o.pc, bundle := e.bundle }

/-- The scratch in which a queued operation is carried out. -/
def State.openLate (s : State) (c b : Nat) (e : QEntry) (o : LateOp) : State :=
  let k := o.found e (s.ctx c b)
  { s with issue := { Issue.none with core := c, bank := b, slot := e.slot, instr := o.instr, cond := (o.pred.map k.predicate).getD o.cond
                                      pre := k, mem0 := s.mem, bad0 := s.bad, need := e.need, late := some o.mark } }.setCtx c b k

/-- The operation of a queue entry, carried out; a predicate that arrived poisoned traps (R71, R260). -/
def State.carryOut (s : State) (c b : Nat) (e : QEntry) (o : LateOp) : Out :=
  let t := s.openLate c b e o
  if o.pred.any fun p => t.issue.pre.spoilt (.p p.reg.toNat) then .next (t.raise 0x10 0) else execQueued o.instr t

/-- The values that a queue entry takes late are there. -/
def Ctx.hasWanted (k : Ctx) (e : QEntry) (o : LateOp) : Bool := !(k.pend.any fun p => decide (p.bundle < e.bundle) && o.wants.contains p.reg)

/-- A queue entry meets poison as it issues (R111). -/
def State.doomed (s : State) (c b : Nat) (e : QEntry) : Bool := match e.late with
  | some o => !o.wants.isEmpty && (match s.carryOut c b e o with
    | .next t => match t.issue.verdict with
      | .trap _ _ => true
      | _ => false
    | _ => false)
  | none => false

/-- The other queued operations of an entry's bundle. -/
def Ctx.siblings (k : Ctx) (e : QEntry) : List QEntry := k.queue.filter fun q => q.bundle = e.bundle && q.slot ≠ e.slot

/-- The other queued operations of an entry's bundle have the values that they take late. -/
def Ctx.siblingsHave (k : Ctx) (e : QEntry) : Bool := (k.siblings e).all fun q => match q.late with
  | some o => k.hasWanted q o
  | none => true

/-- No other queued operation of an entry's bundle may meet poison any more: a bundle that traps commits nothing (R111). -/
def State.siblingsReady (s : State) (c b : Nat) (e : QEntry) : Bool :=
  (s.ctx c b).siblingsHave e && !(((s.ctx c b).siblings e).any (s.doomed c b))

/-- A released stack holds the engine of a core or waits for one of the cluster's: it goes ahead of an operation that has not been
merged (R226). -/
def Stack.aheadAt (c : Nat) (st : Stack) : Bool := st.core = some c || (st.released.isSome && st.core.isNone && !st.lone)

/-- An operation of slot M waits for the engine (R226). -/
def State.engineAhead (s : State) (c : Nat) (e : QEntry) : Bool :=
  e.slot = 4 && !e.mwait && (s.cluster (clusterOf c)).stk.any (·.aheadAt c)

/-- A queued operation may join the merge buffer (R223). -/
def State.mayJoin (s : State) (c : Nat) (e : QEntry) : Bool := match e.late with
  | some o => (match o.instr with
    | .mmam f => e.need.rows.isNone && s.mergeable c f
    | _ => false)
  | none => false

/-- The head of a queue has its operands: what earlier bundles write has been written, what they read has been read, its source
slots are filled, its expander slot is loaded, what its context has written to its image since can be seen, and a merge-buffer
member's own stores to it have performed; no released stack goes ahead of it; and no other operation of its bundle may meet
poison, unless it does so itself (R105, R109, R111, R221, R223, R226, R340). -/
def State.headReady (s : State) (c b : Nat) (e : QEntry) : Bool :=
  let k := s.ctx c b
  !(k.pend.any fun p => decide (p.bundle < e.bundle) && (e.reads.contains p.reg || e.writes.contains p.reg)) &&
  !(k.queue.any fun q => decide (q.bundle < e.bundle) && q.reads.any e.writes.contains) &&
  !(k.pend.any fun p => (match p.why with
    | .tile _ => e.need.after.contains p.n
    | _ => false)) &&
  !s.xsBusy c e.need.xs && (!s.engineAhead c e || s.mayJoin c e) &&
  (match e.late, e.need.img with
    | some o, some (_, ks) =>
      let own := k.stores.filter fun st => st.n < o.mark
      e.need.rows.isSome || (!(s.ownWrites c b o.mark own ks) && (match o.instr with
        | .mmam f => !(s.mergeable c f && own.any fun st => st.runs.any fun p => ks.any (chunksMeet p))
        | _ => true))
    | _, _ => true) &&
  (s.siblingsReady c b e || s.doomed c b e)

/-- The registers of a trapping bundle's queued operations as the bundle found them, but for those that a later bundle's
operation writes, and the hold latches of their slots (R103, R111). -/
def Ctx.unqueue (k : Ctx) (o : LateOp) (bundle : Nat) : Ctx :=
  let own := k.queue.filter fun q => q.bundle = bundle
  let later := k.queue.filter fun q => decide (bundle < q.bundle)
  let back := (own.flatMap (·.writes)).filter fun r => !(later.any fun q => q.writes.contains r)
  let slots := (own.map (·.slot)).filter fun sl => !(later.any fun q => q.slot = sl)
  let latches := slots.flatMap fun sl => [Reg.l (3 * sl), .l (3 * sl + 1), .l (3 * sl + 2)]
  (back ++ latches).foldl (fun (q : Ctx) r => q.copyReg (o.regs.onto k) r) k

/-- Poison that arrives as a queued operation issues: once the earlier operations have left their queues, its bundle traps and
commits nothing; the trap is not resumable, and the supervisor receives a notice (R111, R387, R393; log entry 121). -/
def State.trapLate (s : State) (c b : Nat) (e : QEntry) (o : LateOp) : State :=
  let k := s.ctx c b
  if s.splitOut c b || (k.queue.any fun q => decide (q.bundle < e.bundle)) || !k.siblingsHave e ||
      (k.siblings e).any (fun q => decide (q.slot < e.slot) && s.doomed c b q) then s
  else
    ((s.setCtx c b (k.unqueue o e.bundle)).takeTrap c b ⟨0x10, e.slot, 0, 0, 0, false, true, o.pc⟩).service 1 k.job s.pkg.svctl
      (contextWord c b k.job) ((s.job k.job).fqhead.setWidth 64)

/-- A queued operation is carried out as it issues: the registers that it writes, and what it leaves elsewhere (R109, R111). -/
def State.runLate (s : State) (c b : Nat) (e : QEntry) (o : LateOp) : State :=
  match s.carryOut c b e o with
  | .next t =>
    match t.issue.verdict with
    | .commit =>
      if s.engineAhead c e && !t.issue.joined then s
      else { t with issue := .none }.setCtx c b
        ((e.writes.foldl (fun (q : Ctx) r => q.copyReg (t.ctx c b) r) (s.ctx c b)).leaveQueue e t.issue.joined)
    | .trap _ _ => s.trapLate c b e o
    | _ => s
  | _ => s

/-- The head of a slot queue issues (R110). -/
def State.issueHead (s : State) (c b slot : Nat) : State :=
  match (s.ctx c b).queue.find? fun e => e.slot = slot with
  | none => s
  | some e =>
    let s := if e.mwait then s.releaseStacksOf c b else s
    if !(if e.mwait then s.mwaitOver c b e.bundle && s.siblingsReady c b e else s.headReady c b e) then s
    else
      match e.late with
      | some o => s.runLate c b e o
      | none => s.modCtx c b (·.leaveQueue e)

/-- SLOT_QUEUE_ISSUE (R110). -/
def execSlotQueueIssue (s : State) : Out := s.event fun s => s.issueHead s.arg.core s.arg.bank s.arg.n

/-- LOAD_DATA_RETURN: the register is pending no longer (R109, R276). -/
def execLoadDataReturn (s : State) : Out :=
  s.event fun s => s.modCtx s.arg.core s.arg.bank fun k => k.arrive fun e => e.why = .load && e.n = s.arg.n

/-- Slots that QADVT marked and that no load stands before any longer: their number, and what remains (R106). -/
def passMarks (q : Nat) : List Pend → Nat × List Pend
  | [] => (0, [])
  | e :: r =>
    if e.why = .mark q then
      let (n, rest) := passMarks q r
      (e.n + n, rest)
    else if e.why = .tile (some q) then (0, e :: r)
    else
      let (n, rest) := passMarks q r
      (n, e :: rest)

/-- A tile load completes: in a ring, in reservation order (R106). -/
def Ctx.tileDone (k : Ctx) (e : Pend) : Ctx :=
  match e.why with
  | .tile (some q) =>
    match k.pend.find? fun p => p.why = .tile (some q) || p.why = .mark q with
    | some p =>
      if p ≠ e then k
      else
        let k1 := k.arrive (· = e)
        let (m, rest) := passMarks q k1.pend
        let r := k1.getRing q
        { k1.setRing q { r with fill := r.fill + 1 + m } with pend := rest }
    | none => k
  | _ => k.arrive (· = e)

/-- TILE_LOAD_COMPLETE: an expander result waits for its slot's load (R106, R221). -/
def execTileLoadComplete (s : State) : Out :=
  s.event fun s =>
    let c := s.arg.core
    match (s.ctx c s.arg.bank).pend.find? fun e => e.n = s.arg.n && (match e.why with
      | .tile _ => true
      | _ => false) with
    | none => s
    | some e => if s.xsBusy c e.xs then s else s.modCtx c s.arg.bank (·.tileDone e)

/-- MATRIX_RESULT_WRITE: the last row is written (R212). -/
def execMatrixResultWrite (s : State) : Out :=
  s.event fun s => s.modCtx s.arg.core s.arg.bank fun k => k.arrive fun e => e.why = .matrix && e.n = s.arg.n

/-- EXPANDER_LOAD_COMPLETE (R221). -/
def execExpanderLoadComplete (s : State) : Out :=
  s.event fun s => s.modCore s.arg.core fun k =>
    { k with exp := k.exp.set .none s.arg.n { k.exp.get .none s.arg.n with busy := false } }

/-- LOAD_BLOCK_FILLED (R246). -/
def execLoadBlockFilled (s : State) : Out :=
  s.event fun s => s.modCtx s.arg.core s.arg.bank fun k =>
    let b := k.blocks.get .none s.arg.n
    if b.used && !b.broken then { k with blocks := k.blocks.set .none s.arg.n { b with filled := true } } else k

/-- GENERATOR_REFILL (R128). -/
def execGeneratorRefill (s : State) : Out :=
  s.event fun s => s.modCtx s.arg.core s.arg.bank fun k => if k.occupied then k.refill else k

/-- EVENT_ARRIVAL: the event bit of the named context is set; an event for a bank without a task of the
sender's job is dropped (R152). -/
def execEventArrival (s : State) : Out :=
  s.event fun s =>
    match s.fabric.events.find? fun e => e.1 = s.arg.n with
    | none => s
    | some (n, c, b, job, any) =>
      let s := { s with fabric := { s.fabric with events := s.fabric.events.filter fun e => e.1 ≠ n } }
      if (s.ctx c b).occupied && (any || (s.ctx c b).job = job) then s.modCtx c b fun k => { k with event := true } else s

/-! Stores (R340 to R343, R437) -/

/-- Two stores keep their order: they go to one location, or both to the own LDM (R340, R342). -/
def StoreOp.meets (c : Nat) (a b : StoreOp) : Bool :=
  (a.inLdm c && b.inLdm c) || a.runs.any fun p => b.runs.any (chunksMeet p)

/-- The stores of a bank up to one perform, in order. -/
def State.performUpTo (s : State) (c b n : Nat) : State :=
  let (now, later) := (s.ctx c b).stores.partition fun st => st.n ≤ n
  (now.foldl (fun s st => s.putParts c st.parts st.bad) s).modCtx c b fun k => { k with stores := later }

/-- The units of a write that no earlier one of its units meets: those that meet land in ascending order (R263, R265). -/
def nextUnits (us : List (Nat × List Byte)) : List (Nat × (Nat × List Byte)) :=
  (us.mapIdx fun i p => (i, p)).filter fun e => !((us.take e.1).any fun q => runsMeet (q.1, q.2.length) (e.2.1, e.2.2.length))

/-- A store lands: the whole of it or, where its access is not single-copy atomic, one unit of it; which is left open (R341). -/
def State.landStore (s : State) (c b : Nat) (st : StoreOp) : State :=
  let drop (s : State) : State := s.modCtx c b fun k => { k with stores := k.stores.filter fun o => o.n ≠ st.n }
  if st.unit = 0 then drop (s.putParts c st.parts st.bad)
  else if Config.freeBool s.free then drop (s.useFree.2.putParts c st.parts st.bad)
  else
    let us := unitsOf st.unit st.parts
    let next := nextUnits us
    let i := ((next[Config.freeNat s.free % next.length]?).map (·.1)).getD 0
    let rest := us.eraseIdx i
    let s1 := s.useFree.2.putParts c (us[i]?.toList) st.bad
    if rest.isEmpty then drop s1
    else s1.modCtx c b fun k => { k with stores := k.stores.map fun o => if o.n = st.n then { o with parts := rest } else o }

/-- STORE_PERFORM: a release performs after every earlier store and reduction; another store performs
before earlier ones that it does not meet, releases among them (R340, R343).  A stamped store performs with the slot wheel
(R349). -/
def State.performStore (s : State) (c b n : Nat) : State :=
  let k := s.ctx c b
  match k.stores.find? fun st => st.n = n with
  | none => s
  | some st =>
    let before := k.stores.filter fun o => o.n < n
    let all (m : Nat) : Bool := s.fabric.reductions.any fun r => s.holdsBack c b r && decide (r.n < m)
    if s.storeWaits c b st then s
    else if st.release then
      if !before.isEmpty || all n then s else s.landStore c b st
    else if before.any (·.meets c st) then s
    else s.landStore c b st

/-- STORE_PERFORM (R437). -/
def execStorePerform (s : State) : Out := s.event fun s => s.performStore s.arg.core s.arg.bank s.arg.n

/-! Reductions at memory (R243, R274, R396) -/

/-- A reduction replaced in the list of those in flight. -/
def State.setReduction (s : State) (r : Reduction) : State :=
  { s with fabric := { s.fabric with reductions := s.fabric.reductions.map fun x => if x.n = r.n then r else x } }

/-- A reduction replaced, and last in the list: orphans stand there in log order (R396). -/
def State.moveLast (s : State) (r : Reduction) : State :=
  { s with fabric := { s.fabric with reductions := (s.fabric.reductions.filter fun x => x.n ≠ r.n) ++ [r] } }

/-- Two reductions come from one context. -/
def Reduction.sibling (a b : Reduction) : Bool := a.ctx = b.ctx

/-- Two reductions name one 16 KiB page (R396). -/
def Reduction.samePage (a b : Reduction) : Bool := a.asid = b.asid && bits a.va 14 50 = bits b.va 14 50

/-- The INFO word of an orphan record (R397). -/
def Reduction.info (r : Reduction) (cause : Nat) : Word :=
  word (2 ^ 56 * cause + 2 ^ 49 * r.op + 2 ^ 46 * r.scl + 2 ^ 43 * r.ord + 2 ^ 40 * r.scope + 2 ^ 16 * r.asid + 2 ^ 8 * r.core + r.job)

/-- Records that a job's orphan log holds (R397). -/
def Job.orSize (q : Job) : Nat := 2 ^ (bits q.orlog 52 4 + 4)

/-- The orphan log has room: it exists and is not full (R397, R422). -/
def Job.orRoom (q : Job) : Bool := bits q.orlog 12 40 ≠ 0 && (q.orhead - q.ortail).toNat < q.orSize

/-- A reduction joins its job's orphan log, with the record of its fault; without room there the interface holds it (R396, R397). -/
def State.orphan (s : State) (r : Reduction) (x : Nat × Word × Word) : State :=
  let q := s.job r.job
  if !q.orRoom then s.moveLast { r with stage := 3, fault := some x }
  else
    let at_ := bits q.orlog 12 40 * 4096 + 32 * (q.orhead.toNat % q.orSize)
    let data := leBytes 8 r.va.toNat ++ leBytes 8 (r.operand.toNat % 2 ^ (8 * r.width)) ++ leBytes 8 (r.info x.1).toNat ++
      leBytes 8 s.sidereal.toNat
    let s1 := (((s.putBytes 256 at_ data).modJob r.job fun q => { q with orhead := q.orhead + 1 }).moveLast
      { r with stage := 2, fault := none }).signal (16 * r.job + 4)
    if x.1 = 0 then s1 else s1.reductionRecord r x.1 x.2.1 x.2.2

/-- A reduction translated and performed; a fault moves it to the orphan log with its record; a word
marked uncorrectable is not written (R243, R260, R274, R396). -/
def State.reduceAt (s : State) (r : Reduction) : State :=
  match s.resolve r.agent { write := true, atomic := true } (pieces r.va r.width) with
  | (.error x, s1) => s1.orphan r (x.cause, x.va, x.detail)
  | (.ok parts, s1) =>
    let key := (parts.headD (0, 0)).1
    let ((_, bad), s2) := s1.atomicAt (homeWriter r.core r.bank) (reductionOp r.op r.scl) key r.width (r.operand.toNat % 2 ^ (8 * r.width)) 0
    let s3 := if bad then s2.reductionRecord r 0x10 r.va 0 else s2
    s3.setReduction { r with stage := 1 }

/-- REDUCTION_PERFORM: in bundle order at one location and in one page; logged, untranslated, behind logged ones of its page; and
for a release after every earlier access of its context, the reads of operand images too (R274, R340, R343, R396). -/
def State.performReduction (s : State) (n : Nat) : State :=
  match s.fabric.reductions.find? fun r => r.n = n && (r.stage = 0 || r.stage = 3) with
  | none => s
  | some r =>
    let earlier := s.fabric.reductions.filter fun x => x.n < n && x.sibling r && x.stage ≠ 1
    let release := r.ord = 2 || r.ord = 3
    let here := r.keys s
    match r.fault with
    | some x => if (s.job r.job).orRoom && !(earlier.any fun x => x.stage = 3 && x.samePage r) then s.orphan r x else s
    | none =>
      let meets (x : Reduction) : Bool := (x.keys s).any fun k => here.any (chunksMeet k)
      let act (s : State) : State := s.reduceAt r
      if earlier.any fun x => x.stage = 3 && x.samePage r then s
      else if (earlier.any fun x => x.stage = 2 && x.samePage r) && !(earlier.any fun x => x.stage = 0 && x.samePage r) then
        s.orphan r (0, 0, 0)
      else if earlier.any (fun x => x.stage = 0 && (x.samePage r || meets x)) || (release && !earlier.isEmpty) then s
      else
        match s.bankOf r.ctx with
        | none => act s
        | some (c, b) =>
          let before := (s.ctx c b).stores.filter fun st => st.n < n
          let those := if release then before else before.filter fun st => st.runs.any fun k => here.any (chunksMeet k)
          if those.any (s.storeWaits c b) || s.imageWaits c b n here || (release && !(s.imageRuns c b n).isEmpty) then s
          else if those.isEmpty then act s
          else if before.any (s.storeWaits c b) then s
          else act (s.performUpTo c b n)

/-- REDUCTION_PERFORM (R274). -/
def execReductionPerform (s : State) : Out := s.event fun s => s.performReduction s.arg.n

/-- REDUCTION_ACK: the issuing cluster's interface counts the reduction consumed (R355). -/
def execReductionAck (s : State) : Out :=
  s.event fun s =>
    match s.fabric.reductions.find? fun r => r.n = s.arg.n && r.stage = 1 with
    | none => s
    | some r =>
      { s with fabric := { s.fabric with reductions := s.fabric.reductions.filter fun x => x.n ≠ r.n } }.consume
        (clusterOf r.core) r.job

/-! The slot wheel (R348, R349) -/

/-- The first position of a core from a cycle on (R348). -/
def nextOwned (core : Nat) (w : Word) : Word := w + word ((core + 256 - w.toNat % 256) % 256)

/-- SC_STAMP: with every earlier access performed, the bundle's accesses take the core's next owned
position; later bundles take later ones (R348). -/
def State.stamp (s : State) (c b : Nat) : State :=
  let k := s.ctx c b
  match k.sc with
  | some q =>
    if q.stamp.isSome || k.status ≠ .running || s.storesStuck c b || s.reductionsOut c b || !(s.imageRuns c b s.fabric.nextItem).isEmpty then s
    else
      let w := nextOwned c (match (s.core c).scLast with
        | some l => if s.sidereal ≤ l then l + 1 else s.sidereal
        | none => s.sidereal)
      ((s.flush c b).modCtx c b fun k => { k with sc := some { q with stamp := some w } }).modCore c fun k =>
        { k with scLast := some w }
  | none => s

/-- SC_STAMP (R348). -/
def execScStamp (s : State) : Out := s.event fun s => s.stamp s.arg.core s.arg.bank

/-- The accesses of a wait have performed. -/
def ScWait.done (q : ScWait) : Bool := q.acc.all fun a => a.result.isSome

/-- The stamp of a context's accesses that have not performed: those of its bundle, and stores that left with theirs. -/
def Ctx.stamped (k : Ctx) : Option Word :=
  match k.stores.findSome? (·.stamp) with
  | some w => some w
  | none =>
    match k.sc with
    | some q => if q.done then none else q.stamp
    | none => none

/-- One access performs at its home (R272, R349). -/
def State.scAccess (s : State) (who : Nat) (a : ScAccess) : ScAccess × State :=
  let a := { a with old := if isReg a.key then [] else s.view s.mem [(a.key, a.width)] }
  match a.kind with
  | .load =>
    ({ a with result := some (ofLeBytes (s.view s.mem [(a.key, a.width)]), viewBad s.bad [(a.key, a.width)]) },
      s.afterRead [(a.key, a.width)])
  | .store => ({ a with result := some (0, false) }, s.writeParts who [(a.key, leBytes a.width a.operand)])
  | .atomic op =>
    let (r, s1) := s.atomicAt who op a.key a.width a.operand a.compare
    ({ a with result := some r }, s1)

/-- Accesses of one stamp perform in slot order. -/
def State.scAll (s : State) (who : Nat) : List ScAccess → List ScAccess × State
  | [] => ([], s)
  | a :: r =>
    let (a', s1) := s.scAccess who a
    let (r', s2) := s1.scAll who r
    (a' :: r', s2)

/-- The accesses of a bundle whose stamp has come perform; a bundle of seq_cst stores has yet to commit (R348, R349). -/
def State.landStamped (s : State) (c b : Nat) : Option State :=
  let k := s.ctx c b
  match k.stores.find? (·.stamp.isSome) with
  | some st =>
    if s.imageWaits c b st.n st.runs then none
    else some ((s.putParts (homeWriter c b) st.parts st.bad).modCtx c b fun k => { k with stores := k.stores.filter fun o => o.n ≠ st.n })
  | none =>
    match k.sc with
    | some q =>
      if q.acc.all (fun a => a.kind = .store) then none
      else
        let (acc, s1) := s.scAll (homeWriter c b) q.acc
        some (s1.modCtx c b fun k => { k with sc := some { q with acc := acc } })
    | none => none

/-- SC_PERFORM: stamped accesses perform in stamp order, 512 cycles after their stamp (R349). -/
def State.performSc (s : State) (c b : Nat) : State :=
  match (s.ctx c b).stamped with
  | some w =>
    let older := s.cores.any fun e => [e.2.b0, e.2.b1].any fun k =>
      match k.stamped with
      | some v => v < w
      | none => false
    if older then s
    else
      match s.landStamped c b with
      | some s1 => { s1 with sidereal := if s1.sidereal < w + 512 then w + 512 else s1.sidereal }
      | none => s
  | none => s

/-- SC_PERFORM (R349). -/
def execScPerform (s : State) : Out := s.event fun s => s.performSc s.arg.core s.arg.bank

/-! Timers (R391) -/

/-- CYCLES has passed a further multiple of TSLICE: the timer is pending (R391). -/
def State.noteTimer (s : State) (c b : Nat) : State :=
  let k := s.ctx c b
  let q := (s.job k.job).tslice
  if !k.occupied || q = 0 || k.cycles.toNat / q ≤ k.slices then s
  else s.setCtx c b { k with timer := true, slices := k.cycles.toNat / q }

/-- A pending timer is taken before the next bundle in user mode, behind a trap that the bundle at PC has found; a bundle whose
seq_cst accesses have their stamp has issued (R348, R391). -/
def Ctx.timerDue (k : Ctx) : Bool :=
  k.timer && k.mode = .user && k.status = .running && k.leaving.isNone && !k.trapping &&
  !(match k.sc with
    | some q => q.stamp.isSome
    | none => false)

/-- The timer trap of a bank. -/
def State.timerTrap (s : State) (c b : Nat) : State :=
  (s.modCtx c b fun k => { k with timer := false }).takeTrap c b ⟨0x40, 0, 0, 0, 0, true, false, (s.ctx c b).pc⟩

/-- A timer trap waits until the queues are empty (R387, R391). -/
def State.timerOrWait (s : State) (c b : Nat) : State := if s.drained c b then s.timerTrap c b else s

/-- TIMER (R391). -/
def execTimer (s : State) : Out :=
  s.event fun s =>
    let s := s.noteTimer s.arg.core s.arg.bank
    if (s.ctx s.arg.core s.arg.bank).timerDue then s.timerOrWait s.arg.core s.arg.bank else s

end Sys2Proof.Machine
end

