-- ==== Sys2Proof/Machine/FaultEvents.lean ====
section
/-! DEFINITION. Events of faults and control: fault records and rings, orphans, replay, pre-emption, kill, TLB invalidation, LDM regions, the hot-page tracker (R241, R245, R248 to R252, R364, R393 to R401, R406, R407). -/
namespace Sys2Proof.Machine

/-! Fault records (R244, R245, R393) -/

/-- The INFO word of a record (R244). -/
def FaultRec.info (r : FaultRec) : Word :=
  word (2 ^ 56 * (r.cause % 256) + 2 ^ 52 * (r.access % 16) + 2 ^ 49 * (r.slot % 8) + 2 ^ 48 * (r.bank % 2) + 2 ^ 40 * (r.core % 256) +
    2 ^ 34 * (r.job % 64) + 2 ^ 33 * bit r.sup + 2 ^ 32 * bit r.async + 2 ^ 16 * (r.asid % 2 ^ 16) + 2 ^ 8 * (r.rop % 256))

/-- The 64 bytes of a record (R244). -/
def FaultRec.bytes (r : FaultRec) : List Byte :=
  [r.info, r.va, r.pc, r.wid, r.time, r.operand, r.detail, 0].flatMap fun v => leBytes 8 v.toNat

/-- Records that a fault queue holds (R245). -/
def Job.fqRecords (q : Job) : Nat := 2 ^ (min 16 (max 4 (bits q.fqsize 0 5)))

/-- The fault queue exists and is not full (R245, R422). -/
def Job.fqRoom (q : Job) : Bool := bits q.fqbase 12 40 ≠ 0 && decide ((q.fqhead - q.fqtail).toNat < q.fqRecords)

/-- A contained-fault notice follows the record (R393). -/
def FaultRec.noticed (r : FaultRec) : Bool :=
  r.notice || (decide (0x20 ≤ r.cause) && decide (r.cause ≤ 0x2C)) || r.cause = 0x2F || (r.async && r.cause = 7)

/-- A record is written to its job's queue (R245, R431), and its notice sets out (R393). -/
def State.writeRecord (s : State) (r : FaultRec) : State :=
  let q := s.job r.job
  let at_ := bits q.fqbase 12 40 * 4096 + 64 * (q.fqhead.toNat % q.fqRecords)
  let s1 := ((s.putBytes 256 at_ r.bytes).modJob r.job fun q => { q with fqhead := q.fqhead + 1 }).signal (16 * r.job)
  if r.noticed then s1.service 1 r.job s.pkg.svctl (contextWord r.core r.bank r.job) ((q.fqhead + 1).setWidth 64) else s1

/-- The records of a job that wait are written as far as its queue has room, and the rest is dropped: no write of the job may
land later (R245, R407; log entry 126). -/
def State.writeRecords (s : State) (job : Nat) : State :=
  (s.faults.filter (·.job = job)).foldl (fun t r => if (t.job job).fqRoom then t.writeRecord r else t)
    { s with faults := s.faults.filter (·.job ≠ job) }

/-- FAULT_RECORD_WRITE: the job's oldest record, when its queue has room (R245); after a kill is complete it is dropped (R407;
log entry 126). -/
def execFaultRecordWrite (s : State) : Out :=
  s.event fun s =>
    match s.faults.find? fun r => r.job = s.arg.n with
    | some r =>
      if (s.job s.arg.n).kstat = 2 then { s with faults := s.faults.erase r }
      else if (s.job s.arg.n).fqRoom then { s with faults := s.faults.erase r }.writeRecord r
      else s
    | none => s

/-- FQTAIL_WRITE (R245). -/
def execFqtailWrite (s : State) : Out := s.event fun s => if s.arg.n < 64 then s.modJob s.arg.n fun q => { q with fqtail := s.arg.v.setWidth 32 } else s

/-- A write of LOSSTAIL: ignored beyond LOSSHEAD (R364). -/
def Job.setLosstail (q : Job) (v : Word) : Job :=
  let t : BitVec 32 := v.setWidth 32
  if (q.losshead - q.losstail).toNat < (t - q.losstail).toNat then q else { q with losstail := t }

/-- LOSSTAIL_WRITE (R364). -/
def execLosstailWrite (s : State) : Out := s.event fun s => if s.arg.n < 64 then s.modJob s.arg.n fun q => q.setLosstail s.arg.v else s

/-! Orphans (R396, R397) -/

/-- The logged reductions that a write of ORTAIL handles, in log order; none beyond ORHEAD (R396, R397). -/
def State.orphansTo (s : State) (job : Nat) (v : Word) : List Reduction :=
  let q := s.job job
  let n := (v.setWidth 16 - q.ortail).toNat
  if (q.orhead - q.ortail).toNat < n then [] else (s.fabric.reductions.filter fun r => r.job = job && r.stage = 2).take n

/-- One record of the log is handled. -/
def State.passOrphan (s : State) (job : Nat) : State := s.modJob job fun q => { q with ortail := q.ortail + 1 }

/-- Orphans performed as their reductions (R396). -/
def State.replayOrphans (s : State) (job : Nat) (v : Word) : State :=
  (s.orphansTo job v).foldl (fun s r => (s.passOrphan job).reduceAt r) s

/-- Orphans discarded, counted consumed (R396). -/
def State.discardOrphans (s : State) (job : Nat) (v : Word) : State :=
  (s.orphansTo job v).foldl (fun s r =>
    { s with fabric := { s.fabric with reductions := s.fabric.reductions.filter fun x => x.n ≠ r.n } }.passOrphan job |>.consume
      (clusterOf r.core) job) s

/-- ORTAIL_REPLAY (R396). -/
def execOrtailReplay (s : State) : Out := s.event fun s => s.replayOrphans s.arg.n s.arg.v

/-- ORTAIL_DISCARD (R396). -/
def execOrtailDiscard (s : State) : Out := s.event fun s => s.discardOrphans s.arg.n s.arg.v

/-! Replay and pre-emption (R394, R399 to R401) -/

/-- A context parked on a not-present fault is resumable (R394). -/
def Ctx.replayed (k : Ctx) : Ctx := if k.status = .parked .replay then { k with status := .resumable, event := true } else k

/-- Every such context of a job (R394). -/
def State.replayJob (s : State) (job : Nat) : State := (s.banksOf job).foldl (fun s p => s.modCtx p.1 p.2 Ctx.replayed) s

/-- REPLAY (R394). -/
def execReplay (s : State) : Out := s.event fun s => s.replayJob s.arg.n

/-- Every occupied bank of a job asked for (R400). -/
def State.preemptJob (s : State) (job : Nat) : State := (s.banksOf job).foldl (fun s p => s.requestPreempt p.1 p.2) s

/-- Every held context of a job released (R400). -/
def State.releaseJob (s : State) (job : Nat) : State := (s.banksOf job).foldl (fun s p => s.releaseHeld p.1 p.2) s

/-- PREEMPT_REQ (R400). -/
def execPreemptReq (s : State) : Out := s.event fun s => s.preemptJob s.arg.n

/-- PREEMPT_REL (R400). -/
def execPreemptRel (s : State) : Out := s.event fun s => s.releaseJob s.arg.n

/-- PREQ_REQUEST: bits [1:0] of a PREQ write (R400). -/
def execPreqRequest (s : State) : Out := s.event fun s => s.writePreq s.arg.core (s.arg.v &&& 3)

/-- PREQ_HELD_RELEASE: bits [3:2] of a PREQ write (R400). -/
def execPreqHeldRelease (s : State) : Out :=
  s.event fun s =>
    let s1 := if s.arg.v.getLsbD 2 then s.releaseHeld s.arg.core 0 else s
    if s.arg.v.getLsbD 3 then s1.releaseHeld s.arg.core 1 else s1

/-- PREEMPT_OVERDUE: a kind-3 notice for each further 2^22 cycles (R393, R401). -/
def State.overdue (s : State) (c b : Nat) : State :=
  let k := s.ctx c b
  match k.preq with
  | some t =>
    let n := (s.sidereal - t).toNat
    if 2 ^ 22 * (k.overdue + 1) < n then
      (s.setCtx c b { k with overdue := k.overdue + 1 }).service 3 k.job s.pkg.svctl (contextWord c b k.job) (word n)
    else s
  | none => s

/-- PREEMPT_OVERDUE (R401). -/
def execPreemptOverdue (s : State) : Out := s.event fun s => s.overdue s.arg.core s.arg.bank

/-! Kill (R406, R407) -/

/-- A write of KILL: no effect during a teardown (R406, R424). -/
def State.killJob (s : State) (job : Nat) : State := if (s.job job).tearing then s else s.startKill job

/-- KILL (R407). -/
def execKill (s : State) : Out := s.event fun s => s.killJob s.arg.n

/-- A copy of the job stands on an engine, or a page of one of its handles lands chunk by chunk. -/
def State.copiesOf (s : State) (job : Nat) : Bool :=
  (s.cores.any fun e => e.2.engine.copies.any fun q => q.job = job) ||
  s.reads.any fun r => r.land.isSome && (match r.reader with
    | .handle h _ => (s.handle h).job = job
    | .copy _ _ => false)

/-- What is left of a job under kill anywhere in the package is gone, its counts of copies with it (R23, R310, R407 steps 5 to 7). -/
def State.clearJob (s : State) (job : Nat) : State :=
  let handles := (s.handles.filter fun e => e.2.job = job && e.2.state ≠ .free).map (·.1)
  let ofHandle (r : FlashRead) : Bool := match r.reader with
    | .handle h _ => handles.contains h
    | .copy _ _ => false
  let packetJob (p : Packet) : Nat := match p.cargo with
    | .message m => m.job
    | .link j _ _ _ _ _ _ _ _ _ _ => j
    | .control j _ _ _ => j
  let s1 := { s with
    reads := s.reads.filter fun r => !ofHandle r
    cores := s.cores.map fun e => (e.1, { e.2 with engine := { e.2.engine with done := e.2.engine.done.filter fun d => d.1 ≠ job } })
    handles := s.handles.filter fun e => !handles.contains e.1
    fabric := { s.fabric with
      counters := s.fabric.counters.filter fun e => e.1 % 64 ≠ job
      msgs := s.fabric.msgs.filter fun m => m.job ≠ job
      notices := s.fabric.notices.filter fun n => n.job ≠ job
      reductions := s.fabric.reductions.filter fun r => r.job ≠ job
      xwaves := s.fabric.xwaves.filter fun x => x.job ≠ job }
    port := { s.port with packets := s.port.packets.filter fun p => packetJob p ≠ job }
    disp := { s.disp with spent := s.disp.spent.filter fun q => q.1 ≠ job } }
  let held := s.fabric.msgs.filter fun m => m.job = job
  (held.foldl State.freeSend s1).modJob job fun q =>
    { q with links := [], stream := [], broken := [], overflow := [], ortail := q.orhead }

/-- The kill is complete: KSTAT and the job's vector (R407 step 8). -/
def State.finishKill (s : State) (job : Nat) : State :=
  if (s.job job).kstat ≠ 1 || s.copiesOf job then s
  else (((s.writeRecords job).clearJob job).modJob job fun q => { q with kstat := 2 }).signal (16 * job + 2)

/-- KILL_COMPLETE (R407). -/
def execKillComplete (s : State) : Out := s.event fun s => s.finishKill s.arg.n

/-! TLB invalidation (R241) -/

/-- The registers of a unit changed. -/
def State.modTlbi (s : State) (f : Tlbi → Tlbi) : TlbiUnit → State
  | .core c => s.modCore c fun k => { k with tlbi := f k.tlbi }
  | .job j => s.modJob j fun q => { q with tlbi := f q.tlbi }

/-- The registers of a unit. -/
def State.tlbiOf (s : State) : TlbiUnit → Tlbi
  | .core c => (s.core c).tlbi
  | .job j => (s.job j).tlbi

/-- A unit that exists. -/
def unitExists : TlbiUnit → Bool
  | .core c => c < 256
  | .job j => j < 64

/-- TLBI_GO: a write of TLBI_CTL (R241). -/
def execTlbiGo (s : State) : Out :=
  s.event fun s => if unitExists s.arg.tlbi then s.modTlbi (Tlbi.setCtl s.arg.v) s.arg.tlbi else s

/-- A bank has an access under way beside its stores, whose translation it has used: a seq_cst access, the image of a queued
operation, a load-block that is being filled (R222, R246, R348). -/
def Ctx.accessing (k : Ctx) : Bool :=
  k.queue.any (·.need.img.isSome) || k.blocks.any (fun e => e.2.used && !e.2.filled && !e.2.broken) ||
  match k.sc with
  | some q => q.acc.any (·.result.isNone)
  | none => false

/-- An access whose translation has been used has yet to perform: a store that waits for something, an access of a bank, the fetch of
a merge stack, a copy's unit or a handle's page that lands in parts (R227, R241, R341, R343, R348). -/
def State.anyStuck (s : State) : Bool :=
  (s.cores.any fun e => s.storesStuck e.1 0 || s.storesStuck e.1 1 || e.2.b0.accessing || e.2.b1.accessing ||
    e.2.engine.current.any fun q => q.land.isSome) ||
  (s.clusters.any fun e => e.2.stk.any fun st => st.begun.isSome && st.b.isNone) || s.reads.any (·.land.isSome)

/-- TLBI_COMPLETE: the entries are gone, and what was translated through them has performed (R241). -/
def execTlbiComplete (s : State) : Out :=
  s.event fun s =>
    let i := s.tlbiOf s.arg.tlbi
    if !i.busy || s.anyStuck then s else (s.finishTlbi i).modTlbi (fun i => { i with busy := false }) s.arg.tlbi

/-! LDM regions and the hot-page tracker (R248 to R252) -/

/-- RCTL_BIND (R248). -/
def execRctlBind (s : State) : Out :=
  s.event fun s => if s.arg.core < 256 && s.arg.n < 16 && s.arg.v.getLsbD 0 then s.bindRegion s.arg.core s.arg.n s.arg.v else s

/-- RCTL_UNBIND (R248). -/
def execRctlUnbind (s : State) : Out :=
  s.event fun s => if s.arg.core < 256 && s.arg.n < 16 && !s.arg.v.getLsbD 0 then s.unbindRegion s.arg.core s.arg.n s.arg.v else s

/-- UNBIND_WRITEBACK_DONE (R248). -/
def execUnbindWritebackDone (s : State) : Out := s.event fun s => s.finishUnbind s.arg.core s.arg.n

/-- HPT_EPOCH: counting starts again (R249). -/
def execHptEpoch (s : State) : Out :=
  s.event fun s => if 32 ≤ s.arg.n then s else s.modCluster s.arg.n fun cl => { cl with hptCount := [], hptProposed := [], hptEpochs := cl.hptEpochs + 1 }

/-- HPT_CTL_WRITE (R251, R252). -/
def execHptCtlWrite (s : State) : Out := s.event fun s => if s.arg.n < 32 then s.writeHptCtl s.arg.n s.arg.v else s

end Sys2Proof.Machine
end

