-- ==== Sys2Proof/Machine/JobEvents.lean ====
section
/-! DEFINITION. Creation and teardown of a job (R41, R422, R424). -/
namespace Sys2Proof.Machine

/-- The link queues that a link table declares: peer, queue, and whether it receives (R41). -/
def linkTable (bs : List Byte) : List (Nat × Nat × Bool) :=
  (List.range (bs.length / 16)).map fun i =>
    let e := bs.drop (16 * i)
    (ofLeBytes (e.take 4), ofLeBytes ((e.drop 4).take 1), decide (ofLeBytes ((e.drop 5).take 1) = 1))

/-- A fatal error has stopped start-up: the package serves only the mailbox (R425). -/
def Pkg.halted (p : Pkg) : Bool := 1 ≤ p.err && p.err ≤ 4

/-- Stage 1 of start-up has completed, and no fatal error has stopped it since (R424, R425). -/
def Pkg.ready (p : Pkg) : Bool := (p.stage = 1 || p.stage = 2) && !p.halted

/-- The ASID belongs to a live job other than the slot's. -/
def State.asidTaken (s : State) (j asid : Nat) : Bool := s.jobs.any fun e => e.1 ≠ j && e.2.active && e.2.asid = asid

/-- The job as its creation leaves it (R422, R424). -/
def Job.created (asid ceil : Nat) (links : List (Nat × Nat × Bool)) : Job :=
  { Job.idle with active := true, asid := asid, ceil := ceil, en := true, links := links }

/-- A write of JOBCTL with EN = 1 (R424). -/
def State.createJob (s : State) (j : Nat) (v : Word) (table : List Byte) : State :=
  let asid := bits v 16 16
  if (s.job j).active || !s.pkg.ready || s.asidTaken j asid then s.jobError j
  else
    { s with fabric := { s.fabric with counters := s.fabric.counters.filter fun e => e.1 % 64 ≠ j } }.modJob j fun _ =>
      Job.created asid (bits v 8 2) (linkTable table)

/-- JOB_CREATE (R424). -/
def execJobCreate (s : State) : Out :=
  s.event fun s => if s.arg.n < 64 && s.arg.v.getLsbD 0 then s.createJob s.arg.n s.arg.v s.arg.data else s

/-- A job is IDLE (R424). -/
def State.jobIdle (s : State) (j : Nat) : Bool :=
  let q := s.job j
  !(s.disp.launches.any fun l => l.job = j) && !(s.disp.recs.any fun r => r.job = j) && !(s.disp.host.any fun e => e.1 = j) &&
  (s.banksOf j).isEmpty && !(s.saved.any fun r => r.job = j) && !(s.cores.any fun e => e.2.queue.any fun a => a.job = j) &&
  q.overflow.isEmpty && !s.copiesOf j && !(s.handles.any fun e => e.2.job = j && e.2.state ≠ .free) &&
  !(s.fabric.counters.any fun e => e.1 % 64 = j && e.2.inj ≠ e.2.con) && q.orhead = q.ortail

/-- JSTAT as it reads (R424). -/
def State.jstat (s : State) (j : Nat) : Word :=
  let q := s.job j
  word (8 * bit q.err + 4 * bit q.tearing + 2 * bit (q.active && s.jobIdle j) + bit q.active)

/-- A write of JOBCTL with EN = 0: teardown starts, with a kill where the job is not IDLE (R424). -/
def State.tearDown (s : State) (j : Nat) : State :=
  let q := s.job j
  if !q.active || q.tearing then s
  else
    let idle := s.jobIdle j
    let s1 := s.modJob j fun q => { q with tearing := true, en := false }
    if idle || q.kstat ≠ 0 then s1 else s1.startKill j

/-- JOB_TEARDOWN (R424). -/
def execJobTeardown (s : State) : Out :=
  s.event fun s => if s.arg.n < 64 && !s.arg.v.getLsbD 0 then s.tearDown s.arg.n else s

/-- The steps of a teardown, once the job is idle or its kill is complete (R424). -/
def State.finishTearDown (s : State) (j : Nat) : State :=
  let q := s.job j
  if !q.tearing || q.kstat = 1 then s
  else if q.kstat = 0 && !s.jobIdle j then s.startKill j
  else
    let s1 := ((s.writeRecords j).clearJob j).dropTlb { Tlbi.idle with goAsid := q.asid, goSize := 3 }
    (s1.modJob j fun _ => Job.idle).signal (16 * j + 2)

/-- TEARDOWN_COMPLETE (R424). -/
def execTeardownComplete (s : State) : Out := s.event fun s => s.finishTearDown s.arg.n

end Sys2Proof.Machine
end

