-- ==== Sys2Proof/Machine/MergeEvents.lean ====
section
/-! DEFINITION. Events of the merge buffer: deadlines, engines, the split, and stacks that dissolve (R225 to R229). -/
namespace Sys2Proof.Machine

/-- A stack of a cluster. -/
def State.stackAt (s : State) (d n : Nat) : Option Stack := (s.cluster d).stk.find? fun st => st.n = n

/-- A stack changed. -/
def State.modStack (s : State) (d n : Nat) (f : Stack → Stack) : State :=
  s.modCluster d fun cl => { cl with stk := cl.stk.map fun st => if st.n = n then f st else st }

/-- A stack leaves the buffer. -/
def State.dropStack (s : State) (d n : Nat) : State :=
  s.modCluster d fun cl => { cl with stk := cl.stk.filter fun st => st.n ≠ n }

/-- STACK_DEADLINE_RELEASE (R225). -/
def execStackDeadlineRelease (s : State) : Out :=
  s.event fun s => s.modStack s.arg.n s.arg.m (Stack.releaseDue s.sidereal)

/-- A released stack goes before another: by priority, then by release cycle (R226). -/
def Stack.goesFirst (a b : Stack) : Bool :=
  decide (b.prio < a.prio) || (a.prio = b.prio && decide (a.released.getD 0 < b.released.getD 0))

/-- The released stack that takes the next free engine (R226). -/
def Cluster.nextReleased (cl : Cluster) : Option Stack :=
  (cl.stk.filter fun st => st.released.isSome && st.core.isNone && !st.lone).foldl
    (fun best st => match best with
      | some x => if st.goesFirst x then some st else some x
      | none => some st) none

/-- Where the image that a member reads stands, or the fault that it meets (R207, R228). -/
def State.memberImage (s : State) (st : Stack) (m : Member) : Except (Nat × Word × Word) (List (Nat × Nat)) × State :=
  match s.resolve ⟨m.core, st.asid, m.job, m.sup, true⟩ {} (pieces st.va imageLen) with
  | (.error x, s1) => (.error (x.cause, x.va, x.detail), s1)
  | (.ok parts, s1) => (.ok parts, s1)

/-- The image that a member reads alone, or the fault that it meets (R207, R228). -/
def State.fetchImage (s : State) (st : Stack) (m : Member) : Except (Nat × Word × Word) Tile × State :=
  match s.memberImage st m with
  | (.error x, s1) => (.error x, s1)
  | (.ok parts, s1) =>
    if viewBad s1.bad parts then (.error (0x10, st.va, 0), s1)
    else (.ok (imageTile st.bfmt (s1.view s1.mem parts)), s1.afterRead parts)

/-- A bank's operation occupies its core's engine: its rows have yet to be written (R212). -/
def Ctx.onEngine (k : Ctx) : Bool := k.pend.any fun e => e.why = .matrix

/-- An engine of the cluster that neither a stack nor an operation by itself occupies. -/
def State.engineFree (s : State) (d c : Nat) : Bool :=
  clusterOf c = d && !s.offline c && !((s.cluster d).stk.any fun st => st.core = some c) && !(s.core c).b0.onEngine && !(s.core c).b1.onEngine

/-- The stack that a free engine takes: the first released one; with none, one of its own core's withdrawn members (R226,
R229). -/
def Cluster.nextFor (cl : Cluster) (c : Nat) : Option Stack :=
  match cl.nextReleased with
  | some st => some st
  | none => cl.stk.find? fun st => st.lone && st.core.isNone && st.members.any fun m => m.core = c

/-- STACK_ENGINE_START: a free engine takes a stack, and its fetch of B begins (R226, R227). -/
def execStackEngineStart (s : State) : Out :=
  s.event fun s =>
    let d := s.arg.n
    match (s.cluster d).nextFor s.arg.core with
    | none => s
    | some st =>
      if !s.engineFree d s.arg.core then s
      else
        match st.members.find? fun m => !m.gone with
        | none => s.dropStack d st.n
        | some m =>
          match s.memberImage st m with
          | (.ok parts, s1) =>
            s1.modStack d st.n fun st => { st with core := some s.arg.core, begun := some (parts, s1.view s1.mem parts) }
          | (.error _, s1) => s1.modStack d st.n fun st => { st with core := some s.arg.core }

/-- Bytes of a fetch, each aligned 8-byte chunk as it stood at its beginning or as it stands at its end, which is left open: the
choices are numbered from n on (R227, R341). -/
def mixChunks (n : Nat) (old now : List Byte) : List Byte :=
  ((runsOf 8 old.length old).zip (runsOf 8 old.length now)).mapIdx (fun i p => if Config.freeBool (n + i) then p.1 else p.2) |>.flatten

/-- The fetch of a stack ends: its B operand, or none where data marked uncorrectable was read (R227, R228). -/
def State.endFetch (s : State) (d : Nat) (st : Stack) (parts : List (Nat × Nat)) (old : List Byte) : State :=
  if viewBad s.bad parts then s.modStack d st.n fun st => { st with begun := none }
  else
    let now := s.view s.mem parts
    let (bs, s1) := if old = now then (now, s) else (mixChunks s.free old now, { s with free := s.free + old.length / 8 })
    (s1.afterRead parts).modStack d st.n fun st => { st with b := some (imageTile st.bfmt bs) }

/-- The accumulator that a member's task holds, with the member's rows added (R132, R209, R227). -/
def Member.result (m : Member) (st : Stack) (b : Tile) (acc : Acc) : Acc :=
  match pairClass st.afmt st.bfmt with
  | some c =>
    { accumulate c st.afmt st.bfmt m.h m.rows b (if m.za then { acc with rows := [] } else acc) with tag := c.accTag, bound := m.bound }
  | none => acc

/-- A pending entry is a member's accumulator (R224). -/
def Member.holds (m : Member) (e : Pend) : Bool := e.why = .merge && e.n = m.token && e.reg = .a m.acc

/-- A member's accumulator is busy no longer (R224, R227). -/
def Ctx.memberDone (k : Ctx) (m : Member) : Ctx := { k with pend := k.pend.filter fun e => !m.holds e }

/-- A member's rows written into its accumulator; those of a killed job are not (R227, R229). -/
def State.finishMember (s : State) (st : Stack) (b : Tile) (m : Member) : State :=
  if m.gone then s
  else s.modCtx m.core m.bank fun k => (k.setA m.acc (m.result st b (k.getA m.acc))).memberDone m

/-- STACK_SPLIT: the fetch of B ends; then one member after the other has its rows written, and after the last one the engine
is free (R227). -/
def execStackSplit (s : State) : Out :=
  s.event fun s =>
    let d := s.arg.n
    match s.stackAt d s.arg.m with
    | none => s
    | some st =>
      match st.b, st.begun with
      | none, some (parts, old) => s.endFetch d st parts old
      | none, none => s
      | some b, _ =>
        match st.members with
        | [] => s.dropStack d st.n
        | [m] => (s.finishMember st b m).dropStack d st.n
        | m :: ms => (s.finishMember st b m).modStack d st.n fun st => { st with members := ms }

/-- A member whose own fetch fails: its accumulator's tag becomes POISON, with a record and a notice (R228). -/
def State.poisonMember (s : State) (m : Member) (x : Nat × Word × Word) (va : Word) : State :=
  let r := { faultOf s m.core m.bank x.1 7 4 va x.2.2 with pc := m.pc, sup := m.sup, async := true, notice := true }
  (s.modCtx m.core m.bank fun k => (k.setA m.acc { k.getA m.acc with tag := .poison }).memberDone m).report r

/-- A member of a dissolved stack issues again alone, with a fetch of its own (R228). -/
def State.reissue (s : State) (st : Stack) (m : Member) : State :=
  if m.gone then s
  else
    match s.fetchImage st m with
    | (.ok b, s1) => s1.finishMember st b m
    | (.error x, s1) => s1.poisonMember m x st.va

/-- STACK_DISSOLVE: the fetch of a started stack has failed (R228). -/
def execStackDissolve (s : State) : Out :=
  s.event fun s =>
    match s.stackAt s.arg.n s.arg.m with
    | some st =>
      if st.core.isSome && st.b.isNone && st.begun.isNone then (st.members.foldl (fun s m => s.reissue st m) s).dropStack s.arg.n s.arg.m else s
    | none => s

end Sys2Proof.Machine
end

