-- ==== Sys2Proof/Machine/PlatformEvents.lean ====
section
/-! DEFINITION. Events of the platform: registers of BAR0, the host's memory window, the mailbox, start-up, power, collimation, ageing (R65, R251, R304, R360, R416, R421 to R434). -/
namespace Sys2Proof.Machine

/-! Reads that clear (R65, R251, R304, R427, R430) -/

/-- What a host read returns. -/
def State.hostReads (s : State) (bs : List Byte) : State := { s with pkg := { s.pkg with hostRet := bs } }

/-- DISPCNT (R65). -/
def Job.dispcnt (q : Job) : Word := word (2 ^ 48 * q.probeGrant + 2 ^ 32 * q.hpostDrop + 2 ^ 16 * q.stealDie + q.tmoPlace)

/-- DISPCNT after a read (R65). -/
def Job.dispcntRead (q : Job) : Job := { q with probeGrant := 0, hpostDrop := 0, stealDie := 0, tmoPlace := 0 }

/-- DISPCNT_READ (R65). -/
def execDispcntRead (s : State) : Out :=
  s.event fun s => (s.modJob s.arg.n Job.dispcntRead).hostReads (leBytes 8 (s.job s.arg.n).dispcnt.toNat)

/-- FHEALTH_C, and the stack after a read of it (R304). -/
def FlashStack.healthC (k : FlashStack) : Word := word (2 ^ 32 * k.reloc + k.uncorr)
def FlashStack.healthRead (k : FlashStack) : FlashStack := { k with reloc := 0, uncorr := 0 }

/-- FHEALTH_C_READ (R304). -/
def execFhealthCRead (s : State) : Out :=
  s.event fun s => (s.modFlash s.arg.n FlashStack.healthRead).hostReads (leBytes 8 (s.flashStack s.arg.n).healthC.toNat)

/-- HPT_CNT_READ (R251). -/
def execHptCntRead (s : State) : Out :=
  s.event fun s => (s.clearHptCnt s.arg.n).hostReads (leBytes 8 (s.cluster s.arg.n).hptCnt.toNat)

/-- COLCNT (R427). -/
def Die.colcnt (d : Die) : Word := word (2 ^ 56 * d.spares + 2 ^ 48 * d.vuout + 2 ^ 32 * d.lasting + d.soft)

/-- COLCNT after a read (R427). -/
def Die.colcntRead (d : Die) : Die := { d with soft := 0 }

/-- COLCNT_READ (R427). -/
def execColcntRead (s : State) : Out :=
  s.event fun s => (s.modDie s.arg.n Die.colcntRead).hostReads (leBytes 8 (s.die s.arg.n).colcnt.toNat)

/-- HUNC after a read (R430). -/
def HbmStack.huncRead (k : HbmStack) : HbmStack := { k with hunc := 0 }

/-- HUNC_READ (R430). -/
def execHuncRead (s : State) : Out :=
  s.event fun s => (s.modHbm s.arg.n HbmStack.huncRead).hostReads (leBytes 8 (s.hbmStack s.arg.n).hunc)

/-! Single registers (R416, R422, R430, R431) -/

/-- A write of FINJ; one that arms a page of another stack, or no page, is ignored as a whole (R416). -/
def State.writeFinj (s : State) (n : Nat) (v : Word) : State :=
  let page := bits v 0 29
  if v.getLsbD 63 && (page % 8 ≠ n || decide (flashPages ≤ page)) then s
  else s.modFlash n fun k => { k with arm := v.getLsbD 63, armPage := page }

/-- FINJ_WRITE (R416). -/
def execFinjWrite (s : State) : Out := s.event fun s => if s.arg.n < 8 then s.writeFinj s.arg.n s.arg.v else s

/-- Slots of two virtual functions overlap; a count of 0 is no slot (R431). -/
def slotsMeet (a b : Nat × Nat) : Bool := decide (a.2 ≠ 0) && decide (b.2 ≠ 0) && decide (a.1 < b.1 + b.2) && decide (b.1 < a.1 + a.2)

/-- A write of VFSLOTS; ignored where it would overlap another function's slots (R431). -/
def State.writeVfslots (s : State) (vf : Nat) (v : Word) : State :=
  let mine := (bits v 0 6, bits v 8 6)
  if s.pkg.vfslots.any fun e => e.1 ≠ vf && slotsMeet mine e.2 then s
  else { s with pkg := { s.pkg with vfslots := s.pkg.vfslots.set (0, 0) vf mine } }

/-- VFSLOTS_WRITE (R431). -/
def execVfslotsWrite (s : State) : Out := s.event fun s => if s.arg.n < 16 then s.writeVfslots s.arg.n s.arg.v else s

/-- A write of a word of FGRANT; ignored before stage 2 (R422, R425). -/
def State.writeFgrant (s : State) (j g : Nat) (second : Bool) (v : Word) : State :=
  if s.pkg.stage ≠ 2 then s
  else s.modJob j fun q =>
    let e := q.fgrant.get (0, 0) g
    { q with fgrant := q.fgrant.set (0, 0) g (if second then (e.1, v &&& 0x1FFFFFFF) else (v &&& 0xC00000001FFFFFFF, e.2)) }

/-- FGRANT_WRITE (R422). -/
def execFgrantWrite (s : State) : Out :=
  s.event fun s => if s.arg.n < 64 && s.arg.m < 16 then s.writeFgrant s.arg.n s.arg.m s.arg.flag s.arg.v else s

/-- A packed copy to a stack runs (R430). -/
def State.packing (s : State) (n : Nat) : Bool :=
  s.cores.any fun e => match e.2.engine.current with
    | some q =>
      q.started && !q.finished && q.desc.mode = 3 && q.desc.mpar.getLsbD 0 && (List.range (q.desc.bytes / 65536 + 1)).any fun i =>
        match s.walk q.job (bits (q.desc.dst + word (65536 * i)) 14 42) with
        | .ok l => decide (l.pa (q.desc.dst + word (65536 * i)) / 2 ^ 36 = n)
        | .error _ => false
    | none => false

/-- A write of ZFREE: a chunk for the stack's free list (R254, R430). -/
def State.writeZfree (s : State) (n : Nat) (v : Word) : State :=
  if s.packing n then s else s.modHbm n fun k => { k with free := bits v 0 32 :: k.free }

/-- ZFREE_PUSH (R430). -/
def execZfreePush (s : State) : Out := s.event fun s => if s.arg.n < 8 then s.writeZfree s.arg.n s.arg.v else s

/-! The mailbox (R434) -/

/-- Bytes of the mailbox buffer, and the buffer with bytes written. -/
def Mailbox.bytes (m : Mailbox) (off n : Nat) : List Byte := Sparse.slice 0 m.buffer off n
def Mailbox.put (m : Mailbox) (bs : List Byte) : Mailbox := { m with buffer := Sparse.splice 0 m.buffer 0 (bs.take 4096) }

/-- A command is taken, unless one is in progress: RESULT 1 (R434). -/
def State.command (s : State) (cmd : Nat) (run : State → Mailbox → Mailbox) : State :=
  if s.mbox.busy then { s with mbox := { s.mbox with result := 1 } }
  else { s with mbox := run s { s.mbox with busy := true, cmd := cmd, outcome := 0 } }

/-- GETID: the identity public key and its chain (R434). -/
def getid (_ : State) (m : Mailbox) : Mailbox := m.put (beBytes 64 Config.identityKey.toNat ++ Config.certificates)

/-- The running firmware's digest and security version (R434). -/
def Mailbox.firmware (m : Mailbox) : BitVec 256 × Nat :=
  match m.running with
  | none => (Config.firmwareDigest, Config.firmwareVersion)
  | some img => match Config.parseImage img with
    | some (d, v, _, _) => (d, v)
    | none => (Config.firmwareDigest, Config.firmwareVersion)

/-- COLMAP of a cluster (R427). -/
def Cluster.colmap (cl : Cluster) : Word := word (2 ^ 32 * cl.offline + cl.site)

/-- PKGID (R423). -/
def pkgid : Word := 0x00000009B0000000

/-- ATTEST: the report and its signature (R434). -/
def attest (s : State) (m : Mailbox) : Mailbox :=
  let maps := (List.range 32).flatMap fun d => leBytes 8 (s.cluster d).colmap.toNat
  let r := leBytes 256
    (Config.attestReport (m.bytes 0 32) m.firmware.1 m.firmware.2 s.pkg.bootstage (sha256 maps) pkgid).toNat
  m.put (r ++ beBytes 64 (Config.sign (BitVec.ofNat 256 (ofBeBytes (sha256 r)))).toNat)

/-- VERIFY: an ECDSA P-256 signature over a digest (R434, log entry 45). -/
def verify (_ : State) (m : Mailbox) : Mailbox :=
  let at_ (o : Nat) : Nat := ofBeBytes (m.bytes o 32)
  m.put (leBytes 8 (bit (ecdsaVerify (at_ 0) (at_ 32) (at_ 64) (at_ 96) (at_ 128))))

/-- The signed part of an image verifies, and its security version is not below the fused counter (R434). -/
def imageTrusted (img : BitVec 256 × Nat × BitVec 256 × BitVec 256) : Bool :=
  let (d, v, r, s) := img
  ecdsaVerify d.toNat (Config.kohornKey.toNat / 2 ^ 256) (Config.kohornKey.toNat % 2 ^ 256) r.toNat s.toNat &&
  decide (Config.rollback ≤ v)

/-- The image that the ROM checks at the next start: digest of its signed part, version, r and s; none for one that cannot be read. -/
def Mailbox.image (m : Mailbox) : Option (BitVec 256 × Nat × BitVec 256 × BitVec 256) :=
  match m.running with
  | some img => Config.parseImage img
  | none => some (Config.firmwareDigest, Config.firmwareVersion, Config.firmwareSignature.extractLsb' 256 256, Config.firmwareSignature.setWidth 256)

/-- The ROM's check of the firmware image passes (R434). -/
def Mailbox.trusted (m : Mailbox) : Bool :=
  match m.image with
  | some parts => imageTrusted parts
  | none => false

/-- UPDATE: one more part of an image, of up to 4 KiB; a whole image is verified as at ROM (R434; log entry 94). -/
def update (_ : State) (m : Mailbox) : Mailbox :=
  let buffer := m.bytes 0 4096
  let img := m.update ++ buffer.take (Config.imageLength m.update buffer)
  match Config.parseImage img with
  | none => { m with update := img }
  | some parts => if imageTrusted parts then { m with update := [], staged := some img } else { m with update := [], outcome := 3 }

/-- MB_GETID (R434). -/
def execMbGetid (s : State) : Out := s.event fun s => s.command 1 getid

/-- MB_ATTEST (R434). -/
def execMbAttest (s : State) : Out := s.event fun s => s.command 2 attest

/-- MB_VERIFY (R434). -/
def execMbVerify (s : State) : Out := s.event fun s => s.command 3 verify

/-- MB_UPDATE (R434). -/
def execMbUpdate (s : State) : Out := s.event fun s => s.command 4 update

/-- MAILBOX_DONE: BUSY clears, RESULT shows the outcome, package kind 2 is signalled (R431, R434). -/
def execMailboxDone (s : State) : Out :=
  s.event fun s =>
    if s.mbox.busy then { s with mbox := { s.mbox with busy := false, result := s.mbox.outcome } }.signal 1026 else s

/-- A write of MBCMD; a command that no table names is a bad argument (R434). -/
def State.writeMbcmd (s : State) (v : Word) : State :=
  match bits v 0 8 with
  | 1 => s.command 1 getid
  | 2 => s.command 2 attest
  | 3 => s.command 3 verify
  | 4 => s.command 4 update
  | n => s.command n fun _ m => { m with outcome := 2 }

/-! Register writes through BAR0 (R7, R421 to R423) -/

/-- A write of JOBCTL, by EN (R424). -/
def State.writeJobctl (s : State) (j : Nat) (v : Word) (table : List Byte) : State :=
  if v.getLsbD 0 then s.createJob j v table else s.tearDown j

/-- A write of PREEMPT (R400). -/
def State.writePreempt (s : State) (j : Nat) (v : Word) : State :=
  let s1 := if v.getLsbD 1 then s.releaseJob j else s
  if v.getLsbD 0 then s1.preemptJob j else s1

/-- A write of ORTAIL (R396). -/
def State.writeOrtail (s : State) (j : Nat) (v : Word) : State := if v.getLsbD 63 then s.discardOrphans j v else s.replayOrphans j v

/-- A write of TSLICE: the multiples that each context's CYCLES has passed are counted by it (R391). -/
def State.writeTslice (s : State) (j : Nat) (v : Word) : State :=
  let s1 := s.modJob j fun q => { q with tslice := bits v 0 32 }
  (s1.banksOf j).foldl (fun t p => t.modCtx p.1 p.2 fun k => { k with slices := (s1.job j).slicesAt k.cycles }) s1

/-- A write of a register of a job slot's page (R422). -/
def State.writeJobReg (s : State) (j off : Nat) (v : Word) (data : List Byte) : State :=
  let set (f : Job → Job) : State := s.modJob j f
  match off with
  | 0x000 => s.writeJobctl j v data
  | 0x008 => set fun q => { q with err := q.err && !v.getLsbD 3 }
  | 0x010 => s.writeLaunch j v
  | 0x018 => set fun q => { q with ptimeout := bits v 8 24 }
  | 0x028 => set fun q => { q with ptbase := v &&& 0x000FFFFFFFFFC000 }
  | 0x030 => set fun q => { q with fqbase := v &&& 0x000FFFFFFFFFF000 }
  | 0x038 => set fun q => { q with fqsize := v &&& 0x1F }
  | 0x048 => set fun q => { q with fqtail := v.setWidth 32 }
  | 0x050 => set fun q => { q with tlbi := q.tlbi.setVa v }
  | 0x058 => set fun q => { q with tlbi := q.tlbi.setCtl v }
  | 0x078 => set fun q => { q with xqctl := v &&& 0x0000FFFF000FFFFF }
  | 0x080 => set fun q => { q with losslog := v &&& 0x00FFFFFFFFFFF000 }
  | 0x090 => set fun q => q.setLosstail v
  | 0x098 => set fun q => { q with lossCore := bits v 56 8, lossEntry := v &&& 0x00FFFFFFFFFFFFC0 }
  | 0x0A0 => set fun q => { q with orlog := v &&& 0x00FFFFFFFFFFF000 }
  | 0x0B0 => s.writeOrtail j v
  | 0x0B8 => s.writeTslice j v
  | 0x0C0 => if v.getLsbD 0 then s.replayJob j else s
  | 0x0C8 => s.writePreempt j v
  | 0x0D0 => if v.getLsbD 0 then s.killJob j else s
  | 0x0E0 => set fun q => { q with movbase := v &&& 0x00FFFFFFFFFFF000 }
  | 0x0E8 => set fun q => { q with linkbase := v &&& 0x000FFFFFFFFF0000 }
  | 0x0F0 => set fun q => { q with peert := v &&& 0x000FFFFFFFFFFFC0 }
  | _ => if 0x100 ≤ off && off < 0x200 then s.writeFgrant j ((off - 0x100) / 16) (off % 16 = 8) v else s

/-- PCAP: writes outside 1,000 to 3,000 W clamp (R428). -/
def clampCap (n : Nat) : Nat := min 3000 (max 1000 n)

/-- A write of a package register (R423). -/
def State.writePkgReg (s : State) (off : Nat) (v : Word) : State :=
  let set (f : Pkg → Pkg) : State := { s with pkg := f s.pkg }
  match off with
  | 0x010 => set fun p => { p with fdtbase := v &&& 0x000FFFFFFFFFF000 }
  | 0x018 => set fun p => { p with sweepEn := v.getLsbD 48, xperiod := bits v 32 16, period := bits v 0 16 }
  | 0x020 => set fun p => { p with svctl := bits v 0 8 }
  | 0x0A8 => set fun p => { p with w4base := v &&& 0x000FFFFFC0000000 }
  | 0x0B0 => set fun p => { p with trcbase := v &&& 0x000FFFFFFFFFF000 }
  | 0x0B8 => set fun p => { p with trcEn := v.getLsbD 0, trcSz := bits v 4 4 }
  | 0x118 => set fun p => { p with pcap := clampCap (bits v 0 16) }
  | _ => if 0x028 ≤ off && off < 0x0A8 then s.writeVfslots ((off - 0x028) / 8) v else s

/-- RD_DISTURB_THRESH: above 1,000,000 acts as 1,000,000, 0 as 1 (R304). -/
def clampThresh (n : Nat) : Nat := min 1000000 (max 1 n)

/-- A write of a register of a stack, the port or the mailbox (R304, R416, R430, R433, R434). -/
def State.writeUnitReg (s : State) (off : Nat) (v : Word) : State :=
  if off < 0x200800 then
    match off % 0x100 with
    | 0x00 => s.modHbm ((off - 0x200000) / 0x100) fun k => { k with ztbase := v &&& 0x000FFFFFFFFFFF80 }
    | 0x08 => s.writeZfree ((off - 0x200000) / 0x100) v
    | _ => s
  else if 0x280000 ≤ off && off < 0x280800 then
    match off % 0x100 with
    | 0x18 => s.modFlash ((off - 0x280000) / 0x100) fun k => { k with thresh := clampThresh (bits v 0 32) }
    | 0x20 => s.writeFinj ((off - 0x280000) / 0x100) v
    | _ => s
  else
    match off with
    | 0x300000 => { s with port := { s.port with addr0 := v } }
    | 0x300008 => { s with port := { s.port with addr1 := v } }
    | 0x300010 => { s with port := { s.port with retry := bits v 0 8 } }
    | 0x300018 => { s with port := { s.port with rto := bits v 0 16 } }
    | 0x400000 => s.writeMbcmd v
    | _ =>
      if 0x401000 ≤ off && off < 0x402000 then
        { s with mbox := { s.mbox with buffer := Sparse.splice 0 s.mbox.buffer (off - 0x401000) (leBytes 8 v.toNat) } }
      else s

/-- An 8-byte write of BAR0; an offset that no table names ignores it, and after a fatal error of start-up every register but the
mailbox's does (R7, R421, R425). -/
def State.writeBar0 (s : State) (off : Nat) (v : Word) (data : List Byte) : State :=
  if off % 8 ≠ 0 || (s.pkg.halted && decide (off < 0x400000)) then s
  else if off < 0x1000 then s.writePkgReg off v
  else if 0x100000 ≤ off && off < 0x140000 then s.writeJobReg ((off - 0x100000) / 0x1000) (off % 0x1000) v data
  else if 0x200000 ≤ off then s.writeUnitReg off v
  else s

/-- REGISTER_WRITE (R7). -/
def execRegisterWrite (s : State) : Out := s.event fun s => s.writeBar0 s.arg.n s.arg.v s.arg.data

/-! Register reads through BAR0 (R7, R421 to R423, R428 to R434) -/

/-- JOBCTL as it reads (R424). -/
def Job.ctl (q : Job) : Word := word (65536 * q.asid + 256 * q.ceil + bit q.en)

/-- PLACECTL as it reads: free host-post entries, and PTIMEOUT (R47, R65). -/
def State.placectl (s : State) (j : Nat) : Word := word (2 ^ 56 * (32 - s.hostHeld j) + 256 * (s.job j).ptimeout)

/-- LOSSCTL as it reads (R364). -/
def Job.lossctl (q : Job) : Word := word (2 ^ 56 * q.lossCore) ||| q.lossEntry

/-- A register of a job slot's page as it reads; a write-only one, and an offset that no table names, reads zero (R7, R422). -/
def State.readJobReg (s : State) (j off : Nat) : Word :=
  let q := s.job j
  match off with
  | 0x000 => q.ctl
  | 0x008 => s.jstat j
  | 0x010 => q.launchVA
  | 0x018 => s.placectl j
  | 0x020 => q.dispcnt
  | 0x028 => q.ptbase
  | 0x030 => q.fqbase
  | 0x038 => q.fqsize
  | 0x040 => q.fqhead.setWidth 64
  | 0x048 => q.fqtail.setWidth 64
  | 0x050 => q.tlbi.va
  | 0x058 => q.tlbi.ctl
  | 0x060 => q.qstat
  | 0x068 => q.qsumI
  | 0x070 => q.qsumC
  | 0x078 => q.xqctl
  | 0x080 => q.losslog
  | 0x088 => q.losshead.setWidth 64
  | 0x090 => q.losstail.setWidth 64
  | 0x098 => q.lossctl
  | 0x0A0 => q.orlog
  | 0x0A8 => q.orhead.setWidth 64
  | 0x0B0 => q.ortail.setWidth 64
  | 0x0B8 => word q.tslice
  | 0x0D8 => word q.kstat
  | 0x0E0 => q.movbase
  | 0x0E8 => q.linkbase
  | 0x0F0 => q.peert
  | 0x200 => q.activeCycles
  | 0x208 => q.bundles
  | 0x210 => q.flashBytes
  | 0x218 => q.hbmBytes
  | _ =>
    if 0x100 ≤ off && off < 0x200 then
      let e := q.fgrant.get (0, 0) ((off - 0x100) / 16)
      if off % 16 = 8 then e.2 else e.1
    else 0

/-- SWEEPCTL and TRCCTL as they read (R360, R429). -/
def Pkg.sweepctl (p : Pkg) : Word := word (2 ^ 48 * bit p.sweepEn + 2 ^ 32 * p.xperiod + p.period)
def Pkg.trcctl (p : Pkg) : Word := word (16 * p.trcSz + bit p.trcEn)

/-- VFSLOTS of a function as it reads (R431). -/
def Pkg.vfslotsOf (p : Pkg) (vf : Nat) : Word := word (256 * (p.vfslots.get (0, 0) vf).2 + (p.vfslots.get (0, 0) vf).1)

/-- TEMP (R428). -/
def State.tempReg (s : State) : Word := word (((List.range 4).map fun e => (s.die e).temp % 256 * 2 ^ (8 * e)).sum)

/-- EPHEM of a die (R429). -/
def Die.ephem (d : Die) : Word := word (2 ^ 48 * d.eolDays + 2 ^ 16 * d.rodrift + d.hours)

/-- A package register as it reads (R423, R427 to R429). -/
def State.readPkgReg (s : State) (off : Nat) : Word :=
  let p := s.pkg
  match off with
  | 0x000 => pkgid
  | 0x008 => p.bootstage
  | 0x010 => p.fdtbase
  | 0x018 => p.sweepctl
  | 0x020 => word p.svctl
  | 0x0A8 => p.w4base
  | 0x0B0 => p.trcbase
  | 0x0B8 => p.trcctl
  | 0x0C0 => p.trchead
  | 0x0C8 => p.trcdrop
  | 0x100 => p.energy
  | 0x108 => word p.power
  | 0x110 => s.tempReg
  | 0x118 => word p.pcap
  | 0x120 => p.throttle
  | 0x128 => p.hposts
  | 0x130 => p.msgs
  | _ =>
    if 0x028 ≤ off && off < 0x0A8 then p.vfslotsOf ((off - 0x028) / 8)
    else if 0x180 ≤ off && off < 0x280 then (s.cluster ((off - 0x180) / 8)).colmap
    else if 0x280 ≤ off && off < 0x2A0 then (s.die ((off - 0x280) / 8)).colcnt
    else if 0x2A0 ≤ off && off < 0x2C0 then (s.die ((off - 0x2A0) / 8)).ephem
    else 0

/-- A register of an HBM stack, and of a flash stack, as it reads (R304, R416, R430). -/
def HbmStack.reg (k : HbmStack) (off : Nat) : Word :=
  match off with
  | 0x00 => k.ztbase
  | 0x08 => word k.free.length
  | 0x10 => word (2 ^ 48 * k.eolDays + k.hce)
  | 0x18 => word k.hunc
  | _ => 0
def FlashStack.reg (k : FlashStack) (off : Nat) : Word :=
  match off with
  | 0x00 => word (2 ^ 32 * k.spare + k.badBlocks)
  | 0x08 => word (2 ^ 32 * k.eraseMax + k.eraseMean)
  | 0x10 => k.healthC
  | 0x18 => word (2 ^ 48 * k.eolDays + k.thresh)
  | 0x20 => word (2 ^ 63 * bit k.arm + k.armPage)
  | _ => 0

/-- MBSTAT (R434). -/
def Mailbox.stat (m : Mailbox) : Word := word (256 * m.result + bit m.busy)

/-- A register of a stack, the port or the mailbox as it reads (R304, R430, R433, R434). -/
def State.readUnitReg (s : State) (off : Nat) : Word :=
  if off < 0x200800 then (s.hbmStack ((off - 0x200000) / 0x100)).reg (off % 0x100)
  else if 0x280000 ≤ off && off < 0x280800 then (s.flashStack ((off - 0x280000) / 0x100)).reg (off % 0x100)
  else
    match off with
    | 0x300000 => s.port.addr0
    | 0x300008 => s.port.addr1
    | 0x300010 => word s.port.retry
    | 0x300018 => word s.port.rto
    | 0x400008 => s.mbox.stat
    | _ => if 0x401000 ≤ off && off < 0x402000 then word (ofLeBytes (s.mbox.bytes (off - 0x401000) 8)) else 0

/-- BAR0 as an 8-byte read at an offset finds it; an offset that no table names reads zero (R6, R7, R421). -/
def State.bar0 (s : State) (off : Nat) : Word :=
  if off % 8 ≠ 0 then 0
  else if off < 0x1000 then s.readPkgReg off
  else if 0x100000 ≤ off && off < 0x140000 then s.readJobReg ((off - 0x100000) / 0x1000) (off % 0x1000)
  else if 0x200000 ≤ off then s.readUnitReg off
  else 0

/-- What a read of BAR0 leaves behind: the counters that a read clears (R7, R65, R304, R427, R430). -/
def State.afterBar0 (s : State) (off : Nat) : State :=
  if 0x100000 ≤ off && off < 0x140000 && off % 0x1000 = 0x020 then s.modJob ((off - 0x100000) / 0x1000) Job.dispcntRead
  else if 0x280 ≤ off && off < 0x2A0 && off % 8 = 0 then s.modDie ((off - 0x280) / 8) Die.colcntRead
  else if 0x200000 ≤ off && off < 0x200800 && off % 0x100 = 0x18 then s.modHbm ((off - 0x200000) / 0x100) HbmStack.huncRead
  else if 0x280000 ≤ off && off < 0x280800 && off % 0x100 = 0x10 then s.modFlash ((off - 0x280000) / 0x100) FlashStack.healthRead
  else s

/-! PCIe functions (R46, R421, R431) -/

/-- The job slot that a function knows by a number: its slots are renumbered from 0; none for a slot that is not its own. -/
def Pkg.slotOf (p : Pkg) (vf : Option Nat) (n : Nat) : Option Nat :=
  match vf with
  | none => if n < 64 then some n else none
  | some v =>
    let (first, count) := p.vfslots.get (0, 0) v
    if n < count && first + n < 64 then some (first + n) else none

/-- The offset of BAR0 that a function's offset reaches: a virtual function reaches the pages of its own slots only (R421, R431). -/
def Pkg.bar0Of (p : Pkg) (vf : Option Nat) (off : Nat) : Option Nat :=
  match vf with
  | none => some off
  | some v =>
    if off < 0x100000 || 0x140000 ≤ off then none
    else (p.slotOf (some v) ((off - 0x100000) / 0x1000)).map fun n => 0x100000 + 0x1000 * n + off % 0x1000

/-- The vectors of a virtual function that have been signalled, renumbered (R431). -/
def Pkg.vfVectors (p : Pkg) (v : Nat) : List Nat :=
  let (first, count) := p.vfslots.get (0, 0) v
  p.msix.filterMap fun n => if 16 * first ≤ n && n < 16 * (first + count) && n < 1024 then some (n - 16 * first) else none

/-- A read through a function: BAR0, or BAR2, which reads zero (R46, R421). -/
def State.hostRead (s : State) (a : HostAccess) : State :=
  match (if a.bar = 0 then s.pkg.bar0Of a.vf a.off else none) with
  | some off => (s.afterBar0 off).hostReads (leBytes 8 (s.bar0 off).toNat)
  | none => s.hostReads (leBytes 8 0)

/-- A write through a function: a register of BAR0, or a post in BAR2 (R46, R421, R431). -/
def State.hostWrite (s : State) (a : HostAccess) (bs : List Byte) : State :=
  if a.bar = 0 then
    match s.pkg.bar0Of a.vf a.off with
    | some off => if bs.length = 8 then s.writeBar0 off (word (ofLeBytes bs)) a.table else s
    | none => s
  else if a.bar = 2 then
    if s.pkg.halted then s
    else
      match s.pkg.slotOf a.vf (a.off / 0x1000) with
      | some j => s.hostPost j (a.off % 0x1000) bs
      | none => s
  else s

/-- A host's access, and what follows from it (log entry 120). -/
def State.hostAccess (s : State) (a : HostAccess) : Out :=
  s.event fun s => match a.data with
    | none => s.hostRead a
    | some bs => s.hostWrite a bs

/-! The host's memory window (R431, R432) -/

/-- Where a byte at a physical address stands now: in the slice that has pinned its page, or in HBM (R252). -/
def State.homeKey (s : State) (pa : Nat) : Nat :=
  match s.clusters.find? fun e => e.2.pinned.any (·.holds pa) with
  | some e => pinKey e.1 pa
  | none => pa

/-- The key of a byte of BAR4; none for an unpopulated or untrained address (R425, R432). -/
def State.bar4Key (s : State) (off : Nat) : Option Nat :=
  let all := s.pkg.ready
  let first := decide (s.pkg.stage = 0) && !s.pkg.halted
  if off < 0x20000000 then
    if all || (first && off / 2 ^ 21 < 8) then some (ldmKey 0 off) else none
  else
    let pa := bits s.pkg.w4base 30 22 * 2 ^ 30 + (off - 0x20000000)
    if populated pa && (all || (first && decide (pa < 2 ^ 30))) then some (s.homeKey pa) else none

/-- HOST_BAR4_READ (R432). -/
def execHostBar4Read (s : State) : Out :=
  s.event fun s =>
    s.hostReads ((List.range s.arg.m).map fun i => match s.bar4Key (s.arg.n + i) with
      | some k => (s.bytesAt k 1).headD 0xFF
      | none => 0xFF)

/-- HOST_BAR4_WRITE (R432). -/
def execHostBar4Write (s : State) : Out :=
  s.event fun s =>
    (s.arg.data.mapIdx fun i b => (i, b)).foldl (fun t e => match s.bar4Key (s.arg.n + e.1) with
      | some k => t.putBytes hostWriter k [e.2]
      | none => t) s

/-! Start-up (R425, R427) -/

/-- Keys of flash, whose bytes and marks outlast power. -/
def isFlash (key : Nat) : Bool := 2 ^ 56 ≤ key && key < 2 ^ 57

/-- A change of BOOTSTAGE is signalled (R431). -/
def State.bootChange (s : State) (stage : Nat) (busy : Bool) (err : Nat) : State :=
  { s with pkg := { s.pkg with stage := stage, busy := busy, err := err } }.signal 1027

/-- POWER_GOOD: the package as reset leaves it, with what outlasts power: flash, the ageing estimates, and
an image that was verified for this power-good (R425, R434). -/
def execPowerGood (s : State) : Out :=
  s.event fun s =>
    { State.reset with
      agenda := s.agenda, turn := s.turn, free := s.free
      mem := s.mem.filter fun e => isFlash e.1
      bad := s.bad.filter fun e => isFlash e.1
      flash := s.flash
      dies := s.dies.map fun e => (e.1, { Die.idle with eolDays := e.2.eolDays, rodrift := e.2.rodrift, hours := e.2.hours })
      mbox := { State.reset.mbox with running := match s.mbox.staged with
        | some img => some img
        | none => s.mbox.running } }

/-- STAGE0_COMPLETE: first light, or the ROM's check of the firmware image fails (R425, R434). -/
def execStage0Complete (s : State) : Out :=
  s.event fun s =>
    if s.pkg.stage ≠ 7 || !s.pkg.busy then s
    else if !s.mbox.trusted then s.bootChange 7 false 1
    else { s with port := { s.port with addr0 := Config.endpoint.setWidth 64, addr1 := (Config.endpoint >>> 64).setWidth 64 } }.bootChange 0 true 0

/-- A position's core fails: the cluster's spare site takes its number, or it goes offline (R14, R427). -/
def Cluster.failCore (cl : Cluster) (p : Nat) : Cluster :=
  if (List.range 8).any fun k => cl.site / 16 ^ k % 16 = 8 then { cl with offline := cl.offline ||| 2 ^ p }
  else { cl with site := cl.site - cl.site / 16 ^ p % 16 * 16 ^ p + 8 * 16 ^ p }

/-- The cluster's spare site has taken a position. -/
def Cluster.spareUsed (cl : Cluster) : Bool := (List.range 8).any fun k => cl.site / 16 ^ k % 16 = 8

/-- A lasting fault counted at a die (R427). -/
def State.countLasting (s : State) (c : Nat) : State := s.modDie (dieOf c) fun e => { e with lasting := (e.lasting + 1) % 2 ^ 16 }

/-- The supervisor learns that a unit of a core is out: a kind-1 service task of each job that has a context on the core, or else of
the first live job (R14, R90, R427; log entry 98). -/
def State.noteUnit (s : State) (c : Nat) : State :=
  let here := ([0, 1].filter fun b => (s.ctx c b).occupied).map fun b => (b, (s.ctx c b).job)
  let told := if here.isEmpty then ((s.jobs.find? fun e => e.2.active).map fun e => (0, e.1)).toList else here
  told.foldl (fun s e => s.service 1 e.2 s.pkg.svctl (contextWord c e.1 e.2) 0) s

/-- A core is mapped out, in its cluster's map and its die's count of spares (R14, R427). -/
def State.mapOut (s : State) (c : Nat) : State :=
  let d := clusterOf c
  let fresh := bit (!(s.cluster d).spareUsed)
  (s.modCluster d fun cl => cl.failCore (c % 8)).modDie (dieOf c) fun e => { e with spares := e.spares + fresh }

/-- A lasting fault in a vector unit: its VUOK bit clears (R90, R427). -/
def State.loseUnit (s : State) (c u : Nat) : State :=
  ((s.countLasting c).modCore c fun k => { k with vuok := k.vuok &&& (3 - 2 ^ u) }).modDie (dieOf c) fun e =>
    { e with vuout := (e.vuout + 1) % 2 ^ 8 }

/-- A core without a vector unit is mapped out, and the spare has both; the supervisor learns of the unit where the core goes on
(R14, R90, R427). -/
def State.mapOutBare (s : State) (c : Nat) : State :=
  let s1 := (s.mapOut c).modCore c fun k => { k with vuok := 3 }
  if s1.offline c then s1 else s1.noteUnit c

/-- A vector unit is mapped out (R90, R427). -/
def State.mapOutUnit (s : State) (c u : Nat) : State :=
  let s1 := s.loseUnit c u
  if (s1.core c).vuok = 0 then s1.mapOutBare c else s1.noteUnit c

/-- What collimation finds at stage 1; a unit found out is signalled (R14, R425, R427). -/
def State.collimate (s : State) (r : StageReport) : State :=
  let s1 := r.coreBad.foldl (fun s e => ((List.range 8).filter fun k => e.2.testBit k).foldl (fun s k => (s.countLasting (8 * (e.1 % 32) + k)).mapOut (8 * (e.1 % 32) + k)) s) s
  let s2 := r.vuBad.foldl (fun s e => ((List.range 2).filter fun u => e.2.testBit u).foldl (fun s u => s.mapOutUnit (e.1 % 256) u) s) s1
  if r.coreBad.isEmpty && r.vuBad.isEmpty then s2 else s2.signal 1024

/-- What stage 1 of start-up resets; sites, offline cores and vector units stay as collimation has left them since power-on (R14,
R113, R230, R241, R248, R251, R309, R360, R400, R424, R427, R428); the issue allowance is 16 and no hot reading counts (log entry 131). -/
def State.stage1 (s : State) : State :=
  { s with
    cores := s.cores.map fun e => (e.1, { Core.idle with vuok := e.2.vuok })
    clusters := s.clusters.map fun e => (e.1, { Cluster.idle with offline := e.2.offline, site := e.2.site })
    handles := [], hreqs := [], reads := [], disp := State.reset.disp, jobs := [], saved := [], faults := []
    fabric := { State.reset.fabric with nextItem := s.fabric.nextItem, nextXwave := s.fabric.nextXwave }
    dies := s.dies.map fun e => (e.1, { e.2 with lasting := 0 })
    port := { s.port with packets := [] }
    pkg := { s.pkg with sweepEn := true, xperiod := 20, period := 0x1000, throttle := 0, allow := 16, hot := 0 } }

/-- The report of an event; none given: nothing found. -/
def cleanReport : StageReport := ⟨0, [], [], []⟩

/-- STAGE1_COMPLETE (R425). -/
def execStage1Complete (s : State) : Out :=
  s.event fun s =>
    let r := s.arg.report.getD cleanReport
    if s.pkg.stage ≠ 0 || !s.pkg.busy then s
    else if r.err = 2 || r.err = 3 then s.bootChange 0 false r.err
    else (s.stage1.collimate r).bootChange 1 true 0

/-- A flash stack after the health scan (R304, R416). -/
def FlashStack.scanned (k : FlashStack) (h : Nat × Nat × Nat × Nat) : FlashStack :=
  { k with
    spare := h.1, badBlocks := h.2.1, eraseMax := h.2.2.1, eraseMean := h.2.2.2, reloc := 0, uncorr := 0, thresh := 1000000
    arm := false, armPage := 0 }

/-- The health of a stack as shipped, within the bounds of R304; the values are left open. -/
def shippedHealth (free : Nat) : Nat × Nat × Nat × Nat :=
  let worst := Config.freeNat (free + 2) % 17
  (1536 + Config.freeNat free % (2 ^ 32 - 1536), Config.freeNat (free + 1) % 257, worst, Config.freeNat (free + 3) % (worst + 1))

/-- STAGE2_COMPLETE (R425): an error of the port's link is not fatal; without a report the flash stacks are as shipped (R304). -/
def execStage2Complete (s : State) : Out :=
  s.event fun s =>
    let r := s.arg.report.getD cleanReport
    if s.pkg.stage ≠ 1 || !s.pkg.busy then s
    else if r.err = 4 then s.bootChange 1 false 4
    else
      let s1 := (List.range 8).foldl (fun t n =>
        t.modFlash n fun k => k.scanned ((r.health[n]?).getD (shippedHealth (s.free + 4 * n)))) { s with free := s.free + 32 }
      { s1 with port := { s1.port with up := r.err ≠ 5 } }.bootChange 2 false (if r.err = 5 then 5 else 0)

/-! Power and temperature (R426, R428) -/

/-- A die above 105 °C (R426). -/
def State.tooHot (s : State) (e : Nat) : Bool := decide (105 < (s.die e).temp)

/-- The cycles of 16 in which a core may issue (R426). -/
def State.allowance (s : State) (c : Nat) : Nat := if s.tooHot (dieOf c) then min 8 s.pkg.allow else s.pkg.allow

/-- Sensor readings in the registers: TEMP, POWER and ENERGY, and the count of readings above 3,300 W (R426, R428). -/
def State.sense (s : State) (p : PowerSample) : State :=
  let s1 := (List.range 4).foldl (fun s e => s.modDie e fun d => { d with temp := p.temps.getD e 0 % 256 }) s
  { s1 with pkg := { s1.pkg with
      power := p.mw % 2 ^ 32, energy := s1.pkg.energy + word p.mw, hot := if 3300000 < p.mw then s1.pkg.hot + 1 else 0 } }

/-- POWER_CAP_TICK: N falls above the cap and rises below it, and a change of a limit is signalled; the cycles withheld are left
open (R426, R428, R431; log entry 97). -/
def execPowerCapTick (s : State) : Out :=
  s.event fun s =>
    match s.arg.power with
    | none => s
    | some p =>
      let s1 := s.sense p
      let n := if 1000 * s1.pkg.pcap < p.mw then max 4 (s1.pkg.allow - 1) else if p.mw < 1000 * s1.pkg.pcap then min 16 (s1.pkg.allow + 1) else s1.pkg.allow
      let held := (List.range 256).any fun c => s1.allowance c < 16
      let s2 := if held then { s1.useFree.2 with pkg := { s1.pkg with throttle := s1.pkg.throttle + word (Config.freeNat s1.free) } } else s1
      let s3 := { s2 with pkg := { s2.pkg with allow := n } }
      if n ≠ s.pkg.allow || (List.range 4).any (fun e => s.tooHot e != s3.tooHot e) then s3.signal 1025 else s3

/-- THERMAL_TRIP: from first light on, a die above 115 °C, or ten readings of 1 ms in a row above 3,300 W, kills every job and stops
the dies (R20, R426; log entry 97). -/
def execThermalTrip (s : State) : Out :=
  s.event fun s =>
    match s.arg.power with
    | none => s
    | some p =>
      if !(decide (10 ≤ s.pkg.hot) || p.temps.any fun t => decide (115 < t)) || s.pkg.stage = 7 || s.pkg.tripped then s
      else
        let s1 := (List.range 64).foldl (fun s j => s.startKill j) s
        (({ s1 with pkg := { s1.pkg with tripped := true, hot := 0 }, port := { s1.port with up := false } } : State).bootChange 0 false s1.pkg.err).signal 1025

/-- COOLDOWN_RESTART: start-up resumes from stage 1 below 85 °C, unless a fatal error had stopped it (R425, R426). -/
def execCooldownRestart (s : State) : Out :=
  s.event fun s =>
    match s.arg.power with
    | none => s
    | some p =>
      if !s.pkg.tripped || p.temps.any fun t => decide (85 ≤ t) then s
      else ({ s with pkg := { s.pkg with tripped := false } } : State).bootChange 0 (!s.pkg.halted) (if s.pkg.halted then s.pkg.err else 0)

/-! Collimation (R427) -/

/-- The core of a unit. -/
def unitCore : HwUnit → Nat
  | .core c => c
  | .vector c _ => c
  | .ldmBank c _ => c

/-- A core is under a test for a core: no new placement, and each bank is held as a pre-emption holds it (R399, R427). -/
def State.holdBanks (s : State) (c : Nat) : State := (s.requestPreempt c 0).requestPreempt c 1

/-- UNIT_ERROR: the unit goes offline for a test; an error of another unit of a core under test stays pending until that test has
ended (R427). -/
def State.startTest (s : State) (u : HwUnit) : State :=
  let c := unitCore u
  if 256 ≤ c || s.offline c then s
  else if (s.core c).test.isSome then
    s.modCore c fun k => { k with errors := if k.test = some u || k.errors.contains u then k.errors else k.errors ++ [u] }
  else
    let s1 := s.modCore c fun k =>
      { k with test := some u, kept := (k.v0u, k.v1u), coll := (false, false), errors := k.errors.filter (· ≠ u) }
    match u with
    | .core _ => s1.holdBanks c
    | .vector _ n => s1.modCore c fun k => { k with v0u := 1 - n % 2, v1u := 1 - n % 2 }
    | .ldmBank _ _ => s1

/-- UNIT_ERROR (R427). -/
def execUnitError (s : State) : Out := s.event fun s => s.startTest s.arg.unit

/-- Where a bank's context stands in the reserved collimation area (R427; log entry 98). -/
def collimationSlot (c b : Nat) : Nat := Config.collimationArea + (2 * c + b) * ctxImageLen

/-- A bank's context saved in the reserved collimation area before its core's test (R427). -/
def State.collimationSave (s : State) (c b : Nat) : State :=
  if !(s.ctx c b).occupied then s
  else
    let s1 := s.flush c b
    s1.putBytes 256 (collimationSlot c b) (s1.ctx c b).image

/-- A context of a core that goes offline stays in the reserved area: its notice, its bank (R427). -/
def State.evacuate (s : State) (c b : Nat) : State :=
  let k := s.ctx c b
  if !k.occupied then s
  else
    let s2 := (s.collimationSave c b).dropQw c b
    ({ s2 with saved := s2.saved ++ [k.saved] }.release c b).service 1 k.job s.pkg.svctl (contextWord c b k.job) (word (collimationSlot c b))

/-- Banks that the test held run on (R427). -/
def State.endHold (s : State) (c : Nat) : State :=
  let h := (s.core c).coll
  let s1 := if h.1 then s.releaseHeld c 0 else s
  (if h.2 then s1.releaseHeld c 1 else s1).modCore c fun k => { k with coll := (false, false) }

/-- After a core has been mapped out: its contexts go on at the spare site, or are saved and its waiting handlers dropped (R14,
R318, R427); notices that wait there are dropped too (log entry 130). -/
def State.settleSite (s : State) (c : Nat) : State :=
  if !s.offline c then s.endHold c
  else
    let idle := !(s.ctx c 0).occupied && !(s.ctx c 1).occupied
    let s1 := if idle then s.noteUnit c else s
    let s2 := (s1.evacuate c 0).evacuate c 1
    let waiting := (s2.core c).queue.filter fun a => match a.kind with
      | .service _ => false
      | _ => true
    waiting.foldl (fun s a => s.dropArrival c 0x2C a) (s2.modCore c fun k => { k with queue := [], coll := (false, false) })

/-- A core's test may run: both banks are held or idle, and nothing is on its way to them (R427). -/
def Core.testable (k : Core) : Bool :=
  [k.b0, k.b1].all fun q => q.status = .idle || (q.held && q.queue.isEmpty && q.pend.isEmpty)

/-- A core's contexts are saved before its test (R427). -/
def State.saveForTest (s : State) (u : HwUnit) : State :=
  match u with
  | .core c => (s.collimationSave c 0).collimationSave c 1
  | _ => s

/-- The last vector unit of a core is lost while its tasks run: they are held and saved first, as for a core's test, whose outcome
is then known (R90, R427). -/
def State.holdBare (s : State) (c u : Nat) : State :=
  ((s.loseUnit c u).modCore c fun k => { k with test := some (.core c), coll := (false, false) }).holdBanks c

/-- A test ends (R427). -/
def State.endTest (s : State) (u : HwUnit) (lasting : Bool) : State :=
  let c := unitCore u
  let o := s.core c
  let s1 := ((s.saveForTest u).modCore c fun k => { k with test := none }).signal 1024
  if o.test ≠ some u || (o.coreTest && !o.testable) then s
  else if o.vuok = 0 then (s1.mapOutBare c).settleSite c
  else if !lasting then
    ((s1.modDie (dieOf c) fun e => { e with soft := min (e.soft + 1) 0xFFFFFFFF }).modCore c fun k =>
      { k with v0u := o.kept.1, v1u := o.kept.2 }).endHold c
  else
    match u with
    | .core _ => ((s1.countLasting c).mapOut c).settleSite c
    | .vector _ n =>
      if o.vuok &&& (3 - 2 ^ (n % 2)) = 0 && !o.testable then s.holdBare c (n % 2) else (s1.mapOutUnit c (n % 2)).settleSite c
    | .ldmBank _ _ => s1.countLasting c

/-- COLLIMATION_TEST_DONE (R427). -/
def execCollimationTestDone (s : State) : Out := s.event fun s => s.endTest s.arg.unit s.arg.flag

/-- The predictions and errors of an HBM stack: EOL_DAYS, HCE, and sectors whose data has become uncorrectable (R430; log entry 98). -/
def State.failHbm (s : State) (h : Nat) (a : AgeSample) : State :=
  let s1 := s.modHbm h fun k => { k with eolDays := a.eolDays % 2 ^ 16, hce := a.errors % 2 ^ 32 }
  (a.lost.filter fun p => decide (p / 2 ^ 36 = h) && populated p).foldl (fun s p =>
    { s with bad := Sparse.splice false s.bad (p / 32 * 32) (List.replicate 32 true) }) s1

/-- EPHEM_UPDATE (R429): the ephemeris of a compute die (0 to 3), or the prediction for a flash stack (4 to 11) or an HBM stack (12 to
19), for which the registers show EOL_DAYS, and HCE for HBM (R304, R430). -/
def execEphemUpdate (s : State) : Out :=
  s.event fun s => match s.arg.age with
    | some a =>
      let days := a.eolDays % 2 ^ 16
      if s.arg.n < 4 then s.modDie s.arg.n fun d => { d with eolDays := days, rodrift := a.rodrift % 2 ^ 16, hours := a.hours % 2 ^ 16 }
      else if s.arg.n < 12 then s.modFlash (s.arg.n - 4) fun k => { k with eolDays := days }
      else if s.arg.n < 20 then s.failHbm (s.arg.n - 12) a
      else s
    | none => s

end Sys2Proof.Machine
end

