-- ==== Sys2Proof/Machine/Dispatch.lean ====
section
/-! DEFINITION. The meaning of each instruction: one arm for each constructor. -/
namespace Sys2Proof.Machine

def exec (i : Instr) (s : State) : Host.Outcome State Fault Refusal :=
  match i with
  | .br f => Sys2Proof.Machine.execBr f s
  | .brx f => Sys2Proof.Machine.execBrx f s
  | .call f => Sys2Proof.Machine.execCall f s
  | .callx f => Sys2Proof.Machine.execCallx f s
  | .ret f => Sys2Proof.Machine.execRet f s
  | .loop f => Sys2Proof.Machine.execLoop f s
  | .loopi f => Sys2Proof.Machine.execLoopi f s
  | .lbrk f => Sys2Proof.Machine.execLbrk f s
  | .lidx f => Sys2Proof.Machine.execLidx f s
  | .rep f => Sys2Proof.Machine.execRep f s
  | .post f => Sys2Proof.Machine.execPost f s
  | .postn f => Sys2Proof.Machine.execPostn f s
  | .posti f => Sys2Proof.Machine.execPosti f s
  | .jadd f => Sys2Proof.Machine.execJadd f s
  | .endp f => Sys2Proof.Machine.execEndp f s
  | .whwait f => Sys2Proof.Machine.execWhwait f s
  | .whtest f => Sys2Proof.Machine.execWhtest f s
  | .binit f => Sys2Proof.Machine.execBinit f s
  | .barv f => Sys2Proof.Machine.execBarv f s
  | .bexp f => Sys2Proof.Machine.execBexp f s
  | .bwait f => Sys2Proof.Machine.execBwait f s
  | .btest f => Sys2Proof.Machine.execBtest f s
  | .bwany f => Sys2Proof.Machine.execBwany f s
  | .waita f => Sys2Proof.Machine.execWaita f s
  | .fence f => Sys2Proof.Machine.execFence f s
  | .drain f => Sys2Proof.Machine.execDrain f s
  | .qtest f => Sys2Proof.Machine.execQtest f s
  | .qinit f => Sys2Proof.Machine.execQinit f s
  | .qadvh f => Sys2Proof.Machine.execQadvh f s
  | .qadvt f => Sys2Proof.Machine.execQadvt f s
  | .trap f => Sys2Proof.Machine.execTrap f s
  | .svc f => Sys2Proof.Machine.execSvc f s
  | .mfs f => Sys2Proof.Machine.execMfs f s
  | .mts f => Sys2Proof.Machine.execMts f s
  | .csave f => Sys2Proof.Machine.execCsave f s
  | .cload f => Sys2Proof.Machine.execCload f s
  | .ctxsw f => Sys2Proof.Machine.execCtxsw f s
  | .evt f => Sys2Proof.Machine.execEvt f s
  | .evtTr f => Sys2Proof.Machine.execEvtTr f s
  | .add f => Sys2Proof.Machine.execAdd f s
  | .sub f => Sys2Proof.Machine.execSub f s
  | .addi f => Sys2Proof.Machine.execAddi f s
  | .mul f => Sys2Proof.Machine.execMul f s
  | .mulh f => Sys2Proof.Machine.execMulh f s
  | .mulhu f => Sys2Proof.Machine.execMulhu f s
  | .div f => Sys2Proof.Machine.execDiv f s
  | .divu f => Sys2Proof.Machine.execDivu f s
  | .rem f => Sys2Proof.Machine.execRem f s
  | .and f => Sys2Proof.Machine.execAnd f s
  | .or f => Sys2Proof.Machine.execOr f s
  | .xor f => Sys2Proof.Machine.execXor f s
  | .andi f => Sys2Proof.Machine.execAndi f s
  | .ori f => Sys2Proof.Machine.execOri f s
  | .shl f => Sys2Proof.Machine.execShl f s
  | .shr f => Sys2Proof.Machine.execShr f s
  | .sar f => Sys2Proof.Machine.execSar f s
  | .shli f => Sys2Proof.Machine.execShli f s
  | .shri f => Sys2Proof.Machine.execShri f s
  | .sari f => Sys2Proof.Machine.execSari f s
  | .clz f => Sys2Proof.Machine.execClz f s
  | .ctz f => Sys2Proof.Machine.execCtz f s
  | .popc f => Sys2Proof.Machine.execPopc f s
  | .min f => Sys2Proof.Machine.execMin f s
  | .max f => Sys2Proof.Machine.execMax f s
  | .minu f => Sys2Proof.Machine.execMinu f s
  | .maxu f => Sys2Proof.Machine.execMaxu f s
  | .sel f => Sys2Proof.Machine.execSel f s
  | .li f => Sys2Proof.Machine.execLi f s
  | .lih f => Sys2Proof.Machine.execLih f s
  | .addsh f => Sys2Proof.Machine.execAddsh f s
  | .bfx f => Sys2Proof.Machine.execBfx f s
  | .bfi f => Sys2Proof.Machine.execBfi f s
  | .widf f => Sys2Proof.Machine.execWidf f s
  | .cmpeq f => Sys2Proof.Machine.execCmpeq f s
  | .cmpne f => Sys2Proof.Machine.execCmpne f s
  | .cmplt f => Sys2Proof.Machine.execCmplt f s
  | .cmpltu f => Sys2Proof.Machine.execCmpltu f s
  | .cmple f => Sys2Proof.Machine.execCmple f s
  | .cmpleu f => Sys2Proof.Machine.execCmpleu f s
  | .cmpeqi f => Sys2Proof.Machine.execCmpeqi f s
  | .cmplti f => Sys2Proof.Machine.execCmplti f s
  | .cmpltui f => Sys2Proof.Machine.execCmpltui f s
  | .pand f => Sys2Proof.Machine.execPand f s
  | .por f => Sys2Proof.Machine.execPor f s
  | .pxor f => Sys2Proof.Machine.execPxor f s
  | .pandn f => Sys2Proof.Machine.execPandn f s
  | .pset f => Sys2Proof.Machine.execPset f s
  | .pget f => Sys2Proof.Machine.execPget f s
  | .pcnt f => Sys2Proof.Machine.execPcnt f s
  | .pfirst f => Sys2Proof.Machine.execPfirst f s
  | .fadd f => Sys2Proof.Machine.execFadd f s
  | .fsub f => Sys2Proof.Machine.execFsub f s
  | .fmul f => Sys2Proof.Machine.execFmul f s
  | .ffma f => Sys2Proof.Machine.execFfma f s
  | .fmin f => Sys2Proof.Machine.execFmin f s
  | .fmax f => Sys2Proof.Machine.execFmax f s
  | .fclt f => Sys2Proof.Machine.execFclt f s
  | .fcle f => Sys2Proof.Machine.execFcle f s
  | .fcvti f => Sys2Proof.Machine.execFcvti f s
  | .fcvtf f => Sys2Proof.Machine.execFcvtf f s
  | .rndq f => Sys2Proof.Machine.execRndq f s
  | .rndf f => Sys2Proof.Machine.execRndf f s
  | .vadd v f => Sys2Proof.Machine.execVadd v f s
  | .vsub v f => Sys2Proof.Machine.execVsub v f s
  | .vmul v f => Sys2Proof.Machine.execVmul v f s
  | .vfma v f => Sys2Proof.Machine.execVfma v f s
  | .vfms v f => Sys2Proof.Machine.execVfms v f s
  | .vmin v f => Sys2Proof.Machine.execVmin v f s
  | .vmax v f => Sys2Proof.Machine.execVmax v f s
  | .vabs v f => Sys2Proof.Machine.execVabs v f s
  | .vneg v f => Sys2Proof.Machine.execVneg v f s
  | .vdiv f => Sys2Proof.Machine.execVdiv f s
  | .vrcp v f => Sys2Proof.Machine.execVrcp v f s
  | .vrsq v f => Sys2Proof.Machine.execVrsq v f s
  | .vexp2 v f => Sys2Proof.Machine.execVexp2 v f s
  | .vlog2 v f => Sys2Proof.Machine.execVlog2 v f s
  | .vand v f => Sys2Proof.Machine.execVand v f s
  | .vor v f => Sys2Proof.Machine.execVor v f s
  | .vxor v f => Sys2Proof.Machine.execVxor v f s
  | .vshl v f => Sys2Proof.Machine.execVshl v f s
  | .vshr v f => Sys2Proof.Machine.execVshr v f s
  | .vsar v f => Sys2Proof.Machine.execVsar v f s
  | .vceq v f => Sys2Proof.Machine.execVceq v f s
  | .vcne v f => Sys2Proof.Machine.execVcne v f s
  | .vclt v f => Sys2Proof.Machine.execVclt v f s
  | .vcle v f => Sys2Proof.Machine.execVcle v f s
  | .vsel v f => Sys2Proof.Machine.execVsel v f s
  | .vmov v f => Sys2Proof.Machine.execVmov v f s
  | .vbcst v f => Sys2Proof.Machine.execVbcst v f s
  | .viota v f => Sys2Proof.Machine.execViota v f s
  | .vxtr v f => Sys2Proof.Machine.execVxtr v f s
  | .vins v f => Sys2Proof.Machine.execVins v f s
  | .vradd f => Sys2Proof.Machine.execVradd f s
  | .vrmax f => Sys2Proof.Machine.execVrmax f s
  | .vrmin f => Sys2Proof.Machine.execVrmin f s
  | .vscan f => Sys2Proof.Machine.execVscan f s
  | .vargmx f => Sys2Proof.Machine.execVargmx f s
  | .vperm f => Sys2Proof.Machine.execVperm f s
  | .vrot v f => Sys2Proof.Machine.execVrot v f s
  | .vcmpr f => Sys2Proof.Machine.execVcmpr f s
  | .vsortk f => Sys2Proof.Machine.execVsortk f s
  | .vmrgk f => Sys2Proof.Machine.execVmrgk f s
  | .vcvt v f => Sys2Proof.Machine.execVcvt v f s
  | .vqnt v f => Sys2Proof.Machine.execVqnt v f s
  | .vdqnt v f => Sys2Proof.Machine.execVdqnt v f s
  | .vtag v f => Sys2Proof.Machine.execVtag v f s
  | .vgtag v f => Sys2Proof.Machine.execVgtag v f s
  | .mma f => Sys2Proof.Machine.execMma f s
  | .mmaAbs f => Sys2Proof.Machine.execMmaAbs f s
  | .mmam f => Sys2Proof.Machine.execMmam f s
  | .ttrn f => Sys2Proof.Machine.execTtrn f s
  | .tprm f => Sys2Proof.Machine.execTprm f s
  | .tred f => Sys2Proof.Machine.execTred f s
  | .azero f => Sys2Proof.Machine.execAzero f s
  | .aadd f => Sys2Proof.Machine.execAadd f s
  | .ascl f => Sys2Proof.Machine.execAscl f s
  | .acvt f => Sys2Proof.Machine.execAcvt f s
  | .afold f => Sys2Proof.Machine.execAfold f s
  | .arow f => Sys2Proof.Machine.execArow f s
  | .awrow f => Sys2Proof.Machine.execAwrow f s
  | .tzero f => Sys2Proof.Machine.execTzero f s
  | .tmov f => Sys2Proof.Machine.execTmov f s
  | .trow f => Sys2Proof.Machine.execTrow f s
  | .twrow f => Sys2Proof.Machine.execTwrow f s
  | .ttag f => Sys2Proof.Machine.execTtag f s
  | .lxld f => Sys2Proof.Machine.execLxld f s
  | .lxinv f => Sys2Proof.Machine.execLxinv f s
  | .ldb f => Sys2Proof.Machine.execLdb f s
  | .ldbu f => Sys2Proof.Machine.execLdbu f s
  | .ldh f => Sys2Proof.Machine.execLdh f s
  | .ldhu f => Sys2Proof.Machine.execLdhu f s
  | .ldw f => Sys2Proof.Machine.execLdw f s
  | .ldwu f => Sys2Proof.Machine.execLdwu f s
  | .ldd f => Sys2Proof.Machine.execLdd f s
  | .ldq f => Sys2Proof.Machine.execLdq f s
  | .vld f => Sys2Proof.Machine.execVld f s
  | .vlds f => Sys2Proof.Machine.execVlds f s
  | .vgth f => Sys2Proof.Machine.execVgth f s
  | .pld f => Sys2Proof.Machine.execPld f s
  | .tld f => Sys2Proof.Machine.execTld f s
  | .tldkLat8 f => Sys2Proof.Machine.execTldkLat8 f s
  | .tldkExpand f => Sys2Proof.Machine.execTldkExpand f s
  | .ldblk f => Sys2Proof.Machine.execLdblk f s
  | .lbwait f => Sys2Proof.Machine.execLbwait f s
  | .pref f => Sys2Proof.Machine.execPref f s
  | .amadd f => Sys2Proof.Machine.execAmadd f s
  | .amswp f => Sys2Proof.Machine.execAmswp f s
  | .amcas f => Sys2Proof.Machine.execAmcas f s
  | .amcas16 f => Sys2Proof.Machine.execAmcas16 f s
  | .ammin f => Sys2Proof.Machine.execAmmin f s
  | .ammax f => Sys2Proof.Machine.execAmmax f s
  | .amminu f => Sys2Proof.Machine.execAmminu f s
  | .ammaxu f => Sys2Proof.Machine.execAmmaxu f s
  | .amand f => Sys2Proof.Machine.execAmand f s
  | .amor f => Sys2Proof.Machine.execAmor f s
  | .amxor f => Sys2Proof.Machine.execAmxor f s
  | .amfadd f => Sys2Proof.Machine.execAmfadd f s
  | .stb f => Sys2Proof.Machine.execStb f s
  | .sth f => Sys2Proof.Machine.execSth f s
  | .stw f => Sys2Proof.Machine.execStw f s
  | .std f => Sys2Proof.Machine.execStd f s
  | .stq f => Sys2Proof.Machine.execStq f s
  | .vst f => Sys2Proof.Machine.execVst f s
  | .vsts f => Sys2Proof.Machine.execVsts f s
  | .vsct f => Sys2Proof.Machine.execVsct f s
  | .pst f => Sys2Proof.Machine.execPst f s
  | .tst f => Sys2Proof.Machine.execTst f s
  | .tstk f => Sys2Proof.Machine.execTstk f s
  | .rdadd f => Sys2Proof.Machine.execRdadd f s
  | .rdmin f => Sys2Proof.Machine.execRdmin f s
  | .rdmax f => Sys2Proof.Machine.execRdmax f s
  | .rdand f => Sys2Proof.Machine.execRdand f s
  | .rdor f => Sys2Proof.Machine.execRdor f s
  | .rdxor f => Sys2Proof.Machine.execRdxor f s
  | .rdfadd f => Sys2Proof.Machine.execRdfadd f s
  | .linv f => Sys2Proof.Machine.execLinv f s
  | .lwb f => Sys2Proof.Machine.execLwb f s
  | .lzero f => Sys2Proof.Machine.execLzero f s
  | .blkrel f => Sys2Proof.Machine.execBlkrel f s
  | .csrc f => Sys2Proof.Machine.execCsrc f s
  | .cdst f => Sys2Proof.Machine.execCdst f s
  | .cdim f => Sys2Proof.Machine.execCdim f s
  | .celt f => Sys2Proof.Machine.execCelt f s
  | .cmode f => Sys2Proof.Machine.execCmode f s
  | .cbar f => Sys2Proof.Machine.execCbar f s
  | .cflag f => Sys2Proof.Machine.execCflag f s
  | .cgo f => Sys2Proof.Machine.execCgo f s
  | .cstat f => Sys2Proof.Machine.execCstat f s
  | .ccan f => Sys2Proof.Machine.execCcan f s
  | .ccanAll f => Sys2Proof.Machine.execCcanAll f s
  | .whreq f => Sys2Proof.Machine.execWhreq f s
  | .whdmd f => Sys2Proof.Machine.execWhdmd f s
  | .whdmdUp f => Sys2Proof.Machine.execWhdmdUp f s
  | .whrel f => Sys2Proof.Machine.execWhrel f s
  | .msend f => Sys2Proof.Machine.execMsend f s
  | .msendv f => Sys2Proof.Machine.execMsendv f s
  | .lsend f => Sys2Proof.Machine.execLsend f s
  | .lrecv f => Sys2Proof.Machine.execLrecv f s
  | .rbkey f => Sys2Proof.Machine.execRbkey f s
  | .nop => Sys2Proof.Machine.execNop s
  | .endTask => Sys2Proof.Machine.execEndTask s
  | .yield => Sys2Proof.Machine.execYield s
  | .park => Sys2Proof.Machine.execPark s
  | .slipw => Sys2Proof.Machine.execSlipw s
  | .quiet => Sys2Proof.Machine.execQuiet s
  | .eret => Sys2Proof.Machine.execEret s
  | .mwait => Sys2Proof.Machine.execMwait s
  | .waitaTimeout => Sys2Proof.Machine.execWaitaTimeout s
  | .longWaitPark => Sys2Proof.Machine.execLongWaitPark s
  | .slotQueueIssue => Sys2Proof.Machine.execSlotQueueIssue s
  | .loadDataReturn => Sys2Proof.Machine.execLoadDataReturn s
  | .tileLoadComplete => Sys2Proof.Machine.execTileLoadComplete s
  | .matrixResultWrite => Sys2Proof.Machine.execMatrixResultWrite s
  | .expanderLoadComplete => Sys2Proof.Machine.execExpanderLoadComplete s
  | .loadBlockFilled => Sys2Proof.Machine.execLoadBlockFilled s
  | .generatorRefill => Sys2Proof.Machine.execGeneratorRefill s
  | .scStamp => Sys2Proof.Machine.execScStamp s
  | .scPerform => Sys2Proof.Machine.execScPerform s
  | .reductionPerform => Sys2Proof.Machine.execReductionPerform s
  | .placement => Sys2Proof.Machine.execPlacement s
  | .gatingTimeout => Sys2Proof.Machine.execGatingTimeout s
  | .aging => Sys2Proof.Machine.execAging s
  | .stageAllocation => Sys2Proof.Machine.execStageAllocation s
  | .blockedPostAdmit => Sys2Proof.Machine.execBlockedPostAdmit s
  | .probeSend => Sys2Proof.Machine.execProbeSend s
  | .probeGrant => Sys2Proof.Machine.execProbeGrant s
  | .expansionSelect => Sys2Proof.Machine.execExpansionSelect s
  | .hostPost => Sys2Proof.Machine.execHostPost s
  | .hostPostEnter => Sys2Proof.Machine.execHostPostEnter s
  | .launch => Sys2Proof.Machine.execLaunch s
  | .gridTaskPost => Sys2Proof.Machine.execGridTaskPost s
  | .stackDeadlineRelease => Sys2Proof.Machine.execStackDeadlineRelease s
  | .stackEngineStart => Sys2Proof.Machine.execStackEngineStart s
  | .stackSplit => Sys2Proof.Machine.execStackSplit s
  | .stackDissolve => Sys2Proof.Machine.execStackDissolve s
  | .copyStart => Sys2Proof.Machine.execCopyStart s
  | .copyElementWrite => Sys2Proof.Machine.execCopyElementWrite s
  | .dramlocFrame => Sys2Proof.Machine.execDramlocFrame s
  | .copyFault => Sys2Proof.Machine.execCopyFault s
  | .copyComplete => Sys2Proof.Machine.execCopyComplete s
  | .handlePageLand => Sys2Proof.Machine.execHandlePageLand s
  | .handleReady => Sys2Proof.Machine.execHandleReady s
  | .handleError => Sys2Proof.Machine.execHandleError s
  | .handleReleaseFree => Sys2Proof.Machine.execHandleReleaseFree s
  | .flashPageRead => Sys2Proof.Machine.execFlashPageRead s
  | .relocationRemap => Sys2Proof.Machine.execRelocationRemap s
  | .blockEraseComplete => Sys2Proof.Machine.execBlockEraseComplete s
  | .messageArrival => Sys2Proof.Machine.execMessageArrival s
  | .messageHandover => Sys2Proof.Machine.execMessageHandover s
  | .handoverAck => Sys2Proof.Machine.execHandoverAck s
  | .retirementNotice => Sys2Proof.Machine.execRetirementNotice s
  | .reductionAck => Sys2Proof.Machine.execReductionAck s
  | .remoteMessageReceive => Sys2Proof.Machine.execRemoteMessageReceive s
  | .sweepWaveStart => Sys2Proof.Machine.execSweepWaveStart s
  | .sweepPass2 => Sys2Proof.Machine.execSweepPass2 s
  | .sweepVerdict => Sys2Proof.Machine.execSweepVerdict s
  | .xwaveStart => Sys2Proof.Machine.execXwaveStart s
  | .xwaveRequestReceive => Sys2Proof.Machine.execXwaveRequestReceive s
  | .xwaveReplyReceive => Sys2Proof.Machine.execXwaveReplyReceive s
  | .xwaveReplyTimeout => Sys2Proof.Machine.execXwaveReplyTimeout s
  | .xwaveVerdictReceive => Sys2Proof.Machine.execXwaveVerdictReceive s
  | .ueRetransmit => Sys2Proof.Machine.execUeRetransmit s
  | .ueAckReceive => Sys2Proof.Machine.execUeAckReceive s
  | .ueAbandon => Sys2Proof.Machine.execUeAbandon s
  | .linkArrival => Sys2Proof.Machine.execLinkArrival s
  | .timer => Sys2Proof.Machine.execTimer s
  | .preemptOverdue => Sys2Proof.Machine.execPreemptOverdue s
  | .faultRecordWrite => Sys2Proof.Machine.execFaultRecordWrite s
  | .fqtailWrite => Sys2Proof.Machine.execFqtailWrite s
  | .losstailWrite => Sys2Proof.Machine.execLosstailWrite s
  | .ortailReplay => Sys2Proof.Machine.execOrtailReplay s
  | .ortailDiscard => Sys2Proof.Machine.execOrtailDiscard s
  | .replay => Sys2Proof.Machine.execReplay s
  | .preemptReq => Sys2Proof.Machine.execPreemptReq s
  | .preemptRel => Sys2Proof.Machine.execPreemptRel s
  | .preqRequest => Sys2Proof.Machine.execPreqRequest s
  | .preqHeldRelease => Sys2Proof.Machine.execPreqHeldRelease s
  | .kill => Sys2Proof.Machine.execKill s
  | .killComplete => Sys2Proof.Machine.execKillComplete s
  | .jobCreate => Sys2Proof.Machine.execJobCreate s
  | .jobTeardown => Sys2Proof.Machine.execJobTeardown s
  | .teardownComplete => Sys2Proof.Machine.execTeardownComplete s
  | .tlbiGo => Sys2Proof.Machine.execTlbiGo s
  | .tlbiComplete => Sys2Proof.Machine.execTlbiComplete s
  | .rctlBind => Sys2Proof.Machine.execRctlBind s
  | .rctlUnbind => Sys2Proof.Machine.execRctlUnbind s
  | .unbindWritebackDone => Sys2Proof.Machine.execUnbindWritebackDone s
  | .hptEpoch => Sys2Proof.Machine.execHptEpoch s
  | .zfreePush => Sys2Proof.Machine.execZfreePush s
  | .mbGetid => Sys2Proof.Machine.execMbGetid s
  | .mbAttest => Sys2Proof.Machine.execMbAttest s
  | .mbVerify => Sys2Proof.Machine.execMbVerify s
  | .mbUpdate => Sys2Proof.Machine.execMbUpdate s
  | .mailboxDone => Sys2Proof.Machine.execMailboxDone s
  | .finjWrite => Sys2Proof.Machine.execFinjWrite s
  | .vfslotsWrite => Sys2Proof.Machine.execVfslotsWrite s
  | .fgrantWrite => Sys2Proof.Machine.execFgrantWrite s
  | .dispcntRead => Sys2Proof.Machine.execDispcntRead s
  | .fhealthCRead => Sys2Proof.Machine.execFhealthCRead s
  | .hptCntRead => Sys2Proof.Machine.execHptCntRead s
  | .colcntRead => Sys2Proof.Machine.execColcntRead s
  | .huncRead => Sys2Proof.Machine.execHuncRead s
  | .registerWrite => Sys2Proof.Machine.execRegisterWrite s
  | .hostBar4Read => Sys2Proof.Machine.execHostBar4Read s
  | .hostBar4Write => Sys2Proof.Machine.execHostBar4Write s
  | .powerGood => Sys2Proof.Machine.execPowerGood s
  | .stage0Complete => Sys2Proof.Machine.execStage0Complete s
  | .stage1Complete => Sys2Proof.Machine.execStage1Complete s
  | .stage2Complete => Sys2Proof.Machine.execStage2Complete s
  | .powerCapTick => Sys2Proof.Machine.execPowerCapTick s
  | .thermalTrip => Sys2Proof.Machine.execThermalTrip s
  | .cooldownRestart => Sys2Proof.Machine.execCooldownRestart s
  | .unitError => Sys2Proof.Machine.execUnitError s
  | .collimationTestDone => Sys2Proof.Machine.execCollimationTestDone s
  | .ephemUpdate => Sys2Proof.Machine.execEphemUpdate s
  | .storePerform => Sys2Proof.Machine.execStorePerform s
  | .handleTableAnswer => Sys2Proof.Machine.execHandleTableAnswer s
  | .eventArrival => Sys2Proof.Machine.execEventArrival s
  | .flashProgramComplete => Sys2Proof.Machine.execFlashProgramComplete s
  | .hptCtlWrite => Sys2Proof.Machine.execHptCtlWrite s

end Sys2Proof.Machine
end

