-- ==== Sys2Proof/Machine/Writes.lean ====
section
/-! DEFINITION. The registers that an operation writes, as its encoding names them: what R82 compares between the slots of a bundle. -/
namespace Sys2Proof.Machine

/-- A register, or a ring slot by the field that names it (R77, R82). -/
inductive Target where
  | reg (r : Reg)
  | slot (field : Nat)
  deriving DecidableEq, Repr

/-- What a tile field names as a destination (R77, R105). -/
def tileName (f : BitVec 6) : Target := if f.toNat < 32 then .reg (.t f.toNat) else .slot f.toNat

/-- The destination of a tile load: a tile; of a ring, its tail, which no field names (R105). -/
def loadName (f : BitVec 6) : List Target := if f.toNat < 32 then [.reg (.t f.toNat)] else []

/-- The registers an operation writes, implicit ones included; accumulators are written by one slot only, and
ring heads, tails and fill counts do not count (R82). -/
def Instr.targets (i : Instr) : List Target :=
  match i with
  | .callx f | .lidx f | .whtest f | .bwait f | .btest f | .bwany f | .waita f | .qtest f | .csave f | .cload f | .ctxsw f | .add f | .sub f |
    .mul f | .mulh f | .mulhu f | .div f | .divu f | .rem f | .and f | .or f | .xor f | .shl f | .shr f | .sar f | .clz f | .ctz f | .popc f |
    .min f | .max f | .minu f | .maxu f | .sel f | .addsh f | .pget f | .pcnt f | .pfirst f | .fadd f | .fsub f | .fmul f | .ffma f | .fmin f |
    .fmax f | .fcvti f | .fcvtf f | .rndq f | .rndf f | .cgo f | .cstat f | .ccan f | .ccanAll f | .whreq f | .whdmd f | .whdmdUp f | .whrel f
    => [.reg (.x f.d.toNat)]
  | .call f | .mfs f | .addi f | .andi f | .ori f | .shli f | .shri f | .sari f | .li f | .lih f | .bfx f | .bfi f | .widf f
    => [.reg (.x f.d.toNat)]
  | .ldb f | .ldbu f | .ldh f | .ldhu f | .ldw f | .ldwu f | .ldd f | .ldblk f | .lbwait f | .amadd f | .amswp f | .amcas f | .ammin f | .ammax f
    | .amminu f | .ammaxu f | .amand f | .amor f | .amxor f | .amfadd f => [.reg (.x f.d.toNat)]
  | .ldq f | .amcas16 f => [.reg (.x f.d.toNat), .reg (.x (f.d.toNat + 1))]
  | .rep f => [.reg (.x f.d.toNat), .reg (.x f.a.toNat)]
  | .cmpeq f | .cmpne f | .cmplt f | .cmpltu f | .cmple f | .cmpleu f | .pand f | .por f | .pxor f | .pandn f | .pset f | .fclt f | .fcle f
    => [.reg (.p f.pd)]
  | .cmpeqi f | .cmplti f | .cmpltui f => [.reg (.p f.pd)]
  | .vxtr _ f | .vargmx f | .vgtag _ f => [.reg (.x f.d.toNat)]
  | .vceq _ f | .vcne _ f | .vclt _ f | .vcle _ f => [.reg (.p f.pd)]
  | .vradd f | .vrmax f | .vrmin f => [if f.fn9.getLsbD 0 then .reg (.v f.d.toNat) else .reg (.x f.d.toNat)]
  | .vsortk f | .vmrgk f => [.reg (.v f.d.toNat), .reg (.v (f.d.toNat + 1))]
  | .vadd _ f | .vsub _ f | .vmul _ f | .vfma _ f | .vfms _ f | .vmin _ f | .vmax _ f | .vabs _ f | .vneg _ f | .vdiv f | .vrcp _ f | .vrsq _ f |
    .vexp2 _ f | .vlog2 _ f | .vand _ f | .vor _ f | .vxor _ f | .vshl _ f | .vshr _ f | .vsar _ f | .vsel _ f | .vmov _ f | .vbcst _ f |
    .viota _ f | .vins _ f | .vscan f | .vperm f | .vrot _ f | .vcmpr f | .vcvt _ f | .vqnt _ f | .vdqnt _ f | .vtag _ f | .vgth f
    => [.reg (.v f.d.toNat)]
  | .vld f | .vlds f => [.reg (.v f.d.toNat)]
  | .arow f | .trow f => [.reg (.v f.b.toNat)]
  | .tzero f | .twrow f | .ttag f => [tileName f.a]
  | .ttrn f | .tprm f | .tmov f => [tileName f.b]
  | .tld f | .tldkLat8 f | .tldkExpand f => loadName f.d
  | .br _ | .brx _ | .ret _ | .loop _ | .loopi _ | .lbrk _ | .post _ | .postn _ | .posti _ | .jadd _ | .endp _ | .whwait _ | .binit _ | .barv _ |
    .bexp _ | .fence _ | .drain _ | .qinit _ | .qadvh _ | .qadvt _ | .trap _ | .svc _ | .mts _ | .evt _ | .evtTr _ | .mma _ | .mmaAbs _ | .mmam _
    | .tred _ | .azero _ | .aadd _ | .ascl _ | .acvt _ | .afold _ | .awrow _ | .lxld _ | .lxinv _ | .pld _ | .pref _ | .stb _ | .sth _ | .stw _ |
    .std _ | .stq _ | .vst _ | .vsts _ | .vsct _ | .pst _ | .tst _ | .tstk _ | .rdadd _ | .rdmin _ | .rdmax _ | .rdand _ | .rdor _ | .rdxor _ |
    .rdfadd _ | .linv _ | .lwb _ | .lzero _ | .blkrel _ | .csrc _ | .cdst _ | .cdim _ | .celt _ | .cmode _ | .cbar _ | .cflag _ | .msend _ |
    .msendv _ | .lsend _ | .lrecv _ | .rbkey _ | .nop | .endTask | .yield | .park | .slipw | .quiet | .eret | .mwait | .waitaTimeout |
    .longWaitPark | .slotQueueIssue | .loadDataReturn | .tileLoadComplete | .matrixResultWrite | .expanderLoadComplete | .loadBlockFilled |
    .generatorRefill | .scStamp | .scPerform | .reductionPerform | .placement | .gatingTimeout | .aging | .stageAllocation | .blockedPostAdmit |
    .probeSend | .probeGrant | .expansionSelect | .hostPost | .hostPostEnter | .launch | .gridTaskPost | .stackDeadlineRelease | .stackEngineStart
    | .stackSplit | .stackDissolve | .copyStart | .copyElementWrite | .dramlocFrame | .copyFault | .copyComplete | .handlePageLand | .handleReady
    | .handleError | .handleReleaseFree | .flashPageRead | .relocationRemap | .blockEraseComplete | .messageArrival | .messageHandover |
    .handoverAck | .retirementNotice | .reductionAck | .remoteMessageReceive | .sweepWaveStart | .sweepPass2 | .sweepVerdict | .xwaveStart |
    .xwaveRequestReceive | .xwaveReplyReceive | .xwaveReplyTimeout | .xwaveVerdictReceive | .ueRetransmit | .ueAckReceive | .ueAbandon |
    .linkArrival | .timer | .preemptOverdue | .faultRecordWrite | .fqtailWrite | .losstailWrite | .ortailReplay | .ortailDiscard | .replay |
    .preemptReq | .preemptRel | .preqRequest | .preqHeldRelease | .kill | .killComplete | .jobCreate | .jobTeardown | .teardownComplete | .tlbiGo
    | .tlbiComplete | .rctlBind | .rctlUnbind | .unbindWritebackDone | .hptEpoch | .zfreePush | .mbGetid | .mbAttest | .mbVerify | .mbUpdate |
    .mailboxDone | .finjWrite | .vfslotsWrite | .fgrantWrite | .dispcntRead | .fhealthCRead | .hptCntRead | .colcntRead | .huncRead |
    .registerWrite | .hostBar4Read | .hostBar4Write | .powerGood | .stage0Complete | .stage1Complete | .stage2Complete | .powerCapTick |
    .thermalTrip | .cooldownRestart | .unitError | .collimationTestDone | .ephemUpdate | .storePerform | .handleTableAnswer | .eventArrival |
    .flashProgramComplete | .hptCtlWrite => []

/-- The registers that count in R82: x0 and p0 do not. -/
def Instr.writes (i : Instr) : List Target :=
  (Instr.targets i).filter fun r => r ≠ .reg (.x 0) && r ≠ .reg (.p 0)

end Sys2Proof.Machine
end

