-- ==== Sys2Proof/Machine/Issue.lean ====
section
/-! DEFINITION. A bundle's issue: fetch, the checks of decode, the operations of its slots in slot order, and its commit, hold, park or trap (R82 to R89, R92, R107 to R111, R151, R152, R399). -/
namespace Sys2Proof.Machine

/-! Fetch (R92, log entry 12) -/

/-- The bundle that a view of memory holds at a key. -/
def State.bundleIn (s : State) (m : Sparse Byte) (key : Nat) : Bundle := BitVec.ofNat 512 (ofLeBytes (s.bytesIn m key 64))

/-- Fetch at an address, through the job's translation: the bundle as the task's fetch sees it; `fresh` says that a repeat's loop
buffer is filled again, from memory (R89, R92). -/
def State.fetch (s : State) (c b : Nat) (pc : Word) (fresh : Bool := false) : Except XFault Bundle × State :=
  match s.resolve ((s.ctx c b).agent c) { fetch := true } [(pc, 64)] with
  | (.error x, s1) => (.error x, s1)
  | (.ok parts, s1) =>
    let key := (parts.headD (0, 0)).1
    (.ok (s1.bundleIn (if fresh then s1.mem else (s1.ctx c b).code) key), s1)

/-- Consecutive bundles from an address on, those that can be fetched. -/
def State.fetchRun (s : State) (c b : Nat) (fresh : Bool) : Nat → Word → List (Word × Bundle) × State
  | 0, _ => ([], s)
  | n + 1, pc =>
    match s.fetch c b pc fresh with
    | (.error _, s1) => s1.fetchRun c b fresh n (pc + 64)
    | (.ok w, s1) =>
      let (r, s2) := s1.fetchRun c b fresh n (pc + 64)
      ((pc, w) :: r, s2)

/-- The repeat whose body holds the context's PC (R88). -/
def Ctx.inRepeat (k : Ctx) : Option LoopEntry :=
  match k.loop with
  | e :: _ => if e.repf && decide (e.start ≤ bundleOf k.pc) && decide (bundleOf k.pc ≤ e.last) then some e else none
  | [] => none

/-- The loop buffer holds a repeat's bundles. -/
def Ctx.buffers (k : Ctx) (e : LoopEntry) : Bool := match k.loopBuf with
  | q :: _ => q.1 = bundleVA e.start
  | [] => false

/-- A repeat that resumes fills its loop buffer again, from memory; without its first bundle it cannot go on (R89). -/
def State.refillLoop (s : State) (c b : Nat) (e : LoopEntry) : Except XFault Unit × State :=
  if (s.ctx c b).buffers e then (.ok (), s)
  else
    match s.fetch c b (bundleVA e.start) true with
    | (.error x, s1) => (.error x, s1)
    | (.ok w, s1) =>
      let (r, s2) := s1.fetchRun c b true (min 15 (e.last - e.start).toNat) (bundleVA e.start + 64)
      (.ok (), s2.modCtx c b fun k => { k with loopBuf := (bundleVA e.start, w) :: r })

/-- The bundle at a bank's PC: from the loop buffer inside a repeat, from memory otherwise (R88, R92). -/
def State.fetchNext (s : State) (c b : Nat) : Except XFault Bundle × State :=
  let pc := (s.ctx c b).pc
  match (s.ctx c b).inRepeat with
  | none => s.fetch c b pc
  | some e =>
    match s.refillLoop c b e with
    | (.error x, s1) => (.error x, s1)
    | (.ok (), s1) =>
      match (s1.ctx c b).loopBuf.find? fun q => q.1 = pc with
      | some (_, w) => (.ok w, s1)
      | none => s1.fetch c b pc true

/-! The checks of decode (R81 to R83, R86, R88) -/

/-- A slot of a bundle as decoded. -/
abbrev SlotOp := Slot × Except Illegal (Pred × Instr)

/-- The slots that decode refuses on their own bits. -/
def slotErrors (ds : List SlotOp) : List Nat :=
  ds.filterMap fun d => match d.2 with
    | .error _ => some d.1.index
    | .ok _ => none

/-- The operation of a slot, NOP where decode refuses it. -/
def SlotOp.instr (d : SlotOp) : Instr :=
  match d.2 with
  | .ok (_, i) => i
  | .error _ => .nop

/-- The higher slot of each pair that writes one register. -/
def clashes : List SlotOp → List Nat
  | [] => []
  | d :: r =>
    (r.filter fun e => (Instr.writes d.instr).any (Instr.writes e.instr).contains).map (·.1.index) ++ clashes r

/-- The Y slot of a bundle. -/
def bundleY (w : Bundle) : Instr := SlotOp.instr (.y, decodeSlot .y (w.word .y))

/-- REP, or a finder register, which only finder-capable cores accept (R81). -/
def finderOnly : Instr → Bool
  | .rep _ => true
  | .mfs f => selOf f = 0x1B
  | .mts f => selOf f = 0x1B
  | _ => false

/-- LOOP, LOOPI and REP (R86). -/
def opensLoop : Instr → Bool
  | .loop _ | .loopi _ | .rep _ => true
  | _ => false

/-- The M slot of a bundle is NOP. -/
def matrixNop (w : Bundle) : Bool := (w.word .m).extractLsb' 57 7 = 0

/-- The Y-slot operations that no bundle of a repeat body holds (R88); REP stands in the first one. -/
def repForbids (w : Bundle) : Bool :=
  match bundleY w with
  | .br _ | .brx _ | .call _ | .callx _ | .ret _ | .loop _ | .loopi _ | .lbrk _ | .rep _ | .endTask | .endp _ | .yield | .park
  | .trap _ | .svc _ | .eret | .ctxsw _ => true
  | _ => false

/-- A later bundle of a repeat body keeps the constraints of R88 and R146. -/
def repAllows (steps : List Target) (w : Bundle) : Bool :=
  matrixNop w && !repForbids w && !((decodeBundle w).any fun d => (Instr.writes (SlotOp.instr d)).any steps.contains)

/-- What a bundle brings: its slots, and for a REP that starts, its body (R88). -/
structure Fetched where
  word : Bundle
  ops : List SlotOp
  body : List (Word × Bundle)
  deriving DecidableEq, Repr

/-- The Y slot's operation is active, as its predicate stands. -/
def Ctx.activeY (k : Ctx) (ops : List SlotOp) : Bool :=
  ops.any fun d => match d with
    | (.y, .ok (p, _)) => (k.getP p.reg.toNat).getLsbD 0 != p.neg
    | _ => false

/-- Whether a bundle pushes onto a full loop stack rests on a register that is not known yet (R86, R109). -/
def Ctx.overfillOpen (k : Ctx) (q : Fetched) : Bool :=
  let open_ (r : Reg) : Bool := k.pend.any fun e => e.reg = r && (e.why.unknown || e.bad)
  decide (6 ≤ k.loop.length) && opensLoop (bundleY q.word) &&
    ((q.ops.any fun d => match d with
        | (.y, .ok (p, _)) => open_ (.p p.reg.toNat)
        | _ => false) ||
      (match bundleY q.word with
        | .loop f => open_ (.x f.a.toNat)
        | _ => false))

/-- A push onto a full loop stack (R84, R86). -/
def Ctx.overfills (k : Ctx) (q : Fetched) : Bool :=
  decide (6 ≤ k.loop.length) && k.activeY q.ops && (match bundleY q.word with
    | .loopi f => f.u / 65536 ≠ 0
    | .loop f => !k.xbad.getLsbD f.a.toNat && (k.getX f.a.toNat).setWidth 32 ≠ 0#32
    | .rep _ => true
    | _ => false)

/-- A loop or repeat rule of R86, R88 or R146 is broken; a repeat under way is past them. -/
def Ctx.loopRefused (k : Ctx) (q : Fetched) : Bool :=
  let i := bundleY q.word
  if !opensLoop i || k.repeating k.pc then false
  else
    (match k.loop with
      | e :: _ => e.last = bundleOf k.pc
      | [] => false) ||
    k.overfills q ||
    (match i with
      | .rep _ => matrixNop q.word || !((q.body.drop 1).all fun e => repAllows (Instr.writes i) e.2)
      | _ => false)

/-- The REP bundle's address, where a later bundle of the repeat under way, fetched since the REP issued, breaks the rules of
its body: the breach is an illegal encoding at the REP bundle (R88, R89, R146). -/
def Ctx.repBreach (k : Ctx) (w : Bundle) : Option Word :=
  match k.inRepeat with
  | none => none
  | some e =>
    let steps := match k.loopBuf with
      | q :: _ => Instr.writes (bundleY q.2)
      | [] => []
    if bundleOf k.pc = e.start || repAllows steps w then none else some (bundleVA e.start)

/-- TSLOT of an illegal bundle: the lowest that R82 names; none for a legal one. -/
def Ctx.illegalSlot (k : Ctx) (core : Nat) (q : Fetched) : Option Nat :=
  (slotErrors q.ops ++ clashes q.ops ++ (if finderOnly (bundleY q.word) && !finderCapable core then [0] else []) ++
    (if k.loopRefused q || (k.repBreach q.word).isSome then [0] else [])).min?

/-- A supervisor-only operation in user mode, active or not (R83). -/
def privileged : Instr → Bool
  | .eret | .csave _ | .cload _ | .ctxsw _ => true
  | .mfs f => readNeedsSup (selOf f)
  | .mts f => writeNeedsSup (selOf f)
  | _ => false

/-- The trap of decode: cause, slot and EPC (R83). -/
def Ctx.decodeTrap (k : Ctx) (core : Nat) (q : Fetched) : Option (Nat × Nat × Word) :=
  match k.illegalSlot core q with
  | some sl => some (0x0A, sl, (k.repBreach q.word).getD k.pc)
  | none => if privileged (bundleY q.word) && k.mode = .user then some (0x0B, 0, k.pc) else none

/-- A bundle decoded; a REP that starts brings the bundles of its body. -/
def State.decoded (s : State) (c b : Nat) (w : Bundle) : Fetched × State :=
  let k := s.ctx c b
  match bundleY w with
  | .rep f =>
    if k.repeating k.pc then (⟨w, decodeBundle w, []⟩, s)
    else
      let (r, s1) := s.fetchRun c b false (repBody f - 1) (k.pc + 64)
      (⟨w, decodeBundle w, (k.pc, w) :: r⟩, s1)
  | _ => (⟨w, decodeBundle w, []⟩, s)

/-! The operations of the slots (R71, R83, R108) -/

/-- A slot that slips. -/
def slips (slot : Nat) : Bool := 2 ≤ slot && slot ≤ 4

/-- The slot's condition, or what a predicate that is pending or poisoned comes to: in a slot that slips, one that is not known
yet counts as true for the checks at issue (R71, R109 to R111, R260). -/
def State.condition (s : State) (p : Pred) : Except State Word :=
  let r : Reg := .p p.reg.toNat
  if s.issue.unsure then .ok (-1)
  else if !slips s.issue.slot && s.waits [r] [] then .error (s.holdFor none)
  else if s.issue.pre.spoilt r then .error (s.raise 0x10 0)
  else .ok (s.issue.pre.predicate p)

/-- An operation whose predicate is not known yet waits for it with its bundle where its checks may then not matter, or where it
acts on more than its registers (R110, R111; log entry 8). -/
def State.needsPredicate (s t : State) (i : Instr) : Bool :=
  t.issue.verdict ≠ .commit || t.cur.rbq.length ≠ s.cur.rbq.length || (match i with
    | .lxld _ | .lxinv _ => true
    | _ => false)

/-- The operation of one slot, inside the bundle being issued. -/
def State.runSlot (s : State) (sl : Slot) (p : Pred) (i : Instr) : Out :=
  let r : Reg := .p p.reg.toNat
  let unsure := slips sl.index && s.later r
  let s1 := { s with issue := { s.issue with slot := sl.index, instr := i, pred := p, guard := if p.reg = 0 then [] else [r]
                                             need := .none, unsure := unsure, anchored := s.issue.anchored || !slips sl.index } }
  match s1.condition p with
  | .error t => .next t
  | .ok v =>
    match exec i { s1 with issue := { s1.issue with cond := v } } with
    | .next t => .next (if unsure && s1.needsPredicate t i then s1.holdFor none else t)
    | .fault e => .fault e
    | .refused e => .refused e

/-- The operations of a bundle in slot order, up to the first that does not let it commit (R389). -/
def State.runSlots : State → List (Slot × Pred × Instr) → Out
  | s, [] => .next s
  | s, (sl, p, i) :: r =>
    match s.runSlot sl p i with
    | .next t => if t.issue.verdict = .commit then t.runSlots r else .next t
    | .fault e => .fault e
    | .refused e => .refused e

/-- The operations of a decoded bundle; a NOP does nothing, and neither does the REP of a repeat under way (R88). -/
def Fetched.work (q : Fetched) (repeating : Bool) : List (Slot × Pred × Instr) :=
  q.ops.filterMap fun d => match d with
    | (_, .ok (_, .nop)) => none
    | (sl, .ok (p, i)) => (match i with
      | .rep _ => if repeating then none else some (sl, p, i)
      | _ => some (sl, p, i))
    | (_, .error _) => none

/-- Memory as the reads of a context's bundle find it: before what its seq_cst accesses have written already (R108, R349). -/
def Ctx.before (k : Ctx) (m : Sparse Byte) : Sparse Byte := match k.sc with
  | some q => if q.pc = k.pc then q.acc.foldr (fun a m => if a.result.isSome then Sparse.splice 0 m a.key a.old else m) m else m
  | none => m

/-- The issue of a bank's bundle begins; its checks find tags and bounds in program order (R111). -/
def State.openIssue (s : State) (c b : Nat) : State :=
  { s with issue := { Issue.none with
      core := c, bank := b, pre := (s.ctx c b).seen, mem0 := (s.ctx c b).before s.mem, bad0 := s.bad
      find := ((s.core c).findEn, (s.core c).findConf) } }

/-! Back-edges (R84, R85, R87, R88) -/

/-- The REP of a repeat, from its loop buffer. -/
def repOf (buf : List (Word × Bundle)) (start : BitVec 58) : Option SI :=
  match buf.find? fun e => e.1 = bundleVA start with
  | some (_, w) =>
    match bundleY w with
    | .rep f => some f
    | _ => none
  | none => none

/-- A step register moved by a stride; a poison mark stays (R88, R146). -/
def Ctx.addX (k : Ctx) (n : Nat) (v : Word) : Ctx := if n = 0 then k else { k with x := k.x.set 0 n (k.getX n + v) }

/-- The step registers of a repeat after its last bundle (R88). -/
def Ctx.stepRep (k : Ctx) (buf : List (Word × Bundle)) (start : BitVec 58) : Ctx :=
  match repOf buf start with
  | some f => (k.addX f.d.toNat (repStride f 0)).addX f.a.toNat (repStride f 1)
  | none => k

/-- The back-edges at a bundle: the loop stack after them, the next PC, and whether there was one (R85); `buf` is the loop buffer
that the bundle came from. -/
def Ctx.backEdges (here : BitVec 58) (buf : List (Word × Bundle)) : List LoopEntry → Ctx → Word → Bool → Ctx × Word × Bool
  | [], k, pc, hit => ({ k with loop := [] }, pc, hit)
  | e :: r, k, pc, hit =>
    if e.last ≠ here then ({ k with loop := e :: r }, pc, hit)
    else
      let k1 := if e.repf then k.stepRep buf e.start else k
      if e.rem - 1 = 0 then Ctx.backEdges here buf r k1 (bundleVA (e.last + 1)) true
      else ({ k1 with loop := { e with rem := e.rem - 1, idx := e.idx + 1 } :: r }, bundleVA e.start, true)

/-- A loop entry pushed; a repeat's brings its loop buffer (R84, R88). -/
def Ctx.pushed (k : Ctx) (push : Option LoopEntry) (body : List (Word × Bundle)) : Ctx :=
  match push with
  | some e => { k with loop := e :: k.loop, loopBuf := if e.repf then body else k.loopBuf }
  | none => k

/-- The context at its next bundle, and whether an iteration boundary was passed (R85, R87). -/
def Ctx.advance (k : Ctx) (i : Issue) (body : List (Word × Bundle)) : Ctx × Bool :=
  let k := k.pushed i.push body
  let (k, pc, edge) := match i.npc with
    | some a => (k, a, false)
    | none => Ctx.backEdges (bundleOf i.pre.pc) (k.loopBuf ++ i.pre.loopBuf) k.loop k (i.pre.pc + 64) false
  let inRep := match k.loop with
    | e :: _ => e.repf && k.buffers e
    | [] => false
  ({ k with pc := pc, bundle := k.bundle + 1, sc := none, since := none, await := none, expired := false, timeout := 0,
            trapping := false, blocked := none, loopBuf := if inRep then k.loopBuf else [] }, edge)

/-! After the commit (R60, R151, R152, R165, R399) -/

/-- A pre-emption lands on the running task, which becomes resumable and is held (R399). -/
def State.stopForPreempt (t : State) (c b : Nat) : State :=
  (t.modCtx c b (·.suspend .resumable)).landPreempt c b

/-- A pre-emption is pending and may land in this mode (R399). -/
def Ctx.preemptDue (k : Ctx) : Bool := k.preq.isSome && k.mode = .user

/-- The other bank of a core becomes the active one. -/
def Core.activate (k : Core) (b : Nat) : Core := { k.setBank b { k.bank b with status := .running } with active := b }

/-- YIELD, in the cycle in which it commits: the core will switch to the other bank's resumable task, or to a record that its
idle bank takes now; otherwise the task goes on (R151). -/
def State.yieldTo (t : State) (c b : Nat) : After × State :=
  let o := t.ctx c (1 - b)
  if (t.ctx c b).preemptDue then (.land, t)
  else if o.ready then (.switch, t)
  else if o.status = .idle && (t.core c).test.isNone && !t.offline c && (t.pick c).isSome then
    let t1 := t.placeInto c (1 - b)
    if (t1.ctx c (1 - b)).occupied then
      (.switch, (t1.modCtx c (1 - b) fun k => { k with status := .resumable }).modCore c fun k => { k with active := b })
    else (.go, t1)
  else (.go, t)

/-- The core switches to its other bank, where that still holds a resumable task (R151, R165). -/
def State.switchBank (t : State) (c b : Nat) : State :=
  if (t.ctx c (1 - b)).status = .resumable then (t.modCtx c b (·.suspend .resumable)).modCore c (·.activate (1 - b)) else t

/-- What becomes of the task whose bundle has committed. -/
def State.afterBundle (t : State) (c b : Nat) (after : After) : State :=
  let k := t.ctx c b
  match after with
  | .yield => t
  | .park => if k.event then t.modCtx c b fun k => { k with event := false } else t.modCtx c b (·.suspend (.parked .event))
  | .parkLand => (t.modCtx c b (·.suspend (.parked .event))).landPreempt c b
  | .switch => t.switchBank c b
  | .retire => t.retired c b
  | .land => if k.preemptDue then t.stopForPreempt c b else t
  | .go => t

/-- A retiring bank's own operations and stores are over (R149). -/
def State.mayRetire (t : State) (c b : Nat) : Bool := (t.ctx c b).settled && !t.storesStuck c b

/-- The task whose bundle has committed leaves, once its queues are empty (R110, R149, R323). -/
def State.leave (t : State) (c b : Nat) (after : After) : State :=
  let gone (t : State) : State := (t.modCtx c b fun k => { k with leaving := none }).afterBundle c b after
  if after = .go then t
  else if after = .retire then
    if t.mayRetire c b then gone (t.flush c b) else t.modCtx c b fun k => { k with leaving := some after }
  else if (t.ctx c b).mayLeave then gone t
  else t.modCtx c b fun k => { k with leaving := some after }

/-- What the bundle's commit brings: what its slots decided, or a pre-emption that lands at its boundary (R399). -/
def Issue.outcome (i : Issue) (k : Ctx) (edge : Bool) : After :=
  if edge && k.preemptDue then
    match i.after with
    | .go => .land
    | .park => if k.event then .land else .parkLand
    | a => a
  else i.after

/-- A bundle that leaves by YIELD decides in the cycle of its commit where the core goes (R151). -/
def State.resolved (t : State) (c b : Nat) (after : After) : After × State := if after = .yield then t.yieldTo c b else (after, t)

/-- A queued operation of the bundle whose operand image the bundle has written since has the bytes that it found there (R108). -/
def QEntry.keepRows (t : State) (e : QEntry) : QEntry :=
  match e.late, e.need.img with
  | some o, some (_, ks) =>
    let now := t.view (overlay t.mem (t.cur.stores.filter fun st => st.n < o.mark)) ks
    if e.bundle ≠ t.issue.pre.bundle || now = t.bytesRead ks then e
    else { e with need := { e.need with rows := some (t.bytesRead ks, t.badRead ks) } }
  | _, _ => e

/-- The bundle commits (R85, R108, R149, R361, R428). -/
def State.commitBundle (t : State) (body : List (Word × Bundle)) : State :=
  let c := t.issue.core
  let b := t.issue.bank
  let t := t.modCur fun k => { k with queue := k.queue.map (QEntry.keepRows t) }
  let (k, edge) := t.cur.advance t.issue body
  let after := t.issue.outcome k edge
  let k := if t.issue.after = .park && after = .land then { k with event := false } else k
  let t := t.modJob k.job fun q => { q with bundles := q.bundles + 1 }
  let (then_, t) := ((t.setCtx c b k).dropQw c b).resolved c b after
  t.leave c b then_

/-! When the bundle does not commit -/

/-- QW is raised while a counted task waits in QUIET (R357). -/
def State.raiseQw (s : State) (c b : Nat) : State :=
  let k := s.ctx c b
  match k.qw, k.counted with
  | false, some i => (s.count i k.job fun n => { n with qw := n.qw + 1 }).modCtx c b fun k => { k with qw := true }
  | _, _ => s

/-- The bundle waits; `x` is the context as the waiting operation left it (R56, R63, R157, R158, R315). -/
def State.keepWaiting (s : State) (x : Ctx) (w : Option Await) : State :=
  let c := s.issue.core
  let b := s.issue.bank
  let s := s.modCur fun k =>
    { k with blocked := x.blocked, timeout := x.timeout, expired := x.expired, await := w
             since := if w.isSome && k.since.isNone then some s.sidereal else k.since }
  match w with
  | some .quiet => s.raiseQw c b
  | some (.release h) => s.setHandle h { s.handle h with mark := true }
  | _ => s

/-- The seq_cst accesses of the bundle that have not performed (R348, R349). -/
def Ctx.scOpen (k : Ctx) (pc : Word) : Option ScWait :=
  match k.sc with
  | some q => if q.pc = pc && q.acc.any (fun a => a.result.isNone) then some q else none
  | none => none

/-- The bundle waits for the slot wheel: its accesses stand as its first issue made them (R348). -/
def State.waitForWheel (s : State) (q : ScWait) : State :=
  s.modCur fun k => match k.scOpen k.pc with
    | some _ => k
    | none => { k with sc := some q }

/-- TLB entries that the bundle's translations left stay, whatever becomes of the bundle (R240, R241). -/
def State.keepTlbs (s t : State) : State :=
  let c := t.issue.core
  (s.modCore c fun k => { k with tlb := (t.core c).tlb }).modCluster (clusterOf c) fun cl =>
    { cl with tlb := (t.cluster (clusterOf c)).tlb }

/-- Merge stacks that a waiting bundle released, or withdrew members from, stay so (R222, R229). -/
def State.keepStacks (s t : State) : State :=
  let cl := t.cluster (clusterOf t.issue.core)
  s.modCluster (clusterOf t.issue.core) fun x => { x with stk := cl.stk, nextStack := cl.nextStack }

/-- What the slots of a bundle decided: from `s`, which stands as before them, to the state after the bundle (R83, R387).  A
trap, and a park, wait until the queues are empty (R110), a park also for the handle table's answer (R323).  A bundle with an
operation in an anchored slot waits while a queued one of it may yet meet poison, since nothing of it commits then (R111; log
entry 121). -/
def State.closeIssue (s t : State) (body : List (Word × Bundle)) : State :=
  let c := t.issue.core
  let b := t.issue.bank
  let waits : Bool := match t.issue.verdict with
    | .trap _ _ => !s.drained c b
    | .absent _ => !s.drained c b || !(s.ctx c b).mayLeave
    | _ => false
  let s := ({ s with free := t.free, issue := t.issue } : State).keepTlbs t
  if waits then s.modCtx c b fun k => { k with trapping := true }
  else
    match t.issue.verdict with
    | .commit =>
      match t.cur.scOpen t.issue.pre.pc with
      | some q => s.waitForWheel q
      | none => if t.issue.anchored && t.issue.risky then (s.keepStacks t).keepWaiting (s.ctx c b) none else t.commitBundle body
    | .hold w => (s.keepStacks t).keepWaiting t.cur w
    | .park w => if (s.ctx c b).mayLeave then s.modCur (·.suspend (.parked w)) else s
    | .trap i r => s.trapAs i r
    | .absent r => s.absentAs r

/-! The next bundle of a core -/

/-- The slot queues hold an operation of a bundle five before the next one (R110). -/
def Ctx.skewed (k : Ctx) : Bool := k.queue.any fun e => e.bundle + 5 ≤ k.bundle

/-- A trap of decode. -/
def State.refuseBundle (s : State) (cause sl : Nat) (epc : Word) : State :=
  ({ s with issue := { s.issue with slot := sl } } : State).raiseAs ⟨cause, sl, 0, 0, 0, false, false, epc⟩ none

/-- A decoded bundle runs: a trap of decode, or its operations (R83). -/
def State.issueDecoded (s : State) (q : Fetched) : Out :=
  if s.issue.pre.overfillOpen q then .next (s.closeIssue (s.holdFor none) q.body) else
  match s.issue.pre.decodeTrap s.issue.core q with
  | some (cause, sl, epc) => .next (s.closeIssue (s.refuseBundle cause sl epc) q.body)
  | none =>
    match s.runSlots (q.work (s.issue.pre.repeating s.here)) with
    | .next t => .next (s.closeIssue t q.body)
    | .fault e => .fault e
    | .refused e => .refused e

/-- The next bundle of a bank: a task that leaves goes first, then a pending timer, then the skew limit, then fetch (R83, R110,
R391). -/
def State.issueBank (s : State) (c b : Nat) : Out :=
  match (s.ctx c b).leaving with
  | some after => .next (s.leave c b after)
  | none =>
    if (s.ctx c b).timerDue then .next (s.timerOrWait c b)
    else if (s.ctx c b).skewed then .next s
    else
      match s.fetchNext c b with
      | (.error x, s1) => .next ((s1.openIssue c b).closeIssue ((s1.openIssue c b).raiseX 0 x) [])
      | (.ok w, s1) =>
        let (q, s2) := s1.decoded c b w
        (s2.openIssue c b).issueDecoded q

/-- The next bundle of a core: that of its active bank, if that bank runs; what follows from it; and the scratch of the
issue put away. -/
def State.issueCore (s : State) (c : Nat) : Out :=
  let b := (s.core c).active
  let s1 := s.noteTimer c b
  if (s1.ctx c b).status ≠ .running then .next s1
  else
    match s1.issueBank c b with
    | .next t => .next { t with issue := .none }.settle
    | .fault e => .fault e
    | .refused e => .refused e

end Sys2Proof.Machine
end

