-- ==== Sys2Proof/Machine/Schedule.lean ====
section
/-! DEFINITION. What comes next: the agenda; without one, the cores in turn and the events that are due in between; and the passing of time (R18, R113, R428; log entries 4 and 6). -/
namespace Sys2Proof.Machine

/-- An event and its operands. -/
abbrev Event := Instr × EventArg

/-- An event with a core, a bank and a number. -/
def ev (i : Instr) (c : Nat := 0) (b : Nat := 0) (n : Nat := 0) (m : Nat := 0) (k : Nat := 0) : Event :=
  (i, { EventArg.none with core := c, bank := b, n := n, m := m, k := k })

/-- The event with its flag set. -/
def flagged (e : Event) : Event := (e.1, { e.2 with flag := true })

/-! Events that are due -/

/-- What is on its way to a register. -/
def Pend.event (c b : Nat) (e : Pend) : Option Event :=
  match e.why with
  | .load => some (ev .loadDataReturn c b e.n)
  | .tile _ => some (ev .tileLoadComplete c b e.n)
  | .matrix => some (ev .matrixResultWrite c b e.n)
  | _ => none

/-- Events of a bank. -/
def State.bankEvents (s : State) (c b : Nat) : List Event :=
  let k := s.ctx c b
  k.pend.filterMap (Pend.event c b) ++
  (([2, 3, 4].filter fun sl => k.queue.any fun e => e.slot = sl).map fun sl => ev .slotQueueIssue c b sl) ++
  (k.stores.map fun st => ev .storePerform c b st.n) ++
  (if k.sc.any (·.stamp.isNone) then [ev .scStamp c b] else []) ++ (if k.stamped.isSome then [ev .scPerform c b] else []) ++
  ((k.blocks.filter fun e => e.2.used && !e.2.filled && !e.2.broken).map fun e => ev .loadBlockFilled c b e.1) ++
  (if k.occupied && decide (k.rbq.length < 8) then [ev .generatorRefill c b] else []) ++
  (match k.await with
    | some _ => [ev .waitaTimeout c b, ev .longWaitPark c b]
    | none => []) ++
  (match k.blocked with
    | some q => [ev .blockedPostAdmit 0 0 q.job q.pipe q.stage, ev .probeSend c b, ev .probeGrant c b]
    | none => []) ++
  (if k.preq.isSome then [ev .preemptOverdue c b] else [])

/-- Events of a core. -/
def State.coreEvents (s : State) (c : Nat) (k : Core) : List Event :=
  s.bankEvents c 0 ++ s.bankEvents c 1 ++
  ((k.exp.filter (·.2.busy)).map fun e => ev .expanderLoadComplete c 0 e.1) ++
  (if k.engine.current.isSome || k.engine.waiting.isSome then
    [.copyStart, .copyElementWrite, .dramlocFrame, .copyFault, .flashProgramComplete, .copyComplete].map (fun i => ev i c)
    ++ [.copyElementWrite, .dramlocFrame].map (fun i => flagged (ev i c))
    ++ if k.engine.waiting.any (·.stopped) then [ev .copyComplete c 0 0 1] else []
  else []) ++
  (if k.tlbi.busy then [(.tlbiComplete, { EventArg.none with tlbi := .core c })] else []) ++
  ((k.region.filter (·.2.busy)).map fun e => ev .unbindWritebackDone c 0 e.1) ++
  (match k.test with
    | some u => [(.collimationTestDone, { EventArg.none with unit := u, flag := Config.freeBool s.free })]
    | none => k.errors.map fun u => (.unitError, { EventArg.none with unit := u }))

/-- Events of a cluster: its merge stacks, and the tracker's epochs. -/
def clusterEvents (d : Nat) (cl : Cluster) : List Event :=
  (cl.stk.flatMap fun st =>
    ((List.range 8).map fun i => ev .stackEngineStart (8 * d + i) 0 d) ++
    [ev .stackDeadlineRelease 0 0 d st.n, ev .stackSplit 0 0 d st.n, ev .stackDissolve 0 0 d st.n]) ++
  (if cl.hptEn then [ev .hptEpoch 0 0 d] else [])

/-- Events of the flash stacks and the handle table. -/
def State.flashEvents (s : State) : List Event :=
  (s.hreqs.map fun r => ev .handleTableAnswer 0 0 r.n) ++
  (s.reads.flatMap fun r => ev .flashPageRead 0 0 r.n :: (match r.reader with
    | .handle h k => [ev .handlePageLand 0 0 h k, flagged (ev .handlePageLand 0 0 h k)]
    | .copy _ _ => [])) ++
  ((s.handles.filter (·.2.all)).flatMap fun e =>
    [ev .handleReady 0 0 e.1, ev .handleError 0 0 e.1, ev .handleReleaseFree 0 0 e.1]) ++
  (s.flash.flatMap fun e =>
    (e.2.moving.map fun b => ev .relocationRemap 0 0 e.1 b) ++ (e.2.erasing.map fun b => ev .blockEraseComplete 0 0 e.1 b))

/-- Events of the dispatcher. -/
def State.dispatchEvents (s : State) : List Event :=
  ((List.range 256).filter fun c => ((s.core c).idleBank).isSome && !s.offline c && (s.pick c).isSome).map (fun c => ev .placement c) ++
  ((s.disp.recs.filter s.gateOver).map fun r => ev .gatingTimeout 0 0 r.id) ++
  ((s.disp.recs.filter fun r => s.age r ≠ r).map fun r => ev .aging 0 0 r.id) ++
  (s.disp.host.map fun e => ev .hostPostEnter 0 0 e.1) ++
  ((s.disp.launches.filter fun l => l.posted < l.grid).map fun l => ev .gridTaskPost 0 0 l.id) ++
  (if s.disp.launches.isEmpty then [] else [ev .stageAllocation])

/-- The interfaces that a pass may read next. -/
def nextReading (read : List Nat) : List Nat := (List.range interfaces).filter (waveNext read)

/-- Events of the fabric and the port. -/
def State.fabricEvents (s : State) : List Event :=
  (s.fabric.msgs.flatMap fun m => [ev .messageHandover 0 0 m.n, ev .messageArrival 0 0 m.n]) ++
  (s.fabric.notices.map fun n => match n.kind with
    | .retirement => ev .retirementNotice 0 0 n.n
    | .handover => ev .handoverAck 0 0 n.n) ++
  (s.fabric.reductions.filterMap fun r =>
    if r.stage = 0 || r.stage = 3 then some (ev .reductionPerform 0 0 r.n) else if r.stage = 1 then some (ev .reductionAck 0 0 r.n) else none) ++
  (s.fabric.events.map fun e => ev .eventArrival 0 0 e.1) ++
  (match s.fabric.wave with
    | some w =>
      if w.second && waveRead w.read then [ev .sweepVerdict]
      else if w.second then (nextReading w.read).map fun i => ev .sweepPass2 0 0 i
      else if waveRead w.read then [ev .sweepPass2 0 0 portIface]
      else (nextReading w.read).map fun i => ev .sweepWaveStart 0 0 i
    | none => if s.pkg.sweepEn && !s.waveJobs.isEmpty then [ev .sweepWaveStart] else []) ++
  (s.fabric.xwaves.flatMap fun x =>
    (if x.own.isSome then (nextReading x.read).map fun i => ev (if x.second then .sweepPass2 else .sweepWaveStart) 0 0 i (x.job + 1) else []) ++
    (s.children x.job).map fun c => ev .xwaveReplyTimeout 0 0 x.job c) ++
  (s.port.packets.flatMap fun p => [ev .ueRetransmit 0 0 p.n, ev .ueAbandon 0 0 p.n])

/-- Events of the job slots. -/
def State.jobEvents (s : State) : List Event :=
  s.jobs.flatMap fun e =>
    (if s.faults.any fun r => r.job = e.1 then [ev .faultRecordWrite 0 0 e.1] else []) ++
    (if e.2.kstat = 1 then [ev .killComplete 0 0 e.1] else []) ++
    (if e.2.tearing then [ev .teardownComplete 0 0 e.1] else []) ++
    (if e.2.tlbi.busy then [(.tlbiComplete, { EventArg.none with tlbi := .job e.1 })] else []) ++
    (if e.2.live && decide (e.2.nm1 ≠ 0) then [ev .xwaveStart 0 0 e.1] else [])

/-- Start-up and the management controller. -/
def State.platformEvents (s : State) : List Event :=
  (if s.mbox.busy then [ev .mailboxDone] else []) ++
  (if !s.pkg.busy then []
    else if s.pkg.stage = 7 then [ev .stage0Complete]
    else if s.pkg.stage = 0 then [ev .stage1Complete]
    else if s.pkg.stage = 1 then [ev .stage2Complete]
    else [])

/-- Events that the state of the package has under way. -/
def State.due (s : State) : List Event :=
  s.platformEvents ++ (s.cores.flatMap fun e => s.coreEvents e.1 e.2) ++ (s.clusters.flatMap fun e => clusterEvents e.1 e.2) ++
  s.flashEvents ++ s.fabricEvents ++ s.jobEvents ++ s.dispatchEvents

/-- One of them; which one is left open (log entry 4). -/
def State.dueNow (s : State) : Option Event :=
  let l := s.due
  l[Config.nextEvent s.turn % l.length]?

/-! Whose turn it is -/

/-- Cores have started, and no thermal trip has stopped them (R425, R426). -/
def Pkg.runs (p : Pkg) : Bool := p.ready && !p.tripped

/-- A core can issue a bundle. -/
def State.canIssue (s : State) (c : Nat) : Bool :=
  decide (c < 256) && s.pkg.runs && !s.offline c && ((s.core c).bank (s.core c).active).status = .running

/-- One of the cores that can issue, in turn. -/
def State.nextCore (s : State) : Option Nat :=
  let cs := (s.cores.map (·.1)).filter s.canIssue
  cs[s.turn % cs.length]?

/-- What comes next, and the state without it (log entry 4). -/
def State.nextAction (s : State) : Option Action × State :=
  match s.agenda with
  | a :: r => (some a, { s with agenda := r })
  | [] =>
    let event (e : Event) : Option Action × State := (some (.event e.1 e.2), { s with others := false, turn := s.turn + 1 })
    match (if s.others then s.dueNow else none), s.nextCore with
    | some e, _ => event e
    | none, some c => (some (.issue c), { s with others := true, turn := if s.others then s.turn + 1 else s.turn })
    | none, none =>
      match s.dueNow with
      | some e => event e
      | none => (none, s)

/-- What goes on after a fatal error of start-up: the mailbox, sensors, the host's accesses to registers, power-on (R425). -/
def haltedEvents : List Instr :=
  [.mbGetid, .mbAttest, .mbVerify, .mbUpdate, .mailboxDone, .registerWrite, .hostBar4Read, .hostBar4Write, .powerGood, .powerCapTick
   , .thermalTrip, .cooldownRestart]

/-- An action: an event of another agent, the next bundle of a core, or a host's access; none where it names nothing that can happen. -/
def State.act (s : State) : Option Action → Out
  | none => .next s
  | some (.host a) => s.hostAccess a
  | some (.issue c) => if s.canIssue c then s.issueCore c else .next s
  | some (.event i a) =>
    if i.parts.isSome || (s.pkg.halted && !haltedEvents.contains i) then .next s
    else
      match exec i { s with arg := a } with
      | .next t => .next { t with arg := .none }
      | .fault e => .fault e
      | .refused e => .refused e

/-! Time (R18, R113, R428; log entry 6) -/

/-- The banks that are active now: core and bank. -/
def State.activeBanks (s : State) : List (Nat × Nat) :=
  (s.cores.map (·.1)).filterMap fun c =>
    if ((s.core c).bank (s.core c).active).status = .running then some (c, (s.core c).active) else none

/-- n cycles pass for an active bank and for its job (R113, R428). -/
def State.passFor (n : Nat) (s : State) (e : Nat × Nat) : State :=
  (s.modCtx e.1 e.2 fun k => { k with cycles := k.cycles + word n }).modJob (s.ctx e.1 e.2).job fun q =>
    { q with activeCycles := q.activeCycles + word n }

/-- A job may be moving bytes at HBM: a task of it runs, or has stores under way; a copy, a handle, the dispatcher or a fault record
does work for it (R428). -/
def State.moving (s : State) (j : Nat) : Bool :=
  (s.cores.any fun e =>
    [e.2.b0, e.2.b1].any (fun k => decide (k.job = j) && (k.status = .running || !k.stores.isEmpty || k.sc.isSome)) ||
      e.2.engine.current.any fun q => decide (q.job = j)) ||
  (s.handles.any fun e => e.2.state = .pending && decide (e.2.job = j)) || (s.fabric.reductions.any fun r => decide (r.job = j)) ||
  (s.disp.launches.any fun l => decide (l.job = j)) || (s.disp.recs.any fun r => decide (r.job = j)) ||
  s.faults.any fun r => decide (r.job = j)

/-- Bytes that a job moved at HBM; how many is left open, since caches stand between (R428; log entry 6). -/
def State.passHbm (s : State) (j : Nat) : State :=
  s.useFree.2.modJob j fun q => { q with hbmBytes := q.hbmBytes + word (Config.freeNat s.free) }

/-- SIDEREAL after n cycles: it stands still at the top of its range rather than fall (R18; log entry 6). -/
def siderealAfter (now : Word) (n : Nat) : Word := word (min (now.toNat + n) (max now.toNat (2 ^ 64 - 4)))

/-- The stacks of a cluster whose deadline has fallen due are released (R225). -/
def Cluster.releaseDue (now : Word) (cl : Cluster) : Cluster := { cl with stk := cl.stk.map (Stack.releaseDue now) }

/-- Time passes: one cycle or more, how many is left open; SIDEREAL stands at zero until stage 1, and keeps its value while a trip or
an error has stopped the dies (R18; log entries 6 and 119). -/
def State.tick (s : State) : State :=
  if !s.pkg.ready then s
  else
    let n := 1 + Config.freeNat s.free
    let now := siderealAfter s.sidereal n
    let s1 : State := { s.useFree.2 with
      sidereal := now
      clusters := s.clusters.map fun e => (e.1, e.2.releaseDue now) }
    let s2 := s1.activeBanks.foldl (State.passFor n) s1
    ((s2.jobs.filter fun e => e.2.active && s2.moving e.1).map (·.1)).foldl State.passHbm s2

/-! A bundle to run (log entry 5) -/

/-- The page tables of job 0 in HBM, as (address, entry): three tables and a leaf, which maps the page at VA 0x4000
for reads, writes and fetches in user mode. -/
def bootTables : List (Nat × Word) :=
  [(0x4000, 0x8001), (0x8000, 0xC001), (0xC000, 0x10001), (0x10008, 0x1418F)]

/-- The bank's task at the bundle. -/
def bootTask (mem : Sparse Byte) (k : Ctx) : Ctx :=
  { k.freed with status := .running, pc := 0x4000, job := 0, asid := 1, code := mem }

/-- The package with start-up complete, job 0 live, its page tables and a bundle in HBM, and core 0 running a user
task of job 0 at that bundle. -/
def State.runsBundle (s : State) (w : Bundle) : State :=
  let tables := bootTables.foldl (fun m e => Sparse.splice 0 m e.1 (leBytes 8 e.2.toNat)) s.mem
  let mem := Sparse.splice 0 tables 0x14000 (leBytes 64 w.toNat)
  let s1 : State :=
    { s with
      agenda := [], turn := 0, others := false
      mem := mem
      pkg := { s.pkg with stage := 2, busy := false, tripped := false, err := 0 } }
  let s2 := s1.modJob 0 fun _ => { Job.created 1 0 [] with ptbase := 0x4000 }
  s2.modCore 0 fun k => { k with b0 := bootTask mem k.b0, active := 0 }

end Sys2Proof.Machine
end

