-- ==== Sys2Proof/Machine/Step.lean ====
section
/-! DEFINITION. One step of the package, and the state in which a given bundle runs next. -/
namespace Sys2Proof.Machine

/-- One step: what comes next happens, and time passes. -/
def step (s : State) : Host.Outcome State Fault Refusal :=
  match s.nextAction with
  | (a, s1) =>
    match s1.act a with
    | .next t => .next t.tick
    | .fault e => .fault e
    | .refused e => .refused e

/-- Start-up complete, job 0 live, and core 0 running a user task of it whose next bundle is the given one
(log entry 5). -/
def State.withFetchWord (s : State) (nbits w : Nat) : State := s.runsBundle (BitVec.ofNat 512 (w % 2 ^ nbits))

end Sys2Proof.Machine
end

