-- ==== Sys2Proof/Safety.lean ====
section
/-! DEFINITION. What claims say of a run and of one operation: canonical memory, a machine that never stops, when an operation is ready, and what it leaves alone. -/
namespace Sys2Proof.Machine

/-- Memory, and memory as the running bundle's reads see it, stand in their canonical form: addresses
strictly rising, no listed zero. -/
structure State.MemOk (s : State) : Prop where
  mem : Memory.wf s.mem = true
  mem0 : Memory.wf s.issue.mem0 = true

/-- A step answers a next state: the machine neither faults nor refuses. -/
def State.Goes (s : State) : Prop := ∃ t, step s = .next t

/-- A run from a state passes only states of a property: k steps all answer next states that have it. -/
def State.runs (P : State → Prop) : Nat → State → Prop
  | 0, s => P s
  | k + 1, s => P s ∧ ∃ t, step s = .next t ∧ State.runs P k t

/-- Outside the bank whose bundle runs, `t` is `s`: memory, every other core and bank, the core's own
registers, and everything else of the package; of the bundle, only what the operation needs to leave its queue may differ. -/
structure Elsewhere (s t : State) : Prop where
  package : { t with cores := [], issue := { t.issue with need := s.issue.need } } = { s with cores := [] }
  cores : ∀ c, c ≠ s.issue.core → t.core c = s.core c
  core : { t.core s.issue.core with b0 := .idle, b1 := .idle } = { s.core s.issue.core with b0 := .idle, b1 := .idle }
  bank : ∀ b, ¬(b = 0 ↔ s.issue.bank = 0) → t.ctx s.issue.core b = s.ctx s.issue.core b

/-- The registers that sources read. -/
def regsOf (os : List Opd) : List Reg := os.flatMap (·.regs)

/-- An active operation of an anchored slot issues: no register that it reads or writes is pending, no queued operation
has yet to read one that it writes, and none that it reads is poisoned (R71, R109, R110, R260). -/
structure Ready (s : State) (os : List Opd) (wr : List Reg) : Prop where
  active : s.active = true
  free : ∀ e ∈ s.issue.pre.pend, e.reg ∉ regsOf os ++ wr
  unread : ∀ q ∈ s.issue.pre.queue, ∀ r ∈ q.reads, r ∉ wr
  clean : ∀ r ∈ regsOf os, s.issue.pre.spoilt r = false

/-- An inactive operation of an anchored slot issues: the values of the registers that it latches are at hand (R71, R74). -/
structure Skips (s : State) (os : List Opd) : Prop where
  inactive : s.active = false
  free : ∀ e ∈ s.issue.pre.pend, e.why.unknown = true ∨ e.bad = true → e.reg ∉ regsOf (os.filter (·.h = 1))

/-- The hold latches of slot `sl` that sources use or change (R103). -/
def latchesOf (sl : Nat) (os : List Opd) : List Reg := os.flatMap fun o => o.usesLatch sl ++ o.setsLatch sl

/-- All that an operation of a slot that slips uses is at hand as its bundle issues, its predicate and latches among it, and no
queued operation has yet to take the value of a register that it writes: its result is computed now (R109 to R111; log entry
8). -/
structure AtHand (s : State) (os : List Opd) (wr : List Reg) : Prop where
  first : s.issue.late = none
  commit : s.issue.verdict = .commit
  plain : s.issue.need.img = none
  sure : s.issue.unsure = false
  free : ∀ e ∈ s.issue.pre.pend, e.why.unknown = true ∨ e.bad = true ∨ e.unsure = true →
    e.reg ∉ regsOf os ++ wr ++ latchesOf s.issue.slot os
  unwanted : ∀ q ∈ s.issue.pre.queue ++ s.cur.queue, q.wantsAny wr = false

/-- An operation of a slot that slips goes ahead: its bundle issues with all that it uses at hand, or it leaves its queue; no
x or p register that it reads is poisoned (R109, R110, R260). -/
structure ReadySlip (s : State) (os : List Opd) (wr : List Reg) : Prop where
  at_ : s.issue.late.isSome = true ∨ AtHand s os wr
  clean : ∀ r ∈ regsOf os, s.issue.pre.spoilt r = false

/-- The operation completes: hold actions of its sources take place, the bank changes by `g`, nothing
else changes. -/
def Runs (i : Instr) (s : State) (os : List Opd) (g : Ctx → Ctx) : Prop :=
  ∃ t, exec i s = .next t ∧ t.cur = g (s.latchAll os).cur ∧ Elsewhere s t

/-- The slot's operation stands in its queue with what it needs to leave it, and the registers it writes are pending until
then (R110). -/
def Ctx.queued (k : Ctx) (i : Issue) (need : Need) (rd wr : List Reg) : Ctx :=
  { wr.foldl (fun k r => k.pendOn r (.slip i.slot) i.pre.bundle) k with
    queue := k.queue ++ [⟨i.slot, i.pre.bundle, false, i.guard ++ rd, wr, need, none⟩] }

/-- The operation of a slot that slips completes, and nothing outside its bank changes: as its bundle issues, hold actions
take place, the bank changes by `g` and the operation is in its queue; as it leaves its queue, hold actions take place and the
bank changes by `g`. -/
def RunsSlip (i : Instr) (s : State) (os : List Opd) (wr : List Reg) (g : Ctx → Ctx) (need : Need := s.issue.need) : Prop :=
  ∃ t, exec i s = .next t ∧ Elsewhere s t ∧
    t.cur = if s.issue.late.isSome then g (s.latchAll os).cur
      else (g (s.latchAll os).cur).queued s.issue need (regsOf os) wr

end Sys2Proof.Machine
end

