-- ==== Sys2Proof/Certificates/Slice0/Obligations.lean ====
section
/-! DEFINITION. The statements of this model, as propositions for the provers; shapes they share come first. -/
namespace Sys2Proof.Machine

/-! Shapes of the S slot -/

/-- x[D] from x[A] and x[B]. -/
def GivesAB (mk : SR → Instr) (op : SR → Word → Word → Word) : Prop :=
  ∀ (f : SR) (s : State), Ready s [opA .x f, opB .x f] [.x f.d.toNat] →
    Runs (mk f) s [opA .x f, opB .x f] fun k => k.setX f.d.toNat (op f (s.srcX (opA .x f)) (s.srcX (opB .x f)))

/-- x[D] is the one value that stands in a relation to x[A]. -/
def GivesA (mk : SR → Instr) (rel : SR → Word → Word → Prop) : Prop :=
  ∀ (f : SR) (s : State), Ready s [opA .x f] [.x f.d.toNat] →
    ∃ v, rel f (s.srcX (opA .x f)) v ∧ Runs (mk f) s [opA .x f] fun k => k.setX f.d.toNat v

/-- x[D] from x[A] and the immediate; SI sources have no latch. -/
def GivesImm (mk : SI → Instr) (op : SI → Word → Word) : Prop :=
  ∀ (f : SI) (s : State), Ready s [opReg .x f.a.toNat] [.x f.d.toNat] →
    Runs (mk f) s [] fun k => k.setX f.d.toNat (op f (s.issue.pre.getX f.a.toNat))

/-- p[D] from x[A] and x[B]. -/
def ComparesAB (mk : SR → Instr) (c : Word → Word → Prop) : Prop :=
  ∀ (f : SR) (s : State), Ready s [opA .x f, opB .x f] [.p f.pd] →
    ∃ v : Word, (c (s.srcX (opA .x f)) (s.srcX (opB .x f)) → v = -1) ∧ (¬c (s.srcX (opA .x f)) (s.srcX (opB .x f)) → v = 0) ∧
      Runs (mk f) s [opA .x f, opB .x f] fun k => k.setP f.pd v

/-- p[D] from x[A] and the immediate. -/
def ComparesImm (mk : SI → Instr) (c : SI → Word → Prop) : Prop :=
  ∀ (f : SI) (s : State), Ready s [opReg .x f.a.toNat] [.p f.pd] →
    ∃ v : Word, (c f (s.issue.pre.getX f.a.toNat) → v = -1) ∧ (¬c f (s.issue.pre.getX f.a.toNat) → v = 0) ∧
      Runs (mk f) s [] fun k => k.setP f.pd v

/-- p[D] from p[A] and p[B]. -/
def GivesPP (mk : SR → Instr) (op : Word → Word → Word) : Prop :=
  ∀ (f : SR) (s : State), Ready s [opPA f, opPB f] [.p f.pd] →
    Runs (mk f) s [opPA f, opPB f] fun k => k.setP f.pd (op (s.srcP (opPA f)) (s.srcP (opPB f)))

/-- x[D] is the one value that stands in a relation to p[A]. -/
def GivesFromP (mk : SR → Instr) (rel : Word → Word → Prop) : Prop :=
  ∀ (f : SR) (s : State), Ready s [opPA f] [.x f.d.toNat] →
    ∃ v, rel (s.srcP (opPA f)) v ∧ Runs (mk f) s [opPA f] fun k => k.setX f.d.toNat v

/-- A number of zero bits from bit 63 down, or from bit 0 up, 64 for zero. -/
def IsClz (a v : Word) : Prop :=
  ∃ n : Nat, v = BitVec.ofNat 64 n ∧ n ≤ 64 ∧ (∀ i < n, a.getLsbD (63 - i) = false) ∧ (n < 64 → a.getLsbD (63 - n) = true)
def IsCtz (a v : Word) : Prop :=
  ∃ n : Nat, v = BitVec.ofNat 64 n ∧ n ≤ 64 ∧ (∀ i < n, a.getLsbD i = false) ∧ (n < 64 → a.getLsbD n = true)

/-- The operations of the S slot that have the form of registers, each with its sources and its destination. -/
def scalarForms (f : SR) : List (Instr × List Opd × List Reg) :=
  ([.add f, .sub f, .mul f, .mulh f, .mulhu f, .div f, .divu f, .rem f, .and f, .or f, .xor f, .shl f, .shr f, .sar f, .min f, .max f,
    .minu f, .maxu f, .addsh f, .fadd f, .fsub f, .fmul f, .fmin f, .fmax f].map fun i => (i, [opA .x f, opB .x f], [.x f.d.toNat])) ++
  ([.cmpeq f, .cmpne f, .cmplt f, .cmpltu f, .cmple f, .cmpleu f, .fclt f, .fcle f].map fun i => (i, [opA .x f, opB .x f], [.p f.pd])) ++
  ([.clz f, .ctz f, .popc f, .fcvti f, .fcvtf f].map fun i => (i, [opA .x f], [.x f.d.toNat])) ++
  ([.pand f, .por f, .pxor f, .pandn f].map fun i => (i, [opPA f, opPB f], [.p f.pd])) ++
  ([.pget f, .pcnt f, .pfirst f].map fun i => (i, [opPA f], [.x f.d.toNat])) ++
  [(.sel f, [opA .x f, opB .x f, opPC f], [.x f.d.toNat]), (.ffma f, [opA .x f, opB .x f, opC .x f], [.x f.d.toNat]),
   (.pset f, [opA .x f], [.p f.pd]), (.rndq f, [], [.x f.d.toNat]), (.rndf f, [], [.x f.d.toNat])]

/-- The operations of the S slot that have an immediate, each with its sources and its destination. -/
def scalarImmForms (f : SI) : List (Instr × List Opd × List Reg) :=
  ([.addi f, .andi f, .ori f, .shli f, .shri f, .sari f, .lih f, .bfx f, .widf f].map fun i => (i, [opReg .x f.a.toNat], [.x f.d.toNat])) ++
  ([.cmpeqi f, .cmplti f, .cmpltui f].map fun i => (i, [opReg .x f.a.toNat], [.p f.pd])) ++
  [(.li f, [], [.x f.d.toNat]), (.bfi f, [opReg .x f.a.toNat, opReg .x f.d.toNat], [.x f.d.toNat])]

/-- An operation of an anchored slot consumes a poisoned source: it is active and would issue, but one of the x and p registers
that it reads is marked (R260). -/
structure Poisoned (s : State) (os : List Opd) (wr : List Reg) : Prop where
  active : s.active = true
  free : ∀ e ∈ s.issue.pre.pend, e.reg ∉ regsOf os ++ wr
  unread : ∀ q ∈ s.issue.pre.queue, ∀ r ∈ q.reads, r ∉ wr
  source : ∃ r ∈ regsOf os, s.issue.pre.spoilt r = true

/-- The number of set bits. -/
def IsPopc (a v : Word) : Prop := v = BitVec.ofNat 64 ((Finset.range 64).filter fun i => a.getLsbD i = true).card

end Sys2Proof.Machine

namespace Sys2Proof.Machine

/-! Shapes of the V slots -/

/-- Lane i of a register under a format. -/
def laneAt (g : Fmt) (r : VReg) (i : Nat) : Nat := r.body.toNat / 2 ^ (g.width * i) % 2 ^ g.width

/-- `r` is the result of a per-element operation on a destination that was `old`: active lanes from `op` with the bits
that the format leaves unused zero, inactive ones kept under the same tag and zero otherwise, no sidecar (R119, R183). -/
def KeepsOrWrites (cond : Word) (g : Fmt) (old r : VReg) (op : Nat → Nat) : Prop :=
  r.tag = g ∧ r.side = 0 ∧ ∀ i < g.lanes, laneAt g r i =
    if laneOn cond g.lanes i then g.clean (op i) % 2 ^ g.width else if old.tag = g then laneAt g old i else 0

/-- Tagged sources carry one tag of a class, and FMT names no other (R101, R182). -/
def Tagged (s : State) (f : SR) (os : List Opd) (ok : Fmt → Bool) (g : Fmt) : Prop :=
  (∀ o ∈ os, (s.srcV o).tag = g) ∧ ok g = true ∧ (f.fmt = 0 ∨ Fmt.ofCode f.fmt = some g)

/-- Lane by lane from v[A], from v[A] and v[B], or from all three. -/
def Lanes1 (mk : SR → Instr) (ok : Fmt → Bool) (op : SR → Fmt → Nat → Nat) : Prop :=
  ∀ (f : SR) (s : State) (g : Fmt), ReadySlip s [opA .v f] [.v f.d.toNat] → Tagged s f [opA .v f] ok g →
    ∃ r, KeepsOrWrites s.issue.cond g (s.issue.pre.getV f.d.toNat) r (fun i => op f g (laneAt g (s.srcV (opA .v f)) i)) ∧
      RunsSlip (mk f) s [opA .v f] [.v f.d.toNat] fun k => k.setV f.d.toNat r
def Lanes2 (mk : SR → Instr) (ok : Fmt → Bool) (op : SR → Fmt → Nat → Nat → Nat) : Prop :=
  ∀ (f : SR) (s : State) (g : Fmt), ReadySlip s [opA .v f, opB .v f] [.v f.d.toNat] → Tagged s f [opA .v f, opB .v f] ok g →
    ∃ r, KeepsOrWrites s.issue.cond g (s.issue.pre.getV f.d.toNat) r
        (fun i => op f g (laneAt g (s.srcV (opA .v f)) i) (laneAt g (s.srcV (opB .v f)) i)) ∧
      RunsSlip (mk f) s [opA .v f, opB .v f] [.v f.d.toNat] fun k => k.setV f.d.toNat r
def Lanes3 (mk : SR → Instr) (ok : Fmt → Bool) (op : SR → Fmt → Nat → Nat → Nat → Nat) : Prop :=
  ∀ (f : SR) (s : State) (g : Fmt), ReadySlip s [opA .v f, opB .v f, opC .v f] [.v f.d.toNat] →
    Tagged s f [opA .v f, opB .v f, opC .v f] ok g →
    ∃ r, KeepsOrWrites s.issue.cond g (s.issue.pre.getV f.d.toNat) r
        (fun i => op f g (laneAt g (s.srcV (opA .v f)) i) (laneAt g (s.srcV (opB .v f)) i) (laneAt g (s.srcV (opC .v f)) i)) ∧
      RunsSlip (mk f) s [opA .v f, opB .v f, opC .v f] [.v f.d.toNat] fun k => k.setV f.d.toNat r

/-- A float lane from exact values, or an integer lane from integers: rounded once, or wrapped or clamped (R126, R184). -/
def floatOrInt (f : SR) (g : Fmt) (x : Sys2Proof.Num) (i : Int) : Nat :=
  if g.isFloat then Sys2Proof.Num.toElem g (RM.ofRnd f.rnd) (f.sat = 1) false x
  else match g.intBits with
    | some (w, sgn) =>
      Num.bitsOfInt w (if f.sat = 1 then Num.clamp (Num.intLimits w sgn).1 (Num.intLimits w sgn).2 i else i)
    | none => 0

/-- A compare of v[A] and v[B] into p[D]: the bit of a lane group is set where the condition holds of any lane of the
group, or under .all of every lane (R189). -/
def LaneCompare (mk : SR → Instr) (fl : Sys2Proof.Num → Sys2Proof.Num → Bool) (it : Int → Int → Bool) : Prop :=
  ∀ (f : SR) (s : State) (g : Fmt), ReadySlip s [opA .v f, opB .v f] [.p f.pd] → Tagged s f [opA .v f, opB .v f] Fmt.isArith g →
    ∃ v : Word,
      (∀ i < 64, (v.getLsbD i = true ↔ s.issue.cond.getLsbD i = true ∧
        let hit := fun j => if g.isFloat then fl (Num.ofElem g (laneAt g (s.srcV (opA .v f)) j)) (Num.ofElem g (laneAt g (s.srcV (opB .v f)) j))
          else it (laneInt g (laneAt g (s.srcV (opA .v f)) j)) (laneInt g (laneAt g (s.srcV (opB .v f)) j))
        if f.fn9.getLsbD 0 then ∀ j < g.lanes, j / (g.lanes / 64) = i → hit j = true
        else ∃ j < g.lanes, j / (g.lanes / 64) = i ∧ hit j = true)) ∧
      RunsSlip (mk f) s [opA .v f, opB .v f] [.p f.pd] fun k => k.setP f.pd v

/-- A reduction of the active lanes of v[A] by the tree of R138, into x[D] or into every lane of v[D] (R193). -/
def LaneReduction (mk : SR → Instr) (op : SR → Fmt → Nat → Nat → Nat) (ident : Fmt → Nat) : Prop :=
  ∀ (f : SR) (s : State) (g : Fmt),
    ReadySlip s [opA .v f] [if f.fn9.getLsbD 0 then .v f.d.toNat else .x f.d.toNat] → Tagged s f [opA .v f] Fmt.isArith g →
    ∃ e, e = treeFold (op f g) 9 ((List.range g.lanes).map fun i =>
        if laneOn s.issue.cond g.lanes i then laneAt g (s.srcV (opA .v f)) i else ident g) ∧
      (f.fn9.getLsbD 0 = true → RunsSlip (mk f) s [opA .v f] [.v f.d.toNat] fun k =>
        k.setV f.d.toNat ⟨g, packLanes g.width (List.replicate g.lanes e), 0⟩) ∧
      (f.fn9.getLsbD 0 = false → RunsSlip (mk f) s [opA .v f] [.x f.d.toNat] fun k => k.setX f.d.toNat (laneWord g e))

/-- Index a stands before index b in a sort by keys: no later key goes before an earlier one, and equal keys keep their order (R197). -/
def KeyOrder (before : Nat → Nat → Bool) (key : Nat → Nat) (a b : Nat) : Prop :=
  before (key b) (key a) = false ∧ (before (key a) (key b) = true ∨ a < b)

/-- A conversion of v[A]: the plan of R200, its random words popped where RND = 5, and the result register. -/
def LaneConversion (mk : SR → Instr) (ok : Fmt → Bool) (make : SR → State → CvtPlan → List (BitVec 512) → VReg) : Prop :=
  ∀ (f : SR) (s : State) (g : Fmt) (p : CvtPlan) (n : Nat), ReadySlip s [opA .v f] [.v f.d.toNat] →
    (s.srcV (opA .v f)).tag = g → g ≠ .poison → ok g = true → cvtPlan g (fmtOf f) (f.fn9.toNat % 8) = some p →
    n = (if f.rnd = 5 then srWords p.n else 0) → n ≤ s.cur.rbq.length →
    RunsSlip (mk f) s [opA .v f] [.v f.d.toNat] fun k =>
      ({ k with rbq := k.rbq.drop n }).setV f.d.toNat (make f s p (s.cur.rbq.take n))

end Sys2Proof.Machine

namespace Sys2Proof.Machine

/-! Shapes of the M slot -/

/-- A matrix operation enters its queue: every tile field resolves to the tile beside it, source slots of rings are at
least reserved, and the registers are ready (R105, R110). -/
structure ReadyM (s : State) (srcs : List (TSrc × Nat)) (dsts : List (BitVec 6 × Nat)) (rd : List Opd) (wr : List Reg) : Prop where
  active : s.active = true
  sources : ∀ p ∈ srcs, s.tileOf p.1 = some p.2 ∧ (p.1.h < 2 → s.issue.pre.tileReserved p.1.fld = true)
  places : ∀ p ∈ dsts, (s.issue.pre.tileField p.1).map Prod.fst = some p.2
  ready : ReadySlip s (srcs.map (fun p => p.1.opd p.2) ++ rd) (wr ++ dsts.map fun p => .t p.2)

/-- What a matrix operation needs to leave its queue: that the loads before its source slots complete (R105). -/
def needM (s : State) (srcs : List (TSrc × Nat)) : Need :=
  { s.issue.need with after := (srcs.filter fun p => p.1.h < 2).flatMap fun p => s.issue.pre.fillsAwaited p.1.fld }

/-- The operation goes ahead, and the bank changes by `g`. -/
def RunsM (i : Instr) (s : State) (srcs : List (TSrc × Nat)) (dsts : List (BitVec 6 × Nat)) (rd : List Opd) (wr : List Reg)
    (g : Ctx → Ctx) : Prop :=
  RunsSlip i s (srcs.map (fun p => p.1.opd p.2) ++ rd) (wr ++ dsts.map fun p => .t p.2) g (needM s srcs)

/-- The state in which the body of a matrix operation runs: the hold actions of its sources have been taken. -/
def latchedM (s : State) (srcs : List (TSrc × Nat)) (rd : List Opd) : State :=
  State.latchAll { s with issue := { s.issue with need := needM s srcs } } (srcs.map (fun p => p.1.opd p.2) ++ rd)

/-- The state after it: as its bundle issues, the operation stands in its queue. -/
def afterM (s t : State) (srcs : List (TSrc × Nat)) (rd : List Opd) (wr : List Reg) : State :=
  if s.issue.late.isSome then t else t.enqueue (regsOf (srcs.map (fun p => p.1.opd p.2) ++ rd)) wr

/-- An image's rows and bytes as an operation that leaves its queue finds them: under the context's stores before it. -/
def imageData (t : State) (parts : List (Nat × Nat)) : List Byte :=
  t.view (overlay t.mem (t.cur.stores.filter fun st => st.n < t.issue.late.getD 0)) parts
def imageDataMarked (t : State) (parts : List (Nat × Nat)) : Bool :=
  viewBad (overlayBad t.bad (t.cur.stores.filter fun st => st.n < t.issue.late.getD 0)) parts

/-- The accumulator that an operation of a class adds into, with the residue bound charged: zeroed under ZA, else of the
class's tag and with room in its bound (R132, R209). -/
def AddsInto (s : State) (c : MClass) (n : Nat) (za : Bool) (charge : Nat) (acc : Acc) : Prop :=
  ∃ a : Acc, ((za = true ∧ a = ⟨c.accTag, 0, []⟩) ∨ (za = false ∧ a = s.issue.pre.getA n ∧ a.tag = c.accTag ∧ a.tag ≠ .poison)) ∧
    ((c = .residue ∧ a.bound + charge ≤ residueLimit ∧ acc = { a with bound := a.bound + charge }) ∨ (c ≠ .residue ∧ acc = a))

end Sys2Proof.Machine

namespace Sys2Proof.Machine

/-! Shapes of the L and W slots -/

/-- A load's data lands in x[D]: an access of w bytes at the effective address, whose bytes come from memory before the
bundle under the context's own earlier stores; under seq_cst, what the access returned when it performed (R261, R348).  It waits
for no write of the context (R340, R342). -/
def ScalarLoad (mk : MEM → Instr) (w : Nat) (sgn : Bool) : Prop :=
  ∀ (f : MEM) (s t : State) (parts : List (Nat × Nat)), Ready s [baseOf f, idxOf f] [.x f.d.toNat] →
    s.issue.pre.loadsOut < 64 → (f.ord = 0 ∨ (s.ea f).toNat % w = 0) →
    s.resolveIn { atomic := f.ord = 4 } (pieces (s.ea f) w) = (.ok parts, t) → t.readWaits parts = false →
    (f.ord ≠ 4 → exec (mk f) s = .next ((t.modCur fun k =>
      (k.landX f.d.toNat (if sgn then sextWord (8 * w) (ofLeBytes (t.bytesRead parts)) else word (ofLeBytes (t.bytesRead parts)))
        (t.badRead parts) k.token).useToken).afterRead parts)) ∧
    ∀ v bad, f.ord = 4 → t.scResult = some (v, bad) → exec (mk f) s = .next (t.modCur fun k =>
      (k.landX f.d.toNat (if sgn then sextWord (8 * w) v else word v) bad k.token).useToken)

/-- A store of the low w bytes of x[D] at the effective address, which lands whole where it is aligned (R261, R341); under
seq_cst it performs at its home with the bundle's stamp, or has performed beside a seq_cst load (R348). -/
def ScalarStore (mk : MEM → Instr) (w : Nat) : Prop :=
  ∀ (f : MEM) (s t : State) (parts : List (Nat × Nat)), Ready s [baseOf f, idxOf f, opReg .x f.d.toNat] [] →
    (f.ord = 0 ∨ (s.ea f).toNat % w = 0) → s.resolveIn { write := true, atomic := f.ord = 4 } (pieces (s.ea f) w) = (.ok parts, t) →
    (f.ord ≠ 4 → exec (mk f) s = .next (t.commitStore f (cutData parts (leBytes w (s.issue.pre.getX f.d.toNat).toNat))
      (if misaligned (s.ea f) w then 1 else 0))) ∧
    (∀ r, f.ord = 4 → t.storeStamp = none → t.scResult = some r → exec (mk f) s = .next t) ∧
    ∀ stamp key, f.ord = 4 → t.storeStamp = some stamp → parts = [(key, w)] → isReg key = false →
      ∃ u, exec (mk f) s = .next u ∧ u.mem = t.mem ∧ u.cur.stores = t.cur.stores ++
        [⟨t.fabric.nextItem, [(key, leBytes w (s.issue.pre.getX f.d.toNat).toNat)], false, true, f.scope.toNat, 0, some stamp⟩]

/-- The operand of an atomic: w bytes of a register, or 16 bytes of a pair. -/
def atomOperand (s : State) (op w r : Nat) : Nat :=
  if op = 0x1B then (s.issue.pre.getX r).toNat + 2 ^ 64 * (s.issue.pre.getX (r + 1)).toNat
  else (s.issue.pre.getX r).toNat % 2 ^ (8 * w)

/-- What an atomic reads, what it writes, and the old value landing in x[D]. -/
def atomReads (f : MEM) (op : Nat) : List Opd :=
  [baseOf f, idxOf f] ++ (if op = 0x1A ∨ op = 0x1B then [opReg .x f.d.toNat] else []) ++
    if op = 0x1B then [opReg .x (f.idx.toNat + 1), opReg .x (f.d.toNat + 1)] else []
def atomWrites (f : MEM) (op : Nat) : List Reg := if op = 0x1B then [.x f.d.toNat, .x (f.d.toNat + 1)] else [.x f.d.toNat]
def State.landOld (t : State) (d op m : Nat) (bad : Bool) : State :=
  if op = 0x1B then
    t.modCur fun k => ((k.landX d (word (m % 2 ^ 64)) bad k.token).landX (d + 1) (word (m / 2 ^ 64)) bad k.token).useToken
  else t.modCur fun k => (k.landX d (word m) bad k.token).useToken

/-- Memory as an atomic of the bundle reads it: as it stood before the bundle, or after the L slot's access (R108, R273). -/
def State.atomMem (t : State) : Sparse Byte × Sparse Bool :=
  if t.issue.served then (t.mem, t.bad)
  else (overlay t.issue.mem0 t.issue.pre.stores, overlayBad t.issue.bad0 t.issue.pre.stores)

/-- A returning atomic on clean bytes of memory, which no store, reduction or image of the context holds back: the old value
lands in x[D], the new one is written (R272); under seq_cst, what it returned when it performed (R348). -/
def ReturningAtomic (mk : MEM → Instr) (op : Nat) (new : Nat → Nat → Nat → Nat → Option Nat) : Prop :=
  ∀ (f : MEM) (s t : State) (key w old : Nat), Ready s (atomReads f op) (atomWrites f op) → s.issue.pre.loadsOut < 64 →
    w = atomWidth f.scl → (s.baseDisp f).toNat % w = 0 →
    s.resolveIn { write := true, atomic := true } (pieces (s.baseDisp f) w) = (.ok [(key, w)], t) →
    (∀ bad, f.ord = 4 → t.scResult = some (old, bad) → exec (mk f) s = .next (t.landOld f.d.toNat op old bad)) ∧
    (f.ord ≠ 4 → t.cur.stores = [] → t.reductionsOut t.issue.core t.issue.bank = false →
      t.imageBefore [(key, w)] = false → (f.ord = 2 ∨ f.ord = 3 → t.imagesOut = false) → isReg key = false →
      old = ofLeBytes (t.view t.atomMem.1 [(key, w)]) → viewBad t.atomMem.2 [(key, w)] = false →
      ∃ u : State, exec (mk f) s = .next (u.landOld f.d.toNat op old false) ∧
        match new w old (atomOperand s op w f.idx.toNat) (atomOperand s op w f.d.toNat) with
        | some n => u.mem = (t.putBytes t.asHome key (leBytes w n)).mem
        | none => u.mem = t.mem)

/-- What a reduction carries to memory (R243, R274). -/
def IsReduction (r : Reduction) (s : State) (f : MEM) (op : Nat) : Prop :=
  r.op = op ∧ r.va = s.baseDisp f ∧ r.operand = s.issue.pre.getX f.d.toNat ∧ r.core = s.issue.core ∧ r.bank = s.issue.bank ∧
  r.job = s.issue.pre.job ∧ r.asid = s.issue.pre.asid ∧ r.pc = s.issue.pre.pc ∧ r.wid = s.issue.pre.wid ∧
  r.scl = f.scl.toNat ∧ r.ord = f.ord.toNat ∧ r.scope = f.scope.toNat ∧ r.ctx = s.issue.pre.serial ∧ r.fault = none

/-- A reduction sets out for memory with its operand, counted at the core's cluster (R243, R274, R355); one to the own LDM
performs with its bundle (R342). -/
def Reduces (mk : MEM → Instr) (op : Nat) : Prop :=
  ∀ (f : MEM) (s : State), Ready s [baseOf f, opReg .x f.d.toNat] [] → (s.baseDisp f).toNat % atomWidth f.scl = 0 →
    (s.ownLdmKey (s.baseDisp f) (atomWidth f.scl) = none →
      ∃ (t : State) (r : Reduction), exec (mk f) s = .next t ∧ t.fabric.reductions = s.fabric.reductions ++ [r] ∧
        IsReduction r s f op ∧ r.stage = 0 ∧
        (t.counter (clusterOf s.issue.core) s.issue.pre.job).inj = (s.counter (clusterOf s.issue.core) s.issue.pre.job).inj + 1 ∧
        t.cores = s.cores ∧ t.mem = s.mem ∧ t.issue = s.issue) ∧
    ∀ key, s.ownLdmKey (s.baseDisp f) (atomWidth f.scl) = some key → s.behindOwn [(key, atomWidth f.scl)] = false →
      s.imageBefore [(key, atomWidth f.scl)] = false → s.cur.stores.any (·.inLdm s.issue.core) = false →
      f.ord ≠ 2 → f.ord ≠ 3 → anyBad s.bad key (atomWidth f.scl) = false →
      ∃ (t : State) (r : Reduction), exec (mk f) s = .next t ∧ t.fabric.reductions = s.fabric.reductions ++ [r] ∧
        IsReduction r s f op ∧ r.stage = 1 ∧
        t.mem = (s.atomicAt s.asHome (reductionOp op f.scl.toNat) key (atomWidth f.scl)
          ((s.issue.pre.getX f.d.toNat).toNat % 2 ^ (8 * atomWidth f.scl)) 0).2.mem

/-- The checks of VGTH and VSCT pass: an index vector, aligned lanes, indexes below the bound (R259, R265). -/
def GatherOk (s : State) (f : SR) : Prop :=
  ((s.srcV (opB .v f)).tag = .int32 ∨ (s.srcV (opB .v f)).tag = .uint32) ∧
  ∀ l ∈ s.lanesAt f, l.2.2.toNat % 4 = 0 ∧ l.2.1 < (s.srcX (opC .x f)).toNat

/-- Sources of VGTH and VSCT. -/
def gatherReads (f : SR) : List Opd := [opA .x f, opB .v f, opC .x f, maskOf f, opReg .v f.d.toNat]

end Sys2Proof.Machine

namespace Sys2Proof.Machine

/-! Shapes of the Y and C slots -/

/-- The bundle's control transfer goes to an address. -/
def transfers (s : State) (a : Word) : State := { s with issue := { s.issue with npc := some a } }

/-- A loop entry is pushed at commit. -/
def pushes (s : State) (e : LoopEntry) : State := { s with issue := { s.issue with push := some e } }

/-- The system registers as MFS reads them, by selector (R113). -/
def sysRegs (s : State) : List (Nat × Word) :=
  [(0x00, word s.issue.core), (0x01, word (s.issue.core / 8)), (0x02, word (s.issue.core / 64)), (0x03, word s.issue.pre.job),
   (0x04, word s.issue.pre.asid), (0x05, s.issue.pre.wid), (0x06, s.issue.pre.argp), (0x07, s.issue.pre.trec),
   (0x08, word s.issue.pre.prio), (0x09, s.siderealOn (s.issue.core / 64)), (0x0A, s.issue.pre.cycles),
   (0x10, (s.core s.issue.core).tvec), (0x11, s.issue.pre.tcause), (0x12, s.issue.pre.taddr), (0x13, word s.issue.pre.tslot),
   (0x14, s.issue.pre.epc), (0x15, s.issue.pre.estat), (0x18, (s.core s.issue.core).slotmap),
   (0x19, (s.cluster (s.issue.core / 8)).mrgctl), (0x1A, s.issue.pre.rbqcnt), (0x1B, (s.core s.issue.core).findctl),
   (0x1C, s.pkg.bootstage)]

/-- What MTS leaves of the writable registers, by selector (R90, R113, R230, R300, R388). -/
def sysWrites (s : State) (v : Word) : List (Nat × State) :=
  [(0x05, s.modCur fun k => { k with wid := v }), (0x06, s.modCur fun k => { k with argp := v }),
   (0x07, s.modCur fun k => { k with trec := v }), (0x08, s.modCur fun k => { k with prio := v.toNat % 4 }),
   (0x0A, s.modCur fun k => { k with
     cycles := v, slices := if (s.job s.cur.job).tslice = 0 then 0 else v.toNat / (s.job s.cur.job).tslice }),
   (0x10, s.modCore s.issue.core fun k => { k with tvec := v &&& ~~~0xFFF }),
   (0x11, s.modCur fun k => { k with tcause := v &&& 0xFFFFFFFF000001FF }), (0x12, s.modCur fun k => { k with taddr := v }),
   (0x13, s.modCur fun k => { k with tslot := v.toNat % 8 }), (0x14, s.modCur fun k => { k with epc := v &&& ~~~0x3F }),
   (0x15, s.modCur fun k => { k with
     nodec := v.getLsbD 7, amask := v.getLsbD 1, pmode := if v.getLsbD 0 then .supervisor else .user }),
   (0x18, s.modCore s.issue.core (·.writeSlotmap v)), (0x19, s.writeMrgctl (s.issue.core / 8) v),
   (0x1B, s.modCore s.issue.core fun k => { k with
     findEn := v.getLsbD 0, findDist := v.toNat / 2 ^ 8 % 8, findConf := v.toNat / 2 ^ 16 % 256 })]

/-- A barrier instruction reaches its barrier: an aligned address that names one, with no access of the context before it whose
effect it would miss or forestall; `t` is the state after the hold actions (R109, R154, R340, R342). -/
def AtBarrier (s t : State) (f : SR) (wr : List Reg) (key : Nat) : Prop :=
  Ready s [opA .x f, opB .x f] wr ∧ t = s.latchAll [opA .x f, opB .x f] ∧ (s.srcX (opA .x f)).toNat % 16 = 0 ∧
  t.barrierKey t.me (s.srcX (opA .x f)) = .ok key ∧ t.imageBefore [(key, 16)] = false ∧ t.behindOwn [(key, 16)] = false ∧
  t.storesFirst [(key, 16)] = false

/-- JOINP names a counter: that of a launch, or the first word of a 64-byte aligned join block (R32, R51, R52). -/
def counterAt (s : State) : Bool :=
  decide (s.issue.pre.joinp.toNat % 8 = 0) &&
    ((s.launchCounter s.issue.pre.job s.issue.pre.joinp).isSome || decide (s.issue.pre.joinp.toNat % 64 = 0))

/-- The decrement leaves the counter and posts nothing: `u` is `t` with a record of the cause and the counter's address (R52). -/
def JoinRecord (s t u : State) (cause : Nat) : Prop :=
  ∃ r : FaultRec, u = t.report r ∧ r.cause = cause ∧ r.va = s.issue.pre.joinp ∧ r.job = (t.ctx s.issue.core s.issue.bank).job ∧
    r.core = s.issue.core ∧ r.bank = s.issue.bank

/-- Checks of a send that pass (R316). -/
def SendOk (s : State) (entry target : Word) : Prop :=
  entry.toNat % 64 = 0 ∧ targetOk target = true ∧
  (target.getLsbD 8 = true → s.isPeer s.issue.pre.job (bits target 16 16) = true ∧ s.port.up = true) ∧
  (s.cluster (clusterOf s.issue.core)).sends < 16

/-- A message has left: one more in flight with these fields, counted at the sender's cluster, a send entry taken. -/
def Sent (s t : State) (entry target : Word) (payload : Payload) : Prop :=
  ∃ m : Msg, t.fabric.msgs = s.fabric.msgs ++ [m] ∧ m.entry = entry ∧ m.payload = payload ∧ m.job = s.issue.pre.job ∧
    m.target = bits target 0 8 ∧ m.rem = target.getLsbD 8 ∧ m.chip = bits target 16 16 ∧ m.core = s.issue.core ∧
    m.bank = s.issue.bank ∧ m.ctx = s.issue.pre.serial ∧ m.wid = s.issue.pre.wid ∧ m.widths = s.issue.pre.widths ∧ m.prio = s.issue.pre.prio ∧
    (t.counter (clusterOf s.issue.core) s.issue.pre.job).inj = (s.counter (clusterOf s.issue.core) s.issue.pre.job).inj + 1 ∧
    (t.cluster (clusterOf s.issue.core)).sends = (s.cluster (clusterOf s.issue.core)).sends + 1

end Sys2Proof.Machine

namespace Sys2Proof.Machine

/-! Shapes of events -/

/-- An event of another agent answers a next state: its own effect leaves `t`, and what follows from that anywhere (parked
tasks whose event has come, pre-emptions that land, cores that switch banks) is settled. -/
def Settles (i : Instr) (s t : State) : Prop := exec i s = .next t.settle

/-- The bank that an event is about, and its core. -/
def theCtx (s : State) : Ctx := s.ctx s.arg.core s.arg.bank
def theCore (s : State) : Core := s.core s.arg.core

/-- The bank that an event is about, changed. -/
def onCtx (s : State) (f : Ctx → Ctx) : State := s.modCtx s.arg.core s.arg.bank f

end Sys2Proof.Machine

open Sys2Proof Sys2Proof.Machine

/-- R168 instruction by instruction, R169's divisions with their corners; R77 and R98 are in `Ctx.setX`: a write to x0 is
discarded. -/
def Obligations.ScalarArithmeticAndDivision : Prop :=
  (GivesAB .add (fun _ a b => a + b) ∧
   GivesAB .sub (fun _ a b => a - b) ∧
   GivesImm .addi (fun f a => a + f.imm.signExtend 64) ∧
   GivesAB .mul (fun _ a b => a * b) ∧
   GivesAB .mulh (fun _ a b => (a.signExtend 128 * b.signExtend 128).extractLsb' 64 64) ∧
   GivesAB .mulhu (fun _ a b => (a.zeroExtend 128 * b.zeroExtend 128).extractLsb' 64 64) ∧
   GivesAB .addsh (fun f a b => a + b <<< (f.fn9.extractLsb' 0 3).toNat) ∧
   GivesAB .min (fun _ a b => if a.toInt ≤ b.toInt then a else b) ∧
   GivesAB .max (fun _ a b => if a.toInt ≤ b.toInt then b else a) ∧
   GivesAB .minu (fun _ a b => if a.toNat ≤ b.toNat then a else b) ∧
   GivesAB .maxu (fun _ a b => if a.toNat ≤ b.toNat then b else a) ∧
   GivesA .clz (fun _ a v => IsClz a v) ∧
   GivesA .ctz (fun _ a v => IsCtz a v) ∧
   GivesA .popc (fun _ a v => IsPopc a v) ∧
   ∀ (f : SR) (s : State), Ready s [opA .x f, opB .x f, opPC f] [.x f.d.toNat] →
     Runs (.sel f) s [opA .x f, opB .x f, opPC f] fun k => k.setX f.d.toNat
       (if (s.srcP (opPC f)).getLsbD 0 = true then s.srcX (opA .x f) else s.srcX (opB .x f))) ∧
  GivesAB .div (fun _ a b => if b = 0 then -1 else a.sdiv b) ∧
  GivesAB .divu (fun _ a b => if b = 0 then -1 else a / b) ∧
  GivesAB .rem (fun _ a b => if b = 0 then a else a.srem b)

/-- R170 to R173: logic and shifts, constants, bitfields inside the register, work-identifier fields. -/
def Obligations.ScalarLogicConstantsAndFields : Prop :=
  (GivesAB .and (fun _ a b => a &&& b) ∧
   GivesAB .or (fun _ a b => a ||| b) ∧
   GivesAB .xor (fun _ a b => a ^^^ b) ∧
   GivesImm .andi (fun f a => a &&& f.imm.signExtend 64) ∧
   GivesImm .ori (fun f a => a ||| f.imm.signExtend 64) ∧
   GivesAB .shl (fun _ a b => a <<< (b.extractLsb' 0 6).toNat) ∧
   GivesAB .shr (fun _ a b => a >>> (b.extractLsb' 0 6).toNat) ∧
   GivesAB .sar (fun _ a b => a.sshiftRight (b.extractLsb' 0 6).toNat) ∧
   GivesImm .shli (fun f a => a <<< (f.imm.extractLsb' 0 6).toNat) ∧
   GivesImm .shri (fun f a => a >>> (f.imm.extractLsb' 0 6).toNat) ∧
   GivesImm .sari (fun f a => a.sshiftRight (f.imm.extractLsb' 0 6).toNat)) ∧
  (∀ (f : SI) (s : State), Ready s [] [.x f.d.toNat] → Runs (.li f) s [] fun k => k.setX f.d.toNat (f.imm.signExtend 64)) ∧
  GivesImm .lih (fun f a => f.imm ++ a.extractLsb' 0 32) ∧
  (∀ (f : SI) (s : State), Ready s [opReg .x f.a.toNat] [.x f.d.toNat] →
    (f.imm.extractLsb' 0 6).toNat + (f.imm.extractLsb' 6 6).toNat + 1 ≤ 64 →
    ∃ v : Word, (∀ i < 64, v.getLsbD i =
        if i ≤ (f.imm.extractLsb' 6 6).toNat then (s.issue.pre.getX f.a.toNat).getLsbD ((f.imm.extractLsb' 0 6).toNat + i)
        else f.imm.getLsbD 12 &&
          (s.issue.pre.getX f.a.toNat).getLsbD ((f.imm.extractLsb' 0 6).toNat + (f.imm.extractLsb' 6 6).toNat)) ∧
      Runs (.bfx f) s [] fun k => k.setX f.d.toNat v) ∧
  (∀ (f : SI) (s : State), Ready s [opReg .x f.a.toNat, opReg .x f.d.toNat] [.x f.d.toNat] →
    (f.imm.extractLsb' 0 6).toNat + (f.imm.extractLsb' 6 6).toNat + 1 ≤ 64 →
    ∃ v : Word, (∀ i < 64, v.getLsbD i =
        if (f.imm.extractLsb' 0 6).toNat ≤ i ∧ i ≤ (f.imm.extractLsb' 0 6).toNat + (f.imm.extractLsb' 6 6).toNat
        then (s.issue.pre.getX f.a.toNat).getLsbD (i - (f.imm.extractLsb' 0 6).toNat)
        else (s.issue.pre.getX f.d.toNat).getLsbD i) ∧
      Runs (.bfi f) s [] fun k => k.setX f.d.toNat v) ∧
  ∀ (f : SI) (s : State) (k : Nat) (w : Word), Ready s [opReg .x f.a.toNat] [.x f.d.toNat] →
    k = (f.imm.extractLsb' 0 3).toNat → s.issue.pre.widths.length = 6 → k ≤ 6 → (f.imm.getLsbD 3 = false → 1 ≤ k) →
    w = (if f.a = 0 then s.issue.pre.wid else s.issue.pre.getX f.a.toNat) →
    ∃ v : Word,
      (f.imm.getLsbD 3 = false →
        v.toNat = w.toNat / 2 ^ (s.issue.pre.widths.drop k).sum % 2 ^ s.issue.pre.widths.getD (k - 1) 0) ∧
      (f.imm.getLsbD 3 = true → k = 0 → v = 0) ∧
      (f.imm.getLsbD 3 = true → 1 ≤ k →
        v.toNat = w.toNat % 2 ^ s.issue.pre.widths.sum / 2 ^ (s.issue.pre.widths.drop k).sum) ∧
      Runs (.widf f) s [] fun c => c.setX f.d.toNat v

/-- R174, R175, R98: compares write a whole predicate, all ones or zero; predicate logic, moves and counts. -/
def Obligations.ComparesAndPredicateOperations : Prop :=
  (ComparesAB .cmpeq (fun a b => a = b) ∧
   ComparesAB .cmpne (fun a b => a ≠ b) ∧
   ComparesAB .cmplt (fun a b => a.toInt < b.toInt) ∧
   ComparesAB .cmple (fun a b => a.toInt ≤ b.toInt) ∧
   ComparesAB .cmpltu (fun a b => a.toNat < b.toNat) ∧
   ComparesAB .cmpleu (fun a b => a.toNat ≤ b.toNat) ∧
   ComparesImm .cmpeqi (fun f a => a = f.imm.signExtend 64) ∧
   ComparesImm .cmplti (fun f a => a.toInt < (f.imm.signExtend 64).toInt) ∧
   ComparesImm .cmpltui (fun f a => a.toNat < f.imm.toNat) ∧
   ComparesAB .fclt (fun a b => Sys2Proof.Num.lt (Sys2Proof.Num.ofF32 (bits a 0 32)) (Sys2Proof.Num.ofF32 (bits b 0 32)) = true) ∧
   ComparesAB .fcle (fun a b => Sys2Proof.Num.lt (Sys2Proof.Num.ofF32 (bits a 0 32)) (Sys2Proof.Num.ofF32 (bits b 0 32)) = true ∨
     Sys2Proof.Num.eq (Sys2Proof.Num.ofF32 (bits a 0 32)) (Sys2Proof.Num.ofF32 (bits b 0 32)) = true)) ∧
  GivesPP .pand (fun a b => a &&& b) ∧
  GivesPP .por (fun a b => a ||| b) ∧
  GivesPP .pxor (fun a b => a ^^^ b) ∧
  GivesPP .pandn (fun a b => a &&& ~~~b) ∧
  (∀ (f : SR) (s : State), Ready s [opA .x f] [.p f.pd] →
    Runs (.pset f) s [opA .x f] fun k => k.setP f.pd (s.srcX (opA .x f))) ∧
  GivesFromP .pget (fun a v => v = a) ∧
  GivesFromP .pcnt IsPopc ∧
  GivesFromP .pfirst IsCtz

/-- R176: binary32 values in the low halves, one rounding, the high half zero; R178: the oldest word leaves the random
queue, and with an empty queue the bundle waits. -/
def Obligations.ScalarFloatAndRandomDraws : Prop :=
  (GivesAB .fadd (fun f a b => roundF32 f (Sys2Proof.Num.add (RM.ofRnd f.rnd) (f32 a) (f32 b))) ∧
   GivesAB .fsub (fun f a b => roundF32 f (Sys2Proof.Num.add (RM.ofRnd f.rnd) (f32 a) (Sys2Proof.Num.neg (f32 b)))) ∧
   GivesAB .fmul (fun f a b => roundF32 f (Sys2Proof.Num.mul (f32 a) (f32 b))) ∧
   GivesAB .fmin (fun f a b => roundF32 f (Sys2Proof.Num.minNum (f32 a) (f32 b))) ∧
   GivesAB .fmax (fun f a b => roundF32 f (Sys2Proof.Num.maxNum (f32 a) (f32 b))) ∧
   (∀ (f : SR) (s : State), Ready s [opA .x f, opB .x f, opC .x f] [.x f.d.toNat] →
     Runs (.ffma f) s [opA .x f, opB .x f, opC .x f] fun k => k.setX f.d.toNat
       (roundF32 f (Sys2Proof.Num.add (RM.ofRnd f.rnd) (Sys2Proof.Num.mul (f32 (s.srcX (opA .x f))) (f32 (s.srcX (opB .x f))))
         (f32 (s.srcX (opC .x f)))))) ∧
   (∀ (f : SR) (x : Sys2Proof.Num), (roundF32 f x).toNat < 2 ^ 32) ∧
   GivesA .fcvti (fun f a v => v = BitVec.ofInt 64 (Sys2Proof.Num.toInt (RM.ofRnd f.rnd) (cvtFormat f).1 (cvtFormat f).2 (f32 a))) ∧
   GivesA .fcvtf (fun f a v =>
     v = word (Sys2Proof.Num.pack Sys2Proof.Num.b32 (RM.ofRnd f.rnd) false (Sys2Proof.Num.ofInt (Sys2Proof.Num.intOfBits (cvtFormat f).1 (cvtFormat f).2 a.toNat))))) ∧
  ∀ (f : SR) (s : State), Ready s [] [.x f.d.toNat] →
    (∀ (w : BitVec 512) (r : List (BitVec 512)), s.cur.rbq = w :: r →
      (Runs (.rndq f) s [] fun k => ({ k with rbq := r }).setX f.d.toNat (w.setWidth 32).toNat) ∧
      (Runs (.rndf f) s [] fun k => ({ k with rbq := r }).setX f.d.toNat
        (word (Sys2Proof.Num.pack Sys2Proof.Num.b32 .rne false (.fin false ((w.setWidth 32).toNat / 256) (-24)))))) ∧
    (s.cur.rbq = [] →
      exec (.rndq f) s = .next (s.holdFor none) ∧ exec (.rndf f) s = .next (s.holdFor none))

/-- R71, R74, R103: the hold action of one source, and an inactive operation of any form of the S slot, which has no
effect but its hold actions; R77, R98, R260: what a write of an x or a p register leaves, x0 and p0 among the
destinations; R111, R260: an active operation of any form of the S slot that reads a poisoned x or p register raises
the poison trap. -/
def Obligations.HoldActionsWritesAndPoison : Prop :=
  (∀ (s : State) (o : Opd) (slot i : Nat), o.i < 3 → i < 3 →
     (s.latchOne o).cur.getLatch slot i =
       if slot = s.issue.slot ∧ i = o.i then
         if o.h = 1 then s.latchCopy o else if o.h = 3 then .empty else s.cur.getLatch slot i
       else s.cur.getLatch slot i) ∧
  ((∀ (f : SR) (s : State), ∀ e ∈ scalarForms f, Skips s e.2.1 → exec e.1 s = .next (s.latchAll e.2.1)) ∧
   (∀ (f : SI) (s : State), ∀ e ∈ scalarImmForms f, s.active = false → exec e.1 s = .next s) ∧
   ∀ (s : State) (os : List Opd), { (s.latchAll os).cur with latch := [] } = { s.cur with latch := [] } ∧ Elsewhere s (s.latchAll os)) ∧
  ((∀ (f : SR) (s : State), ∀ e ∈ scalarForms f, Poisoned s e.2.1 e.2.2 → exec e.1 s = .next (s.raise 0x10 0)) ∧
   ∀ (f : SI) (s : State), ∀ e ∈ scalarImmForms f, Poisoned s e.2.1 e.2.2 → exec e.1 s = .next (s.raise 0x10 0)) ∧
  (∀ (k : Ctx) (n m : Nat) (v : Word), (k.setX n v).getX m = if m = n ∧ n ≠ 0 then v else k.getX m) ∧
  (∀ (k : Ctx) (n m : Nat) (v : Word), (k.setP n v).getP m = if m = n ∧ n ≠ 0 then v else k.getP m) ∧
  (∀ k : Ctx, k.getX 0 = 0 ∧ k.getP 0 = -1) ∧
  (∀ (k : Ctx) (n : Nat) (v : Word), { k.setX n v with x := [], xbad := 0 } = { k with x := [], xbad := 0 }) ∧
  (∀ (k : Ctx) (n : Nat) (v : Word), { k.setP n v with p := [], pbad := 0 } = { k with p := [], pbad := 0 }) ∧
  (∀ (k : Ctx) (n m : Nat) (v : Word), n < 64 → m < 64 →
    (k.setX n v).spoilt (.x m) = (k.spoilt (.x m) && !(m == n && n != 0)))

/-- R184 to R187, for every slot a lane operation may stand in. -/
def Obligations.LaneArithmeticResults : Prop :=
  (∀ v, Lanes2 (.vadd v) Fmt.isArith fun f g a b => floatOrInt f g
    (Sys2Proof.Num.add (RM.ofRnd f.rnd) (Num.ofElem g a) (Num.ofElem g b)) (laneInt g a + laneInt g b)) ∧
  (∀ v, Lanes2 (.vsub v) Fmt.isArith fun f g a b => floatOrInt f g
    (Sys2Proof.Num.add (RM.ofRnd f.rnd) (Num.ofElem g a) (Num.neg (Num.ofElem g b))) (laneInt g a - laneInt g b)) ∧
  (∀ v, Lanes2 (.vmul v) Fmt.isArith fun f g a b => floatOrInt f g
    (Sys2Proof.Num.mul (Num.ofElem g a) (Num.ofElem g b)) (laneInt g a * laneInt g b)) ∧
  (∀ v, Lanes3 (.vfma v) Fmt.isArith fun f g a b c => floatOrInt f g
    (Sys2Proof.Num.add (RM.ofRnd f.rnd) (Sys2Proof.Num.mul (Num.ofElem g a) (Num.ofElem g b)) (Num.ofElem g c))
    (laneInt g a * laneInt g b + laneInt g c)) ∧
  (∀ v, Lanes3 (.vfms v) Fmt.isArith fun f g a b c => floatOrInt f g
    (Sys2Proof.Num.add (RM.ofRnd f.rnd) (Sys2Proof.Num.mul (Num.ofElem g a) (Num.ofElem g b)) (Num.neg (Num.ofElem g c)))
    (laneInt g a * laneInt g b - laneInt g c)) ∧
  (∀ v, Lanes2 (.vmin v) Fmt.isArith fun f g a b => floatOrInt f g
    (Num.minNum (Num.ofElem g a) (Num.ofElem g b)) (min (laneInt g a) (laneInt g b))) ∧
  (∀ v, Lanes2 (.vmax v) Fmt.isArith fun f g a b => floatOrInt f g
    (Num.maxNum (Num.ofElem g a) (Num.ofElem g b)) (max (laneInt g a) (laneInt g b))) ∧
  (∀ v, Lanes1 (.vabs v) Fmt.isArith fun f g a =>
    if g.isFloat then Num.toElem g .rne false false (Num.abs (Num.ofElem g a)) else floatOrInt f g .nan |laneInt g a|) ∧
  (∀ v, Lanes1 (.vneg v) Fmt.isArith fun f g a =>
    if g.isFloat then Num.toElem g .rne false false (Num.neg (Num.ofElem g a)) else floatOrInt f g .nan (-laneInt g a)) ∧
  Lanes2 .vdiv Fmt.isFloat (fun f g a b => divLane g (RM.ofRnd f.rnd) (f.sat = 1) (Num.ofElem g a) (Num.ofElem g b)) ∧
  (∀ v, Lanes1 (.vrcp v) Fmt.isFloat fun _ g a => Num.toElem g .rne false false (Num.ofF32 (Num.rcp32 (Num.ofElem g a)))) ∧
  (∀ v, Lanes1 (.vrsq v) Fmt.isFloat fun _ g a => Num.toElem g .rne false false (Num.ofF32 (Num.rsqrt32 (Num.ofElem g a)))) ∧
  (∀ v, Lanes1 (.vexp2 v) Fmt.isFloat fun _ g a => Num.toElem g .rne false false (Num.ofF32 (Num.exp232 (Num.ofElem g a)))) ∧
  (∀ v, Lanes1 (.vlog2 v) Fmt.isFloat fun _ g a => Num.toElem g .rne false false (Num.ofF32 (Num.log232 (Num.ofElem g a))))

/-- R188: lanes as bit patterns, shifts by the low log₂ w bits; R184: integer sums, differences and products without SAT
wrap. -/
def Obligations.LaneLogicShiftsAndWrapping : Prop :=
  ((∀ v, Lanes2 (.vand v) Fmt.isBit fun _ _ a b => a &&& b) ∧
   (∀ v, Lanes2 (.vor v) Fmt.isBit fun _ _ a b => a ||| b) ∧
   (∀ v, Lanes2 (.vxor v) Fmt.isBit fun _ _ a b => a ^^^ b) ∧
   (∀ v, Lanes2 (.vshl v) isShiftable fun _ g a b => a <<< (b % g.width)) ∧
   (∀ v, Lanes2 (.vshr v) isShiftable fun _ g a b => a >>> (b % g.width)) ∧
   ∀ v, Lanes2 (.vsar v) isShiftable fun _ g a b =>
     ((BitVec.ofNat g.width a).sshiftRight (b % g.width)).toNat) ∧
  ∀ (v : VSlot) (f : SR) (s : State) (g : Fmt), ReadySlip s [opA .v f, opB .v f] [.v f.d.toNat] →
    Tagged s f [opA .v f, opB .v f] Fmt.isInteger g → f.sat = 0 →
    ∃ r1 r2 r3,
      KeepsOrWrites s.issue.cond g (s.issue.pre.getV f.d.toNat) r1
        (fun i => laneAt g (s.srcV (opA .v f)) i + laneAt g (s.srcV (opB .v f)) i) ∧
      RunsSlip (.vadd v f) s [opA .v f, opB .v f] [.v f.d.toNat] (fun k => k.setV f.d.toNat r1) ∧
      KeepsOrWrites s.issue.cond g (s.issue.pre.getV f.d.toNat) r2
        (fun i => laneAt g (s.srcV (opA .v f)) i + 2 ^ g.width - laneAt g (s.srcV (opB .v f)) i) ∧
      RunsSlip (.vsub v f) s [opA .v f, opB .v f] [.v f.d.toNat] (fun k => k.setV f.d.toNat r2) ∧
      KeepsOrWrites s.issue.cond g (s.issue.pre.getV f.d.toNat) r3
        (fun i => laneAt g (s.srcV (opA .v f)) i * laneAt g (s.srcV (opB .v f)) i) ∧
      RunsSlip (.vmul v f) s [opA .v f, opB .v f] [.v f.d.toNat] (fun k => k.setV f.d.toNat r3)

/-- R189. -/
def Obligations.LaneComparesWritePredicateBits : Prop :=
  (∀ v, LaneCompare (.vceq v) Sys2Proof.Num.eq fun a b => decide (a = b)) ∧
  (∀ v, LaneCompare (.vcne v) (fun a b => !Sys2Proof.Num.eq a b) fun a b => decide (a ≠ b)) ∧
  (∀ v, LaneCompare (.vclt v) Sys2Proof.Num.lt fun a b => decide (a < b)) ∧
  ∀ v, LaneCompare (.vcle v) (fun a b => Sys2Proof.Num.lt a b || Sys2Proof.Num.eq a b) fun a b => decide (a ≤ b)

/-- R190 to R192: selection, whole moves, broadcast, indexes, one lane in and out, permutation and rotation.  The hold code of VSEL's
predicate (log entry 52), what a predicated VMOV makes of POISON and KPS tags and of side bytes (log entry 63), and spare bits (log
entry 122) are the model's choices. -/
def Obligations.LaneMovesResults : Prop :=
  (∀ (v : VSlot) (f : SR) (s : State) (g : Fmt), ReadySlip s [opA .v f, opB .v f, opPC f] [.v f.d.toNat] →
    Tagged s f [opA .v f, opB .v f] Fmt.isUnscaled g →
    ∃ r, KeepsOrWrites s.issue.cond g (s.issue.pre.getV f.d.toNat) r (fun i =>
        if laneOn (s.srcP (opPC f)) g.lanes i then laneAt g (s.srcV (opA .v f)) i else laneAt g (s.srcV (opB .v f)) i) ∧
      RunsSlip (.vsel v f) s [opA .v f, opB .v f, opPC f] [.v f.d.toNat] fun k => k.setV f.d.toNat r) ∧
  (∀ (v : VSlot) (f : SR) (s : State), ReadySlip s [opA .v f] [.v f.d.toNat] → s.issue.cond = -1 →
    RunsSlip (.vmov v f) s [opA .v f] [.v f.d.toNat] fun k => k.setV f.d.toNat (s.srcV (opA .v f))) ∧
  (∀ (v : VSlot) (f : SR) (s : State) (g : Fmt), ReadySlip s [opA .v f] [.v f.d.toNat] → s.issue.cond ≠ -1 →
    (s.srcV (opA .v f)).tag = g → g.scale = .none →
    ∃ r, KeepsOrWrites s.issue.cond g (s.issue.pre.getV f.d.toNat) r (fun i => laneAt g (s.srcV (opA .v f)) i) ∧
      RunsSlip (.vmov v f) s [opA .v f] [.v f.d.toNat] fun k => k.setV f.d.toNat r) ∧
  (∀ (v : VSlot) (f : SR) (s : State) (g : Fmt), ReadySlip s [opA .v f] [.v f.d.toNat] → s.issue.cond ≠ -1 →
    (s.srcV (opA .v f)).tag = g → g.scale ≠ .none →
    ∃ r, KeepsOrWrites s.issue.cond g .zero { r with side := 0 } (fun i => laneAt g (s.srcV (opA .v f)) i) ∧
      r.side = movedSide s.issue.cond (s.srcV (opA .v f)) ∧
      RunsSlip (.vmov v f) s [opA .v f] [.v f.d.toNat] fun k => k.setV f.d.toNat r) ∧
  (∀ (v : VSlot) (f : SR) (s : State), ReadySlip s [opA .x f] [.v f.d.toNat] →
    ∃ r, KeepsOrWrites s.issue.cond (fmtOf f) (s.issue.pre.getV f.d.toNat) r (fun _ => (s.srcX (opA .x f)).toNat) ∧
      RunsSlip (.vbcst v f) s [opA .x f] [.v f.d.toNat] fun k => k.setV f.d.toNat r) ∧
  (∀ (v : VSlot) (f : SR) (s : State), ReadySlip s [opA .x f] [.v f.d.toNat] →
    ∃ r, KeepsOrWrites s.issue.cond (fmtOf f) (s.issue.pre.getV f.d.toNat) r (fun i => (s.srcX (opA .x f)).toNat + i) ∧
      RunsSlip (.viota v f) s [opA .x f] [.v f.d.toNat] fun k => k.setV f.d.toNat r) ∧
  (∀ (v : VSlot) (f : SR) (s : State) (g : Fmt), ReadySlip s [opA .v f, opB .x f] [.x f.d.toNat] → s.active = true →
    Tagged s f [opA .v f] isIndexable g →
    RunsSlip (.vxtr v f) s [opA .v f, opB .x f] [.x f.d.toNat] fun k => k.setX f.d.toNat
      (laneWord g (laneAt g (s.srcV (opA .v f)) ((s.srcX (opB .x f)).toNat % g.lanes)))) ∧
  (∀ (v : VSlot) (f : SR) (s : State) (g : Fmt), ReadySlip s [opA .x f, opB .x f, opReg .v f.d.toNat] [.v f.d.toNat] →
    s.active = true → Tagged s f [opReg .v f.d.toNat] isIndexable g →
    ∃ r : VReg, r.tag = g ∧ r.side = (s.issue.pre.getV f.d.toNat).side ∧
      (∀ i < g.lanes, laneAt g r i = if i = (s.srcX (opB .x f)).toNat % g.lanes
        then g.clean ((s.srcX (opA .x f)).toNat % 2 ^ g.width) else laneAt g (s.issue.pre.getV f.d.toNat) i) ∧
      RunsSlip (.vins v f) s [opA .x f, opB .x f, opReg .v f.d.toNat] [.v f.d.toNat] fun k => k.setV f.d.toNat r) ∧
  (∀ (f : SR) (s : State) (g h : Fmt), ReadySlip s [opA .v f, opB .v f] [.v f.d.toNat] →
    Tagged s f [opA .v f] (fun t => t.isUnscaled && decide (8 ≤ t.width)) g → (s.srcV (opB .v f)).tag = h →
    h.isInteger = true → h.width = g.width →
    ∃ r, KeepsOrWrites s.issue.cond g (s.issue.pre.getV f.d.toNat) r (fun i =>
        laneAt g (s.srcV (opA .v f)) (laneAt g (s.srcV (opB .v f)) i % g.lanes)) ∧
      RunsSlip (.vperm f) s [opA .v f, opB .v f] [.v f.d.toNat] fun k => k.setV f.d.toNat r) ∧
  ∀ (v : VSlot) (f : SR) (s : State) (g : Fmt), ReadySlip s [opA .v f, opB .x f] [.v f.d.toNat] →
    Tagged s f [opA .v f] Fmt.isUnscaled g →
    ∃ r, KeepsOrWrites s.issue.cond g (s.issue.pre.getV f.d.toNat) r (fun i =>
        laneAt g (s.srcV (opA .v f)) ((i + (s.srcX (opB .x f)).toNat) % g.lanes)) ∧
      RunsSlip (.vrot v f) s [opA .v f, opB .x f] [.v f.d.toNat] fun k => k.setV f.d.toNat r

/-- R193 to R196: the trees, the scan, the index of the largest lane, compression. -/
def Obligations.ReductionsAndScans : Prop :=
  LaneReduction .vradd (fun f => addLane (RM.ofRnd f.rnd)) addIdentity ∧
  LaneReduction .vrmax (fun _ => maxLane) (limitLane false) ∧
  LaneReduction .vrmin (fun _ => minLane) (limitLane true) ∧
  (∀ (f : SR) (s : State) (g : Fmt), ReadySlip s [opA .v f] [.v f.d.toNat] → Tagged s f [opA .v f] Fmt.isArith g →
    ∃ r, KeepsOrWrites s.issue.cond g (s.issue.pre.getV f.d.toNat) r (fun i =>
        (scanSteps (addLane (RM.ofRnd f.rnd) g) 9 1 (maskedLanes s.issue.cond g (addIdentity g) (s.srcV (opA .v f)))).getD i 0) ∧
      RunsSlip (.vscan f) s [opA .v f] [.v f.d.toNat] fun k => k.setV f.d.toNat r) ∧
  (∀ (f : SR) (s : State) (g : Fmt), ReadySlip s [opA .v f] [.x f.d.toNat] → Tagged s f [opA .v f] Fmt.isArith g →
    ∃ v : Word,
      ((∀ i < g.lanes, laneOn s.issue.cond g.lanes i = true → Num.ofElem g (laneAt g (s.srcV (opA .v f)) i) = .nan) → v = -1) ∧
      (∀ j < g.lanes, laneOn s.issue.cond g.lanes j = true → Num.ofElem g (laneAt g (s.srcV (opA .v f)) j) ≠ .nan →
        ∃ i < g.lanes, v = word i ∧ laneOn s.issue.cond g.lanes i = true ∧ Num.ofElem g (laneAt g (s.srcV (opA .v f)) i) ≠ .nan ∧
          Num.ltTotal (Num.ofElem g (laneAt g (s.srcV (opA .v f)) i)) (Num.ofElem g (laneAt g (s.srcV (opA .v f)) j)) = false ∧
          (j < i → Num.ltTotal (Num.ofElem g (laneAt g (s.srcV (opA .v f)) j)) (Num.ofElem g (laneAt g (s.srcV (opA .v f)) i)) = true)) ∧
      RunsSlip (.vargmx f) s [opA .v f] [.x f.d.toNat] fun k => k.setX f.d.toNat v) ∧
  ∀ (f : SR) (s : State) (g : Fmt), ReadySlip s [opA .v f] [.v f.d.toNat] →
    Tagged s f [opA .v f] (fun t => t.isUnscaled && decide (8 ≤ t.width)) g →
    RunsSlip (.vcmpr f) s [opA .v f] [.v f.d.toNat] fun k => k.setV f.d.toNat
      ⟨g, packLanes g.width (((List.range g.lanes).filter fun i => laneOn s.issue.cond g.lanes i).map
        fun i => g.clean (laneAt g (s.srcV (opA .v f)) i)), 0⟩

/-- R197 and R198: a sort puts the active pairs first, ordered by key, equal keys in lane order, and the inactive ones after them
in lane order; a merge of two sorted pairs of registers orders all 128, the A pair first among equal keys.  Where VMRGK's payloads
stand under a hold code is the model's choice (log entry 62). -/
def Obligations.KeySortAndMerge : Prop :=
  (∀ (f : SR) (s : State) (g h : Fmt), ReadySlip s [opA .v f, opB .v f] [.v f.d.toNat, .v (f.d.toNat + 1)] →
    (s.srcV (opA .v f)).tag = g → isKeyFmt g = true → (s.srcV (opB .v f)).tag = h → isPayload h = true →
    ∃ (idx : List Nat) (ps : List (Nat × Nat)), idx.Perm (List.range 64) ∧
      idx.Pairwise (fun a b =>
        (s.issue.cond.getLsbD a = true ∧ s.issue.cond.getLsbD b = false) ∨
        (s.issue.cond.getLsbD a = true ∧ s.issue.cond.getLsbD b = true ∧
          KeyOrder (keyBefore g (f.fn9.getLsbD 0)) (laneAt g (s.srcV (opA .v f))) a b) ∨
        (s.issue.cond.getLsbD a = false ∧ s.issue.cond.getLsbD b = false ∧ a < b)) ∧
      ps = idx.map (fun i => (laneAt g (s.srcV (opA .v f)) i, laneAt h (s.srcV (opB .v f)) i)) ∧
      RunsSlip (.vsortk f) s [opA .v f, opB .v f] [.v f.d.toNat, .v (f.d.toNat + 1)] fun k =>
        (k.setV f.d.toNat ⟨g, packLanes 32 (ps.map (·.1)), 0⟩).setV (f.d.toNat + 1) ⟨h, packLanes 32 (ps.map fun p => h.clean p.2), 0⟩) ∧
  ∀ (f : SR) (s : State) (g h : Fmt),
    ReadySlip s [opA .v f, opB .v f, opReg .v (f.a.toNat + 1), opReg .v (f.b.toNat + 1)] [.v f.d.toNat, .v (f.d.toNat + 1)] →
    s.active = true → (s.srcV (opA .v f)).tag = g → (s.srcV (opB .v f)).tag = g → isKeyFmt g = true →
    (s.issue.pre.getV (f.a.toNat + 1)).tag = h → (s.issue.pre.getV (f.b.toNat + 1)).tag = h → isPayload h = true →
    ∃ m : List (Nat × Nat),
      m = mergePairs (keyBefore g (f.fn9.getLsbD 0)) 128
        ((List.range 64).map fun i => (laneAt g (s.srcV (opA .v f)) i, laneAt h (s.issue.pre.getV (f.a.toNat + 1)) i))
        ((List.range 64).map fun i => (laneAt g (s.srcV (opB .v f)) i, laneAt h (s.issue.pre.getV (f.b.toNat + 1)) i)) ∧
      (∀ key pay : Nat → Nat,
        (∀ i < 64, key i = laneAt g (s.srcV (opA .v f)) i ∧ pay i = laneAt h (s.issue.pre.getV (f.a.toNat + 1)) i ∧
          key (64 + i) = laneAt g (s.srcV (opB .v f)) i ∧ pay (64 + i) = laneAt h (s.issue.pre.getV (f.b.toNat + 1)) i) →
        (∀ i j, i < j ∧ j < 64 ∨ 64 ≤ i ∧ i < j ∧ j < 128 → keyBefore g (f.fn9.getLsbD 0) (key j) (key i) = false) →
        ∃ idx : List Nat, idx.Perm (List.range 128) ∧ idx.Pairwise (KeyOrder (keyBefore g (f.fn9.getLsbD 0)) key) ∧
          m = idx.map fun i => (key i, pay i)) ∧
      m.length = 128 ∧
      RunsSlip (.vmrgk f) s [opA .v f, opB .v f, opReg .v (f.a.toNat + 1), opReg .v (f.b.toNat + 1)]
        [.v f.d.toNat, .v (f.d.toNat + 1)] fun k =>
        (k.setV f.d.toNat ⟨g, packLanes 32 ((if f.fn9.getLsbD 1 then m.drop 64 else m.take 64).map (·.1)), 0⟩).setV
          (f.d.toNat + 1) ⟨h, packLanes 32 ((if f.fn9.getLsbD 1 then m.drop 64 else m.take 64).map fun p => h.clean p.2), 0⟩

/-- R199 to R202: conversions by the plan of R200, tags set and read; VGTAG reads POISON without a trap. -/
def Obligations.ConversionsAndTags : Prop :=
  (∀ v, LaneConversion (.vcvt v) Fmt.inVcvt fun f s p ws =>
    cvtPlain (s.issue.pre.getV f.d.toNat) (fmtOf f) s.issue.cond p fun e =>
      Num.toElem (fmtOf f) (cvtMode f ws p.n e) (f.sat = 1) (s.srcV (opA .v f)).tag.intBits.isSome
        ((cvtSource (s.srcV (opA .v f)) p).getD e .nan)) ∧
  (∀ v, LaneConversion (.vdqnt v) (fun t => t.scale != .none) fun f s p ws =>
    cvtPlain (s.issue.pre.getV f.d.toNat) (fmtOf f) s.issue.cond p fun e =>
      Num.toElem (fmtOf f) (cvtMode f ws p.n e) (f.sat = 1) false ((cvtSource (s.srcV (opA .v f)) p).getD e .nan)) ∧
  (∀ v, LaneConversion (.vqnt v) (fun t => t == .fp32 || t == .bf16 || t == .fp16) fun f s p ws =>
    quantized (s.issue.pre.getV f.d.toNat) (fmtOf f) s.issue.cond p (cvtSource (s.srcV (opA .v f)) p) (cvtMode f ws p.n)) ∧
  (∀ (v : VSlot) (f : SR) (s : State), ReadySlip s [opA .v f] [.v f.d.toNat] → s.active = true →
    (s.srcV (opA .v f)).tag ≠ .poison →
    RunsSlip (.vtag v f) s [opA .v f] [.v f.d.toNat] fun k => k.setV f.d.toNat
      ⟨fmtOf f, (s.srcV (opA .v f)).body, trimSide (fmtOf f) (s.srcV (opA .v f)).side⟩) ∧
  ∀ (v : VSlot) (f : SR) (s : State), ReadySlip s [opA .v f] [.x f.d.toNat] → s.active = true →
    RunsSlip (.vgtag v f) s [opA .v f] [.x f.d.toNat] fun k => k.setX f.d.toNat ((s.srcV (opA .v f)).tag.code.setWidth 64)

/-- R101, R388: a tag that FMT does not name raises the format fault, whose DETAIL holds the tag found and the
format required; POISON raises poison consumption; nothing of the operation happens. -/
def Obligations.TagFaultsOfLaneOperations : Prop :=
  ∀ (v : VSlot) (f : SR) (s : State) (g q : Fmt) (mk : VSlot → SR → Instr),
    mk ∈ [Instr.vadd, .vsub, .vmul, .vmin, .vmax, .vand, .vor, .vxor, .vshl, .vshr, .vsar] →
    ReadySlip s [opA .v f, opB .v f] [.v f.d.toNat] → (s.srcV (opA .v f)).tag = g →
    (g ≠ .poison → Fmt.ofCode f.fmt = some q → q ≠ .raw → g ≠ q →
      exec (mk v f) s = .next (s.raise 0x0C 0 (BitVec.ofNat 32 (g.code.toNat + 256 * q.code.toNat)))) ∧
    (g = .poison → exec (mk v f) s = .next (s.raise 0x10 0))

/-- R208, R209, R132: a multiply of two tiles adds rows of A times rows of B; R134: for INT8 an element grows by the dot
product of 192 pairs, modulo 2^32. -/
def Obligations.MultipliesOfTwoTiles : Prop :=
  (∀ (mk : MX → Instr), mk ∈ [Instr.mma, .mmam] → ∀ (f : MX) (s : State) (na nb : Nat) (c : MClass) (acc : Acc),
     f.bm = 0 → f.kv ≠ 3 → ReadyM s [(tA f, na), (tB f, nb)] [] [] [.a f.acc.toNat] →
     (s.tileIn na).tag ≠ .poison → (s.tileIn nb).tag ≠ .poison → pairClass (s.tileIn na).tag (s.tileIn nb).tag = some c →
     AddsInto s c f.acc.toNat (f.za = 1) (residueCharge (s.tileIn na).tag) acc →
     RunsM (mk f) s [(tA f, na), (tB f, nb)] [] [] [.a f.acc.toNat] fun k =>
       k.setA f.acc.toNat (accumulate c (s.tileIn na).tag (s.tileIn nb).tag (rowsOf f.hr) (s.tileIn na) (s.tileIn nb) acc)) ∧
  ∀ (f : MX) (s : State) (na nb : Nat) (acc : Acc),
    f.bm = 0 → f.kv ≠ 3 → ReadyM s [(tA f, na), (tB f, nb)] [] [] [.a f.acc.toNat] →
    (s.tileIn na).tag = .int8 → (s.tileIn nb).tag = .int8 → AddsInto s .integer f.acc.toNat (f.za = 1) 0 acc →
    ∃ r : Acc, r.tag = .acc32i ∧
      (∀ i < rowsOf f.hr, i < 128 → ∀ j < 128, (accElem (r.row i) j : Int) =
        ((accElem (acc.row i) j : Int) + ((List.range 192).map fun k =>
          (BitVec.ofNat 8 (rowElem .int8 ((s.tileIn na).row i) k)).toInt * (BitVec.ofNat 8 (rowElem .int8 ((s.tileIn nb).row j) k)).toInt).sum) % 2 ^ 32) ∧
      (∀ i < 128, rowsOf f.hr ≤ i → r.row i = acc.row i) ∧
      RunsM (.mma f) s [(tA f, na), (tB f, nb)] [] [] [.a f.acc.toNat] fun k => k.setA f.acc.toNat r

/-- R207, R209, R223: a multiply with an operand image is checked as its bundle issues, and its rows are read as it leaves its
queue, or stand in the queue where its own bundle has written the image since; MMAM joins the merge buffer then, where it may,
and runs alone otherwise; an image that can not be read leaves the accumulator POISON. -/
def Obligations.MultiplyWithAnImage : Prop :=
  ∀ (f : MX) (s : State) (na : Nat) (g : Fmt) (c : MClass) (acc : Acc),
    f.bm = 1 → f.kv ≠ 3 → ReadyM s [(tA f, na)] [] [opReg .x f.b.toNat] [.a f.acc.toNat] →
    (s.tileIn na).tag ≠ .poison → pairClass (s.tileIn na).tag g = some c →
    AddsInto s c f.acc.toNat (f.za = 1) (residueCharge (s.tileIn na).tag) acc →
    (∀ mk ∈ [Instr.mma, .mmam], ∀ t1, s.issue.late = none →
      (latchedM s [(tA f, na)] [opReg .x f.b.toNat]).image (s.imageVA f) = .ok (g, t1) →
      exec (mk f) s = .next ((t1.putA f.acc.toNat acc).enqueueLate (latchedM s [(tA f, na)] [opReg .x f.b.toNat])
        (regsOf [(tA f).opd na, opReg .x f.b.toNat]) [.a f.acc.toNat])) ∧
    ∀ ks t, s.issue.late.isSome = true → s.issue.need.img = some (g, ks) → t = latchedM s [(tA f, na)] [opReg .x f.b.toNat] →
      (∀ bs, s.issue.need.rows = some (bs, false) → exec (.mma f) s = .next (t.putA f.acc.toNat
        (accumulate c (s.tileIn na).tag g (rowsOf f.hr) (s.tileIn na) (imageTile g bs) acc))) ∧
      (∀ parts t1, s.issue.need.rows = none → t.resolve t.me {} (pieces (s.imageVA f) imageLen) = (.ok parts, t1) → imageDataMarked t1 parts = false →
        exec (.mma f) s = .next ((t1.afterRead parts).putA f.acc.toNat
          (accumulate c (s.tileIn na).tag g (rowsOf f.hr) (s.tileIn na) (imageTile g (imageData t1 parts)) acc))) ∧
      (∀ x t1, s.issue.need.rows = none → t.resolve t.me {} (pieces (s.imageVA f) imageLen) = (.error x, t1) →
        exec (.mma f) s = .next (t1.lateImage f.acc.toNat (s.imageVA f) x.cause x.detail)) ∧
      (t.mergeable s.issue.core f = false ∨ t.joinBuffer f (s.tileIn na) g ks (s.imageVA f) acc.bound = none →
        exec (.mmam f) s = exec (.mma f) s) ∧
      ∀ t2, s.issue.need.rows = none → t.mergeable s.issue.core f = true → t.joinBuffer f (s.tileIn na) g ks (s.imageVA f) acc.bound = some t2 →
        exec (.mmam f) s = .next t2

/-- R210, R221, R222: absorb multiplies absorbed query rows with a LAT8 tile; expander slots are loaded and invalidated;
MWAIT releases the context's stacks and waits in the queue. -/
def Obligations.AbsorbAndExpanderSlots : Prop :=
  (∀ (mk : MX → Instr), mk ∈ [Instr.mmaAbs, .mmam] →
   ∀ (f : MX) (s t1 : State) (na nb : Nat) (w : ExpSlot) (acc : Acc),
     f.kv = 3 → ReadyM s [(tA f, na), (tB f, nb)] [] [] [.a f.acc.toNat] →
     (s.tileIn na).tag ∈ [Fmt.e4m3, .e4m3row] → (s.tileIn nb).tag = .lat8 →
     (latchedM s [(tA f, na), (tB f, nb)] []).projection f.xs.toNat (s.tileIn na).tag = .ok (w, t1) → w.bad = false →
     AddsInto s .float f.acc.toNat (f.za = 1) 0 acc →
     exec (mk f) s = .next (afterM s ((t1.needs fun q => { q with xs := some f.xs.toNat }).putA f.acc.toNat
       (accumulate .float .e4m3b32 .lat8 (rowsOf f.hr)
         (tileOfRows .e4m3b32 ((List.range (rowsOf f.hr)).map fun i =>
           absorbedRow w.bytes (s.tileIn na).tag f.kb.toNat ((s.tileIn na).row i))) (s.tileIn nb) acc))
       [(tA f, na), (tB f, nb)] [] [.a f.acc.toNat])) ∧
  (∀ (f : MX) (s t1 : State), ReadyM s [] [] [opReg .x f.b.toNat] [] →
    (latchedM s [] [opReg .x f.b.toNat]).loadExpander f.xs.toNat (s.imageVA f) = .ok t1 →
    exec (.lxld f) s = .next (afterM s (t1.modCur fun k => { k with exp := k.exp.set .none f.xs.toNat ⟨true, s.imageVA f⟩ })
      [] [opReg .x f.b.toNat] [])) ∧
  (∀ (f : MX) (s : State), ReadyM s [] [] [] [] → ∃ t, exec (.lxinv f) s = .next t ∧
    t.cur.exp.get .none f.xs.toNat = { s.issue.pre.exp.get .none f.xs.toNat with valid := false } ∧
    (t.core s.issue.core).exp.get .none f.xs.toNat =
      (let slot := (s.core s.issue.core).exp.get .none f.xs.toNat
       if slot.valid ∧ slot.asid = s.issue.pre.asid ∧ slot.va = (s.issue.pre.exp.get .none f.xs.toNat).va
       then { slot with valid := false } else slot) ∧
    t.mem = s.mem) ∧
  ∀ s : State, s.active = true → s.issue.unsure = false → exec .mwait s = .next ((s.releaseStacksOf s.issue.core s.issue.bank).enqueue [] [] true)

/-- R213 to R215: transpose, permutation and row sums; element c of row r of the transpose is element r of row c of the
window.  That TPRM takes a tile with tag RAW as 32-bit elements is the model's choice (log entry 64). -/
def Obligations.TileTransformsAndRowSums : Prop :=
  ((∀ (f : MX) (s : State) (n d : Nat), ReadyM s [(tA f, n)] [(f.b, d)] [] [] → inTtrn (s.tileIn n).tag = true →
     ((s.tileIn n).tag.width = 8 → f.cm.toNat ≤ 2) →
     RunsM (.ttrn f) s [(tA f, n)] [(f.b, d)] [] [] fun k => k.setT d (transpose (s.tileIn n) (32 * f.cm.toNat))) ∧
   (∀ (f : MX) (s : State) (n d : Nat), ReadyM s [(tA f, n)] [(f.b, d)] [] [] →
     (s.tileIn n).tag.isUnscaled = true → 8 ≤ (s.tileIn n).tag.width →
     RunsM (.tprm f) s [(tA f, n)] [(f.b, d)] [] [] fun k => k.setT d (permuted (s.tileIn n) f.cm.toNat)) ∧
   ∀ (f : MX) (s : State) (n : Nat) (c : MClass) (acc : Acc), ReadyM s [(tA f, n)] [] [] [.a f.acc.toNat] →
     (s.tileIn n).tag ≠ .poison → pairClass (s.tileIn n).tag (s.tileIn n).tag = some c →
     AddsInto s c f.acc.toNat (f.za = 1) (if (s.tileIn n).tag = .res8 then 24576 else 3072) acc →
     RunsM (.tred f) s [(tA f, n)] [] [] [.a f.acc.toNat] fun k =>
       k.setA f.acc.toNat (rowSums c (s.tileIn n).tag (rowsOf f.hr) f.cm.toNat (s.tileIn n) acc)) ∧
  ∀ (t : Tile) (c0 r i : Nat), t.tag ∈ [Fmt.int8, .e4m3, .uint8, .res8, .int4, .uint4, .e2m1] → r < 128 → i < 128 →
    rowElem t.tag ((transpose t c0).row r) i = rowElem t.tag (t.row i) (c0 + r) ∧ (transpose t c0).tag = t.tag

/-- R216 to R220: tags and zeros, sums, folds, rows in and out, row scales on accumulators. -/
def Obligations.AccumulatorAndTileOperations : Prop :=
  ((∀ (f : MX) (s : State), ReadyM s [] [] [] [.a f.acc.toNat] →
     RunsM (.azero f) s [] [] [] [.a f.acc.toNat] fun k => k.setA f.acc.toNat ⟨mxFmt f, 0, []⟩) ∧
   (∀ (f : MX) (s : State) (d : Nat), ReadyM s [] [(f.a, d)] [] [] →
     RunsM (.tzero f) s [] [(f.a, d)] [] [] fun k => k.setT d ⟨mxFmt f, []⟩) ∧
   (∀ (f : MX) (s : State) (d : Nat), ReadyM s [(⟨0, f.a, 0⟩, d)] [(f.a, d)] [] [] → (s.tileIn d).tag ≠ .poison →
     RunsM (.ttag f) s [(⟨0, f.a, 0⟩, d)] [(f.a, d)] [] [] fun k =>
       k.setT d (tileOfRows (mxFmt f) ((List.range 128).map fun r => trimRow (mxFmt f) ((s.tileIn d).row r)))) ∧
   (∀ (f : MX) (s : State) (src dst : Acc), src = s.issue.pre.getA (f.a.toNat % 8) → dst = s.issue.pre.getA f.acc.toNat →
     ReadyM s [] [] [opReg .a (f.a.toNat % 8)] [.a f.acc.toNat] → dst.tag ≠ .poison → src.tag = dst.tag →
     (dst.tag = .resa → dst.bound + src.bound ≤ residueLimit) →
     RunsM (.aadd f) s [] [] [opReg .a (f.a.toNat % 8)] [.a f.acc.toNat] fun k => k.setA f.acc.toNat
       (({ dst with bound := if dst.tag = .resa then dst.bound + src.bound else dst.bound } : Acc).mapRows (rowsOf f.hr)
         fun i j e => addAcc dst.tag e (accElem (src.row i) j))) ∧
   (∀ (f : MX) (s : State), ReadyM s [] [] [] [.a f.acc.toNat, .a (f.a.toNat % 8)] →
     (s.issue.pre.getA (f.a.toNat % 8)).tag = .resa →
     (f.a.toNat % 8 = f.acc.toNat → RunsM (.afold f) s [] [] [] [.a f.acc.toNat, .a (f.a.toNat % 8)] fun k =>
       k.setA f.acc.toNat (foldAcc (s.issue.pre.getA (f.a.toNat % 8)))) ∧
     (∀ dst : Acc, f.a.toNat % 8 ≠ f.acc.toNat →
       (f.za = 1 ∧ dst = ⟨.acc32i, 0, []⟩ ∨ f.za = 0 ∧ dst = s.issue.pre.getA f.acc.toNat ∧ dst.tag = .acc32i) →
       RunsM (.afold f) s [] [] [] [.a f.acc.toNat, .a (f.a.toNat % 8)] fun k =>
         (k.setA f.acc.toNat (dst.mapRows 128 fun i j e =>
           Num.bitsOfInt 32 (e + resFold (accElem ((s.issue.pre.getA (f.a.toNat % 8)).row i) j)))).setA (f.a.toNat % 8) ⟨.resa, 0, []⟩)) ∧
   (∀ (f : MX) (s : State) (n d : Nat), ReadyM s [(tA f, n)] [(f.b, d)] [] [] →
     RunsM (.tmov f) s [(tA f, n)] [(f.b, d)] [] [] fun k => k.setT d (s.tileIn n)) ∧
   (∀ (f : MX) (s : State) (n : Nat) (row : BitVec 1728), ReadyM s [(tA f, n)] [] [] [.v f.b.toNat] →
     (s.tileIn n).tag ≠ .poison → (s.tileIn n).tag ≠ .int2 → row = (s.tileIn n).row (f.disp.toNat % 128) →
     RunsM (.trow f) s [(tA f, n)] [] [] [.v f.b.toNat] fun k =>
       k.setV f.b.toNat ⟨(s.tileIn n).tag, (row.extractLsb' 0 1536).setWidth 2048, (row.extractLsb' 1536 192).setWidth 256⟩) ∧
   (∀ (f : MX) (s : State) (n : Nat) (v : VReg), ReadyM s [(⟨0, f.a, 0⟩, n)] [(f.a, n)] [opReg .v f.b.toNat] [] →
     v = s.issue.pre.getV f.b.toNat → v.tag ≠ .poison → v.tag = (s.tileIn n).tag →
     RunsM (.twrow f) s [(⟨0, f.a, 0⟩, n)] [(f.a, n)] [opReg .v f.b.toNat] [] fun k => k.setT n
       ⟨v.tag, (s.tileIn n).rows.set 0 (f.disp.toNat % 128) (v.side.extractLsb' 0 192 ++ v.body.extractLsb' 0 1536)⟩) ∧
   (∀ (f : MX) (s : State) (acc : Acc), ReadyM s [] [] [opReg .a f.acc.toNat] [.v f.b.toNat] →
     acc = s.issue.pre.getA f.acc.toNat → acc.tag ≠ .poison →
     ∃ r : VReg, r.tag = accLaneFmt acc.tag ∧ r.side = 0 ∧
       (∀ j < 64, laneAt .fp32 r j = accElem (acc.row (f.disp.toNat % 128)) (64 * (f.disp.toNat / 128 % 2) + j)) ∧
       RunsM (.arow f) s [] [] [opReg .a f.acc.toNat] [.v f.b.toNat] fun k => k.setV f.b.toNat r) ∧
   ∀ (f : MX) (s : State) (acc : Acc) (v : VReg), ReadyM s [] [] [opReg .v f.b.toNat] [.a f.acc.toNat] →
     acc = s.issue.pre.getA f.acc.toNat → acc.tag ≠ .poison → v = s.issue.pre.getV f.b.toNat → v.tag ≠ .poison →
     v.tag = accLaneFmt acc.tag →
     ∃ r : Acc, r.tag = acc.tag ∧ r.bound = (if acc.tag = .resa then residueLimit else acc.bound) ∧
       (∀ i j, j < 128 → accElem (r.row i) j =
         if i = f.disp.toNat % 128 ∧ j / 64 = f.disp.toNat / 128 % 2 then
           (if acc.tag = .resa then laneAt .fp32 v (j % 64) % 2 ^ 24 else laneAt .fp32 v (j % 64))
         else accElem (acc.row i) j) ∧
       RunsM (.awrow f) s [] [] [opReg .v f.b.toNat] [.a f.acc.toNat] fun k => k.setA f.acc.toNat r) ∧
  ∀ (f : MX) (s : State) (mk : MX → Instr) (h : Nat) (na : Nat) (acc : Acc) (res : Tile → Acc),
    acc = s.issue.pre.getA f.acc.toNat →
    ((mk = Instr.ascl ∧ h = rowsOf f.hr ∧ acc.tag = .acc32f) ∨ (mk = Instr.acvt ∧ h = 128 ∧ (acc.tag = .acc32f ∨ acc.tag = .acc32i))) →
    (s.tileIn na).tag.inMatrix = true →
    (∀ tb, res tb = { acc.mapRows h fun i j e => scaled (acc.tag = .acc32i) (rowScale (s.tileIn na).tag ((s.tileIn na).row i))
      (rowScale tb.tag (tb.row j)) e with tag := .acc32f }) →
    (∀ nb, f.bm = 0 → ReadyM s [(tA f, na), (tB f, nb)] [] [] [.a f.acc.toNat] → (s.tileIn nb).tag.inMatrix = true →
      RunsM (mk f) s [(tA f, na), (tB f, nb)] [] [] [.a f.acc.toNat] fun k => k.setA f.acc.toNat (res (s.tileIn nb))) ∧
    ∀ g t, f.bm = 1 → ReadyM s [(tA f, na)] [] [opReg .x f.b.toNat] [.a f.acc.toNat] →
      t = latchedM s [(tA f, na)] [opReg .x f.b.toNat] →
      (∀ t1, s.issue.late = none → t.image (s.imageVA f) = .ok (g, t1) →
        exec (mk f) s = .next ((t1.putA f.acc.toNat { acc with tag := .acc32f }).enqueueLate t
          (regsOf [(tA f).opd na, opReg .x f.b.toNat]) [.a f.acc.toNat])) ∧
      ∀ ks parts t1, s.issue.late.isSome = true → s.issue.need.img = some (g, ks) → s.issue.need.rows = none →
        t.resolve t.me {} (pieces (s.imageVA f) imageLen) = (.ok parts, t1) → imageDataMarked t1 parts = false →
        exec (mk f) s = .next ((t1.afterRead parts).putA f.acc.toNat (res (imageTile g (imageData t1 parts))))

/-- R261, R275: scalar loads and stores of one to sixteen bytes, with every order, and LZERO. -/
def Obligations.ScalarLoadsAndStores : Prop :=
  (ScalarLoad .ldb 1 true ∧ ScalarLoad .ldbu 1 false ∧ ScalarLoad .ldh 2 true ∧ ScalarLoad .ldhu 2 false ∧
   ScalarLoad .ldw 4 true ∧ ScalarLoad .ldwu 4 false ∧ ScalarLoad .ldd 8 true ∧
   ∀ (f : MEM) (s t : State) (parts : List (Nat × Nat)), Ready s [baseOf f, idxOf f] [.x f.d.toNat, .x (f.d.toNat + 1)] →
     s.issue.pre.loadsOut < 64 → (f.ord = 0 ∨ (s.ea f).toNat % 16 = 0) → s.resolveIn {} (pieces (s.ea f) 16) = (.ok parts, t) →
     t.readWaits parts = false →
     exec (.ldq f) s = .next ((t.modCur fun k =>
       ((k.landX f.d.toNat (word (ofLeBytes ((t.bytesRead parts).take 8))) (t.badRead parts) k.token).landX (f.d.toNat + 1)
         (word (ofLeBytes ((t.bytesRead parts).drop 8))) (t.badRead parts) k.token).useToken).afterRead parts)) ∧
  ScalarStore .stb 1 ∧ ScalarStore .sth 2 ∧ ScalarStore .stw 4 ∧ ScalarStore .std 8 ∧
  (∀ (f : MEM) (s t : State) (parts : List (Nat × Nat)),
    Ready s [baseOf f, idxOf f, opReg .x f.d.toNat, opReg .x (f.d.toNat + 1)] [] → (f.ord = 0 ∨ (s.ea f).toNat % 16 = 0) →
    s.resolveIn { write := true } (pieces (s.ea f) 16) = (.ok parts, t) →
    exec (.stq f) s = .next (t.commitStore f (cutData parts
      (leBytes 8 (s.issue.pre.getX f.d.toNat).toNat ++ leBytes 8 (s.issue.pre.getX (f.d.toNat + 1)).toNat))
      (if misaligned (s.ea f) 16 then 1 else 0))) ∧
  ∀ (f : MEM) (s t : State) (parts : List (Nat × Nat)), Ready s [baseOf f, idxOf f] [] → (s.ea f).toNat % 128 = 0 →
    s.resolveIn { write := true } (pieces (s.ea f) 128) = (.ok parts, t) →
    exec (.lzero f) s = .next (t.commitStore plainMem (cutData parts (List.replicate 128 0)))

/-- R231, R261, R342: a load from the core's own LDM window reads its bytes, lowest address least significant; a store
writes exactly its bytes, when its bundle issues. -/
def Obligations.OwnLdmLoadsAndStores : Prop :=
  (∀ (f : MEM) (s : State) (off : Nat), Ready s [baseOf f, idxOf f] [.x f.d.toNat] → s.issue.pre.loadsOut < 64 →
     f.ord ≠ 4 → (f.ord = 0 ∨ off % 8 = 0) → s.issue.core < 256 → s.offline s.issue.core = false → s.issue.pre.stores = [] →
     s.reductionsOut s.issue.core s.issue.bank = false →
     s.ea f = word (0xFF * 2 ^ 48 + off) → off + 8 ≤ 2 ^ 21 → off % 16384 + 8 ≤ 16384 →
     ∃ t, exec (.ldd f) s = .next t ∧ t.mem = s.mem ∧
       (t.cur.getX f.d.toNat).toNat = (if f.d = 0 then 0 else
         ((List.range 8).map fun i => (s.issue.mem0.get 0 (ldmKey s.issue.core (off + i))).toNat * 256 ^ i).sum) ∧
       ∀ m, m ≠ f.d.toNat → t.cur.getX m = s.cur.getX m) ∧
  ∀ (f : MEM) (s : State) (off w : Nat) (mk : MEM → Instr),
    (mk, w) ∈ [(Instr.stb, 1), (.sth, 2), (.stw, 4), (.std, 8)] →
    Ready s [baseOf f, idxOf f, opReg .x f.d.toNat] [] → f.ord ≠ 4 → f.ord ≠ 2 → off % w = 0 → s.issue.core < 256 →
    s.offline s.issue.core = false →
    s.ldmNow 0 [(ldmKey s.issue.core off, leBytes w (s.issue.pre.getX f.d.toNat).toNat)] = true →
    s.ea f = word (0xFF * 2 ^ 48 + off) → off + w ≤ 2 ^ 21 → off % 16384 + w ≤ 16384 →
    ∃ t, exec (mk f) s = .next t ∧ t.cur = s.cur ∧
      ∀ a, Sparse.get 0 t.mem a =
        if ldmKey s.issue.core off ≤ a ∧ a < ldmKey s.issue.core off + w
        then BitVec.ofNat 8 ((s.issue.pre.getX f.d.toNat).toNat / 256 ^ (a - ldmKey s.issue.core off))
        else Sparse.get 0 s.mem a

/-- R437: a store outside the own LDM and the registers joins the context's committed stores, memory as before; R340,
R343: they perform in order. -/
def Obligations.CommittedStoresWaitAndPerformInOrder : Prop :=
  (∀ (f : MEM) (t : State) (data : List (Nat × List Byte)) (unit : Nat), data ≠ [] →
     (∀ p ∈ data, isReg p.1 = false ∧
       (isLdmOf t.issue.core p.1 = true → t.ldmNow unit (data.filter fun p => isLdmOf t.issue.core p.1) = false)) →
     (t.commitStore f data unit).cur =
       { t.cur with stores := t.cur.stores ++ [⟨t.fabric.nextItem, data, false, f.ord = 2, f.scope.toNat, unit, none⟩] } ∧
     (t.commitStore f data unit).mem = t.mem) ∧
  ∀ (s : State) (c b a : Nat), (∀ st ∈ (s.ctx c b).stores, ∀ p ∈ st.parts, s.deadLdm p.1 = false) →
    Sparse.get 0 (s.flush c b).mem a = Sparse.get 0 (overlay s.mem (s.ctx c b).stores) a ∧ ((s.flush c b).ctx c b).stores = []

/-- R262 to R265: vector loads, the gather, vector stores, the scatter and the predicated store. -/
def Obligations.VectorLoadsAndStores : Prop :=
  ((∀ (f : MEM) (s t : State) (parts : List (Nat × Nat)), Ready s [baseOf f] [.v f.d.toNat] → s.issue.pre.loadsOut < 64 →
     (s.baseDisp f).toNat % 8 = 0 → s.resolveIn {} (pieces (s.baseDisp f) (imageBytes (fmt6 f))) = (.ok parts, t) →
     t.readWaits parts = false →
     exec (.vld f) s = .next ((t.modCur fun k => k.landV f.d.toNat
       ⟨fmt6 f, cleanBody (fmt6 f) (BitVec.ofNat 2048 (ofLeBytes ((t.bytesRead parts).take 256))), BitVec.ofNat 256 (ofLeBytes ((t.bytesRead parts).drop 256))⟩
       (t.badRead parts)).afterRead parts)) ∧
   (∀ (f : MEM) (s t : State) (parts : List (Nat × Nat)) (vas : List Word),
     vas = stridden (s.issue.pre.getX f.base.toNat) (f.disp.signExtend 64) (fmt6 f).lanes →
     Ready s [baseOf f] [.v f.d.toNat] → s.issue.pre.loadsOut < 64 → (∀ va ∈ vas, va.toNat % ((fmt6 f).width / 8) = 0) →
     s.resolveIn {} (vas.map fun va => (va, (fmt6 f).width / 8)) = (.ok parts, t) → t.readWaits parts = false →
     exec (.vlds f) s = .next ((t.modCur fun k => k.landV f.d.toNat
       ⟨fmt6 f, packLanes (fmt6 f).width ((chunked ((fmt6 f).width / 8) (t.bytesRead parts)).map (fmt6 f).clean), 0⟩ (t.badRead parts)).afterRead parts)) ∧
   ∀ (f : SR) (s t : State) (parts : List (Nat × Nat)), Ready s (gatherReads f) [.v f.d.toNat] → s.issue.pre.loadsOut < 64 →
     GatherOk s f → (s.latchAll (gatherReads f)).resolveIn {} ((s.lanesAt f).map fun l => (l.2.2, 4)) = (.ok parts, t) →
     t.readWaits parts = false →
     exec (.vgth f) s = .next ((t.modCur fun k => k.landV f.d.toNat
       ((s.issue.pre.getV f.d.toNat).merge (fmtOf f) (s.srcP (maskOf f)) ((List.range 64).map fun i =>
         (((((s.lanesAt f).map (·.1)).zip (chunked 4 (t.bytesRead parts))).find? fun p => p.1 = i).map (·.2)).getD 0))
       (t.badRead parts)).afterRead parts)) ∧
  (∀ (f : MEM) (s t : State) (parts : List (Nat × Nat)) (r : VReg), r = s.issue.pre.getV f.d.toNat →
    Ready s [baseOf f, idxOf f, opReg .v f.d.toNat] [] → (s.ea f).toNat % 8 = 0 →
    s.resolveIn { write := true } (pieces (s.ea f) (imageBytes r.tag)) = (.ok parts, t) → r.tag ≠ .poison →
    exec (.vst f) s = .next (t.commitStore f (cutData parts
      (leBytes 256 r.body.toNat ++ leBytes (r.tag.sidecarUsed r.tag.lanes) r.side.toNat)))) ∧
  (∀ (f : MEM) (s t : State) (parts : List (Nat × Nat)) (r : VReg) (vas : List Word), r = s.issue.pre.getV f.d.toNat →
    vas = stridden (s.issue.pre.getX f.base.toNat) (f.disp.signExtend 64) r.tag.lanes →
    Ready s [baseOf f, opReg .v f.d.toNat] [] → r.tag ≠ .poison → r.tag.inStrided = true →
    (∀ va ∈ vas, va.toNat % (r.tag.width / 8) = 0) →
    s.resolveIn { write := true } (vas.map fun va => (va, r.tag.width / 8)) = (.ok parts, t) →
    exec (.vsts f) s = .next (t.commitStore plainMem (cutData parts
      ((List.range r.tag.lanes).flatMap fun i => leBytes (r.tag.width / 8) (laneAt r.tag r i))) (r.tag.width / 8))) ∧
  (∀ (f : SR) (s t : State) (parts : List (Nat × Nat)) (r : VReg), r = s.issue.pre.getV f.d.toNat →
    Ready s (gatherReads f) [] → GatherOk s f →
    (s.latchAll (gatherReads f)).resolveIn { write := true } ((s.lanesAt f).map fun l => (l.2.2, 4)) = (.ok parts, t) →
    r.tag ≠ .poison → (if f.fmt = 0 then r.tag.inGather = true else r.tag = fmtOf f) →
    exec (.vsct f) s = .next (t.commitStore plainMem (cutData parts
      ((s.lanesAt f).flatMap fun l => leBytes 4 ((lanesOf 32 r.body).getD l.1 0))) 4)) ∧
  ∀ (f : MEM) (s t : State) (parts : List (Nat × Nat)) (r : VReg) (on : List Nat), r = s.issue.pre.getV f.d.toNat →
    on = (List.range 64).filter (fun i => (s.issue.pre.getP f.idx.toNat).getLsbD i) →
    Ready s [baseOf f, opReg .p f.idx.toNat, opReg .v f.d.toNat] [] → (s.baseDisp f).toNat % 8 = 0 →
    s.resolveIn { write := true } (on.map fun i => (s.baseDisp f + word (4 * i), 4)) = (.ok parts, t) →
    r.tag.isUnscaled = true →
    exec (.pst f) s = .next (t.commitStore plainMem (cutData parts (on.flatMap fun i => leBytes 4 (r.body.toNat / 2 ^ (32 * i)))))

/-- R266 to R269: tile loads into tiles and rings, tile stores, KV gathers and appends. -/
def Obligations.TileAndKvAccesses : Prop :=
  (∀ (f : SR) (s t : State) (parts : List (Nat × Nat)) (n : Nat) (ring : Option Nat) (vas : List Word),
    vas = stridden (s.srcX (opA .x f)) (s.srcX (opB .x f)) (rowCount f) → s.tileDest f.d = some (n, ring) →
    Ready s [opA .x f, opB .x f] [.t n] → s.issue.pre.loadsOut < 64 → (∀ va ∈ vas, va.toNat % 8 = 0) →
    (s.latchAll [opA .x f, opB .x f]).resolveIn {} (runs (vas.map fun va => (va, tldRowBytes (fmtOf f)))) = (.ok parts, t) →
    t.readWaits parts = false →
    exec (.tld f) s = .next ((t.modCur fun k => k.landT n ring (tileOfRows (fmtOf f)
      ((runsOf (tldRowBytes (fmtOf f)) 128 (t.bytesRead parts)).map fun bs => cleanRow (fmtOf f) (trimRow (fmtOf f) (rowOfBytes bs))))
      (t.badRead parts)).afterRead parts)) ∧
  (∀ (f : SR) (s : State) (n : Nat) (ring : Option Nat), s.tileDest f.d = some (n, ring) →
    Ready s [opA .x f, opB .x f] [.t n] → s.issue.pre.loadsOut < 64 →
    exec (.tldkLat8 f) s = .next ((s.latchAll [opA .x f, opB .x f]).kvGather (s.kvRows f) [(192 * (f.c.toNat / 8), 192), (960, 4)]
      fun recs bad t => t.modCur fun k => k.landT n ring (tileOfRows .lat8 ((List.range 128).map fun i =>
        ((recs.find? fun r => r.1 = i).map fun r => rowOfBytes r.2).getD 0)) bad)) ∧
  (∀ (f : SR) (s : State) (n : Nat) (ring : Option Nat) (value : Bool), value = f.c.getLsbD 2 → s.tileDest f.d = some (n, ring) →
    Ready s [opA .x f, opB .x f] [.t n] → s.issue.pre.loadsOut < 64 →
    ∃ body : List (Nat × List Byte) → Bool → State → State,
      (∀ recs bad t w t1, t.projection (f.c.toNat % 4) .e4m3row = .ok (w, t1) →
        body recs bad t = t1.modCur fun k => k.landT n ring (tileOfRows .e4m3row ((List.range 128).map fun i =>
          ((recs.find? fun r => r.1 = i).map fun r =>
            expandedRow w.bytes value (r.2.take 896) ((r.2.drop 896).take 4) (r.2.drop 900)).getD 0)) (bad || w.bad) (some (f.c.toNat % 4))) ∧
      exec (.tldkExpand f) s = .next ((s.latchAll [opA .x f, opB .x f]).kvGather (s.kvRows f)
        (if value then [(0, 896), (960, 4)] else [(0, 896), (960, 4), (896, 64)]) body)) ∧
  (∀ (f : MEM) (s t : State) (parts : List (Nat × Nat)) (n : Nat), s.issue.pre.tileField f.d = some (n, true) →
    Ready s [baseOf f, idxOf f, opReg .t n] [] → (s.ea f).toNat % 64 = 0 →
    s.resolveIn { write := true } (pieces (s.ea f) imageLen) = (.ok parts, t) → (s.tileIn n).tag ≠ .poison →
    exec (.tst f) s = .next (t.commitStore f (cutData parts (s.tileIn n).image))) ∧
  ∀ (f : SR) (s t1 t2 : State) (rows : List KvRow) (parts : List (Nat × Nat)) (n : Nat) (field : Nat × Nat),
    s.issue.pre.tileField f.d = some (n, true) →
    Ready s [opA .x f, opB .x f, opReg .t n] [] →
    field = (if f.c.toNat / 8 = 5 then (960, 64) else (192 * (f.c.toNat / 8), 192)) →
    (s.latchAll [opA .x f, opB .x f, opReg .t n]).kvEntries 6 (s.kvRows f) [] = .ok (rows, t1) →
    t1.resolveIn { kv := true, write := true } (kvRuns rows [field]) = (.ok parts, t2) →
    (s.tileIn n).tag = (if f.c.toNat / 8 = 5 then .raw else .lat8) → (∀ r ∈ rows, r.bad = false) →
    exec (.tstk f) s = .next (t2.commitStore plainMem (cutData parts
      (rows.flatMap fun r => leBytes field.2 ((s.tileIn n).row r.row).toNat)))

/-- R272: the returning atomics, one new value each, a compare that fails writes nothing; R274: the non-returning
reductions set out. -/
def Obligations.AtomicsAndReductions : Prop :=
  (ReturningAtomic .amadd 0x18 (fun w m v _ => some ((m + v) % 2 ^ (8 * w))) ∧
   ReturningAtomic .amswp 0x19 (fun _ _ v _ => some v) ∧
   ReturningAtomic .amcas 0x1A (fun _ m v c => if m = c then some v else none) ∧
   ReturningAtomic .amcas16 0x1B (fun _ m v c => if m = c then some v else none) ∧
   ReturningAtomic .ammin 0x1C (fun w m v _ =>
     some (if (BitVec.ofNat (8 * w) v).toInt < (BitVec.ofNat (8 * w) m).toInt then v else m)) ∧
   ReturningAtomic .ammax 0x1D (fun w m v _ =>
     some (if (BitVec.ofNat (8 * w) m).toInt < (BitVec.ofNat (8 * w) v).toInt then v else m)) ∧
   ReturningAtomic .amminu 0x1E (fun _ m v _ => some (min m v)) ∧
   ReturningAtomic .ammaxu 0x1F (fun _ m v _ => some (max m v)) ∧
   ReturningAtomic .amand 0x20 (fun _ m v _ => some (m &&& v)) ∧
   ReturningAtomic .amor 0x21 (fun _ m v _ => some (m ||| v)) ∧
   ReturningAtomic .amxor 0x22 (fun _ m v _ => some (m ^^^ v)) ∧
   ReturningAtomic .amfadd 0x23 (fun _ m v _ => some (Num.toF32 .rne (Sys2Proof.Num.add .rne (Num.ofF32 m) (Num.ofF32 v))))) ∧
  Reduces .rdadd 0x10 ∧ Reduces .rdmin 0x11 ∧ Reduces .rdmax 0x12 ∧ Reduces .rdand 0x13 ∧ Reduces .rdor 0x14 ∧
  Reduces .rdxor 0x15 ∧ Reduces .rdfadd 0x16

/-- R246, R270: load-blocks and prefetches complete, with the traps of LDBLK; R271, R275: the line operations. -/
def Obligations.BlocksPrefetchesAndLines : Prop :=
  ((∀ (f : MEM) (s t : State) (i : Nat) (parts : List (Nat × Nat)), Ready s [baseOf f] [.x f.d.toNat] →
     (s.baseDisp f).toNat % 128 = 0 → i < 4 → (∀ j < i, (s.issue.pre.blocks.get .none j).used = true) →
     (s.issue.pre.blocks.get .none i).used = false →
     (s.core s.issue.core).blockAt s.issue.pre.asid (s.baseDisp f) (f.idx.toNat + 1) = false →
     s.resolveIn { line := true } (pieces (s.baseDisp f) (128 * (f.idx.toNat + 1))) = (.ok parts, t) →
     t.readWaits parts = false → (t.core t.issue.core).inBlock parts = false →
     exec (.ldblk f) s = .next ((t.modCur fun k => { k with
       blocks := k.blocks.set .none i ⟨true, s.baseDisp f, parts, f.idx.toNat + 1, false, false⟩ }).modCur fun k => k.setX f.d.toNat (word i))) ∧
   (∀ (f : MEM) (s : State) (i : Nat) (b : LoadBlock), Ready s [baseOf f] [.x f.d.toNat] →
     i = (s.issue.pre.getX f.base.toNat).toNat → i < 4 → b = s.issue.pre.blocks.get .none i →
     (b.used = true → b.broken = true ∨ b.filled = true) →
     Runs (.lbwait f) s [] fun k => k.setX f.d.toNat (if !b.used then 2 else if b.broken then 1 else 0)) ∧
   (∀ (f : MEM) (s : State) (i : Nat), Ready s [baseOf f] [] → i = (s.issue.pre.getX f.base.toNat).toNat → i < 4 →
     Runs (.blkrel f) s [] fun k => { k with blocks := k.blocks.set .none i .none }) ∧
   (∀ (f : MEM) (s : State), Ready s [baseOf f] [.x f.d.toNat] →
     ((s.baseDisp f).toNat % 128 ≠ 0 → exec (.ldblk f) s = .next (s.raise 0x0E (s.baseDisp f))) ∧
     ((s.baseDisp f).toNat % 128 = 0 → (∀ i < 4, (s.issue.pre.blocks.get .none i).used = true) →
       exec (.ldblk f) s = .next (s.raise 0x0F 0)) ∧
     ((s.baseDisp f).toNat % 128 = 0 → (s.core s.issue.core).blockAt s.issue.pre.asid (s.baseDisp f) (f.idx.toNat + 1) = true →
       exec (.ldblk f) s = .next (s.raise 0x0F 0)) ∧
     (∀ parts t, (s.baseDisp f).toNat % 128 = 0 → (∃ i < 4, (s.issue.pre.blocks.get .none i).used = false) →
       (s.core s.issue.core).blockAt s.issue.pre.asid (s.baseDisp f) (f.idx.toNat + 1) = false →
       s.resolveIn { line := true } (pieces (s.baseDisp f) (128 * (f.idx.toNat + 1))) = (.ok parts, t) →
       t.readWaits parts = false → (t.core t.issue.core).inBlock parts = true → exec (.ldblk f) s = .next (t.raise 0x0F 0))) ∧
   (∀ (f : MEM) (s : State), 4 ≤ (s.issue.pre.getX f.base.toNat).toNat →
     (Ready s [baseOf f] [.x f.d.toNat] → exec (.lbwait f) s = .next (s.raise 0x0F 0)) ∧
     (Ready s [baseOf f] [] → exec (.blkrel f) s = .next (s.raise 0x0F 0))) ∧
   (∀ (f : MEM) (s : State) (i : Nat) (b : LoadBlock), Ready s [baseOf f] [.x f.d.toNat] →
     i = (s.issue.pre.getX f.base.toNat).toNat → i < 4 → b = s.issue.pre.blocks.get .none i → b.used = true → b.broken = false →
     b.filled = false → exec (.lbwait f) s = .next (s.holdFor none)) ∧
   (∀ (f : MEM) (s : State), Ready s [] [] → exec (.pld f) s = .next s) ∧
   ∀ (f : MEM) (s : State), Ready s [] [] → exec (.pref f) s = .next s) ∧
  (∀ (f : MEM) (s t : State) (parts : List (Nat × Nat)), Ready s [baseOf f, idxOf f] [] →
    s.resolveIn {} (pieces (lineOf (s.ea f)) 128) = (.ok parts, t) → t.readWaits parts = false →
    ∃ u, exec (.linv f) s = .next u ∧ u.mem = t.mem ∧
      ∀ x ∈ [(u.core t.issue.core).b0, (u.core t.issue.core).b1], ∀ (i : Nat) (b : LoadBlock), (i, b) ∈ x.blocks →
        b.used = true → (∃ p ∈ b.keys, ∃ q ∈ parts, q.1 < p.1 + p.2 ∧ p.1 < q.1 + q.2) → b.broken = true) ∧
  (∀ (f : MEM) (s : State) (n : Nat) (r : Region), Ready s [baseOf f, idxOf f] [] → canonical (s.ea f) = true →
    bits (s.ea f) 48 16 ∉ [0xFF, 0xFE, 0xFD] → s.regionFor s.me (s.ea f) = some (n, r) →
    exec (.lwb f) s = .next (s.writeBack s.issue.core n
      (((bits (s.ea f) 14 42 - r.page) * 16384 + bits (s.ea f) 0 14) / 1024) fun q =>
        { q with pc := s.issue.pre.pc, wid := s.issue.pre.wid, slot := s.issue.slot, bank := s.issue.bank,
                 sup := s.issue.pre.mode = .supervisor })) ∧
  ∀ (f : MEM) (s t : State) (parts : List (Nat × Nat)), Ready s [baseOf f, idxOf f] [] →
    (bits (s.ea f) 48 16 ∈ [0xFF, 0xFE, 0xFD] ∨ canonical (s.ea f) = false ∨ s.regionFor s.me (s.ea f) = none) →
    s.resolveIn { write := true } (pieces (lineOf (s.ea f)) 128) = (.ok parts, t) →
    exec (.lwb f) s = .next ({ s with free := t.free }.resolveIn {} (pieces (lineOf (s.ea f)) 128)).2

/-- R258, R259: a misaligned address raises the misaligned trap with the address in TADDR; R242, R387, R394: a translation
fault is raised with its cause, its address and the ACCESS type. -/
def Obligations.MisalignedAndTranslationFaults : Prop :=
  ((∀ (mk : MEM → Instr) (w : Nat), (mk, w) ∈ [(Instr.ldh, 2), (.ldhu, 2), (.ldw, 4), (.ldwu, 4), (.ldd, 8)] →
     ∀ (f : MEM) (s : State), Ready s [baseOf f, idxOf f] [.x f.d.toNat] → s.issue.pre.loadsOut < 64 → f.ord ≠ 0 →
       (s.ea f).toNat % w ≠ 0 → exec (mk f) s = .next (s.raise 0x0E (s.ea f))) ∧
   (∀ (mk : MEM → Instr) (w : Nat), (mk, w) ∈ [(Instr.sth, 2), (.stw, 4), (.std, 8)] →
     ∀ (f : MEM) (s : State), Ready s [baseOf f, idxOf f, opReg .x f.d.toNat] [] → f.ord ≠ 0 →
       (s.ea f).toNat % w ≠ 0 → exec (mk f) s = .next (s.raise 0x0E (s.ea f))) ∧
   ∀ (mk : MEM → Instr), mk ∈ [Instr.rdadd, .rdmin, .rdmax, .rdand, .rdor, .rdxor, .rdfadd] →
     ∀ (f : MEM) (s : State), Ready s [baseOf f, opReg .x f.d.toNat] [] → (s.baseDisp f).toNat % atomWidth f.scl ≠ 0 →
       exec (mk f) s = .next (s.raise 0x0E (s.baseDisp f))) ∧
  (∀ (mk : MEM → Instr) (w : Nat), (mk, w) ∈ [(Instr.ldb, 1), (.ldbu, 1), (.ldh, 2), (.ldhu, 2), (.ldw, 4), (.ldwu, 4), (.ldd, 8)] →
    ∀ (f : MEM) (s t : State) (x : XFault), Ready s [baseOf f, idxOf f] [.x f.d.toNat] → s.issue.pre.loadsOut < 64 → f.ord = 0 →
      s.resolveIn {} (pieces (s.ea f) w) = (.error x, t) →
      exec (mk f) s = .next (t.raiseFault x.cause (x.access.getD 1) x.va x.detail)) ∧
  ∀ (mk : MEM → Instr) (w : Nat), (mk, w) ∈ [(Instr.stb, 1), (.sth, 2), (.stw, 4), (.std, 8)] →
    ∀ (f : MEM) (s t : State) (x : XFault), Ready s [baseOf f, idxOf f, opReg .x f.d.toNat] [] → f.ord = 0 →
      s.resolveIn { write := true } (pieces (s.ea f) w) = (.error x, t) →
      exec (mk f) s = .next (t.raiseFault x.cause (x.access.getD 2) x.va x.detail)

/-- R142: branches and calls go to their targets; CALL and CALLX save the address of the next bundle; a register target
that is not a bundle's address raises the misaligned trap. -/
def Obligations.BranchesAndCalls : Prop :=
  (∀ (f : SI) (s : State), Ready s [] [] →
    exec (.br f) s = .next (transfers s (s.issue.pre.pc + f.imm.signExtend 64 * 64))) ∧
  (∀ (f : SI) (s : State), Ready s [] [.x f.d.toNat] →
    exec (.call f) s = .next ((transfers s (s.issue.pre.pc + f.imm.signExtend 64 * 64)).modCur fun k =>
      k.setX f.d.toNat (s.issue.pre.pc + 64))) ∧
  (∀ (mk : SR → Instr), mk ∈ [Instr.brx, .ret] → ∀ (f : SR) (s : State), Ready s [opA .x f] [] →
    ((s.srcX (opA .x f)).toNat % 64 = 0 → exec (mk f) s = .next (transfers (s.latchAll [opA .x f]) (s.srcX (opA .x f)))) ∧
    ((s.srcX (opA .x f)).toNat % 64 ≠ 0 → exec (mk f) s = .next ((s.latchAll [opA .x f]).raise 0x0E (s.srcX (opA .x f))))) ∧
  ∀ (f : SR) (s : State), Ready s [opA .x f] [.x f.d.toNat] → (s.srcX (opA .x f)).toNat % 64 = 0 →
    exec (.callx f) s = .next ((transfers (s.latchAll [opA .x f]) (s.srcX (opA .x f))).modCur fun k =>
      k.setX f.d.toNat (s.issue.pre.pc + 64))

/-- R84 to R88, R144, R145: loops opened, left, numbered and gone back in; a zero count skips the body; a full stack is
illegal encoding in slot 0. -/
def Obligations.LoopsRepeatsAndBackEdges : Prop :=
  ((∀ (f : SI) (s : State) (i : Instr) (count : BitVec 32) (len : Nat), len = (f.imm.extractLsb' 0 16).toNat →
     ((i = .loop f ∧ Ready s [opReg .x f.a.toNat] [] ∧ count = (s.issue.pre.getX f.a.toNat).setWidth 32) ∨
       (i = .loopi f ∧ Ready s [] [] ∧ count = (f.imm.extractLsb' 16 16).setWidth 32)) →
     (count = 0 → exec i s = .next (transfers s (s.issue.pre.pc + BitVec.ofNat 64 (64 * (len + 1))))) ∧
     (count ≠ 0 → s.issue.pre.loop.length < 6 → exec i s = .next (pushes s ⟨false, bundleOf s.issue.pre.pc + 1,
       bundleOf s.issue.pre.pc + 1 + BitVec.ofNat 58 (len - 1), count, 0⟩)) ∧
     (count ≠ 0 → s.issue.pre.loop.length = 6 → exec i s = .next (s.raise 0x0A 0))) ∧
   (∀ (f : SR) (s : State) (n : Nat) (e : LoopEntry), n = f.fn9.toNat % 8 → Ready s [] [] → s.issue.pre.loop[n - 1]? = some e →
     exec (.lbrk f) s = .next ((transfers s (bundleVA (e.last + 1))).modCur fun k => { k with loop := s.issue.pre.loop.drop n })) ∧
   (∀ (f : SR) (s : State), Ready s [] [.x f.d.toNat] → Runs (.lidx f) s [] fun k => k.setX f.d.toNat
     (match s.issue.pre.loop[f.fn9.toNat % 8]? with
     | none => 0
     | some e => if f.fn9.getLsbD 3 then e.rem.setWidth 64 else e.idx.setWidth 64)) ∧
   (∀ (f : SI) (s : State), Ready s [opReg .x f.d.toNat, opReg .x f.a.toNat] [] → s.issue.pre.repeating s.issue.pre.pc = false →
     finderCapable s.issue.core = true → s.issue.pre.loop.length < 6 →
     exec (.rep f) s = .next (pushes s ⟨true, bundleOf s.issue.pre.pc,
       bundleOf s.issue.pre.pc + BitVec.ofNat 58 (f.imm.extractLsb' 12 4).toNat, (f.imm.extractLsb' 16 16).setWidth 32, 0⟩)) ∧
   ∀ (f : SI) (s : State), s.issue.pre.repeating s.issue.pre.pc = true → exec (.rep f) s = .next s) ∧
  (∀ (k : Ctx) (i : Issue) (a : Word), i.npc = some a → i.push = none → (k.advance i []).1.pc = a) ∧
  (∀ (k : Ctx) (i : Issue), i.npc = none → i.push = none → (∀ e ∈ k.loop.head?, e.last ≠ bundleOf i.pre.pc) →
    (k.advance i []).1.pc = i.pre.pc + 64 ∧ (k.advance i []).1.loop = k.loop) ∧
  (∀ (k : Ctx) (i : Issue) (e : LoopEntry) (r : List LoopEntry), i.npc = none → i.push = none → k.loop = e :: r → e.repf = false →
    e.last = bundleOf i.pre.pc → e.rem ≠ 1 →
    (k.advance i []).1.pc = bundleVA e.start ∧ (k.advance i []).1.loop = { e with rem := e.rem - 1, idx := e.idx + 1 } :: r) ∧
  (∀ (k : Ctx) (i : Issue) (e : LoopEntry) (r : List LoopEntry), i.npc = none → i.push = none → k.loop = e :: r → e.repf = false →
    e.last = bundleOf i.pre.pc → e.rem = 1 → (∀ o ∈ r.head?, o.last ≠ e.last) →
    (k.advance i []).1.pc = bundleVA (e.last + 1) ∧ (k.advance i []).1.loop = r) ∧
  ∀ (k : Ctx) (i : Issue) (e o : LoopEntry) (r : List LoopEntry), i.npc = none → i.push = none → k.loop = e :: o :: r →
    e.repf = false → o.repf = false → e.last = bundleOf i.pre.pc → o.last = e.last → e.rem = 1 → o.rem ≠ 1 →
    (k.advance i []).1.pc = bundleVA o.start ∧ (k.advance i []).1.loop = { o with rem := o.rem - 1, idx := o.idx + 1 } :: r

/-- R39, R43, R147: a post of an acceptable record enters a queue after the context's earlier stores; one that fails its
check leaves a fault record and the task goes on. -/
def Obligations.PostsEnterOrAreRejected : Prop :=
  ∀ (f : SR) (s t u : State) (mk : SR → Instr) (kind : Nat) (va : Word) (parts : List (Nat × Nat)) (r : RecIn),
    (mk, kind) ∈ [(Instr.post, 0), (.postn, 1), (.posti, 2)] → Ready s [opA .x f] [] → va = s.srcX (opA .x f) →
    va.toNat % 64 = 0 → (s.latchAll [opA .x f]).resolveIn {} (pieces va 64) = (.ok parts, t) → t.readWaits parts = false →
    t.badRead parts = false → r = RecIn.ofBytes (t.bytesRead parts) → u = t.afterRead parts →
    (u.recordOk s.issue.pre.job kind r = false →
      exec (mk f) s = .next ((u.rejectRec s.issue.pre.job s.issue.core s.issue.bank r va).modCur fun k => { k with blocked := none })) ∧
    (u.recordOk s.issue.pre.job kind r = true → s.issue.pre.blocked = none →
      u.mayEnter s.issue.pre.job (bits r.ctrl 8 8) (bits r.ctrl 2 3) = true → u.imagesOut = false →
      u.storesStuck u.issue.core u.issue.bank = false →
      exec (mk f) s = .next (((u.flush u.issue.core u.issue.bank).enterRec r kind s.issue.pre.job va (clusterOf s.issue.core)
        (clusterOf s.issue.core) none).modCur fun k => { k with blocked := none })) ∧
    (u.recordOk s.issue.pre.job kind r = true → s.issue.pre.blocked = none →
      u.mayEnter s.issue.pre.job (bits r.ctrl 8 8) (bits r.ctrl 2 3) = false →
      ∃ w, exec (mk f) s = .next w ∧ w.issue.verdict = .hold none ∧
        w.cur.blocked = some ⟨s.issue.pre.job, bits r.ctrl 8 8, bits r.ctrl 2 3, u.sidereal, none, false, false⟩)

/-- R32, R52, R54, R148 to R150: counters and retirement.  JADD adds to a counter; END and ENDP retire the task when its bundle
commits, after its stores; the retirement decrement, by the outcome table of R52, on a launch counter or a join block.  The model's
choices: the decrement is an access of the task itself (log entry 116), NODEC does not concern ENDP (log entry 124), a join-block
record marked uncorrectable can not be read (log entry 134). -/
def Obligations.JoinsAndRetirement : Prop :=
  (∀ (f : SI) (s t : State) (key : Nat), Ready s [opReg .x f.a.toNat] [] → (s.issue.pre.getX f.a.toNat).toNat % 8 = 0 →
    s.resolveIn { write := true, atomic := true } (pieces (s.issue.pre.getX f.a.toNat) 8) = (.ok [(key, 8)], t) →
    t.storesFirst [(key, 8)] = false → t.behindOwn [(key, 8)] = false → t.imageBefore [(key, 8)] = false → isReg key = false →
    anyBad t.bad key 8 = false →
    ∃ u, exec (.jadd f) s = .next u ∧ u.disp = t.disp ∧
      u.mem = (t.putBytes t.asHome key (leBytes 8 ((t.numAt key 8 + f.imm.toNat) % 2 ^ 64))).mem) ∧
  (∀ (s u : State), Ready s [] [] → s.issue.pre.settled = true → s.storesStuck s.issue.core s.issue.bank = false →
    u = s.flush s.issue.core s.issue.bank →
    exec .endTask s = .next ((if s.issue.pre.mode = .supervisor ∧ s.issue.pre.nodec = true then u else u.joinDown).thenDo .retire)) ∧
  (∀ (f : SR) (s t u v : State) (va : Word) (parts : List (Nat × Nat)) (r : RecIn), Ready s [opA .x f] [] →
    s.issue.pre.settled = true → va = s.srcX (opA .x f) → va.toNat % 64 = 0 →
    (s.latchAll [opA .x f]).resolveIn {} (pieces va 64) = (.ok parts, t) → t.readWaits parts = false → t.badRead parts = false →
    r = RecIn.ofBytes (t.bytesRead parts) → u = t.afterRead parts → u.storesStuck u.issue.core u.issue.bank = false →
    v = (u.flush u.issue.core u.issue.bank).postAlways s.issue.core s.issue.bank s.issue.pre.job r va none →
    exec (.endp f) s = .next ((if r.joinp = s.issue.pre.joinp then v else v.joinDown).thenDo .retire)) ∧
  (∀ s : State, s.issue.pre.joinp = 0 → s.joinDown = s) ∧
  (∀ s : State, s.issue.pre.joinp ≠ 0 → counterAt s = false → JoinRecord s s s.joinDown 0x26) ∧
  (∀ (s t : State) (x : XFault), s.issue.pre.joinp ≠ 0 → counterAt s = true →
    s.resolve s.me { write := true, atomic := true } (pieces s.issue.pre.joinp 8) = (.error x, t) → JoinRecord s t s.joinDown 0x26) ∧
  ∀ (s t : State) (parts : List (Nat × Nat)) (n : Word) (hit : Option (Launch × Nat × Nat)), s.issue.pre.joinp ≠ 0 → counterAt s = true →
    s.resolve s.me { write := true, atomic := true } (pieces s.issue.pre.joinp 8) = (.ok parts, t) →
    n = word (ofLeBytes (t.view t.mem parts)) → hit = s.launchCounter s.issue.pre.job s.issue.pre.joinp →
    (viewBad t.bad parts = true → JoinRecord s t s.joinDown 0x26) ∧
    (viewBad t.bad parts = false →
      (n.toInt ≤ 0 → JoinRecord s t s.joinDown 0x25) ∧
      (1 < n.toInt → s.joinDown = t.writeParts t.asHome (cutData parts (leBytes 8 (n - 1).toNat))) ∧
      (∀ l lev g, n = 1 → hit = some (l, lev, g) → s.joinDown =
        (t.writeParts t.asHome (cutData parts (leBytes 8 0))).postContinuation s.issue.core s.issue.bank s.issue.pre.job l lev g) ∧
      (∀ x u, n = 1 → hit = none → t.resolve t.me {} (pieces (s.issue.pre.joinp + 64) 64) = (.error x, u) →
        JoinRecord s u s.joinDown 0x26) ∧
      ∀ ps u, n = 1 → hit = none → t.resolve t.me {} (pieces (s.issue.pre.joinp + 64) 64) = (.ok ps, u) →
        (viewBad u.bad ps = true → JoinRecord s u s.joinDown 0x26) ∧
        (viewBad u.bad ps = false → s.joinDown = (u.writeParts u.asHome (cutData parts (leBytes 8 0))).postAlways s.issue.core s.issue.bank
          s.issue.pre.job (RecIn.ofBytes (u.view u.mem ps)) (s.issue.pre.joinp + 64) none))

/-- R153, R157, R159 to R161: handle tests, waits on an address, fences and drains, slip waits, quiet detection, rings; R92, R352:
which words a FENCE shows to the fetch of its core, log entry 12. -/
def Obligations.WaitsFencesAndRings : Prop :=
  (∀ (f : SR) (s : State) (h : Nat), Ready s [opA .x f] [] → h = (s.srcX (opA .x f)).toNat % 4096 →
    (s.handleState s.issue.pre.job h = .ready → exec (.whwait f) s = .next (s.latchAll [opA .x f])) ∧
    (s.handleState s.issue.pre.job h = .pending → exec (.whwait f) s = .next ((s.latchAll [opA .x f]).parkFor (.handle h))) ∧
    (s.handleState s.issue.pre.job h = .free ∨ s.handleState s.issue.pre.job h = .error →
      exec (.whwait f) s = .next ((s.latchAll [opA .x f]).raise 0x11 (word h)))) ∧
  (∀ (f : SR) (s : State), Ready s [opA .x f] [.x f.d.toNat] → Runs (.whtest f) s [opA .x f] fun k => k.setX f.d.toNat
    (match s.handleState s.issue.pre.job ((s.srcX (opA .x f)).toNat % 4096) with
    | .free => 0 | .pending => 1 | .ready => 2 | .error => 3)) ∧
  (∀ (f : SR) (s t : State) (parts : List (Nat × Nat)) (v : Word), Ready s [opA .x f, opB .x f, opC .x f] [.x f.d.toNat] →
    (s.srcX (opA .x f)).toNat % 8 = 0 →
    (s.latchAll [opA .x f, opB .x f, opC .x f]).resolveIn {} (pieces (s.srcX (opA .x f)) 8) = (.ok parts, t) →
    t.readWaits parts = false → v = word (ofLeBytes (t.bytesRead parts)) → t.badRead parts = false →
    ((f.fn9.getLsbD 0 = true ↔ v = s.srcX (opB .x f)) ∨ s.issue.pre.expired = true →
      exec (.waita f) s = .next ((t.afterRead parts).modCur fun k => k.setX f.d.toNat v)) ∧
    (¬(f.fn9.getLsbD 0 = true ↔ v = s.srcX (opB .x f)) → s.issue.pre.expired = false →
      ∃ u, exec (.waita f) s = .next u ∧
        u.issue.verdict = .hold (some (.word (parts.headD (0, 0)).1 (f.fn9.getLsbD 0) (s.srcX (opB .x f)))))) ∧
  (∀ (f : SR) (s u : State), Ready s [] [] → s.storesStuck s.issue.core s.issue.bank = false → s.imagesOut = false →
    u = s.flush s.issue.core s.issue.bank →
    (s.orderedOut s.issue.core s.issue.bank = false → exec (.fence f) s = .next (u.refetch (f.fn9.toNat % 8))) ∧
    (s.copiesOut = false → s.reductionsOut s.issue.core s.issue.bank = false →
      exec (.drain f) s = .next (u.refetch (f.fn9.toNat % 8))) ∧
    (4 ≤ f.fn9.toNat % 8 → ((u.refetch (f.fn9.toNat % 8)).core u.issue.core).b0.code = u.mem ∧
      ((u.refetch (f.fn9.toNat % 8)).core u.issue.core).b1.code = u.mem) ∧
    (f.fn9.toNat % 8 < 4 → ∀ key, Sparse.get 0 ((u.refetch (f.fn9.toNat % 8)).core u.issue.core).b0.code key =
      if inScope u.issue.core (f.fn9.toNat % 8) (u.origin.get 0 key) then Sparse.get 0 u.mem key
      else Sparse.get 0 (u.core u.issue.core).b0.code key)) ∧
  (∀ (f : SR) (s : State), Ready s [] [] → s.imagesOut = true →
    exec (.fence f) s = .next (s.holdFor none) ∧ exec (.drain f) s = .next (s.holdFor none)) ∧
  (∀ s : State, Ready s [] [] → (s.issue.pre.queue = [] → exec .slipw s = .next s) ∧
    (s.issue.pre.queue ≠ [] → exec .slipw s = .next (s.holdFor none))) ∧
  (∀ s : State, Ready s [] [] →
    (∀ w, s.issue.pre.since = some w → (s.job s.issue.pre.job).quietSince w = true → exec .quiet s = .next s) ∧
    (s.issue.pre.since = none → exec .quiet s = .next (s.holdFor (some .quiet)))) ∧
  (∀ (f : SR) (s : State), Ready s [] [.x f.d.toNat] →
    Runs (.qtest f) s [] fun k => k.setX f.d.toNat (s.job s.issue.pre.job).qstat) ∧
  (∀ (f : SI) (s : State) (q : Nat), Ready s [] [] → q = (f.imm.extractLsb' 0 3).toNat →
    (s.issue.pre.getRing q).fill = (s.issue.pre.getRing q).rsv →
    Runs (.qinit f) s [] fun k => k.setRing q ⟨(f.imm.extractLsb' 8 5).toNat, (f.imm.extractLsb' 16 6).toNat, 0, 0, 0⟩) ∧
  (∀ (f : SI) (s : State) (q n : Nat) (r : Ring), Ready s [] [] → q = (f.imm.extractLsb' 0 3).toNat →
    n = (f.imm.extractLsb' 16 6).toNat → r = s.issue.pre.getRing q → r.len ≠ 0 → n ≤ r.len → n ≤ r.rsv → n ≤ r.fill →
    Runs (.qadvh f) s [] fun k => k.setRing q { r with head := (r.head + n) % r.len, fill := r.fill - n, rsv := r.rsv - n }) ∧
  ∀ (f : SI) (s : State) (q n : Nat) (r : Ring), Ready s [] [] → q = (f.imm.extractLsb' 0 3).toNat →
    n = (f.imm.extractLsb' 16 6).toNat → r = s.issue.pre.getRing q → r.len ≠ 0 → n ≤ r.len → r.rsv + n ≤ r.len → r.fill = r.rsv →
    Runs (.qadvt f) s [] fun k => k.setRing q { r with fill := r.fill + n, rsv := r.rsv + n }

/-- R154 to R156: the transaction barriers.  BEXP and BARV count modulo 2^40, an arrival beyond the pending ones sets
ERR, and a barrier without pending arrivals and sectors flips. -/
def Obligations.BarrierOperations : Prop :=
  (∀ (f : SR) (s t : State) (key n : Nat), AtBarrier s t f [] key → n = (s.srcX (opB .x f)).toNat % 2 ^ 20 → n ≠ 0 →
    exec (.binit f) s = .next (t.setBarrier t.issue.core key ⟨0, n, n, 0, false⟩)) ∧
  (∀ (f : SR) (s t : State) (key : Nat), AtBarrier s t f [] key →
    -(2 ^ 39 : Int) ≤ (s.srcX (opB .x f)).toInt → (s.srcX (opB .x f)).toInt < 2 ^ 39 →
    exec (.bexp f) s = .next (t.setBarrier t.issue.core key ((t.barrier key).expect (s.srcX (opB .x f)).toInt))) ∧
  (∀ (f : SR) (s t u : State) (key : Nat), AtBarrier s t f [] key → t.storesStuck t.issue.core t.issue.bank = false →
    t.reductionsOut t.issue.core t.issue.bank = false → t.imagesOut = false → u = t.flush t.issue.core t.issue.bank →
    exec (.barv f) s = .next (u.setBarrier u.issue.core key ((u.barrier key).arrive (s.srcX (opB .x f)).toInt))) ∧
  (∀ (f : SR) (s t : State) (key : Nat), AtBarrier s t f [.x f.d.toNat] key → anyBad t.bad key 16 = false →
    ((t.barrier key).phase ≠ (s.srcX (opB .x f)).toNat % 16 → exec (.bwait f) s = .next (t.modCur fun k =>
      k.setX f.d.toNat (word (16 * bit (t.barrier key).err + (t.barrier key).phase)))) ∧
    ((t.barrier key).phase = (s.srcX (opB .x f)).toNat % 16 →
      exec (.bwait f) s = .next (t.holdFor (some (.barrier key ((s.srcX (opB .x f)).toNat % 16))))) ∧
    exec (.btest f) s = .next (t.modCur fun k => k.setX f.d.toNat (word (16 * bit (t.barrier key).err + (t.barrier key).phase +
      256 * bit (decide ((t.barrier key).phase ≠ (s.srcX (opB .x f)).toNat % 16)))))) ∧
  (∀ (f : SR) (s t : State) (keys : List Nat) (j key : Nat), Ready s [opA .x f, opB .x f] [.x f.d.toNat] →
    t = s.latchAll [opA .x f, opB .x f] → (s.srcX (opA .x f)).toNat % 16 = 0 →
    t.barrierKeys (s.srcX (opA .x f)) (f.fn9.toNat % 32) 0 [] = .ok keys → t.behindOwn (keys.map (·, 16)) = false →
    t.storesFirst (keys.map (·, 16)) = false → t.flipped keys (s.srcX (opB .x f)) s.issue.pre.rot = some (j, key) → anyBad t.bad key 16 = false →
    exec (.bwany f) s = .next ((t.modCur fun k =>
      k.setX f.d.toNat (word (j + 16 * bit (t.barrier key).err + 256 * (t.barrier key).phase))).modCur fun k =>
        { k with rot := (j + 1) % (f.fn9.toNat % 32) })) ∧
  (∀ b : Barrier, b.flip = if b.pending = 0 ∧ b.sectors = 0 then { b with phase := (b.phase + 1) % 16, pending := b.init } else b) ∧
  (∀ (b : Barrier) (n : Int), (b.pending = 0 → (b.arrive n).err = true) ∧
    (1 < b.pending → (b.arrive n).pending = b.pending - 1 ∧ (b.arrive n).phase = b.phase) ∧
    (b.pending = 1 → (b.sectors + n) % 2 ^ 40 = 0 → (b.arrive n).pending = b.init ∧ (b.arrive n).phase = (b.phase + 1) % 16)) ∧
  ∀ (b : Barrier), b.phase < 16 → b.pending < 2 ^ 20 → b.init < 2 ^ 20 → b.sectors < 2 ^ 40 → Barrier.ofNat b.toNat = b

/-- R162: TRAP and SVC take their traps with the immediate in DETAIL; R163, R278, R388, R390, R392: ERET goes back to EPC in the mode
of ESTAT with the shadow set that the trap set aside, and out of a trap that is not resumable it raises cause 0x0B; R81, R83, R163,
R165: in user mode it and the context moves raise the privilege trap. -/
def Obligations.TrapInstructionsAndReturn : Prop :=
  (∀ (f : SI) (s : State), Ready s [] [] →
    exec (.trap f) s = .next (s.raise 0x13 0 f.imm) ∧ exec (.svc f) s = .next (s.raise 0x14 0 f.imm)) ∧
  (∀ (f : SI) (s : State), s.active = false → exec (.trap f) s = .next s ∧ exec (.svc f) s = .next s) ∧
  (∀ s : State, Ready s [] [] → s.issue.pre.mode = .supervisor → s.issue.pre.nores = false →
    exec .eret s = .next ((transfers s s.issue.pre.epc).modCur Ctx.returned)) ∧
  (∀ k : Ctx, k.returned.mode = k.pmode ∧ k.returned.pc = k.epc ∧ k.returned.aside = none ∧
    (∀ d, k.aside = some d → k.returned.shadow = d) ∧ k.returned.x = k.x ∧ k.returned.p = k.p) ∧
  (∀ s : State, Ready s [] [] → s.issue.pre.mode = .supervisor → s.issue.pre.nores = true → exec .eret s = .next (s.raise 0x0B 0)) ∧
  ∀ (s : State) (i : Instr), s.issue.pre.mode = .user → (i = .eret ∨ ∃ f, i = .csave f ∨ i = .cload f ∨ i = .ctxsw f) →
    exec i s = .next (s.raise 0x0B 0)

/-- R387 to R391, R394, R406, R407: what taking a trap saves and where it goes; a second synchronous trap kills the job; a
not-present fault in user mode parks the context at the bundle, which commits nothing. -/
def Obligations.TrapEntryParksAndDoubleTraps : Prop :=
  (∀ (s : State) (c b : Nat) (i : TrapInfo), ((s.ctx c b).mode = .user ∨ i.async = true) → i.cause < 256 → (s.ctx c b).qw = false →
     ∃ t, s.takeTrap c b i = t ∧
       (t.ctx c b).tcause = (i.detail.zeroExtend 64 <<< 32 ||| word (256 * bit i.async + i.cause)) ∧
       (t.ctx c b).taddr = i.addr ∧ (t.ctx c b).tslot = i.slot ∧ (t.ctx c b).epc = i.epc ∧
       (t.ctx c b).pmode = (s.ctx c b).mode ∧ (t.ctx c b).mode = .supervisor ∧ (t.ctx c b).amask = true ∧
       (t.ctx c b).nodec = false ∧ (t.ctx c b).nores = i.nores ∧
       (t.ctx c b).pc = ((s.core c).tvec >>> 12 <<< 12) + word (vectorOffset i.cause) ∧
       (t.ctx c b).aside = some (s.ctx c b).shadow ∧ (t.ctx c b).shadow = .clear ∧
       (t.ctx c b).x = (s.ctx c b).x ∧ (t.ctx c b).p = (s.ctx c b).p ∧ (t.ctx c b).v = (s.ctx c b).v ∧
       (t.ctx c b).t = (s.ctx c b).t ∧ (t.ctx c b).a = (s.ctx c b).a ∧ (t.ctx c b).loop = (s.ctx c b).loop ∧
       ∀ a, Sparse.get 0 t.mem a =
         if ctlKey c (0x400 + 128 * b) ≤ a ∧ a < ctlKey c (0x400 + 128 * b) + 128
         then (frameBytes (s.ctx c b) i.bte).getD (a - ctlKey c (0x400 + 128 * b)) 0 else Sparse.get 0 s.mem a) ∧
  (∀ (s : State) (c b j : Nat) (i : TrapInfo), c < 256 → b < 2 → (s.ctx c b).mode = .supervisor → i.async = false → (s.ctx c b).job = j →
     (s.ctx c b).occupied = true → (s.job j).active = true → (s.job j).kstat = 0 →
     ((s.takeTrap c b i).job j).kstat = 1 ∧ ((s.takeTrap c b i).ctx c b).status = .idle ∧
     (∃ r ∈ (s.takeTrap c b i).faults, r.cause = 0x2D ∧ r.job = j ∧ r.core = c ∧ r.bank = b ∧ r.va = i.addr ∧ r.pc = i.epc) ∧
     ∀ r ∈ (s.takeTrap c b i).disp.recs, r.job ≠ j) ∧
  ∀ (s : State) (access : Nat) (va detail : Word), s.issue.pre.mode = .user →
    ∃ r, (s.raiseFault 4 access va detail).faults = s.faults ++ [r] ∧ r.cause = 4 ∧ r.access = access ∧ r.va = va ∧
      r.detail = detail ∧ r.pc = s.issue.pre.pc ∧ r.slot = s.issue.slot ∧ r.job = s.issue.pre.job ∧
      (s.raiseFault 4 access va detail).cur.status = .parked .replay ∧
      (s.raiseFault 4 access va detail).cur.pc = s.issue.pre.pc ∧ (s.raiseFault 4 access va detail).cur.x = s.issue.pre.x ∧
      (s.raiseFault 4 access va detail).mem = s.issue.mem0 ∧ (s.raiseFault 4 access va detail).issue.verdict = .absent r

/-- R113, R164, R83: every system register read and written through its selector, with the mode that it needs. -/
def Obligations.SystemRegisterMoves : Prop :=
  (∀ (f : SI) (s : State) (sel : Nat) (v : Word), (sel, v) ∈ sysRegs s → f.imm.toNat % 4096 = sel → Ready s [] [.x f.d.toNat] →
    (0x10 ≤ sel → sel ≤ 0x15 → s.issue.pre.mode = .supervisor) → (sel = 0x1B → finderCapable s.issue.core = true) →
    Runs (.mfs f) s [] fun k => k.setX f.d.toNat v) ∧
  (∀ (f : SI) (s t : State) (sel : Nat), (sel, t) ∈ sysWrites s (s.issue.pre.getX f.a.toNat) → f.imm.toNat % 4096 = sel →
    Ready s [opReg .x f.a.toNat] [] → (sel ≠ 0x1B → s.issue.pre.mode = .supervisor) →
    (sel = 0x1B → finderCapable s.issue.core = true) → exec (.mts f) s = .next t) ∧
  (∀ (f : SI) (s : State), f.imm.toNat % 4096 ∈ [0x10, 0x11, 0x12, 0x13, 0x14, 0x15] → s.issue.pre.mode = .user →
    exec (.mfs f) s = .next (s.raise 0x0B 0)) ∧
  ∀ (f : SI) (s : State), f.imm.toNat % 4096 ≠ 0x1B → s.issue.pre.mode = .user → exec (.mts f) s = .next (s.raise 0x0B 0)

/-- R151, R152, R165, R402 to R405: yield, park, events and traces, and the context moves of supervisor code.  What CSAVE keeps
beside the image (log entry 33) and that CTXSW looks at the other bank's status only (log entry 76) are the model's choices. -/
def Obligations.YieldsEventsAndContextMoves : Prop :=
  (∀ s : State, exec .nop s = .next s) ∧
  (∀ s : State, Ready s [] [] → exec .yield s = .next { s with issue := { s.issue with after := .yield } } ∧
    exec .park s = .next { s with issue := { s.issue with after := .park } }) ∧
  (∀ (f : SI) (s : State) (v : Word), Ready s [opReg .x f.a.toNat] [] → v = s.issue.pre.getX f.a.toNat → v.toNat < 512 →
    ∃ n, exec (.evt f) s = .next { s with fabric := { s.fabric with
      events := s.fabric.events ++ [(n, v.toNat % 256, v.toNat / 256, s.issue.pre.job, decide (s.issue.pre.mode = .supervisor))]
      nextItem := s.fabric.nextItem + 1 } }) ∧
  (∀ (f : SI) (s : State), Ready s [opReg .x f.a.toNat] [] → s.pkg.trcEn = false →
    exec (.evtTr f) s = .next { s with pkg := { s.pkg with trcdrop := s.pkg.trcdrop + 1 } }) ∧
  (∀ (f : SI) (s : State), Ready s [opReg .x f.a.toNat] [] → s.pkg.trcEn = true → (s.core s.issue.core).tracing = false →
    ∃ t, exec (.evtTr f) s = .next t ∧ t.pkg.trchead = s.pkg.trchead + 1 ∧ t.pkg.trcdrop = s.pkg.trcdrop ∧ t.cur = s.cur) ∧
  (∀ (f : SR) (s t u v : State) (parts : List (Nat × Nat)) (k : Ctx), Ready s [opA .x f] [.x f.d.toNat] →
    s.issue.pre.mode = .supervisor → (s.srcX (opA .x f)).toNat % 4096 = 0 →
    ((s.ctx s.issue.core (1 - s.issue.bank)).status = .idle ∨ (s.ctx s.issue.core (1 - s.issue.bank)).status = .running →
      s.issue.bank < 2 → Runs (.csave f) s [opA .x f] fun k => k.setX f.d.toNat 0) ∧
    (s.issue.bank < 2 → ((s.ctx s.issue.core (1 - s.issue.bank)).status = .resumable ∨
        ∃ w, (s.ctx s.issue.core (1 - s.issue.bank)).status = .parked w) →
      (s.latchAll [opA .x f]).resolveIn { write := true } (pieces (s.srcX (opA .x f)) ctxImageLen) = (.ok parts, t) →
      k = t.ctx t.issue.core (1 - t.issue.bank) → s.issue.pre.queue = [] → k.queue = [] → k.pend = [] →
      t.storesStuck t.issue.core (1 - t.issue.bank) = false →
      u = (t.flush t.issue.core (1 - t.issue.bank)).dropQw t.issue.core (1 - t.issue.bank) →
      v = u.writeParts t.issue.core (cutData parts (u.ctx t.issue.core (1 - t.issue.bank)).image) →
      exec (.csave f) s = .next ((({ v with saved := v.saved ++ [k.saved] }).release t.issue.core (1 - t.issue.bank)).modCur fun q =>
        q.setX f.d.toNat 1)) ∧
    (s.issue.bank < 2 → (∃ w, (s.ctx s.issue.core (1 - s.issue.bank)).status = .parked w) →
      (s.latchAll [opA .x f]).resolveIn { write := true } (pieces (s.srcX (opA .x f)) ctxImageLen) = (.ok parts, t) →
      (t.ctx t.issue.core (1 - t.issue.bank)).pend ≠ [] →
      exec (.csave f) s = .next ((t.withdraw t.issue.core (1 - t.issue.bank)).holdFor none))) ∧
  (∀ (f : SR) (s t : State) (parts : List (Nat × Nat)) (bs : List Byte), Ready s [opA .x f] [.x f.d.toNat] →
    s.issue.pre.mode = .supervisor → (s.srcX (opA .x f)).toNat % 4096 = 0 → s.issue.bank < 2 →
    ((s.ctx s.issue.core (1 - s.issue.bank)).occupied = true → Runs (.cload f) s [opA .x f] fun k => k.setX f.d.toNat 0) ∧
    ((s.ctx s.issue.core (1 - s.issue.bank)).occupied = false →
      (s.latchAll [opA .x f]).resolveIn {} (pieces (s.srcX (opA .x f)) ctxImageLen) = (.ok parts, t) → bs = t.bytesRead parts →
      t.readWaits parts = false → t.badRead parts = false →
      (imageOk bs = true ∧ t.imageLives (Ctx.ofImage bs) = true → exec (.cload f) s =
        .next ((t.loadBank t.issue.core (1 - t.issue.bank) (Ctx.ofImage bs)).modCur fun k => k.setX f.d.toNat 1)) ∧
      (imageOk bs = false ∨ t.imageLives (Ctx.ofImage bs) = false → exec (.cload f) s = .next (t.modCur fun k => k.setX f.d.toNat 2)))) ∧
  ∀ (f : SR) (s : State), Ready s [] [.x f.d.toNat] → s.issue.pre.mode = .supervisor →
    ((s.ctx s.issue.core (1 - s.issue.bank)).status = .resumable → exec (.ctxsw f) s =
      .next ((s.modCur fun k => k.setX f.d.toNat 1).thenDo .switch)) ∧
    ((s.ctx s.issue.core (1 - s.issue.bank)).status ≠ .resumable → Runs (.ctxsw f) s [] fun k => k.setX f.d.toNat 0)

/-- R277, R307, R308: descriptor instructions write the shadow set and nothing else; R278, R309 to R315: commits, status
and cancels of the copy engine, requests to the handle table.  That a broken walk rule of DECODE or ENCODE traps at
CGO (log entry 80) and that requests to the handle table take effect when they are answered (log entry 81) are the
model's readings. -/
def Obligations.CopyDescriptorsAndCommands : Prop :=
  ((∀ (f : SR) (s : State), Ready s [opA .x f] [] → Runs (.csrc f) s [opA .x f] fun k =>
     { k with shadow := { k.shadow with src := s.srcX (opA .x f), srcf := f.fn9.getLsbD 0 } }) ∧
   (∀ (f : SR) (s : State), Ready s [opA .x f] [] → Runs (.cdst f) s [opA .x f] fun k =>
     { k with shadow := { k.shadow with dst := s.srcX (opA .x f), dstf := f.fn9.getLsbD 0 } }) ∧
   (∀ (f : SR) (s : State) (n : Nat) (a b : BitVec 40), Ready s [opA .x f, opB .x f, opC .x f] [] →
     s.srcX (opA .x f) = BitVec.ofNat 64 n → n < 2 ^ 24 → s.srcX (opB .x f) = a.signExtend 64 → s.srcX (opC .x f) = b.signExtend 64 →
     Runs (.cdim f) s [opA .x f, opB .x f, opC .x f] fun k => { k with shadow := { k.shadow with
       cnt := k.shadow.cnt.set (f.fn9.toNat % 8) n, sstr := k.shadow.sstr.set (f.fn9.toNat % 8) a
       dstr := k.shadow.dstr.set (f.fn9.toNat % 8) b } }) ∧
   (∀ (f : SR) (s : State), Ready s [opA .x f, opB .x f] [] → 1 ≤ (s.srcX (opA .x f)).toNat → (s.srcX (opA .x f)).toNat ≤ 256 →
     Runs (.celt f) s [opA .x f, opB .x f] fun k =>
       { k with shadow := { k.shadow with run := (s.srcX (opA .x f)).toNat, aux := s.srcX (opB .x f) } }) ∧
   (∀ (f : SI) (s : State), Ready s [] [] → Runs (.cmode f) s [] fun k =>
     { k with shadow := { k.shadow with mode := (f.imm.extractLsb' 0 4).toNat, mpar := f.imm.extractLsb' 4 16 } }) ∧
   (∀ (f : SR) (s t : State) (va : Word), Ready s [opA .x f] [] → va = s.srcX (opA .x f) → t = s.latchAll [opA .x f] →
     (va = 0 ∨ (va.toNat % 16 = 0 ∧ ∃ key, t.barrierKey t.me va = .ok key)) →
     Runs (.cbar f) s [opA .x f] fun k => { k with shadow := { k.shadow with bar := va } }) ∧
   ∀ (f : SR) (s : State), Ready s [opA .x f, opB .x f] [] → (s.srcX (opA .x f)).toNat % 8 = 0 →
     Runs (.cflag f) s [opA .x f, opB .x f] fun k => { k with shadow := { k.shadow with
       flaga := s.srcX (opA .x f), flagv := s.srcX (opB .x f), fscope := (f.fn9.extractLsb' 0 3).toNat } }) ∧
  (∀ (f : SR) (s u : State) (e : Engine), Ready s [] [.x f.d.toNat] → e = (s.core s.issue.core).engine →
    s.issue.pre.shadow.ok = true → e.waiting = none → e.claims = [] → s.storesStuck s.issue.core s.issue.bank = false →
    s.reductionsOut s.issue.core s.issue.bank = false → s.imagesOut = false → u = s.flush s.issue.core s.issue.bank →
    exec (.cgo f) s = .next ((u.modEngine s.issue.core (·.accept (s.issue.pre.newCopy s.issue.bank e.nextSeq))).modCur fun k =>
      k.setX f.d.toNat (word e.nextSeq))) ∧
  (∀ (f : SR) (s : State), Ready s [] [.x f.d.toNat] → s.issue.pre.shadow.ok = true →
    (s.core s.issue.core).engine.waiting.isSome = true ∨ (s.core s.issue.core).claimed s.issue.pre.serial = true →
    exec (.cgo f) s = .next (s.holdFor (some .swap))) ∧
  (∀ (f : SR) (s : State), Ready s [] [.x f.d.toNat] → s.issue.pre.shadow.ok = false → exec (.cgo f) s = .next (s.raise 0x0F 0)) ∧
  (∀ (f : SR) (s : State), Ready s [] [.x f.d.toNat] → Runs (.cstat f) s [] fun k =>
    k.setX f.d.toNat ((s.core s.issue.core).engine.stat s.issue.pre.job)) ∧
  (∀ (f : SR) (s : State), Ready s [opA .x f] [.x f.d.toNat] → exec (.ccan f) s =
    .next ((s.latchAll [opA .x f]).cancel f.d.toNat fun q => q.seq = (s.srcX (opA .x f)).toNat % 2 ^ 32)) ∧
  (∀ (f : SR) (s : State), Ready s [opA .x f] [.x f.d.toNat] →
    exec (.ccanAll f) s = .next ((s.latchAll [opA .x f]).cancel f.d.toNat fun _ => true)) ∧
  (∀ (f : SR) (s : State) (first n : Nat), extentOf (s.srcX (opA .x f)) = some (first, n) →
    (s.srcX (opB .x f)).toNat % 16384 = 0 →
    (Ready s [opA .x f, opB .x f] [.x f.d.toNat] → exec (.whdmd f) s = .next ((s.latchAll [opA .x f, opB .x f]).askTable f.d.toNat
      (.request first n (s.srcX (opB .x f)) true false))) ∧
    (Ready s [opA .x f, opB .x f, opC .x f] [.x f.d.toNat] → s.issue.find.1 = true →
      exec (.whreq f) s = .next ((s.latchAll [opA .x f, opB .x f, opC .x f]).askTable f.d.toNat
        (.request first n (s.srcX (opB .x f)) false (decide ((s.srcX (opC .x f)).toNat % 256 < s.issue.find.2))))) ∧
    (Ready s [opA .x f, opB .x f] [.x f.d.toNat] → s.issue.find.1 = false → (∀ r ∈ (opC .x f).copies, s.later r = false) →
      exec (.whreq f) s = .next (((s.latchOne (opC .x f)).latchAll [opA .x f, opB .x f]).askTable f.d.toNat
        (.request first n (s.srcX (opB .x f)) false false)))) ∧
  (∀ (f : SR) (s : State), Ready s [opA .x f, opB .x f] [.x f.d.toNat] → exec (.whdmdUp f) s =
    .next ((s.latchAll [opA .x f, opB .x f]).askTable f.d.toNat (.upgrade ((s.srcX (opA .x f)).toNat % 4096)))) ∧
  ∀ (f : SR) (s : State) (h : Nat), Ready s [opA .x f] [.x f.d.toNat] → h = (s.srcX (opA .x f)).toNat % 4096 →
    (s.issue.pre.await ≠ some (.release h) → s.asking = false →
      (s.handleState s.issue.pre.job h = .free → Runs (.whrel f) s [opA .x f] fun k => k.setX f.d.toNat 0) ∧
      (s.handleState s.issue.pre.job h = .ready →
        exec (.whrel f) s = .next (((s.latchAll [opA .x f]).setHandle h .free).regate.putX f.d.toNat 2)) ∧
      (s.handleState s.issue.pre.job h = .error →
        exec (.whrel f) s = .next (((s.latchAll [opA .x f]).setHandle h .free).regate.putX f.d.toNat 3)) ∧
      (s.handleState s.issue.pre.job h = .pending → exec (.whrel f) s = .next ((s.latchAll [opA .x f]).holdFor (some (.release h))))) ∧
    (s.issue.pre.await ≠ some (.release h) → s.asking = true → exec (.whrel f) s = .next ((s.latchAll [opA .x f]).holdFor none)) ∧
    (s.issue.pre.await = some (.release h) → (s.handleState s.issue.pre.job h ≠ .pending ∨ (s.handle h).mark = false) →
      Runs (.whrel f) s [opA .x f] fun k => k.setX f.d.toNat 1)

/-- R316, R320 to R322: messages, link queues and the generator key. -/
def Obligations.MessagesLinksAndGeneratorKey : Prop :=
  (∀ (f : SR) (s t : State), Ready s [opA .x f, opB .x f, opC .x f, opReg .x f.d.toNat] [] →
    t = s.latchAll [opA .x f, opB .x f, opC .x f, opReg .x f.d.toNat] → SendOk t (s.srcX (opA .x f)) (s.srcX (opB .x f)) →
    ∃ u, exec (.msend f) s = .next u ∧
      Sent t u (s.srcX (opA .x f)) (s.srcX (opB .x f)) (.words (s.srcX (opC .x f)) (s.issue.pre.getX f.d.toNat))) ∧
  (∀ (f : SR) (s t : State) (v : VReg), Ready s [opA .x f, opB .x f, opC .v f] [] → v = s.srcV (opC .v f) → v.tag ≠ .poison →
    t = s.latchAll [opA .x f, opB .x f, opC .v f] → SendOk t (s.srcX (opA .x f)) (s.srcX (opB .x f)) →
    ∃ u, exec (.msendv f) s = .next u ∧
      Sent t u (s.srcX (opA .x f)) (s.srcX (opB .x f)) (.vec v.tag (leBytes 256 v.body.toNat ++ leBytes 32 v.side.toNat))) ∧
  (∀ (f : SR) (s t : State) (va q n : Word) (parts : List (Nat × Nat)), Ready s [opA .x f, opB .x f, opC .x f] [] →
    va = s.srcX (opA .x f) → q = s.srcX (opB .x f) → n = s.srcX (opC .x f) → va.toNat % 8 = 0 → q.toNat < 2 ^ 20 →
    8 ≤ n.toNat → n.toNat ≤ 65536 → n.toNat % 8 = 0 → s.port.up = true →
    (s.job s.issue.pre.job).links.contains (q.toNat % 2 ^ 16, q.toNat / 2 ^ 16, false) = true →
    (s.latchAll [opA .x f, opB .x f, opC .x f]).resolveIn {} (pieces va n.toNat) = (.ok parts, t) → t.readWaits parts = false →
    t.badRead parts = false → exec (.lsend f) s = .next ((t.afterRead parts).sendLink s.issue.core s.issue.bank (q.toNat % 2 ^ 16)
      (q.toNat / 2 ^ 16) (t.bytesRead parts) s.issue.pre)) ∧
  (∀ (f : SR) (s t u : State) (va q n : Word) (parts from_ : List (Nat × Nat)) (first held key : Nat),
    Ready s [opA .x f, opB .x f, opC .x f] [] →
    va = s.srcX (opA .x f) → q = s.srcX (opB .x f) → n = s.srcX (opC .x f) → va.toNat % 8 = 0 → q.toNat < 2 ^ 20 →
    8 ≤ n.toNat → n.toNat ≤ 65536 → n.toNat % 8 = 0 → s.port.up = true → key = 16 * (q.toNat % 2 ^ 16) + q.toNat / 2 ^ 16 →
    (s.job s.issue.pre.job).links.contains (q.toNat % 2 ^ 16, q.toNat / 2 ^ 16, true) = true →
    (s.job s.issue.pre.job).broken.get false key = false →
    (s.latchAll [opA .x f, opB .x f, opC .x f]).resolveIn { write := true } (pieces va n.toNat) = (.ok parts, t) →
    (t.job s.issue.pre.job).stream.get (0, 0) key = (first, held) → n.toNat ≤ held →
    t.storesStuck t.issue.core t.issue.bank = false → u = t.flush t.issue.core t.issue.bank →
    u.imageBefore parts = false → u.behindOwn parts = false →
    from_ = (u.job s.issue.pre.job).linkParts key first n.toNat →
    exec (.lrecv f) s = .next ((u.modJob s.issue.pre.job fun j => { j with
      stream := j.stream.set (0, 0) key ((first + n.toNat) % 65536, held - n.toNat) }).writeParts u.issue.core
        (cutData parts (u.view u.mem from_)) (viewBad u.bad from_))) ∧
  ∀ (f : SR) (s : State), Ready s [opA .x f, opB .x f] [] → Runs (.rbkey f) s [opA .x f, opB .x f] fun k =>
    { k with rngKey := (s.srcX (opA .x f)).setWidth 32, rngCtr := (s.srcX (opB .x f)).setWidth 32, rbq := [] }

/-- R106, R109, R110, R111, R128, R152, R157, R158, R212, R221, R222, R246: waits end, queues issue, data arrives at a bank.  When a
late-poison trap is taken (log entry 103) and what it takes back (log entry 121) are the model's choices. -/
def Obligations.BankEventsTakePlace : Prop :=
  (∀ (s : State) (key : Nat) (eq : Bool) (v t : Word), (theCtx s).status = .running → (theCtx s).await = some (.word key eq v) →
    (theCtx s).timeout ≠ 0 → (theCtx s).since = some t → (theCtx s).timeout ≤ (s.sidereal - t).toNat →
    Settles .waitaTimeout s (onCtx s fun k => { k with expired := true })) ∧
  (∀ (s u : State) (w : Await) (t : Word), (theCtx s).status = .running → (theCtx s).await = some w → (theCtx s).since = some t →
    u = (onCtx s fun k => k.suspend (.parked w)) →
    (512 ≤ (s.sidereal - t).toNat → (theCtx s).queue = [] → (∀ e ∈ (theCtx s).pend, e.why ≠ .handle) →
      ((theCtx s).preq = none ∨ (theCtx s).mode = .supervisor →
        (w ≠ .swap → Settles .longWaitPark s u) ∧
        (w = .swap → Settles .longWaitPark s
          (u.modEngine s.arg.core fun e => { e with claims := e.claims ++ [((theCtx s).serial, (theCtx s).pc)] }))) ∧
      ((theCtx s).preq ≠ none → (theCtx s).mode = .user → w ≠ .swap →
        Settles .longWaitPark s (u.landPreempt s.arg.core s.arg.bank))) ∧
    ((s.sidereal - t).toNat < 512 → Settles .longWaitPark s s)) ∧
  (∀ (s : State) (e : QEntry), (theCtx s).queue.find? (fun q => q.slot = s.arg.n) = some e → e.late = none → e.mwait = false →
    (s.headReady s.arg.core s.arg.bank e = true → ∃ u : State, Settles .slotQueueIssue s u ∧ (theCtx u).queue = (theCtx s).queue.erase e ∧
      (theCtx u).x = (theCtx s).x ∧ (theCtx u).v = (theCtx s).v ∧ (theCtx u).t = (theCtx s).t ∧ (theCtx u).a = (theCtx s).a ∧
      u.mem = s.mem ∧ u.arg = s.arg ∧ ∀ p ∈ (theCtx u).pend, p.why = .slip s.arg.n → p.n ≠ e.bundle) ∧
    (s.headReady s.arg.core s.arg.bank e = false → Settles .slotQueueIssue s s)) ∧
  (∀ (s : State) (e : QEntry), (theCtx s).queue.find? (fun q => q.slot = s.arg.n) = some e → e.late = none → e.mwait = true →
    (∃ p ∈ (theCtx s).pend, p.bundle < e.bundle ∧ p.why = .matrix ∧ ∃ n, p.reg = .t n ∨ p.reg = .a n) →
    Settles .slotQueueIssue s (s.releaseStacksOf s.arg.core s.arg.bank)) ∧
  (∀ (s : State) (e : QEntry), (theCtx s).queue.find? (fun q => q.slot = s.arg.n) = some e → e.late = none → e.mwait = true →
    (theCtx s).pend = [] → (∀ x ∈ (theCore s).exp, x.2.busy = false) →
    (s.releaseStacksOf s.arg.core s.arg.bank).siblingsReady s.arg.core s.arg.bank e = true →
    ∃ u : State, Settles .slotQueueIssue s u ∧ (theCtx u).queue = (theCtx s).queue.erase e ∧ u.mem = s.mem ∧
      (∀ st ∈ (u.cluster (clusterOf s.arg.core)).stk, st.members.any (·.of s.arg.core s.arg.bank) = true → st.released.isSome = true)) ∧
  (∀ (s t : State) (e : QEntry) (o : LateOp), (theCtx s).queue.find? (fun q => q.slot = s.arg.n) = some e → e.mwait = false →
    e.late = some o → s.headReady s.arg.core s.arg.bank e = true →
    s.carryOut s.arg.core s.arg.bank e o = .next t → t.arg = s.arg →
    (t.issue.verdict = .commit → s.engineAhead s.arg.core e = true → t.issue.joined = false → Settles .slotQueueIssue s s) ∧
    (t.issue.verdict = .commit → s.engineAhead s.arg.core e = false ∨ t.issue.joined = true → ∃ u : State, Settles .slotQueueIssue s u ∧
      (theCtx u).queue = (theCtx s).queue.erase e ∧ u.mem = t.mem ∧
      u.issue = .none ∧ (theCtx u).pc = (theCtx s).pc ∧
      (∀ n, e.writes = [.v n] → (theCtx u).v = (theCtx s).v.set .zero n ((t.ctx s.arg.core s.arg.bank).getV n) ∧
        (theCtx u).x = (theCtx s).x ∧ (theCtx u).t = (theCtx s).t ∧ (theCtx u).a = (theCtx s).a) ∧
      (∀ n, e.writes = [.a n] → (theCtx u).a = (theCtx s).a.set .zero n ((t.ctx s.arg.core s.arg.bank).getA n) ∧
        (theCtx u).x = (theCtx s).x ∧ (theCtx u).t = (theCtx s).t ∧ (theCtx u).v = (theCtx s).v)) ∧
    (∀ i r, t.issue.verdict = .trap i r → s.splitOut s.arg.core s.arg.bank = false →
      (∀ q ∈ (theCtx s).queue, e.bundle ≤ q.bundle) → (theCtx s).siblingsHave e = true →
      (∀ q ∈ (theCtx s).siblings e, q.slot < e.slot → s.doomed s.arg.core s.arg.bank q = false) →
      Settles .slotQueueIssue s (((s.setCtx s.arg.core s.arg.bank ((theCtx s).unqueue o e.bundle)).takeTrap
        s.arg.core s.arg.bank ⟨0x10, e.slot, 0, 0, 0, false, true, o.pc⟩).service 1 (theCtx s).job
        s.pkg.svctl (contextWord s.arg.core s.arg.bank (theCtx s).job) ((s.job (theCtx s).job).fqhead.setWidth 64)))) ∧
  (∀ s : State, (∀ e ∈ (theCtx s).pend, e.why = .load → e.n = s.arg.n → e.bad = false) →
    Settles .loadDataReturn s (onCtx s fun k => { k with pend := k.pend.filter fun e => !(e.why = .load && e.n = s.arg.n) })) ∧
  (∀ (s : State) (e : Pend) (m : Nat), e ∈ (theCtx s).pend → e.why = .load → e.n = s.arg.n → e.bad = true → e.reg = .x m → m ≠ 0 → m < 64 →
    ∃ u : State, Settles .loadDataReturn s u ∧ (theCtx u).xbad.getLsbD m = true ∧
      ∀ p ∈ (theCtx u).pend, p.why = .load → p.n ≠ s.arg.n) ∧
  (∀ s : State, (∀ e ∈ (theCtx s).pend, e.why = .matrix → e.n = s.arg.n → e.bad = false) → Settles .matrixResultWrite s
    (onCtx s fun k => { k with pend := k.pend.filter fun e => !(e.why = .matrix && e.n = s.arg.n) })) ∧
  (∀ (s : State) (e : Pend) (r : List Pend), (theCtx s).pend = e :: r → e ∉ r → e.n = s.arg.n → s.xsBusy s.arg.core e.xs = false →
    (e.why = .tile none → e.bad = false → Settles .tileLoadComplete s (onCtx s fun k => { k with pend := r })) ∧
    (∀ n, e.why = .tile none → e.bad = true → e.reg = .t n → Settles .tileLoadComplete s
      (onCtx s fun k => { k with pend := r }.setT n { k.getT n with tag := .poison })) ∧
    (∀ q, e.why = .tile (some q) → e.bad = false → (∀ p ∈ r, p.why ≠ .mark q) → Settles .tileLoadComplete s (onCtx s fun k =>
      { k.setRing q { k.getRing q with fill := (k.getRing q).fill + 1 } with pend := r }))) ∧
  (∀ (s : State) (e : Pend) (x : Nat), (theCtx s).pend.find? (fun e => e.n = s.arg.n && (match e.why with
      | .tile _ => true
      | _ => false)) = some e → e.xs = some x → ((theCore s).exp.get .none x).busy = true → Settles .tileLoadComplete s s) ∧
  (∀ s : State, Settles .expanderLoadComplete s (s.modCore s.arg.core fun k =>
    { k with exp := k.exp.set .none s.arg.n { k.exp.get .none s.arg.n with busy := false } })) ∧
  (∀ (s : State) (b : LoadBlock), b = (theCtx s).blocks.get .none s.arg.n → b.used = true → b.broken = false →
    Settles .loadBlockFilled s (onCtx s fun k => { k with blocks := k.blocks.set .none s.arg.n { b with filled := true } })) ∧
  (∀ s : State, (theCtx s).status ≠ .idle → (theCtx s).rbq.length < 8 → Settles .generatorRefill s (onCtx s fun k =>
    { k with rbq := k.rbq ++ [genWord k.rngKey k.rngCtr], rngCtr := k.rngCtr + 16 })) ∧
  ∀ (s u : State) (n c b job : Nat) (any : Bool), s.fabric.events.find? (fun e => e.1 = s.arg.n) = some (n, c, b, job, any) →
    u = { s with fabric := { s.fabric with events := s.fabric.events.filter fun e => e.1 ≠ n } } →
    ((s.ctx c b).status ≠ .idle → (any = true ∨ (s.ctx c b).job = job) →
      Settles .eventArrival s (u.modCtx c b fun k => { k with event := true })) ∧
    ((s.ctx c b).status = .idle ∨ (any = false ∧ (s.ctx c b).job ≠ job) → Settles .eventArrival s u)

/-- R274, R340, R341, R343, R348, R349, R355, R391, R437: stores and reductions perform, seq_cst accesses take their place on the
slot wheel and perform in it, and the timer traps.  That a store of several units, a release store among them, may land all its units
at once or one at a time is the model's choice (log entry 9). -/
def Obligations.AccessesPerform : Prop :=
  (∀ (s : State) (st : StoreOp) (r : List StoreOp), (theCtx s).stores = st :: r → st.n = s.arg.n → (∀ o ∈ r, st.n < o.n) →
    st.stamp = none → s.imageWaits s.arg.core s.arg.bank st.n st.runs = false → s.fabric.reductions = [] →
    (st.release = true → s.imageRuns s.arg.core s.arg.bank st.n = []) →
    (st.unit = 0 →
      ∃ u : State, Settles .storePerform s u ∧ u.mem = (s.putParts s.arg.core st.parts st.bad).mem ∧
        u.arg = s.arg ∧ (theCtx u).stores = r ∧ (theCtx u).x = (theCtx s).x ∧ (theCtx u).pc = (theCtx s).pc) ∧
    (st.unit ≠ 0 → unitsOf st.unit st.parts ≠ [] → ∃ u : State, Settles .storePerform s u ∧ u.arg = s.arg ∧
      (theCtx u).x = (theCtx s).x ∧ (theCtx u).pc = (theCtx s).pc ∧
      ((u.mem = (s.useFree.2.putParts s.arg.core st.parts st.bad).mem ∧ (theCtx u).stores = r) ∨
        ∃ (i : Nat) (p : Nat × List Byte), (unitsOf st.unit st.parts)[i]? = some p ∧
          (∀ q ∈ (unitsOf st.unit st.parts).take i, runsMeet (q.1, q.2.length) (p.1, p.2.length) = false) ∧
          u.mem = (s.useFree.2.putParts s.arg.core [p] st.bad).mem ∧
          (theCtx u).stores = if (unitsOf st.unit st.parts).length = 1 then r
            else { st with parts := (unitsOf st.unit st.parts).eraseIdx i } :: r))) ∧
  (∀ (s : State) (q : ScWait) (w : Word), (theCtx s).sc = some q → q.stamp = none → (theCtx s).status = .running →
    (theCtx s).stores = [] → s.fabric.reductions = [] → s.imageRuns s.arg.core s.arg.bank s.fabric.nextItem = [] →
    (theCore s).scLast = none → w = s.sidereal + word ((s.arg.core + 256 - s.sidereal.toNat % 256) % 256) →
    ∃ u : State, Settles .scStamp s u ∧ (theCtx u).sc = some { q with stamp := some w } ∧ (theCore u).scLast = some w ∧ u.arg = s.arg ∧
      u.mem = s.mem) ∧
  (∀ (s : State) (st : StoreOp) (r : List StoreOp) (w : Word), (theCtx s).stores = st :: r → (∀ o ∈ r, o.n ≠ st.n) → st.stamp = some w →
    s.imageWaits s.arg.core s.arg.bank st.n st.runs = false →
    (∀ e ∈ s.cores, ∀ v, e.2.b0.stamped = some v ∨ e.2.b1.stamped = some v → w ≤ v) →
    ∃ u : State, Settles .scPerform s u ∧ u.mem = (s.putParts (homeWriter s.arg.core s.arg.bank) st.parts st.bad).mem ∧
      u.sidereal = (if s.sidereal < w + 512 then w + 512 else s.sidereal) ∧ u.arg = s.arg ∧ (theCtx u).stores = r) ∧
  (∀ (s : State) (q : ScWait) (w : Word) (a : ScAccess), (theCtx s).stores = [] → (theCtx s).sc = some q → q.stamp = some w →
    q.acc = [a] → a.result = none → a.kind = .load → isReg a.key = false →
    (∀ e ∈ s.cores, ∀ v, e.2.b0.stamped = some v ∨ e.2.b1.stamped = some v → w ≤ v) →
    ∃ u : State, Settles .scPerform s u ∧ u.mem = s.mem ∧
      u.sidereal = (if s.sidereal < w + 512 then w + 512 else s.sidereal) ∧ u.arg = s.arg ∧
      (theCtx u).sc = some { q with acc :=
        [{ a with old := s.view s.mem [(a.key, a.width)], result := some (ofLeBytes (s.view s.mem [(a.key, a.width)]), viewBad s.bad [(a.key, a.width)]) }] }) ∧
  (∀ (s t : State) (r : Reduction) (key : Nat), s.fabric.reductions = [r] → r.n = s.arg.n → r.stage = 0 → r.fault = none →
    (∀ c b, s.bankOf r.ctx = some (c, b) → (s.ctx c b).stores = [] ∧ s.imageRuns c b r.n = []) →
    s.resolve r.agent { write := true, atomic := true } (pieces r.va r.width) = (.ok [(key, r.width)], t) → isReg key = false →
    anyBad t.bad key r.width = false → t.fabric = s.fabric →
    ∃ u : State, Settles .reductionPerform s u ∧ u.fabric.reductions = [{ r with stage := 1 }] ∧
      (r.op = 0x10 → u.mem = (t.putBytes (homeWriter r.core r.bank) key (leBytes r.width ((t.numAt key r.width + r.operand.toNat % 2 ^ (8 * r.width)) %
        2 ^ (8 * r.width)))).mem)) ∧
  (∀ (s : State) (r : Reduction), s.fabric.reductions.find? (fun r => r.n = s.arg.n && r.stage = 1) = some r →
    ∃ u : State, Settles .reductionAck s u ∧ (∀ x ∈ u.fabric.reductions, x.n ≠ r.n) ∧
      (u.counter (clusterOf r.core) r.job).con = (s.counter (clusterOf r.core) r.job).con + 1 ∧ u.cores = s.cores ∧ u.mem = s.mem) ∧
  ∀ (s : State) (n : Nat), (theCtx s).status = .running → (theCtx s).mode = .user → (theCtx s).sc = none →
    (theCtx s).leaving = none → (theCtx s).trapping = false → s.drained s.arg.core s.arg.bank = true →
    (s.job (theCtx s).job).tslice ≠ 0 → n = (theCtx s).cycles.toNat / (s.job (theCtx s).job).tslice → (theCtx s).slices < n →
    ∃ t : State, theCtx t = { theCtx s with timer := false, slices := n } ∧ t.mem = s.mem ∧ t.arg = s.arg ∧ t.jobs = s.jobs ∧
      Settles .timer s (t.takeTrap s.arg.core s.arg.bank ⟨0x40, 0, 0, 0, 0, true, false, (theCtx s).pc⟩)

/-- R44, R57 to R65: a core places what it selects, records age and pass their gate, cores are bound to stages, blocked
posters are admitted or probe. Ties of an allocation and what MAXC leaves over (log entries 42, 117), a probe answered at once
(43) and the bank that a core of two idle ones takes (100) are the model's choices. -/
def Obligations.DispatcherPlacesAndAdmits : Prop :=
  (∀ (s : State) (b tier id : Nat) (r : Rec) (key : Nat), s.arg.core < 256 → s.offline s.arg.core = false →
    (theCore s).idleBank = some b → s.pick s.arg.core = some (key, tier, .record id) →
    s.disp.recs.find? (fun r => r.id = id) = some r → r.expand = false →
    ∃ u : State, Settles .placement s u ∧
      u.ctx s.arg.core b = { Ctx.idle with
        status := .running, pc := r.entry, wid := r.wid, argp := r.arg, trec := r.trec, prio := r.prio, job := r.job, asid := r.asid
        widths := ((s.launchFor r.job (ctrlPipe r.ctrl)).map (·.widths)).getD r.widths, joinp := r.joinp, ctrl := r.ctrl, counted := r.counted, launch := r.launch
        token := (s.ctx s.arg.core b).token, serial := s.disp.nextCtx, code := s.mem } ∧
      (u.core s.arg.core).active = b ∧ (u.core s.arg.core).bound = (theCore s).stage ∧ u.disp.nextCtx = s.disp.nextCtx + 1 ∧
        (∀ x ∈ u.disp.recs, x.id ≠ id) ∧
      (u.job r.job).stealDie = (if tier = 3 then min ((s.job r.job).stealDie + 1) 0xFFFF else (s.job r.job).stealDie) ∧ u.mem = s.mem) ∧
  (∀ (s : State) (b i key : Nat) (a : Arrived), s.arg.core < 256 → s.offline s.arg.core = false →
    (theCore s).idleBank = some b → s.pick s.arg.core = some (key, 0, .handler i) → (theCore s).queue[i]? = some a → a.kind = .handler →
    ∃ u : State, Settles .placement s u ∧ (u.ctx s.arg.core b).status = .running ∧ (u.ctx s.arg.core b).mode = .user ∧
      (u.ctx s.arg.core b).pc = a.entry ∧ (u.ctx s.arg.core b).getX 5 = a.x5 ∧ (u.ctx s.arg.core b).wid = a.wid ∧
      (u.ctx s.arg.core b).prio = a.prio ∧ (u.ctx s.arg.core b).counted = a.holder ∧
      (∀ w0 w1, a.payload = .words w0 w1 → (u.ctx s.arg.core b).getX 3 = w0 ∧ (u.ctx s.arg.core b).getX 4 = w1) ∧
      u.pkg.msgs = s.pkg.msgs + 1) ∧
  (∀ (s : State) (b tier key total : Nat) (r : Rec), s.arg.core < 256 → s.offline s.arg.core = false →
    (theCore s).idleBank = some b → s.pick s.arg.core = some (key, tier, .record s.arg.n) →
    s.disp.recs.find? (fun r => r.id = s.arg.n) = some r → r.expand = true → r.total = some total → r.made < total → r.handles = 0 →
    ∃ u : State, Settles .expansionSelect s u ∧ (u.ctx s.arg.core b).status = .running ∧ (u.ctx s.arg.core b).pc = r.entry ∧
      (u.ctx s.arg.core b).wid = r.wid + word r.made ∧ (u.ctx s.arg.core b).job = r.job ∧ (u.ctx s.arg.core b).argp = r.arg) ∧
  (∀ (s : State) (r : Rec) (rest : List Rec) (t : Word), s.disp.recs = r :: rest → r.id = s.arg.n → r.gated = some t →
    (s.job r.job).ptimeout ≠ 0 → max 1024 (s.job r.job).ptimeout ≤ (s.sidereal - t).toNat →
    Settles .gatingTimeout s (State.modJob { s with disp := { s.disp with
        recs := s.disp.recs.map fun x => if x.id = s.arg.n then { x with gated := none, through := true } else x } } r.job fun q =>
      { q with tmoPlace := min (q.tmoPlace + 1) 0xFFFF })) ∧
  (∀ (s : State) (f : Rec → Rec),
    (∀ r, f r = if r.prio < min (min 3 (s.job r.job).ceil) (r.prio0 + (s.sidereal - r.time).toNat / 2 ^ 20)
      then { r with prio := r.prio + 1, queue := r.queue + 1 } else r) →
    Settles .aging s { s with disp := { s.disp with recs := s.disp.recs.map fun r => if r.id = s.arg.n then f r else r } }) ∧
  (∀ s : State, ∃ u : State, Settles .stageAllocation s u ∧ u.mem = s.mem ∧ u.disp.recs = s.disp.recs ∧
    u.disp.allocated = (((s.disp.launches.flatMap Launch.refs).zip (s.shares ((List.range 256).filter fun c => !s.offline c).length
      (s.disp.launches.flatMap Launch.refs))).map fun e => (e.1.launch, e.1.pipe, e.1.stage, e.2)) ∧
    ∀ c, (u.core c).b0 = (s.core c).b0 ∧ (u.core c).b1 = (s.core c).b1 ∧ (u.core c).active = (s.core c).active) ∧
  (∀ (s : State) (c b : Nat) (q : Blocked), s.stageRoom s.arg.n s.arg.m s.arg.k = true →
    s.longestBlocked s.arg.n s.arg.m s.arg.k = some (c, b, q) →
    Settles .blockedPostAdmit s (s.modCtx c b fun k => { k with blocked := some { q with admitted := true } })) ∧
  (∀ (s : State) (q : Blocked), (theCtx s).blocked = some q → q.admitted = false →
    (q.probe = none → 1024 < (s.sidereal - q.since).toNat) → (∀ t, q.probe = some t → 1024 ≤ (s.sidereal - t).toNat) →
    Settles .probeSend s (onCtx s fun k => { k with blocked := some { q with
      probe := some s.sidereal
      returned := s.probeFinds (q.job, q.pipe, q.stage) (s.blockedPosts.length + 1) [(q.job, q.pipe, q.stage)] } })) ∧
  ∀ (s t : State) (q p : Blocked) (c b : Nat), (theCtx s).blocked = some q → q.admitted = false → q.returned = true →
    (q.job, q.pipe, q.stage) ∉ s.disp.spent → t = onCtx s (fun k => { k with blocked := some { q with returned := false } }) →
    t.longestBlocked q.job q.pipe q.stage = some (c, b, p) →
    Settles .probeGrant s (((State.modCtx { t with disp := { t.disp with spent := (q.job, q.pipe, q.stage) :: t.disp.spent } } c b
      fun k => { k with blocked := some { p with admitted := true } })).modJob q.job fun j =>
        { j with probeGrant := min (j.probeGrant + 1) 0xFFFF })

/-- R25 to R32, R46 to R48, R355: host posts, launches and their grid tasks. That a slot which is killed or torn down, KSTAT 2
included, takes no host post (log entry 114) and that a rejected counted host post is consumed (110) are the model's choices;
the order of a launch's checks is R28's own. -/
def Obligations.HostPostsAndLaunches : Prop :=
  (∀ (s : State) (j : Nat), j = s.arg.n → (64 ≤ j ∨ (s.job j).open = false) → Settles .hostPost s s) ∧
  (∀ (s : State) (j : Nat), j = s.arg.n → j < 64 → (s.job j).active = true → (s.job j).kstat = 0 → (s.job j).tearing = false →
    s.arg.data.length = 64 → s.arg.m % 64 = 0 →
    ((s.disp.host.filter fun e => e.1 = j).length < 32 →
      ((RecIn.ofBytes s.arg.data).ctrl.getLsbD 5 = false → Settles .hostPost s { s with
        disp := { s.disp with host := s.disp.host ++ [(j, s.arg.data)] }, pkg := { s.pkg with hposts := s.pkg.hposts + 1 } }) ∧
      ((RecIn.ofBytes s.arg.data).ctrl.getLsbD 5 = true → ∃ u : State, Settles .hostPost s u ∧
        u.disp.host = s.disp.host ++ [(j, s.arg.data)] ∧ u.pkg.hposts = s.pkg.hposts + 1 ∧
        (u.counter 49 j).inj = (s.counter 49 j).inj + 1 ∧ (u.counter 49 j).act = true ∧ u.cores = s.cores ∧ u.mem = s.mem)) ∧
    (32 ≤ (s.disp.host.filter fun e => e.1 = j).length → ∃ u : State, Settles .hostPost s u ∧ u.disp = s.disp ∧
      (u.job j).hpostDrop = min ((s.job j).hpostDrop + 1) 0xFFFF ∧
      ∃ r : FaultRec, u.faults = s.faults ++ [r] ∧ r.cause = 0x24 ∧ r.job = j)) ∧
  (∀ (s : State) (j : Nat) (bs : List Byte) (r : RecIn), j = s.arg.n → s.disp.host.find? (fun e => e.1 = j) = some (j, bs) →
    r = RecIn.ofBytes bs →
    (s.recordOk j 0 r = true → s.mayEnter j (bits r.ctrl 8 8) (bits r.ctrl 2 3) = true → Settles .hostPostEnter s
      (State.queueRec { s with disp := { s.disp with host := s.disp.host.erase (j, bs) } } r 0 j 0 49 (j % 32) none)) ∧
    (s.recordOk j 0 r = true → s.mayEnter j (bits r.ctrl 8 8) (bits r.ctrl 2 3) = false → Settles .hostPostEnter s s) ∧
    (s.recordOk j 0 r = false → ∃ u : State, Settles .hostPostEnter s u ∧ u.disp.host = s.disp.host.erase (j, bs) ∧
      u.disp.recs = s.disp.recs ∧ (r.ctrl.getLsbD 5 = true → (u.counter 49 j).con = (s.counter 49 j).con + 1) ∧
      ∃ x : FaultRec, u.faults = s.faults ++ [x] ∧ x.cause = 0x20 ∧ x.job = j)) ∧
  (∀ (s t : State) (j : Nat) (va : Word), j = s.arg.n → va = s.arg.v → j < 64 → t = s.modJob j (fun q => { q with launchVA := va }) →
    ((s.job j).active = false → Settles .launch s (t.modJob j fun q => { q with err := true })) ∧
    (∀ (t1 : State) (bs : List Byte) (h : Header) (l : Launch), (s.job j).active = true → (s.job j).kstat = 0 →
      (s.job j).tearing = false → va.toNat % 128 = 0 → t.iodRead j va 128 = (some bs, t1) → h = Header.ofBytes bs →
      l = h.launch t1.disp.nextLaunch j (t1.job j).asid va →
      (t1.launchCode h l = 0 → Settles .launch s (t1.launchTables h l)) ∧
      (t1.launchCode h l ≠ 0 → Settles .launch s (t1.putStatus j va (t1.launchCode h l))))) ∧
  (∀ (s : State) (h : Header) (l : Launch), (bits h.shape 46 2 ≠ 0 ∨ h.rest ≠ 0 → s.launchCode h l = 0x88) ∧
    (bits h.shape 46 2 = 0 → h.rest = 0 → 64 < l.widths.sum → s.launchCode h l = 0x81) ∧
    (s.launchCode h l = 0 → (s.disp.launches.filter fun x => x.job = l.job).length < 16)) ∧
  (∀ (s s1 s2 s3 : State) (h : Header) (l l1 : Launch) (pt : List Byte) (js : List (List Byte)),
    s.iodRead l.job h.pipet (128 * l.npipe) = (some pt, s1) →
    s1.iodReadAll l.job 32 (l.levels.map fun k => l.joint + word (32 * k)) = (some js, s2) →
    l1 = { l with stages := Sparse.run .none 0 ((stageTable pt l.npipe).map (·.1)), joins := l.levels.zip (js.map joinOf)
                  live := l.grid + l.counters } →
    s2.launchCode2 l1 (stageTable pt l.npipe) = 0 →
    s2.iodFill l.job (pieces l.jbase (8 * l.counters)) l1.counterBytes = (true, s3) →
    s.launchTables h l = State.putStatus { s3 with disp := { s3.disp with
      launches := s3.disp.launches ++ [l1], nextLaunch := s3.disp.nextLaunch + 1 } } l.job l.hdr 1) ∧
  ∀ (s : State) (l : Launch) (r : RecIn), s.disp.launches.find? (fun l => l.id = s.arg.n) = some l → l.posted < l.ext.foldl (· * ·) 1 →
    r = ⟨l.gentry, l.widAt (l.indexes 6 l.posted), l.arg, l.joinpFor 7 l.posted, 0, 0, l.gctrl, 0⟩ →
    (s.recordOk l.job 0 r = true → s.mayEnter l.job (bits r.ctrl 8 8) (bits r.ctrl 2 3) = true → Settles .gridTaskPost s
      (State.enterRec { s with disp := { s.disp with launches := s.disp.launches.map fun (x : Launch) =>
        if x.id = l.id then { x with posted := x.posted + 1 } else x } } r 0 l.job l.hdr 49 (l.job % 32) (some l.id))) ∧
    (s.recordOk l.job 0 r = true → s.mayEnter l.job (bits r.ctrl 8 8) (bits r.ctrl 2 3) = false → Settles .gridTaskPost s s)

/-- R223, R225 to R229: merge stacks are released, run, take an engine, write their accumulators and dissolve; R279, R281,
R282, R285, R295: copies read, write, complete and stop.  The PC of a copy's record (log entry 79) and the completion
of a stopped copy by index 1 (log entry 107) are the model's choices. -/
def Obligations.MergeStacksAndCopies : Prop :=
  ((∀ s : State, Settles .stackDeadlineRelease s (s.modCluster s.arg.n fun cl =>
     { cl with stk := cl.stk.map fun st =>
         if st.n = s.arg.m ∧ st.deadline ≤ s.sidereal ∧ st.released = none then { st with released := some st.deadline } else st })) ∧
   (∀ (s t : State) (st : Stack) (m : Member), (s.cluster s.arg.n).nextFor s.arg.core = some st →
     clusterOf s.arg.core = s.arg.n → s.offline s.arg.core = false → (∀ x ∈ (s.cluster s.arg.n).stk, x.core ≠ some s.arg.core) →
     (∀ e ∈ (theCore s).b0.pend ++ (theCore s).b1.pend, e.why ≠ .matrix) → st.members.find? (fun m => !m.gone) = some m →
     (∀ parts, s.memberImage st m = (.ok parts, t) → Settles .stackEngineStart s (t.modStack s.arg.n st.n fun st =>
       { st with core := some s.arg.core, begun := some (parts, t.view t.mem parts) })) ∧
     (∀ x, s.memberImage st m = (.error x, t) → Settles .stackEngineStart s (t.modStack s.arg.n st.n fun st =>
       { st with core := some s.arg.core }))) ∧
   (∀ (cl : Cluster) (c : Nat) (st : Stack), cl.nextReleased = some st → cl.nextFor c = some st ∧ st ∈ cl.stk ∧ st.released.isSome = true ∧
     ∀ o ∈ cl.stk, o.released.isSome = true → o.core = none → o.lone = false → o.prio ≤ st.prio) ∧
   (∀ (s : State) (st : Stack) (parts : List (Nat × Nat)) (old : List Byte), s.stackAt s.arg.n s.arg.m = some st → st.b = none →
     st.begun = some (parts, old) →
     (viewBad s.bad parts = true → Settles .stackSplit s (s.modStack s.arg.n st.n fun st => { st with begun := none })) ∧
     (viewBad s.bad parts = false → old = s.view s.mem parts →
       Settles .stackSplit s ((s.afterRead parts).modStack s.arg.n st.n fun st => { st with b := some (imageTile st.bfmt old) })) ∧
     (viewBad s.bad parts = false → old ≠ s.view s.mem parts → old.length = (s.view s.mem parts).length → ∃ bs : List Byte,
       Settles .stackSplit s ((State.afterRead { s with free := s.free + old.length / 8 } parts).modStack s.arg.n st.n fun st =>
         { st with b := some (imageTile st.bfmt bs) }) ∧
       ∀ i, (bs.drop (8 * i)).take 8 = (old.drop (8 * i)).take 8 ∨ (bs.drop (8 * i)).take 8 = ((s.view s.mem parts).drop (8 * i)).take 8)) ∧
   (∀ (s : State) (st : Stack) (b : Tile) (m : Member) (ms : List Member) (c : MClass), s.stackAt s.arg.n s.arg.m = some st → st.b = some b →
     st.members = m :: ms → m.gone = false → pairClass st.afmt st.bfmt = some c →
     ∃ t : State, t = (s.modCtx m.core m.bank fun k =>
       (k.setA m.acc { accumulate c st.afmt st.bfmt m.h m.rows b
         (if m.za = true then { k.getA m.acc with rows := [] } else k.getA m.acc) with tag := c.accTag, bound := m.bound }).memberDone m) ∧
       (ms = [] → Settles .stackSplit s (t.dropStack s.arg.n st.n)) ∧
       (ms ≠ [] → Settles .stackSplit s (t.modStack s.arg.n st.n fun st => { st with members := ms }))) ∧
   (∀ (s : State) (st : Stack) (b : Tile), s.stackAt s.arg.n s.arg.m = some st → st.b = some b →
     (st.members = [] ∨ (∃ m, st.members = [m] ∧ m.gone = true) → Settles .stackSplit s (s.dropStack s.arg.n st.n)) ∧
     (∀ m ms, st.members = m :: ms → ms ≠ [] → m.gone = true →
       Settles .stackSplit s (s.modStack s.arg.n st.n fun st => { st with members := ms }))) ∧
   ∀ (s t : State) (st : Stack) (m : Member), s.stackAt s.arg.n s.arg.m = some st → st.core.isSome = true → st.b = none →
     st.begun = none → st.members = [m] → m.gone = false →
     (∀ b, s.fetchImage st m = (.ok b, t) → Settles .stackDissolve s ((t.finishMember st b m).dropStack s.arg.n s.arg.m)) ∧
     (∀ x, s.fetchImage st m = (.error x, t) → ∃ u : State, Settles .stackDissolve s u ∧
       ((u.ctx m.core m.bank).getA m.acc).tag = .poison ∧
       ∃ r : FaultRec, u.faults = t.faults ++ [r] ∧ r.cause = x.1 ∧ r.access = 7 ∧ r.async = true ∧ r.va = st.va ∧ r.core = m.core ∧
         r.notice = true)) ∧
  (∀ (s : State) (q : Copy), (theCore s).engine.current = none → (theCore s).engine.waiting = some q → Settles .copyStart s
    (s.modEngine s.arg.core fun e => { e with current := some { q with started := true }, waiting := none })) ∧
  (∀ (s t u : State) (q : Copy) (r : Run), s.working s.arg.core = some q → s.arg.flag = false → q.desc.mode = 0 → q.desc.srcf = false →
    q.desc.dstf = false →
    s.copyRead s.arg.core q (strideSum q.desc.src (q.desc.index q.pos) q.desc.sstr) q.desc.run = (.ok r, t) → r.bad = false →
    t.copyWrite s.arg.core q (strideSum q.desc.dst (q.desc.index q.pos) q.desc.dstr) r = (.ok (), u) →
    Settles .copyElementWrite s ((u.modCopy s.arg.core fun q => { q with pos := q.pos + 1, pages := [] }).countSectors s.arg.core q
      (sectorsAt (strideSum q.desc.dst (q.desc.index q.pos) q.desc.dstr) q.desc.run) false)) ∧
  (∀ (s u : State) (q : Copy), s.working s.arg.core = some q → s.arg.flag = false → q.desc.mode = 7 → q.desc.srcf = false → q.desc.dstf = false →
    s.copyWrite s.arg.core q (strideSum q.desc.dst (q.desc.index q.pos) q.desc.dstr) (.clean (List.replicate q.desc.run 0)) = (.ok (), u) →
    Settles .copyElementWrite s ((u.modCopy s.arg.core fun q => { q with pos := q.pos + 1, pages := [] }).countSectors s.arg.core q
      (sectorsAt (strideSum q.desc.dst (q.desc.index q.pos) q.desc.dstr) q.desc.run) false)) ∧
  (∀ (s : State) (q : Copy) (p : Nat × Run) (l : List (Nat × Run)), (theCore s).engine.current = some q → q.land = some (p :: l) →
    s.arg.flag = false → q.quiet = false → Settles .copyElementWrite s (((s.putRuns (engineWriter s.arg.core) (p :: l)).modCopy s.arg.core fun q =>
      { q with land := none, owed := (0, false) }).countSectors s.arg.core q q.owed.1 q.owed.2)) ∧
  (∀ (s t u : State) (q : Copy) (src dst : Nat), s.working s.arg.core = some q → s.arg.flag = false → q.desc.mode = 5 → q.desc.mpar = 0 →
    s.framePlace s.arg.core q false (q.desc.src + word (16384 * q.pos)) = (.ok src, t) →
    t.framePlace s.arg.core q true (q.desc.dst + word (16384 * q.pos)) = (.ok dst, u) → (u.runAt [(src, 16384)]).bad = false →
    Settles .dramlocFrame s (((u.putRun (engineWriter s.arg.core) dst (u.runAt [(src, 16384)])).modCopy s.arg.core fun q =>
      { q with pos := q.pos + 1 }).countSectors s.arg.core q (if q.pos + 1 = q.desc.pages then 512 * q.desc.pages else 0) false)) ∧
  (∀ (s t : State) (q : Copy) (x : CopyFault), s.working s.arg.core = some q → q.desc.mode ≠ 5 →
    s.copyUnit s.arg.core q = (.error x, t) → Settles .copyFault s (t.stopCopy s.arg.core q x)) ∧
  (∀ (s : State) (c : Nat) (q : Copy) (x : CopyFault), ∃ r : FaultRec, (s.copyRecord c q x.cause x.access x.va x.detail).faults = s.faults ++ [r] ∧
    r.cause = x.cause ∧ r.access = x.access ∧ r.va = x.va ∧ r.detail = x.detail ∧ r.async = true ∧ r.core = c ∧ r.job = q.job ∧ r.pc = q.pc) ∧
  (∀ (s : State) (q : Copy), (theCore s).engine.current = some q → q.program = none → q.land = none → q.started = true →
    q.finished = true → q.quiet = false → q.err = false → q.desc.flaga = 0 → s.arg.m = 0 →
    ∃ u : State, Settles .copyComplete s u ∧ (theCore u).engine.current = none ∧ (theCore u).engine.waiting = (theCore s).engine.waiting ∧
      (theCore u).engine.done.get (0, false) q.job = (q.seq, false) ∧ u.mem = s.mem ∧ u.arg = s.arg) ∧
  (∀ (s t : State) (q : Copy) (parts : List (Nat × Nat)), (theCore s).engine.current = some q → q.program = none → q.land = none → q.started = true →
    q.finished = true → q.quiet = false → q.err = false → q.desc.flaga ≠ 0 → s.arg.m = 0 →
    s.resolve (q.agent s.arg.core) { write := true } (pieces q.desc.flaga 8) = (.ok parts, t) →
    Settles .copyComplete s (State.dropCopy ((t.writeParts (engineWriter s.arg.core) (cutData parts (leBytes 8 q.desc.flagv.toNat))).modEngine s.arg.core
      fun e => { e with done := e.done.set (0, false) q.job (q.seq, false) }) s.arg.core)) ∧
  (∀ (s : State) (q : Copy), (theCore s).engine.current = some q → q.program = none → q.land = none → q.stopped = true → q.quiet = true →
    s.arg.m = 0 → Settles .copyComplete s (s.dropCopy s.arg.core)) ∧
  (∀ (s : State) (q : Copy), (theCore s).engine.waiting = some q → q.stopped = true → q.quiet = true → s.arg.m = 1 →
    Settles .copyComplete s (s.modEngine s.arg.core fun e => { e with waiting := none })) ∧
  ∀ (s : State) (q : Copy) (page : Nat) (data : List Byte) (marks : List Bool), (theCore s).engine.current = some q →
    q.program = some (page, data, marks) → q.quiet = false →
    Settles .flashProgramComplete s ((((s.putRun (engineWriter s.arg.core) (flashKey (16384 * page)) ⟨data, marks⟩).modFlash (page % 8)
      (·.rewrite page)).modCopy s.arg.core fun q => { q with program := none }).pageDone s.arg.core q)

/-- R296 to R304, R312 to R315, R416: reads and relocation of the flash stacks; the handle table answers; pages of a handle land and
the handle becomes READY, ERROR or FREE. Where a page that is written stands (log entry 54), what a relocation does to a page that it
finds uncorrectable and to an armed injection (55), and what a landing page is translated by (56) are the model's choices. -/
def Obligations.FlashAndHandlesWork : Prop :=
  (∀ (s : State) (r : FlashRead) (k : FlashStack) (h i : Nat), s.reads = [r] → r.n = s.arg.n → r.got = none → r.held = false →
    r.reader = .handle h i → k = s.flashStack (r.page % 8) → k.moving.contains (k.blockOf r.page) = false →
    k.reads.get 0 (k.blockOf r.page) + 1 < k.thresh →
    ∃ (u : State) (bad : Bool), Settles .flashPageRead s u ∧ u.reads = [{ r with got := some bad }] ∧
      (k.lost.contains r.page = true ∨ (k.arm = true ∧ k.armPage = r.page) → bad = true) ∧
      (u.flashStack (r.page % 8)).reads.get 0 (k.blockOf r.page) = k.reads.get 0 (k.blockOf r.page) + 1 ∧
      (u.flashStack (r.page % 8)).uncorr = (if bad = true then min (k.uncorr + 1) 0xFFFFFFFF else k.uncorr) ∧
      (u.flashStack (r.page % 8)).moving = k.moving ∧ (u.job (s.handle h).job).flashBytes = (s.job (s.handle h).job).flashBytes + 16384 ∧
      u.mem = s.mem ∧ u.cores = s.cores) ∧
  (∀ (s : State) (k : FlashStack) (page : Nat), k = s.flashStack (page % 8) → k.moving.contains (k.blockOf page) = false →
    k.thresh ≤ k.reads.get 0 (k.blockOf page) + 1 → ((s.countRead page).flashStack (page % 8)).moving = k.blockOf page :: k.moving) ∧
  (∀ (k : FlashStack) (page : Nat) (weak : Bool),
    ((k.lost.contains page = true ∨ (k.arm = true ∧ k.armPage = page) ∨ weak = true) →
      (k.decode page weak).1 = true ∧ (k.decode page weak).2.uncorr = min (k.uncorr + 1) 0xFFFFFFFF) ∧
    (k.lost.contains page = false → (k.arm = false ∨ k.armPage ≠ page) → weak = false → k.decode page weak = (false, k)) ∧
    (k.arm = true → k.armPage = page → (k.decode page weak).2.arm = false)) ∧
  (∀ (k : FlashStack) (page : Nat), 0 < k.nextBlock →
    (k.rewrite page).lost = k.lost.filter (· ≠ page) ∧
    (∀ b n, k.fresh = some (b, n) → n < 2048 → b ≠ 0 → (k.rewrite page).blockOf page = b) ∧
    (k.fresh = none ∨ (∃ b n, k.fresh = some (b, n) ∧ 2048 ≤ n) → (k.rewrite page).blockOf page = k.nextBlock)) ∧
  (∀ s : State, (s.flashStack s.arg.n).moving.contains s.arg.m = true → s.readsAt s.arg.n s.arg.m = true → Settles .relocationRemap s s) ∧
  (∀ s : State, (s.flashStack s.arg.n).moving.contains s.arg.m = true → s.readsAt s.arg.n s.arg.m = false →
    ∃ u : State, Settles .relocationRemap s u ∧
    (u.flashStack s.arg.n).reads.get 0 s.arg.m = 0 ∧ s.arg.m ∉ (u.flashStack s.arg.n).moving ∧
    s.arg.m ∈ (u.flashStack s.arg.n).erasing ∧ (u.flashStack s.arg.n).reloc = min ((s.flashStack s.arg.n).reloc + 1) 0xFFFFFFFF ∧
    u.mem = s.mem ∧ (∀ r ∈ u.reads, r.page % 8 = s.arg.n → ((s.flashStack s.arg.n).blockOf r.page = s.arg.m ∨
      (s.flashStack s.arg.n).blockOf r.page ∉ (s.flashStack s.arg.n).moving) → r.held = false)) ∧
  (∀ (s : State) (f : Bool), (s.flashStack s.arg.n).erasing.contains s.arg.m = true → s.arg.flag = f → ∃ u : State,
    Settles .blockEraseComplete s u ∧ (u.flashStack s.arg.n).erasing = (s.flashStack s.arg.n).erasing.erase s.arg.m ∧
    (f = true → (u.flashStack s.arg.n).badBlocks = min ((s.flashStack s.arg.n).badBlocks + 1) 0xFFFFFFFF ∧
      (u.flashStack s.arg.n).spare = (s.flashStack s.arg.n).spare) ∧
    (f = false → (u.flashStack s.arg.n).spare = min ((s.flashStack s.arg.n).spare + 1) 0xFFFFFFFF)) ∧
  (∀ (s : State) (r : HReq) (n : Nat), s.nextAsk n = some r → r ∈ s.hreqs ∧ r.n = n ∧
    ∀ o ∈ s.hreqs, o.core = r.core → o.bank = r.bank → n ≤ o.n) ∧
  (∀ (s : State) (r : HReq) (h : Nat), s.nextAsk s.arg.n = some r → r.kind = .upgrade h →
    (s.handleState r.job h = .free → Settles .handleTableAnswer s (s.answer r (word (2 ^ 63 + 6)))) ∧
    (∀ f : FlashRead → FlashRead, s.handleState r.job h = .pending → (∀ o i, o.reader = .handle h i → f o = { o with demand := true }) →
      (∀ o, (∀ i, o.reader ≠ .handle h i) → f o = o) →
      Settles .handleTableAnswer s ((State.modHandle { s with reads := s.reads.map f } h fun k => { k with demand := true }).answer r (word h))) ∧
    (s.handleState r.job h = .ready → Settles .handleTableAnswer s (s.answer r (word h))) ∧
    (s.handleState r.job h = .error → Settles .handleTableAnswer s (s.answer r (word h)))) ∧
  (∀ (s : State) (r : HReq) (first count : Nat) (dest : Word) (demand below : Bool),
    s.nextAsk s.arg.n = some r → r.kind = .request first count dest demand below →
    (s.freeHandle = none → Settles .handleTableAnswer s (s.answer r (word (2 ^ 63 + 1)))) ∧
    (∀ h i, s.freeHandle = some h → i < count → s.destOk r (dest + word (16384 * i)) = false →
      Settles .handleTableAnswer s (s.answer r (word (2 ^ 63 + 2)))) ∧
    (∀ h i, s.freeHandle = some h → (∀ i < count, s.destOk r (dest + word (16384 * i)) = true) → i < count →
      (s.job r.job).granted (first + i) false = false → Settles .handleTableAnswer s (s.answer r (word (2 ^ 63 + 3)))) ∧
    (∀ h, s.freeHandle = some h → (∀ i < count, s.destOk r (dest + word (16384 * i)) = true) →
      (∀ i < count, (s.job r.job).granted (first + i) false = true) → below = true →
      Settles .handleTableAnswer s (s.answer r (word (2 ^ 63 + 4)))) ∧
    (∀ h, s.freeHandle = some h → (∀ i < count, s.destOk r (dest + word (16384 * i)) = true) →
      (∀ i < count, (s.job r.job).granted (first + i) false = true) → below = false →
      Settles .handleTableAnswer s (((List.range count).foldl (fun s i => s.readFlash (first + i) (.handle h i) demand)
        (s.modHandle h fun _ => ⟨.pending, r.job, r.asid, first, count, dest, demand, [], false, false⟩)).answer r (word h)))) ∧
  (∀ (s : State) (r : FlashRead) (bad : Bool),
    s.reads.find? (fun r => r.reader = .handle s.arg.n s.arg.m && r.got.isSome) = some r → r.got = some bad → r.land = none →
    s.arg.flag = false →
    Settles .handlePageLand s (State.landPage { s with reads := s.reads.filter fun o => o.n ≠ r.n } s.arg.n s.arg.m r.page bad)) ∧
  ∀ (s : State) (k : Handle), k = s.handle s.arg.n → k.state = .pending → k.landed.length = k.count →
    (k.err = false → k.mark = false → Settles .handleReady s (s.modHandle s.arg.n fun k => { k with state := .ready })) ∧
    (k.err = true → k.mark = false → Settles .handleError s (s.modHandle s.arg.n fun k => { k with state := .error })) ∧
    (k.mark = true → Settles .handleReleaseFree s (s.modHandle s.arg.n fun _ => .free))

/-- R316 to R319, R355, R356, R363 to R366, R438: messages move, are counted and reach their core; notices raise CON; the
port's packets are repeated, acknowledged and abandoned; link bytes arrive. -/
def Obligations.MessagesAndPacketsMove : Prop :=
  (∀ (s : State) (m : Msg), s.fabric.msgs = [m] → m.n = s.arg.n → m.route = [] → m.entryHeld = false → s.bankOf m.ctx = none → m.target < 256 →
    (s.job m.job).active = true → (s.job m.job).kstat = 0 → s.offline m.target = false → (s.job m.job).overflow = [] →
    (s.core m.target).held < 64 →
    Settles .messageArrival s (State.modCore { s with fabric := { s.fabric with msgs := [] } } m.target fun k => { k with queue := k.queue ++
      [{ kind := .handler, job := m.job, entry := m.entry, payload := m.payload, x5 := m.sender, x6 := 0, x7 := 0, x8 := 0, wid := m.wid
         widths := m.widths, prio := min (s.job m.job).ceil m.prio, holder := some m.holder, time := s.sidereal }] })) ∧
  (∀ (s : State) (core : Nat) (a : Arrived), core < 256 → s.offline core = false → 64 ≤ (s.core core).held →
    ((s.job a.job).overflow.length < (s.job a.job).overflowRoom →
      ((s.arrive core a).job a.job).overflow = (s.job a.job).overflow ++ [(core, a)] ∧ (s.arrive core a).faults = s.faults ∧
      (s.arrive core a).fabric = s.fabric ∧ ((s.arrive core a).core core).queue = (s.core core).queue) ∧
    ((s.job a.job).overflowRoom ≤ (s.job a.job).overflow.length → ∃ r : FaultRec, (s.arrive core a).faults = s.faults ++ [r] ∧ r.cause = 0x2B ∧
      ∀ i, a.holder = some i → ((s.arrive core a).counter i a.job).con = (s.counter i a.job).con + 1)) ∧
  (∀ (s : State) (m : Msg) (h : Nat) (r : List Nat), s.fabric.msgs = [m] → m.n = s.arg.n → m.route = h :: r → h ≠ 48 → m.entryHeld = false →
    s.bankOf m.ctx = none →
    ∃ u : State, Settles .messageHandover s u ∧ u.fabric.msgs = [{ m with holder := h, route := r, entryHeld := false }] ∧
      (u.counter h m.job).inj = (s.counter h m.job).inj + 1 ∧ ∃ n : Notice, u.fabric.notices = s.fabric.notices ++ [n] ∧
        n.kind = .handover ∧ n.iface = m.holder ∧ n.job = m.job) ∧
  (∀ (s : State) (m : Msg) (r : List Nat), s.fabric.msgs = [m] → m.n = s.arg.n → m.route = 48 :: r → m.entryHeld = false → s.bankOf m.ctx = none →
    ∃ u : State, Settles .messageHandover s u ∧ u.fabric.msgs = [] ∧ ∃ p : Packet, u.port.packets = s.port.packets ++ [p] ∧
      p.sent = 1 ∧ p.last = s.sidereal ∧ p.cargo = .message { m with holder := 48, route := r, entryHeld := false }) ∧
  (∀ (s : State) (m : Msg) (h c b : Nat) (r : List Nat) (st : StoreOp), s.fabric.msgs = [m] → m.n = s.arg.n → s.bankOf m.ctx = some (c, b) →
    st ∈ (s.ctx c b).stores → st.n < m.n → (m.route = h :: r → Settles .messageHandover s s) ∧ (m.route = [] → Settles .messageArrival s s)) ∧
  (∀ (s : State) (i : Instr) (kind : NoticeKind) (x : Notice), (i = .handoverAck ∧ kind = .handover ∨ i = .retirementNotice ∧ kind = .retirement) →
    s.fabric.notices.find? (fun x => x.n = s.arg.n && x.kind = kind) = some x →
    ∃ u : State, Settles i s u ∧ u.fabric.notices = s.fabric.notices.filter (fun y => y.n ≠ s.arg.n) ∧
      (u.counter x.iface x.job).con = (s.counter x.iface x.job).con + 1 ∧ (u.counter x.iface x.job).act = true ∧
      (u.counter x.iface x.job).inj = (s.counter x.iface x.job).inj ∧ u.cores = s.cores ∧ u.mem = s.mem) ∧
  (∀ (s : State) (w : WireMsg), s.arg.msg = some w → s.port.up = true → w.slot < 64 → (s.job w.slot).active = true →
    (s.job w.slot).kstat = 0 → s.isPeer w.slot w.chip = true → (s.peer w.slot w.chip).1 = w.endpoint →
    ∃ (u : State) (m : Msg), Settles .remoteMessageReceive s u ∧ u.fabric.msgs = s.fabric.msgs ++ [m] ∧ m.job = w.slot ∧ m.entry = w.entry ∧
      m.payload = w.payload ∧ m.target = w.target % 256 ∧ m.wid = w.wid ∧ m.holder = 48 ∧
      (u.counter 48 w.slot).inj = (s.counter 48 w.slot).inj + 1) ∧
  (∀ (s : State) (p : Packet), s.port.packets = [p] → p.n = s.arg.n → p.sent < p.retry → 1200 * p.rto ≤ (s.sidereal - p.last).toNat →
    Settles .ueRetransmit s { s with port := { s.port with packets := [{ p with sent := p.sent + 1, last := s.sidereal }] } }) ∧
  (∀ (s : State) (p : Packet) (m : Msg), s.port.packets = [p] → p.n = s.arg.n → p.cargo = .message m →
    ∃ u : State, Settles .ueAckReceive s u ∧ u.port.packets = [] ∧ (u.counter 48 m.job).con = (s.counter 48 m.job).con + 1 ∧
      u.cores = s.cores) ∧
  (∀ (s : State) (p : Packet) (m : Msg), s.port.packets = [p] → p.n = s.arg.n → p.cargo = .message m → p.retry ≤ p.sent →
    1200 * p.rto ≤ (s.sidereal - p.last).toNat → (s.job m.job).active = true → (s.job m.job).kstat = 0 →
    ((s.job m.job).lossRoom = false → Settles .ueAbandon s s) ∧
    ((s.job m.job).lossRoom = true → ∃ u : State, Settles .ueAbandon s u ∧ u.port.packets = [] ∧
      (u.job m.job).losshead = (s.job m.job).losshead + 1)) ∧
  ∀ (s : State) (q : Job) (key first held : Nat), q = s.job s.arg.n → key = 16 * s.arg.m + s.arg.k → s.port.up = true → s.arg.n < 64 →
    q.active = true → q.kstat = 0 → q.links.contains (s.arg.m, s.arg.k, true) = true → q.stream.get (0, 0) key = (first, held) →
    (held + s.arg.data.length ≤ 65536 → Settles .linkArrival s ((s.putParts 256 (cutData (q.linkParts key (first + held) s.arg.data.length)
      s.arg.data)).modJob s.arg.n fun q => { q with stream := q.stream.set (0, 0) key (first, held + s.arg.data.length) })) ∧
    (65536 < held + s.arg.data.length → ∃ u : State, Settles .linkArrival s u ∧ u.mem = s.mem ∧
      (u.job s.arg.n).broken.get false key = true ∧ ∃ r : FaultRec, u.faults = s.faults ++ [r] ∧ r.cause = 0x12 ∧ r.job = s.arg.n)

/-- R357 to R362: the meridian sweep's two passes and verdict, and the waves of a job on many packages.  That one event reads one
interface, that QSUM_I and QSUM_C are written at the root, and that a verdict which answers no wave is ignored are the model's
choices (log entry 90). -/
def Obligations.SweepsReachTheirVerdicts : Prop :=
  (∀ s : State, s.arg.m = 0 → s.fabric.wave = none → s.pkg.sweepEn = true → s.sidereal ≠ 0 →
    (∀ t, s.fabric.lastWave = some t → max 1024 s.fabric.period ≤ (s.sidereal - t).toNat) →
    ∃ u : State, Settles .sweepWaveStart s u ∧ u.fabric.lastWave = some s.sidereal ∧ u.fabric.period = s.pkg.period ∧ u.cores = s.cores ∧
      u.mem = s.mem ∧ u.fabric.counters = s.fabric.counters ∧ ∃ w : Wave, u.fabric.wave = some w ∧ w.start = s.sidereal ∧
        w.jobs = s.waveJobs ∧ w.second = false ∧ w.read = []) ∧
  (∀ (s : State) (w : Wave) (j : Nat) (i c : Word) (a : Bool), s.arg.m = 0 → s.fabric.wave = some w → w.second = false → w.jobs = [j] →
    w.sums1 = [(i, c, a)] → waveNext w.read s.arg.n = true → (s.job j).active = true → (s.job j).nm1 = 0 → ∃ u : State, Settles .sweepWaveStart s u ∧
      u.fabric.wave = some { w with read := s.arg.n :: w.read, sums1 := [(i + (s.counter s.arg.n j).inj,
        c + ((s.counter s.arg.n j).con + word (s.counter s.arg.n j).qw), a || (s.counter s.arg.n j).act)] } ∧
      u.counter s.arg.n j = { s.counter s.arg.n j with act := false } ∧ (∀ n, n ≠ s.arg.n → u.counter n j = s.counter n j) ∧
      u.cores = s.cores ∧ u.mem = s.mem) ∧
  (∀ (s : State) (w : Wave) (j : Nat) (i c : Word) (a : Bool), s.arg.m = 0 → s.fabric.wave = some w → w.second = true → w.jobs = [j] →
    w.sums2 = [(i, c, a)] → waveNext w.read s.arg.n = true → (s.job j).active = true → (s.job j).nm1 = 0 →
      Settles .sweepPass2 s { s with fabric := { s.fabric with
      wave := some { w with read := s.arg.n :: w.read, sums2 := [(i + (s.counter s.arg.n j).inj,
        c + ((s.counter s.arg.n j).con + word (s.counter s.arg.n j).qw), a || (s.counter s.arg.n j).act)] } } }) ∧
  (∀ (s : State) (w : Wave) (j : Nat), s.arg.m = 0 → s.fabric.wave = some w → w.second = false → w.jobs = [j] →
    waveNext w.read s.arg.n = true → (s.job j).nm1 ≠ 0 → Settles .sweepWaveStart s { s with fabric := { s.fabric with
      wave := some { w with read := s.arg.n :: w.read, jobs := [], sums1 := [], sums2 := [] } } }) ∧
  (∀ (s : State) (w : Wave), s.arg.m = 0 → s.fabric.wave = some w → w.second = false → w.read.length < 50 → Settles .sweepPass2 s s) ∧
  (∀ (s : State) (w : Wave) (j : Nat) (i1 c1 i2 c2 : Word) (a1 act : Bool), s.fabric.wave = some w → w.second = true →
    w.read.length = 50 → w.jobs = [j] → w.sums1 = [(i1, c1, a1)] → w.sums2 = [(i2, c2, act)] →
    (s.job j).active = true → (s.job j).nm1 = 0 →
    ∃ u : State, Settles .sweepVerdict s u ∧ u.fabric.wave = none ∧ (u.job j).qsumI = i2 ∧ (u.job j).qsumC = c2 ∧
      ((i1 = i2 ∧ c1 = c2 ∧ i2 = c2 ∧ act = false) → (u.job j).qstat = w.start <<< 1 ||| 1) ∧
      (¬(i1 = i2 ∧ c1 = c2 ∧ i2 = c2 ∧ act = false) → (u.job j).qstat = w.start <<< 1)) ∧
  (∀ (s : State) (x : XWave) (j : Nat) (i c : Word) (a : Bool), s.arg.m = j + 1 → s.xwave j = some x → x.own = some (i, c, a) →
    waveNext x.read s.arg.n = true →
    (x.second = false → Settles .sweepWaveStart s (((s.clearAct s.arg.n j).setXwave j (some { x with
      own := some (addReading (i, c, a) (s.reading s.arg.n j)), read := s.arg.n :: x.read })).passOn j)) ∧
    (x.second = true → Settles .sweepPass2 s ((s.setXwave j (some { x with
      own := some (addReading (i, c, a) (s.reading s.arg.n j)), read := s.arg.n :: x.read })).passOn j))) ∧
  (∀ (s : State) (j : Nat), j = s.arg.n → j < 64 → (s.job j).active = true → (s.job j).kstat = 0 → (s.job j).nm1 ≠ 0 → s.pkg.sweepEn = true →
    s.isRoot j = true → s.xwave j = none → (s.job j).xlast = none →
    Settles .xwaveStart s (((State.modJob { s with fabric := { s.fabric with nextXwave := s.fabric.nextXwave + 1 } } j fun q =>
      { q with xlast := some s.sidereal, xperiod := s.pkg.xperiod }).startPass
        ⟨j, s.fabric.nextXwave, false, s.sidereal, s.sidereal, s.sidereal, none, [], none, [], false⟩).passOn j)) ∧
  (∀ s : State, s.olderWave s.arg.n s.arg.m = true → Settles .xwaveRequestReceive s s ∧ Settles .xwaveVerdictReceive s s) ∧
  (∀ (s : State) (j : Nat), j = s.arg.n → j < 64 → (s.job j).active = true → (s.job j).kstat = 0 → (s.job j).nm1 ≠ 0 →
    s.isRoot j = false → s.olderWave j s.arg.m = false →
    (s.arg.flag = false → Settles .xwaveRequestReceive s
      ((s.startPass ⟨j, s.arg.m, false, 0, s.sidereal, s.sidereal, none, [], none, [], false⟩).passOn j)) ∧
    (∀ x, s.arg.flag = true → s.xwave j = some x → x.wave = s.arg.m → x.second = false → Settles .xwaveRequestReceive s
      ((s.startPass { x with second := true }).passOn j)) ∧
    (∀ x, s.xwave j = some x → x.wave = s.arg.m → Settles .xwaveVerdictReceive s
      (((s.modJob x.job fun q => { q with
        qstat := s.arg.v <<< 1 ||| (if s.arg.flag then 1 else 0), qreached := x.reached }).tellChildren x.job x.wave
          (.verdict s.arg.flag s.arg.v)).setXwave x.job none)) ∧
    (s.xwave j = none → (s.job j).xwave = some s.arg.m → Settles .xwaveVerdictReceive s s)) ∧
  (∀ (s : State) (r : WaveReply) (x : XWave), s.arg.reply = some r → s.xwave s.arg.n = some x → x.own ≠ none → r.wave = x.wave →
    r.second = x.second → r.child ∈ s.children s.arg.n → (∀ o ∈ x.replies, o.child ≠ r.child) → Settles .xwaveReplyReceive s
      ((s.setXwave s.arg.n (some { x with replies := x.replies ++ [r], failed := x.failed || r.failed })).passOn s.arg.n)) ∧
  (∀ (s : State) (x : XWave), s.xwave s.arg.n = some x → x.own ≠ none → s.arg.m ∈ s.children s.arg.n →
    (∀ o ∈ x.replies, o.child ≠ s.arg.m) → 1200 * (2 * s.port.retry * s.port.rto) ≤ (s.sidereal - x.asked).toNat →
    Settles .xwaveReplyTimeout s ((s.setXwave s.arg.n (some { x with
      replies := x.replies ++ [⟨s.arg.m, x.wave, x.second, true, 0, 0, false⟩], failed := true })).passOn s.arg.n)) ∧
  ∀ (s : State) (x : XWave) (i1 c1 i c : Word) (act : Bool), x.total = (i, c, act) →
    (x.failed = true → s.rootPass x = s.takeVerdict x false x.start) ∧
    (x.failed = false → x.pass1 = none → s.rootPass x = s.startPass { x with second := true, pass1 := some (i, c) }) ∧
    (x.failed = false → x.pass1 = some (i1, c1) → s.rootPass x = (s.modJob x.job fun q => { q with qsumI := i, qsumC := c }).takeVerdict x
      (decide (i1 = i) && decide (c1 = c) && decide (i = c) && !act) x.start)

/-- R244, R245, R364, R393 to R397: fault records and their notices, ring tails, orphans, replay.  That a record which arises after a
kill is complete is dropped is the model's choice (log entry 126). -/
def Obligations.RecordsRingsAndOrphans : Prop :=
  (∀ (s : State) (r : FaultRec), s.faults.find? (fun r => r.job = s.arg.n) = some r → (s.job s.arg.n).kstat ≠ 2 → (s.job s.arg.n).fqRoom = true →
    ∃ u : State, Settles .faultRecordWrite s u ∧ u.faults = s.faults.erase r ∧
      (u.job s.arg.n).fqhead = (s.job s.arg.n).fqhead + 1 ∧ 16 * s.arg.n ∈ u.pkg.msix ∧
      u.mem = (s.putBytes 256 (bits (s.job s.arg.n).fqbase 12 40 * 4096 +
        64 * ((s.job s.arg.n).fqhead.toNat % (s.job s.arg.n).fqRecords)) r.bytes).mem ∧
      (r.notice = true → (s.job s.arg.n).active = true → (s.job s.arg.n).kstat = 0 → ∃ a : Arrived,
        (u.core s.pkg.svctl).queue = (s.core s.pkg.svctl).queue ++ [a] ∧ a.kind = .service 1 ∧ a.job = s.arg.n ∧ a.prio = 3)) ∧
  (∀ (s : State) (r : FaultRec), s.faults.find? (fun r => r.job = s.arg.n) = some r →
    ((s.job s.arg.n).kstat ≠ 2 → (s.job s.arg.n).fqRoom = false → Settles .faultRecordWrite s s) ∧
    ((s.job s.arg.n).kstat = 2 → Settles .faultRecordWrite s { s with faults := s.faults.erase r })) ∧
  (∀ r : FaultRec, r.bytes = leBytes 8 r.info.toNat ++ (leBytes 8 r.va.toNat ++ (leBytes 8 r.pc.toNat ++ (leBytes 8 r.wid.toNat ++
    (leBytes 8 r.time.toNat ++ (leBytes 8 r.operand.toNat ++ (leBytes 8 r.detail.toNat ++ leBytes 8 0))))))) ∧
  (∀ s : State, s.arg.n < 64 → Settles .fqtailWrite s (s.modJob s.arg.n fun q => { q with fqtail := s.arg.v.setWidth 32 })) ∧
  (∀ (s : State) (q : Job), s.arg.n < 64 → q = s.job s.arg.n →
    ((s.arg.v.setWidth 32 - q.losstail).toNat ≤ (q.losshead - q.losstail).toNat → Settles .losstailWrite s (s.modJob s.arg.n fun q =>
      { q with losstail := s.arg.v.setWidth 32 })) ∧
    ((q.losshead - q.losstail).toNat < (s.arg.v.setWidth 32 - q.losstail).toNat →
      Settles .losstailWrite s (s.modJob s.arg.n fun q => q))) ∧
  (∀ (s : State) (r : Reduction) (q : Job), q = s.job s.arg.n → s.fabric.reductions = [r] → r.job = s.arg.n → r.stage = 2 →
    s.arg.v.setWidth 16 = q.ortail + 1 → q.orhead = q.ortail + 1 →
    Settles .ortailReplay s ((s.modJob s.arg.n fun q => { q with ortail := q.ortail + 1 }).reduceAt r) ∧
    ∃ u : State, Settles .ortailDiscard s u ∧ u.fabric.reductions = [] ∧ (u.job s.arg.n).ortail = q.ortail + 1 ∧ u.mem = s.mem ∧
      (u.counter (clusterOf r.core) s.arg.n).con = (s.counter (clusterOf r.core) s.arg.n).con + 1) ∧
  (∀ (s t : State) (r : Reduction) (x : XFault) (q : Job), s.fabric.reductions = [r] → r.n = s.arg.n → r.stage = 0 → r.fault = none →
    (∀ c b, s.bankOf r.ctx = some (c, b) → (s.ctx c b).stores = [] ∧ s.imageRuns c b r.n = []) →
    s.resolve r.agent { write := true, atomic := true } (pieces r.va r.width) = (.error x, t) → t.fabric = s.fabric → q = t.job r.job →
    (q.orRoom = true → ∃ u : State, Settles .reductionPerform s u ∧ u.fabric.reductions = [{ r with stage := 2, fault := none }] ∧
      (u.job r.job).orhead = q.orhead + 1 ∧ 16 * r.job + 4 ∈ u.pkg.msix ∧
      u.mem = (t.putBytes 256 (bits q.orlog 12 40 * 4096 + 32 * (q.orhead.toNat % q.orSize)) (leBytes 8 r.va.toNat ++
        (leBytes 8 (r.operand.toNat % 2 ^ (8 * r.width)) ++ (leBytes 8 (r.info x.cause).toNat ++ leBytes 8 t.sidereal.toNat)))).mem ∧
      (x.cause ≠ 0 → ∃ f : FaultRec, u.faults = t.faults ++ [f] ∧ f.cause = x.cause ∧ f.access = 4 ∧ f.va = x.va ∧ f.job = r.job ∧
        f.async = true ∧ f.core = r.core ∧ f.bank = r.bank)) ∧
    (q.orRoom = false → ∃ u : State, Settles .reductionPerform s u ∧ u.mem = t.mem ∧ u.faults = t.faults ∧
      u.fabric.reductions = [{ r with stage := 3, fault := some (x.cause, x.va, x.detail) }])) ∧
  ∀ s : State, ∃ u : State, Settles .replay s u ∧ u.mem = s.mem ∧ ∀ c b : Nat, b < 2 →
    u.ctx c b = if (s.ctx c b).job = s.arg.n ∧ (s.ctx c b).status = .parked .replay
      then { s.ctx c b with status := .resumable, event := true } else s.ctx c b

/-- R398 to R401: pre-emptions are requested, land and are released; R393, R406 to R408, R422, R424: jobs are created,
killed and torn down.  That JOB_CREATE takes the link table from the event (log entry 59), that creation clears ERR
(log entry 91) and that records which a kill or a teardown finds without room are dropped (log entries 91, 126) are
the model's choices. -/
def Obligations.PreemptionsAndJobs : Prop :=
  ((∀ (s : State) (c b : Nat), (s.ctx c b).occupied = true → (s.ctx c b).held = false →
     ((s.ctx c b).atRest = false → (s.ctx c b).preq = none →
       s.requestPreempt c b = s.modCtx c b fun k => { k with preq := some s.sidereal, overdue := 0 }) ∧
     ((s.ctx c b).atRest = false → (s.ctx c b).preq ≠ none → s.requestPreempt c b = s) ∧
     ((s.ctx c b).atRest = true → (s.core c).coreTest = false → (s.job (s.ctx c b).job).active = true →
       (s.job (s.ctx c b).job).kstat = 0 → ((s.requestPreempt c b).ctx c b).held = true ∧ ((s.requestPreempt c b).ctx c b).preq = none ∧
       ∃ a : Arrived, ((s.requestPreempt c b).core c).queue = (s.core c).queue ++ [a] ∧ a.kind = .service 2 ∧ a.job = (s.ctx c b).job)) ∧
   (∀ s : State, ∃ u : State, Settles .preemptReq s u ∧ ∀ (c b : Nat) (k : Ctx), b < 2 → k = s.ctx c b →
     (k.status = .idle ∨ k.job ≠ s.arg.n ∨ k.held = true → u.ctx c b = k) ∧
     (k.status ≠ .idle → k.job = s.arg.n → k.held = false →
       (k.atRest = false → u.ctx c b = { k with preq := some (k.preq.getD s.sidereal), overdue := if k.preq = none then 0 else k.overdue }) ∧
       (k.atRest = true → u.ctx c b = { k with held := true, preq := none, overdue := 0 } ∧
         ((s.core c).coreTest = false → (s.job s.arg.n).active = true → (s.job s.arg.n).kstat = 0 → ∃ a ∈ (u.core c).queue,
           a.kind = .service 2 ∧ a.job = s.arg.n ∧ a.payload = .words 2 (word (c + 256 * b + 65536 * s.arg.n)))))) ∧
   (∀ s : State, ∃ u : State, Settles .preemptRel s u ∧ u.mem = s.mem ∧ ∀ c b : Nat, b < 2 →
     u.ctx c b = if (s.ctx c b).status ≠ .idle ∧ (s.ctx c b).job = s.arg.n then { s.ctx c b with held := false } else s.ctx c b) ∧
   (∀ (s : State) (c : Nat), c = s.arg.core →
     (s.arg.v = 1 → Settles .preqRequest s ((s.requestPreempt c 0).modCtx c 1 fun k => { k with preq := none, overdue := 0 })) ∧
     (s.arg.v = 3 → Settles .preqRequest s ((s.requestPreempt c 0).requestPreempt c 1)) ∧
     (s.arg.v = 4 → Settles .preqHeldRelease s (s.modCtx c 0 fun k => { k with held := false })) ∧
     (s.arg.v = 8 → Settles .preqHeldRelease s (s.modCtx c 1 fun k => { k with held := false }))) ∧
   ∀ (s : State) (t : Word), (theCtx s).preq = some t → 2 ^ 22 * ((theCtx s).overdue + 1) < (s.sidereal - t).toNat →
     Settles .preemptOverdue s ((onCtx s fun k => { k with overdue := k.overdue + 1 }).service 3 (theCtx s).job s.pkg.svctl
       (word (s.arg.core + 256 * s.arg.bank + 65536 * (theCtx s).job)) (word (s.sidereal - t).toNat))) ∧
  (∀ s : State, (s.job s.arg.n).tearing = false → Settles .kill s (s.startKill s.arg.n)) ∧
  (∀ (s : State) (j : Nat), (s.job j).active = true → (s.job j).kstat = 0 → ((s.startKill j).job j).kstat = 1 ∧
    ((s.startKill j).job j).overflow = [] ∧ (∀ r ∈ (s.startKill j).disp.recs, r.job ≠ j) ∧ (∀ l ∈ (s.startKill j).disp.launches, l.job ≠ j) ∧
    (∀ e ∈ (s.startKill j).disp.host, e.1 ≠ j) ∧ (∀ r ∈ (s.startKill j).hreqs, r.job ≠ j) ∧
    ∀ e ∈ (s.startKill j).cores, (e.2.b0.status ≠ .idle → e.2.b0.job ≠ j) ∧ (e.2.b1.status ≠ .idle → e.2.b1.job ≠ j) ∧
      ∀ a ∈ e.2.queue, a.job ≠ j) ∧
  (∀ s : State, (s.job s.arg.n).kstat = 1 → s.copiesOf s.arg.n = false → ∃ u : State, Settles .killComplete s u ∧
    (u.job s.arg.n).kstat = 2 ∧ 16 * s.arg.n + 2 ∈ u.pkg.msix ∧ (∀ m ∈ u.fabric.msgs, m.job ≠ s.arg.n) ∧
    (∀ m ∈ u.fabric.notices, m.job ≠ s.arg.n) ∧ (∀ r ∈ u.fabric.reductions, r.job ≠ s.arg.n) ∧ (∀ r ∈ u.faults, r.job ≠ s.arg.n) ∧
    ((∀ r ∈ s.faults, r.job ≠ s.arg.n) → u.mem = s.mem)) ∧
  (∀ (s : State) (j : Nat) (v : Word), j = s.arg.n → v = s.arg.v → j < 64 → v.getLsbD 0 = true →
    ((s.job j).active = false → s.pkg.stage = 2 → s.pkg.err = 0 → s.asidTaken j (bits v 16 16) = false →
      Settles .jobCreate s (State.modJob { s with fabric := { s.fabric with counters := s.fabric.counters.filter fun e => e.1 % 64 ≠ j } } j fun _ =>
        { Job.idle with active := true, asid := bits v 16 16, ceil := bits v 8 2, en := true, links := linkTable s.arg.data })) ∧
    ((s.job j).active = true → Settles .jobCreate s (s.modJob j fun q => { q with err := true }))) ∧
  (∀ (s : State) (j : Nat), j = s.arg.n → j < 64 → s.arg.v.getLsbD 0 = false → (s.job j).active = true → (s.job j).tearing = false →
    (s.jobIdle j = true → Settles .jobTeardown s (s.modJob j fun q => { q with tearing := true, en := false })) ∧
    (s.jobIdle j = false → (s.job j).kstat = 0 →
      Settles .jobTeardown s ((s.modJob j fun q => { q with tearing := true, en := false }).startKill j))) ∧
  ∀ (s : State) (j : Nat), j = s.arg.n → (s.job j).tearing = true → (s.job j).kstat = 2 → ∃ u : State, Settles .teardownComplete s u ∧
    u.job j = .idle ∧ 16 * j + 2 ∈ u.pkg.msix ∧ ∀ r ∈ u.faults, r.job ≠ j

/-- R241, R248 to R252: TLB invalidation, LDM regions, the hot-page tracker. -/
def Obligations.TranslationUnitsWork : Prop :=
  (∀ (s : State) (c : Nat), s.arg.tlbi = .core c → c < 256 → (s.core c).tlbi.busy = false → s.arg.v.getLsbD 0 = true →
    Settles .tlbiGo s (s.modCore c fun k => { k with tlbi := { k.tlbi with
      asid := bits s.arg.v 20 16, size := bits s.arg.v 18 2, busy := true, goVa := k.tlbi.va, goAsid := bits s.arg.v 20 16
      goSize := bits s.arg.v 18 2 } })) ∧
  (∀ (s : State) (j : Nat), s.arg.tlbi = .job j → j < 64 → (s.job j).tlbi.busy = true → s.arg.v.getLsbD 0 = true →
    Settles .tlbiGo s (s.modJob j fun q => q)) ∧
  (∀ (s : State) (c : Nat), s.arg.tlbi = .core c → (s.core c).tlbi.busy = true → s.anyStuck = false →
    ∃ u : State, Settles .tlbiComplete s u ∧ (u.core c).tlbi.busy = false ∧
      (∀ e ∈ u.cores, ∀ t ∈ e.2.tlb, (s.core c).tlbi.hits t = false) ∧ ∀ e ∈ u.clusters, ∀ t ∈ e.2.tlb, (s.core c).tlbi.hits t = false) ∧
  (∀ (s : State) (c n : Nat) (v : Word) (o : Region), c = s.arg.core → n = s.arg.n → v = s.arg.v → c < 256 → n < 16 →
    o = (s.core c).region.get .none n →
    (v.getLsbD 0 = true → o.valid = false → o.busy = false → bits v 20 7 + bits v 32 7 < 128 → (∀ e ∈ (s.core c).region, e.1 = n) →
      Settles .rctlBind s (s.modRegion c n fun _ =>
        ⟨o.rva, bits v 48 16, bits v 32 7, bits v 20 7, false, false, v.getLsbD 1, true, [], []⟩)) ∧
    (v.getLsbD 0 = true → o.valid = true → Settles .rctlBind s (s.modRegion c n fun o => { o with err := true })) ∧
    (v.getLsbD 0 = false → o.valid = true → Settles .rctlUnbind s (s.modRegion c n fun o => { o with valid := false, busy := true })) ∧
    (o.busy = true → (∀ e ∈ o.dirty, e.2 = false) → o.dirty = [] → ∃ u : State, Settles .unbindWritebackDone s u ∧
      ((u.core c).region.get .none n).busy = false ∧ ((u.core c).region.get .none n).filled = []) ∧
    (∀ sec, o.busy = true → o.dirty = [(sec, true)] → Settles .unbindWritebackDone s ((s.writeBack c n sec).modRegion c n fun o =>
      if o.dirty = [] then { o with busy := false, filled := [] } else o))) ∧
  (∀ (s t : State) (g : Agent) (n sec key dst : Nat) (r : Region) (va : Word),
    va = word ((r.page * 16384 + 1024 * sec) % 2 ^ 56 + (if r.page / 2 ^ 41 = 1 then 255 * 2 ^ 56 else 0)) →
    dst = ldmKey g.core (r.ldmbase * 16384 + 1024 * sec) →
    (s.translate g { homed := true } va 1024 = (.ok key, t) → ∃ u : State, s.fillSector g n r sec = (.ok (), u) ∧
      ((u.core g.core).region.get .none n).filled.get false sec = true ∧
      (r.zfill = false → ∀ i < 1024, Sparse.get 0 u.mem (dst + i) = Sparse.get 0 t.mem (key + i)) ∧
      (r.zfill = true → t.deadLdm dst = false → ∀ i < 1024, Sparse.get 0 u.mem (dst + i) = 0)) ∧
    (∀ f, s.translate g { homed := true } va 1024 = (.error f, t) →
      s.fillSector g n r sec = (.error { f with access := some 12 }, t))) ∧
  (∀ (s : State) (g : Agent) (n sec : Nat), ((s.core g.core).region.get .none n).filled.get false sec = true →
    s.touchSectors g n false [sec] = (.ok (), s) ∧
    s.touchSectors g n true [sec] = (.ok (), s.modRegion g.core n fun r => { r with dirty := r.dirty.set false sec true })) ∧
  (∀ (s t : State) (c n sec job key : Nat) (r : Region) (va : Word), r = (s.core c).region.get .none n →
    va = word ((r.page * 16384 + 1024 * sec) % 2 ^ 56 + (if r.page / 2 ^ 41 = 1 then 255 * 2 ^ 56 else 0)) →
    (s.job job).active = true → (s.job job).asid = r.asid → job < 64 →
    (∀ j < job, (s.job j).active = true → (s.job j).asid ≠ r.asid) → r.dirty.get false sec = true →
    (s.translate ⟨c, r.asid, job, true, false⟩ { write := true, homed := true } va 1024 = (.ok key, t) →
      (∀ i < 1024, Sparse.get 0 (s.writeBack c n sec).mem (key + i) =
        Sparse.get 0 t.mem (ldmKey c (r.ldmbase * 16384 + 1024 * sec) + i)) ∧
      (((s.writeBack c n sec).core c).region.get .none n).dirty.get false sec = false) ∧
    (∀ f, s.translate ⟨c, r.asid, job, true, false⟩ { write := true, homed := true } va 1024 = (.error f, t) →
      (s.writeBack c n sec).mem = t.mem ∧ (((s.writeBack c n sec).core c).region.get .none n).err = true ∧
      ∃ x : FaultRec, (s.writeBack c n sec).faults = t.faults ++ [x] ∧ x.cause = f.cause ∧ x.access = 13 ∧ x.va = va ∧ x.job = job)) ∧
  (∀ (s u : State) (d frame n at_ : Nat) (p : Bool) (cl : Cluster), cl = s.cluster d → u = s.hptCountUp d frame p →
    n = cl.hptCount.get 0 frame + 1 → at_ = bits cl.hptRing 12 40 * 4096 + 16 * cl.hptHead →
    (u.cluster d).hptCount.get 0 frame = n ∧
    (n ≠ 16 * max 1 cl.hptThresh ∨ frame ∈ cl.hptProposed → u.mem = s.mem ∧ (u.cluster d).hptHead = cl.hptHead ∧
      (u.cluster d).skip = cl.skip ∧ (u.cluster d).propDrop = cl.propDrop) ∧
    (n = 16 * max 1 cl.hptThresh → frame ∉ cl.hptProposed →
      (p = true → (u.cluster d).skip = min (cl.skip + 1) (2 ^ 32 - 1) ∧ u.mem = s.mem ∧ (u.cluster d).hptHead = cl.hptHead) ∧
      (p = false → frame ∈ (u.cluster d).hptProposed ∧
        ((cl.hptHead + 1) % 256 ≠ cl.hptTail % 256 → (u.cluster d).hptHead = (cl.hptHead + 1) % 256 ∧
          u.mem = ((s.putNum 256 at_ 8 frame).putNum 256 (at_ + 8) 8 (cl.hptEpochs % 2 ^ 32)).mem) ∧
        ((cl.hptHead + 1) % 256 = cl.hptTail % 256 → (u.cluster d).propDrop = min (cl.propDrop + 1) (2 ^ 16 - 1) ∧ u.mem = s.mem)))) ∧
  (∀ (s : State) (d pa : Nat) (t : TlbEntry) (cl : Cluster), cl = s.cluster d → t.holds pa = true →
    ((∃ x ∈ cl.pinned, x.holds pa = true) → s.pinned d t pa = (pinKey d pa, s)) ∧
    ((∀ x ∈ cl.pinned, x.holds pa = false) →
      (pinFrames cl.pinned + t.frames ≤ 64 * min 8 cl.hptPinmib → (s.pinned d t pa).1 = pinKey d pa ∧
        ((s.pinned d t pa).2.cluster d).pinned = cl.pinned ++ [t] ∧ ∀ i < t.frames * 16384,
          Sparse.get 0 (s.pinned d t pa).2.mem (pinKey d (t.frame * 16384) + i) = Sparse.get 0 s.mem (t.frame * 16384 + i)) ∧
      (64 * min 8 cl.hptPinmib < pinFrames cl.pinned + t.frames → (s.pinned d t pa).1 = pa ∧
        (s.pinned d t pa).2 = s.modCluster d fun cl => { cl with pinFull := min (cl.pinFull + 1) (2 ^ 16 - 1) }))) ∧
  (∀ s : State, s.arg.n < 32 → Settles .hptEpoch s (s.modCluster s.arg.n fun cl =>
    { cl with hptCount := [], hptProposed := [], hptEpochs := cl.hptEpochs + 1 })) ∧
  (∀ s : State, s.arg.n < 32 → Settles .hptCtlWrite s ((s.modCluster s.arg.n fun cl =>
    { cl with hptThresh := bits s.arg.v 16 16, hptPinmib := bits s.arg.v 8 4, hptEpoch := bits s.arg.v 4 4
              hptEn := s.arg.v.getLsbD 0 }).trimPinned s.arg.n)) ∧
  ∀ (s : State) (d : Nat), pinFrames (s.cluster d).pinned ≤ 64 * min 8 (s.cluster d).hptPinmib → s.trimPinned d = s

/-- R6, R7, R46, R47, R65, R251, R304, R421, R427, R430, R431: reads that clear what they return; registers as the host reads them
through a function. -/
def Obligations.ReadsThatClear : Prop :=
  (∀ (s : State) (q : Job), q = s.job s.arg.n → Settles .dispcntRead s ((s.modJob s.arg.n fun q =>
    { q with probeGrant := 0, hpostDrop := 0, stealDie := 0, tmoPlace := 0 }).hostReads
      (leBytes 8 (word (2 ^ 48 * q.probeGrant + 2 ^ 32 * q.hpostDrop + 2 ^ 16 * q.stealDie + q.tmoPlace)).toNat))) ∧
  (∀ (s : State) (k : FlashStack), k = s.flashStack s.arg.n → Settles .fhealthCRead s
    ((s.modFlash s.arg.n fun k => { k with reloc := 0, uncorr := 0 }).hostReads (leBytes 8 (2 ^ 32 * k.reloc + k.uncorr)))) ∧
  (∀ (s : State) (cl : Cluster), cl = s.cluster s.arg.n → Settles .hptCntRead s
    ((s.modCluster s.arg.n fun cl => { cl with pinFull := 0, propDrop := 0, skip := 0 }).hostReads
      (leBytes 8 (word (2 ^ 48 * cl.pinFull + 2 ^ 32 * cl.propDrop + cl.skip)).toNat))) ∧
  (∀ (s : State) (d : Die), d = s.die s.arg.n → Settles .colcntRead s ((s.modDie s.arg.n fun d => { d with soft := 0 }).hostReads
    (leBytes 8 (word (2 ^ 56 * d.spares + 2 ^ 48 * d.vuout + 2 ^ 32 * d.lasting + d.soft)).toNat))) ∧
  (∀ s : State, Settles .huncRead s ((s.modHbm s.arg.n fun k => { k with hunc := 0 }).hostReads (leBytes 8 (s.hbmStack s.arg.n).hunc))) ∧
  (∀ (s : State) (a : HostAccess), a.data = none →
    (a.bar = 0 → a.vf = none → s.hostAccess a = .next ((s.afterBar0 a.off).hostReads (leBytes 8 (s.bar0 a.off).toNat)).settle) ∧
    (a.bar = 2 → s.hostAccess a = .next (s.hostReads (leBytes 8 0)).settle) ∧
    (∀ v, a.bar = 0 → a.vf = some v → a.off < 0x100000 ∨ 0x140000 ≤ a.off → s.hostAccess a = .next (s.hostReads (leBytes 8 0)).settle) ∧
    (∀ v first count n o, a.bar = 0 → a.vf = some v → s.pkg.vfslots.get (0, 0) v = (first, count) → n < count → first + n < 64 → n < 64 →
      o < 0x1000 → a.off = 0x100000 + 0x1000 * n + o → s.hostAccess a =
        .next ((s.afterBar0 (0x100000 + 0x1000 * (first + n) + o)).hostReads
          (leBytes 8 (s.bar0 (0x100000 + 0x1000 * (first + n) + o)).toNat)).settle)) ∧
  ∀ s : State, (∀ off, off % 8 ≠ 0 → s.bar0 off = 0) ∧ s.bar0 0 = 0x00000009B0000000 ∧ s.bar0 0x008 = s.pkg.bootstage ∧
    s.bar0 0x400000 = 0 ∧
    (∀ j, j < 64 → s.bar0 (0x100000 + 0x1000 * j + 0x010) = (s.job j).launchVA ∧
      s.bar0 (0x100000 + 0x1000 * j + 0x018) = word (2 ^ 56 * (32 - s.hostHeld j) + 256 * (s.job j).ptimeout) ∧
      s.bar0 (0x100000 + 0x1000 * j + 0x060) = (s.job j).qstat ∧ s.bar0 (0x100000 + 0x1000 * j + 0x0D8) = word (s.job j).kstat ∧
      s.bar0 (0x100000 + 0x1000 * j + 0x0C0) = 0 ∧ s.bar0 (0x100000 + 0x1000 * j + 0x0C8) = 0 ∧
      s.bar0 (0x100000 + 0x1000 * j + 0x0D0) = 0) ∧
    ∀ n, n < 8 → s.bar0 (0x280000 + 0x100 * n) = word (2 ^ 32 * (s.flashStack n).spare + (s.flashStack n).badBlocks) ∧
      s.bar0 (0x200000 + 0x100 * n + 0x08) = word (s.hbmStack n).free.length

/-- R7, R304, R391, R416, R421 to R423, R425, R428, R430 to R433: register writes and the host's memory window.  That ZFREE puts a
chunk at the head of the free list is the model's choice (log entry 92). -/
def Obligations.HostWritesRegistersAndMemory : Prop :=
  (∀ (s : State) (v : Word), v = s.arg.v → s.arg.n < 8 →
    (v.getLsbD 63 = true → bits v 0 29 % 8 = s.arg.n → bits v 0 29 < 488281248 →
      Settles .finjWrite s (s.modFlash s.arg.n fun k => { k with arm := true, armPage := bits v 0 29 })) ∧
    (v.getLsbD 63 = true → bits v 0 29 % 8 ≠ s.arg.n ∨ 488281248 ≤ bits v 0 29 → Settles .finjWrite s s) ∧
    (s.packing s.arg.n = false → Settles .zfreePush s (s.modHbm s.arg.n fun k => { k with free := bits v 0 32 :: k.free }))) ∧
  (∀ (s : State) (v : Word), v = s.arg.v → s.arg.n < 16 →
    ((∀ e ∈ s.pkg.vfslots, e.1 = s.arg.n ∨ bits v 8 6 = 0 ∨ e.2.2 = 0 ∨ e.2.1 + e.2.2 ≤ bits v 0 6 ∨ bits v 0 6 + bits v 8 6 ≤ e.2.1) →
      Settles .vfslotsWrite s
      { s with pkg := { s.pkg with vfslots := s.pkg.vfslots.set (0, 0) s.arg.n (bits v 0 6, bits v 8 6) } }) ∧
    ((∃ e ∈ s.pkg.vfslots, e.1 ≠ s.arg.n ∧ bits v 8 6 ≠ 0 ∧ e.2.2 ≠ 0 ∧ bits v 0 6 < e.2.1 + e.2.2 ∧ e.2.1 < bits v 0 6 + bits v 8 6) →
      Settles .vfslotsWrite s s)) ∧
  (∀ (s : State) (v : Word), v = s.arg.v → s.arg.n < 64 → s.arg.m < 16 →
    (s.pkg.stage ≠ 2 → Settles .fgrantWrite s s) ∧
    (s.pkg.stage = 2 → s.arg.flag = false → ∃ u : State, Settles .fgrantWrite s u ∧
      (u.job s.arg.n).fgrant.get (0, 0) s.arg.m = (v &&& 0xC00000001FFFFFFF, ((s.job s.arg.n).fgrant.get (0, 0) s.arg.m).2)) ∧
    (s.pkg.stage = 2 → s.arg.flag = true → ∃ u : State, Settles .fgrantWrite s u ∧
      (u.job s.arg.n).fgrant.get (0, 0) s.arg.m = (((s.job s.arg.n).fgrant.get (0, 0) s.arg.m).1, v &&& 0x1FFFFFFF))) ∧
  (∀ (s : State) (v : Word), v = s.arg.v → s.pkg.halted = true → s.arg.n < 0x400000 → Settles .registerWrite s s) ∧
  (∀ (s : State) (a : HostAccess), a.data ≠ none → a.bar = 2 → s.pkg.halted = true → s.hostAccess a = .next s.settle) ∧
  (∀ (s : State) (v : Word), v = s.arg.v → s.pkg.halted = false →
    (s.arg.n % 8 ≠ 0 → Settles .registerWrite s s) ∧
    (s.arg.n = 0x010 → Settles .registerWrite s { s with pkg := { s.pkg with fdtbase := v &&& 0x000FFFFFFFFFF000 } }) ∧
    (s.arg.n = 0x118 → Settles .registerWrite s { s with pkg := { s.pkg with pcap := min 3000 (max 1000 (bits v 0 16)) } }) ∧
    (∀ j, j < 64 → s.arg.n = 0x100000 + 0x1000 * j + 0x028 → Settles .registerWrite s (s.modJob j fun q =>
      { q with ptbase := v &&& 0x000FFFFFFFFFC000 })) ∧
    (∀ j, j < 64 → s.arg.n = 0x100000 + 0x1000 * j + 0x0B8 →
      (s.banksOf j = [] → Settles .registerWrite s (s.modJob j fun q => { q with tslice := bits v 0 32 })) ∧
      (∀ c b, s.banksOf j = [(c, b)] → Settles .registerWrite s ((s.modJob j fun q => { q with tslice := bits v 0 32 }).modCtx c b
        fun k => { k with slices := if bits v 0 32 = 0 then 0 else k.cycles.toNat / bits v 0 32 }))) ∧
    (∀ n, n < 8 → s.arg.n = 0x280000 + 0x100 * n + 0x18 → Settles .registerWrite s (s.modFlash n fun k =>
      { k with thresh := min 1000000 (max 1 (bits v 0 32)) })) ∧
    (s.arg.n = 0x300010 → Settles .registerWrite s { s with port := { s.port with retry := bits v 0 8 } })) ∧
  (∀ (s : State) (bs : List Byte), bs.length = s.arg.m →
    (∀ i < s.arg.m, bs.getD i 0 = match s.bar4Key (s.arg.n + i) with
      | some k => (s.bytesAt k 1).headD 0xFF
      | none => 0xFF) → Settles .hostBar4Read s (s.hostReads bs)) ∧
  (∀ (s : State) (b : Byte) (k : Nat), s.arg.data = [b] →
    (s.bar4Key s.arg.n = some k → Settles .hostBar4Write s (s.putBytes hostWriter k [b])) ∧
    (s.bar4Key s.arg.n = none → Settles .hostBar4Write s s)) ∧
  ∀ (s : State) (off : Nat), s.pkg.stage = 2 → s.pkg.err = 0 → off < 0x20000000 → s.bar4Key off = some (ldmKey 0 off)

/-- R431, R434: mailbox commands; R14, R425 to R429: start-up stages, power and temperature, collimation tests, ageing.
Model's choices among these clauses: what memory and flash keep at POWER_GOOD (log entries 2, 96), the byte order of
digests and signatures (log entry 45), how an update's parts and its checks are read (log entry 94), what a trip shows
and which readings it counts (log entry 97), what collimation saves and notifies (log entry 98), and the allowance at
stage 1 (log entry 131). -/
def Obligations.MailboxStartupAndPower : Prop :=
  ((∀ s : State, s.mbox.busy = true →
     Settles .mbGetid s { s with mbox := { s.mbox with result := 1 } } ∧ Settles .mbAttest s { s with mbox := { s.mbox with result := 1 } } ∧
     Settles .mbVerify s { s with mbox := { s.mbox with result := 1 } } ∧ Settles .mbUpdate s { s with mbox := { s.mbox with result := 1 } } ∧
     Settles .mailboxDone s (State.signal { s with mbox := { s.mbox with busy := false, result := s.mbox.outcome } } 1026)) ∧
   ∀ s : State, s.mbox.busy = false →
     (Settles .mbGetid s { s with mbox := { s.mbox with
       busy := true, cmd := 1, outcome := 0
       buffer := Sparse.splice 0 s.mbox.buffer 0 ((beBytes 64 Config.identityKey.toNat ++ Config.certificates).take 4096) } }) ∧
     (∃ u : State, Settles .mbAttest s u ∧ u.mbox.busy = true ∧ u.mbox.cmd = 2 ∧ u.mem = s.mem) ∧
     (∃ u : State, Settles .mbVerify s u ∧ u.mbox.busy = true ∧ u.mbox.cmd = 3 ∧ u.mem = s.mem ∧
       u.mbox.buffer = Sparse.splice 0 s.mbox.buffer 0 (leBytes 8 (bit (ecdsaVerify (ofBeBytes (s.mbox.bytes 0 32)) (ofBeBytes (s.mbox.bytes 32 32))
         (ofBeBytes (s.mbox.bytes 64 32)) (ofBeBytes (s.mbox.bytes 96 32)) (ofBeBytes (s.mbox.bytes 128 32)))))) ∧
     ∃ u : State, Settles .mbUpdate s u ∧ u.mbox.busy = true ∧ u.mbox.cmd = 4 ∧ u.mbox.buffer = s.mbox.buffer ∧
       ∀ img, img = s.mbox.update ++ (s.mbox.bytes 0 4096).take (Config.imageLength s.mbox.update (s.mbox.bytes 0 4096)) →
         (Config.parseImage img = none → u.mbox.update = img ∧ u.mbox.outcome = 0) ∧
         (∀ parts, Config.parseImage img = some parts → imageTrusted parts = true → u.mbox.staged = some img ∧ u.mbox.update = []) ∧
         (∀ parts, Config.parseImage img = some parts → imageTrusted parts = false → u.mbox.outcome = 3 ∧ u.mbox.staged = s.mbox.staged)) ∧
  (∀ s : State, ∃ u : State, Settles .powerGood s u ∧ u.pkg = State.reset.pkg ∧ u.cores = [] ∧ u.jobs = [] ∧ u.sidereal = 0 ∧
    u.flash = s.flash ∧ ∀ a, Sparse.get 0 u.mem a = if 2 ^ 56 ≤ a ∧ a < 2 ^ 57 then Sparse.get 0 s.mem a else 0) ∧
  (∀ s : State, s.pkg.stage = 7 → s.pkg.busy = true →
    (s.mbox.trusted = false → Settles .stage0Complete s (s.bootChange 7 false 1)) ∧
    (s.mbox.trusted = true → ∃ u : State, Settles .stage0Complete s u ∧ u.pkg.stage = 0 ∧ u.pkg.busy = true ∧ u.pkg.err = 0 ∧
      u.port.addr1 ++ u.port.addr0 = Config.endpoint)) ∧
  (∀ (m : Mailbox) (d : BitVec 256) (v : Nat) (r s : BitVec 256), m.image = some (d, v, r, s) →
    (m.trusted = true ↔ ecdsaVerify d.toNat (Config.kohornKey.toNat / 2 ^ 256) (Config.kohornKey.toNat % 2 ^ 256) r.toNat s.toNat = true ∧
      Config.rollback ≤ v)) ∧
  (∀ (s : State) (r : StageReport), s.pkg.stage = 0 → s.pkg.busy = true → s.arg.report = some r →
    (r.err = 2 ∨ r.err = 3 → Settles .stage1Complete s (s.bootChange 0 false r.err)) ∧
    (r.err = 0 → r.coreBad = [] → r.vuBad = [] → ∃ u : State, Settles .stage1Complete s u ∧ u.pkg.stage = 1 ∧ u.pkg.busy = true ∧
      (∀ c, (u.core c).b0.status = .idle ∧ (u.core c).b1.status = .idle ∧ (u.core c).vuok = (s.core c).vuok) ∧
      (∀ d, (u.cluster d).site = (s.cluster d).site ∧ (u.cluster d).offline = (s.cluster d).offline ∧ (u.cluster d).stk = []) ∧
      u.jobs = [] ∧ u.handles = [] ∧ u.mem = s.mem ∧ u.pkg.sweepEn = true ∧ u.pkg.allow = 16)) ∧
  (∀ (s : State) (r : StageReport), s.pkg.stage = 1 → s.pkg.busy = true → s.arg.report = some r →
    (r.err = 4 → Settles .stage2Complete s (s.bootChange 1 false 4)) ∧
    (r.err = 0 → ∃ u : State, Settles .stage2Complete s u ∧ u.pkg.stage = 2 ∧ u.pkg.busy = false ∧ u.port.up = true ∧ u.mem = s.mem ∧
      ∀ n < 8, (u.flashStack n).thresh = 1000000 ∧ (u.flashStack n).arm = false ∧
        (∀ h, r.health[n]? = some h → (u.flashStack n).spare = h.1) ∧ (r.health[n]? = none → 1536 ≤ (u.flashStack n).spare))) ∧
  (∀ (s : State) (p : PowerSample), s.arg.power = some p → ∃ u : State, Settles .powerCapTick s u ∧
    u.pkg.allow = (if 1000 * s.pkg.pcap < p.mw then max 4 (s.pkg.allow - 1) else if p.mw < 1000 * s.pkg.pcap then min 16 (s.pkg.allow + 1)
      else s.pkg.allow) ∧
    u.pkg.power = p.mw % 2 ^ 32 ∧ u.pkg.energy = s.pkg.energy + word p.mw ∧ (∀ e < 4, (u.die e).temp = p.temps.getD e 0 % 256) ∧
    u.pkg.hot = (if 3300000 < p.mw then s.pkg.hot + 1 else 0) ∧ u.mem = s.mem) ∧
  (∀ (s : State) (p : PowerSample), s.arg.power = some p → s.pkg.stage ≠ 7 → s.pkg.tripped = false →
    (10 ≤ s.pkg.hot ∨ ∃ t ∈ p.temps, 115 < t) →
    ∃ u : State, Settles .thermalTrip s u ∧ u.pkg.tripped = true ∧ u.pkg.stage = 0 ∧ u.pkg.busy = false ∧ u.port.up = false ∧
      ∀ j < 64, (s.job j).active = true → (u.job j).kstat ≠ 0) ∧
  (∀ (s : State) (p : PowerSample), s.arg.power = some p → s.pkg.tripped = true → s.pkg.halted = false →
    ((∀ t ∈ p.temps, t < 85) → Settles .cooldownRestart s (State.bootChange { s with pkg := { s.pkg with tripped := false } } 0 true 0)) ∧
    ((∃ t ∈ p.temps, 85 ≤ t) → Settles .cooldownRestart s s)) ∧
  (∀ (s : State) (c n : Nat), s.arg.unit = .vector c n → c < 256 → s.offline c = false → (s.core c).test = none →
    ∃ u : State, Settles .unitError s u ∧ (u.core c).test = some (.vector c n) ∧ (u.core c).v0u = 1 - n % 2 ∧ (u.core c).v1u = 1 - n % 2 ∧
      (u.core c).kept = ((s.core c).v0u, (s.core c).v1u) ∧ u.mem = s.mem) ∧
  (∀ (s : State) (c n : Nat) (x : HwUnit), s.arg.unit = .vector c n → c < 256 → s.offline c = false → (s.core c).test = some x →
    x ≠ .vector c n → .vector c n ∉ (s.core c).errors →
    Settles .unitError s (s.modCore c fun k => { k with errors := k.errors ++ [.vector c n] })) ∧
  (∀ (s : State) (c n : Nat), s.arg.unit = .vector c n → s.arg.flag = false → (s.core c).test = some (.vector c n) → (s.core c).vuok ≠ 0 →
    ∃ u : State, Settles .collimationTestDone s u ∧ (u.core c).test = none ∧ (u.core c).v0u = (s.core c).kept.1 ∧
      (u.core c).v1u = (s.core c).kept.2 ∧ (u.die (c / 64)).soft = min ((s.die (c / 64)).soft + 1) 0xFFFFFFFF ∧ 1024 ∈ u.pkg.msix) ∧
  (∀ (s : State) (c : Nat), s.arg.unit = .core c → s.arg.flag = false → (s.core c).test = some (.core c) → (s.core c).testable = true →
    (s.core c).vuok ≠ 0 →
    ∃ u : State, Settles .collimationTestDone s u ∧ (u.core c).test = none ∧ 1024 ∈ u.pkg.msix ∧
      u.mem = ((s.collimationSave c 0).collimationSave c 1).mem ∧ (∀ d, (u.cluster d).site = (s.cluster d).site)) ∧
  ∀ (s : State) (a : AgeSample), s.arg.age = some a →
    (s.arg.n < 4 → Settles .ephemUpdate s (s.modDie s.arg.n fun d =>
      { d with eolDays := a.eolDays % 2 ^ 16, rodrift := a.rodrift % 2 ^ 16, hours := a.hours % 2 ^ 16 })) ∧
    ∀ n, n < 8 → s.arg.n = 4 + n → Settles .ephemUpdate s (s.modFlash n fun k => { k with eolDays := a.eolDays % 2 ^ 16 })

/-- R69 to R76, R79: words of each slot, written out from the tables, are the instructions they stand for. -/
def Obligations.WordsOfTheTablesDecode : Prop :=
  decodeSlot .s 0x060028A000000800 = .ok (⟨false, 0⟩, .addi ⟨5, 5, 64, 0⟩) ∧
  decodeSlot .s 0x0E0028A300000000 = .ok (⟨false, 0⟩, .div ⟨5, 5, 6, 0, 0, 0, 0, 0, 0, 0, 0⟩) ∧
  decodeSlot .y 0x6200000000000420 = .ok (⟨false, 0⟩, .svc ⟨0, 0, 33, 0⟩) ∧
  decodeSlot .y 0x5400000000000000 = .ok (⟨false, 0⟩, .quiet) ∧
  decodeSlot .l 0x0E0030E000000100 = .ok (⟨false, 0⟩, .ldd ⟨6, 7, 0, 0, 0, 0, 256⟩) ∧
  decodeSlot .w 0x080028C046000000 = .ok (⟨false, 0⟩, .std ⟨5, 6, 0, 4, 3, 0, 0⟩) ∧
  decodeSlot .m 0x1A00004000000080 = .ok (⟨false, 0⟩, .arow ⟨0, 2, 0, 0, 0, 0, 0, 0, 0, 0, 0, 0, 0, 128⟩) ∧
  decodeSlot .y 0x5400000000000001 = .error .badField ∧
  decodeSlot .s 0x0000000000000001 = .error .nopBody ∧
  decodeSlot .s 0x1400000000000000 = .error (.unassigned .s 0x0A) ∧
  decodeSlot .v1 0x1400000000000000 = .error .v0Only

/-- R69 to R82: every well-formed operation decodes from its own word under any predicate, and a bundle that holds it alone
brings it and nothing else. -/
def Obligations.DecodeUndoesEncode : Prop :=
  ∀ (p : Pred) (i : Instr) (sl : Slot), i.wf = true → i.slot = some sl →
    (∃ w, encode p i = some w ∧ decodeSlot sl w = .ok (p, i)) ∧
    (i ≠ .nop → Fetched.work ⟨encodeAlone p i, decodeBundle (encodeAlone p i), []⟩ false = [(sl, p, i)])

/-- R78, R82: a word that decodes is the word of the operation it decodes to, bit by bit; an OP that the slot does not
assign, a V0-only operation in slot V1 and a NOP with a body are refused by name. -/
def Obligations.DecodedWordsEncodeBack : Prop :=
  (∀ (sl : Slot) (w : BitVec 64) (p : Pred) (i : Instr), decodeSlot sl w = .ok (p, i) →
    encode p i = some w ∧ i.wf = true ∧ (i ≠ .nop → i.slot = some sl)) ∧
  (∀ (sl : Slot) (w : BitVec 64), (w.extractLsb' 57 7).toNat = 0 → w.extractLsb' 0 49 ≠ 0 → decodeSlot sl w = .error .nopBody) ∧
  ∀ (sl : Slot) (w : BitVec 64), (w.extractLsb' 57 7).toNat ≠ 0 → (∀ b, decodeOp sl (w.extractLsb' 57 7).toNat b = none) →
    decodeSlot sl w = .error .v0Only ∨ decodeSlot sl w = .error (.unassigned sl (w.extractLsb' 57 7).toNat)

/-- A step runs what is decoded: the bundle that fetch gives at a running bank's PC, slot by slot in slot order, with time
passing after it; an event of the agenda with its operands. -/
def Obligations.StepRunsWhatIsDecoded : Prop :=
  (∀ (s s1 s2 s3 t : State) (c b : Nat) (w : Bundle) (q : Fetched),
    s.nextAction = (some (.issue c), s1) → s1.canIssue c = true → b = (s1.core c).active → s2 = s1.noteTimer c b →
    (s2.ctx c b).status = .running → (s2.ctx c b).leaving = none → (s2.ctx c b).timerDue = false → (s2.ctx c b).skewed = false →
    s2.fetchNext c b = (.ok w, s3) → (∀ f, bundleY w ≠ .rep f) → q = ⟨w, decodeBundle w, []⟩ →
    (s3.openIssue c b).issue.pre.overfillOpen q = false → (s3.openIssue c b).issue.pre.decodeTrap c q = none →
    (s3.openIssue c b).runSlots (q.work ((s3.openIssue c b).issue.pre.repeating (s3.openIssue c b).here)) = .next t →
    step s = .next ({ (s3.openIssue c b).closeIssue t [] with issue := .none } : State).settle.tick) ∧
  (∀ (s : State) (sl : Slot) (p : Pred) (i : Instr), (∀ e ∈ s.issue.pre.pend, e.reg ≠ .p p.reg.toNat) → s.issue.pre.spoilt (.p p.reg.toNat) = false →
    s.runSlots [(sl, p, i)] = exec i { s with issue := { s.issue with
      slot := sl.index, instr := i, pred := p, guard := if p.reg = 0 then [] else [.p p.reg.toNat], need := .none, unsure := false
      anchored := s.issue.anchored || !slips sl.index, cond := s.issue.pre.predicate p } }) ∧
  (∀ (k : Ctx) (p : Pred), k.predicate p = if p.neg = true then ~~~(k.getP p.reg.toNat) else k.getP p.reg.toNat) ∧
  (∀ (s t : State) (body : List (Word × Bundle)), t.issue.verdict = .commit → t.cur.sc = none →
    (t.issue.risky = false ∨ t.issue.anchored = false) → s.closeIssue t body = t.commitBundle body) ∧
  (∀ (s t : State) (i : Instr) (a : EventArg) (r : List Action), s.agenda = .event i a :: r → i.parts = none → s.pkg.halted = false →
    exec i { s with agenda := r, arg := a } = .next t → step s = .next { t with arg := .none }.tick) ∧
  ∀ (s : State) (c : Nat), s.agenda = [] → s.others = false → s.nextCore = some c →
    s.nextAction = (some (.issue c), { s with others := true })

/-- R70, R81 to R83: a bundle that decode refuses raises illegal encoding in the lowest slot that is wrong; an otherwise legal one
with a supervisor-only operation raises the privilege trap in user mode.  That a repeat whose later bundle breaks the rules of its
body traps at the REP bundle also when the breach shows after REP has issued is the model's reading (log entry 77). -/
def Obligations.IllegalBundlesTrap : Prop :=
  (∀ (k : Ctx) (core : Nat) (q : Fetched) (wrong : Nat → Prop),
    (∀ n, wrong n ↔ n ∈ slotErrors q.ops ∨ n ∈ clashes q.ops ∨ n = 0 ∧ ((finderOnly (bundleY q.word) = true ∧ finderCapable core = false) ∨
      k.loopRefused q = true ∨ k.repBreach q.word ≠ none)) →
    (∀ m, wrong m → (∀ n, wrong n → m ≤ n) → k.decodeTrap core q = some (0x0A, m, (k.repBreach q.word).getD k.pc)) ∧
    ((∀ n, ¬wrong n) → k.mode = .user → privileged (bundleY q.word) = true → k.decodeTrap core q = some (0x0B, 0, k.pc)) ∧
    ((∀ n, ¬wrong n) → k.mode = .supervisor ∨ privileged (bundleY q.word) = false → k.decodeTrap core q = none)) ∧
  (∀ (ops : List SlotOp) (n : Nat), n ∈ slotErrors ops ↔ ∃ sl e, (sl, .error e) ∈ ops ∧ n = sl.index) ∧
  (∀ (ops : List SlotOp) (n : Nat), n ∈ clashes ops ↔
    ∃ (d e : SlotOp) (r : Target), [d, e].Sublist ops ∧ r ∈ Instr.writes d.instr ∧ r ∈ Instr.writes e.instr ∧ n = e.1.index) ∧
  (∀ w : Bundle, (decodeBundle w).map (·.1.index) = [0, 1, 2, 3, 4, 5, 6, 7]) ∧
  (∀ (s : State) (q : Fetched) (cause sl : Nat) (epc : Word), s.issue.pre.overfillOpen q = false →
    s.issue.pre.decodeTrap s.issue.core q = some (cause, sl, epc) →
    s.issueDecoded q = .next (s.closeIssue (({ s with issue := { s.issue with slot := sl } } : State).raiseAs
      ⟨cause, sl, 0, 0, 0, false, false, epc⟩ none) q.body)) ∧
  (∀ (k : Ctx) (w : Bundle), k.inRepeat = none → k.repBreach w = none) ∧
  ∀ i : Instr, privileged i = true ↔ i = .eret ∨ (∃ f, i = .csave f) ∨ (∃ f, i = .cload f) ∨ (∃ f, i = .ctxsw f) ∨
    (∃ f, i = .mfs f ∧ f.imm.toNat % 4096 ∈ [0x10, 0x11, 0x12, 0x13, 0x14, 0x15]) ∨ ∃ f, i = .mts f ∧ f.imm.toNat % 4096 ≠ 0x1B

/-- R233: memory keeps its canonical form, so that equal memories are equal data, whatever a step does. -/
def Obligations.StepKeepsMemoryCanonical : Prop :=
  ∀ s t : State, s.MemOk → step s = .next t → t.MemOk

/-- Reset: R425's start-up stage with BUSY and no error; R18's SIDEREAL at zero; the registers for which the spec has a reset value
hold it (R46, R65, R90, R230, R248, R251, R300, R304, R360, R416, R422, R424, R427, R429, R433); nothing runs, nothing is queued,
memory lists nothing (log entry 2 says what an unlisted byte reads as). -/
def Obligations.ResetIsPowerGood : Prop :=
  State.reset.MemOk ∧ State.reset.pkg.bootstage = 0x0F ∧ State.reset.sidereal = 0 ∧
  State.reset.pkg.sweepctl = 0x0001001400001000 ∧ (State.reset.pkg.energy = 0 ∧ State.reset.pkg.throttle = 0 ∧ State.reset.pkg.pcap = 3000) ∧
  (∀ c, (State.reset.core c).slotmap = 0xC2 ∧ (State.reset.core c).findctl = 0x200 ∧
    (∀ i, Sparse.get Region.none (State.reset.core c).region i = Region.none) ∧
    (State.reset.core c).tlbi = Tlbi.idle ∧ (State.reset.core c).queue = []) ∧
  (∀ d, (State.reset.cluster d).mrgctl = 0x60 ∧ (State.reset.cluster d).hptCtl = 0x01000240 ∧ (State.reset.cluster d).hptCnt = 0 ∧
    (State.reset.cluster d).colmap = 0x76543210) ∧
  (∀ e, (State.reset.die e).colcnt = 0 ∧ (State.reset.die e).ephem = 0xFFFF000000000000) ∧
  (∀ f, (State.reset.flashStack f).thresh = 1000000 ∧ (State.reset.flashStack f).eolDays = 0xFFFF ∧ (State.reset.flashStack f).reloc = 0 ∧
    (State.reset.flashStack f).uncorr = 0 ∧ (State.reset.flashStack f).arm = false ∧ (State.reset.flashStack f).armPage = 0) ∧
  (∀ j, (State.reset.job j).ptimeout = 0x5000 ∧ (State.reset.job j).probeGrant = 0 ∧ (State.reset.job j).hpostDrop = 0 ∧
    (State.reset.job j).stealDie = 0 ∧ (State.reset.job j).tmoPlace = 0 ∧ (State.reset.job j).fqbase = 0 ∧ (State.reset.job j).losslog = 0 ∧
    (State.reset.job j).orlog = 0 ∧ (State.reset.job j).movbase = 0 ∧ (State.reset.job j).kstat = 0 ∧ (State.reset.job j).err = false ∧
    (State.reset.job j).tearing = false ∧ (State.reset.job j).asid = 0 ∧ (State.reset.job j).ceil = 0 ∧ (State.reset.job j).en = false) ∧
  (∀ c b, (State.reset.ctx c b).status = .idle) ∧ (∀ j, (State.reset.job j).active = false) ∧
  (∀ h, (State.reset.handle h).state = .free) ∧ State.reset.fabric.msgs = [] ∧ State.reset.disp.recs = [] ∧
  State.reset.port.retry = 7 ∧ State.reset.port.rto = 8 ∧ State.reset.pkg.sweepEn = true ∧ State.reset.pkg.xperiod = 20 ∧
  ∀ a, Sparse.get 0 State.reset.mem a = 0

/-- The machine neither faults nor refuses: every instruction, on every state, answers a next state, and so does every step.  That no
meaning stops is the model's choice (log entry 61). -/
def Obligations.EveryStepAnswersANextState : Prop :=
  (∀ (i : Instr) (s : State), ∃ t, exec i s = .next t) ∧ ∀ s : State, s.Goes
end

