-- ==== Sys2Proof/Laws/State.lean ====
section
/-! SUPPORT. One lemma for each field of the state and each update: the update keeps the field. -/
namespace Sys2Proof.Machine

@[simp] theorem State.setCore_agenda (s : State) (c : Nat) (k : Core) : (s.setCore c k).agenda = s.agenda := rfl
@[simp] theorem State.setCore_turn (s : State) (c : Nat) (k : Core) : (s.setCore c k).turn = s.turn := rfl
@[simp] theorem State.setCore_others (s : State) (c : Nat) (k : Core) : (s.setCore c k).others = s.others := rfl
@[simp] theorem State.setCore_free (s : State) (c : Nat) (k : Core) : (s.setCore c k).free = s.free := rfl
@[simp] theorem State.setCore_issue (s : State) (c : Nat) (k : Core) : (s.setCore c k).issue = s.issue := rfl
@[simp] theorem State.setCore_arg (s : State) (c : Nat) (k : Core) : (s.setCore c k).arg = s.arg := rfl
@[simp] theorem State.setCore_sidereal (s : State) (c : Nat) (k : Core) : (s.setCore c k).sidereal = s.sidereal := rfl
@[simp] theorem State.setCore_mem (s : State) (c : Nat) (k : Core) : (s.setCore c k).mem = s.mem := rfl
@[simp] theorem State.setCore_bad (s : State) (c : Nat) (k : Core) : (s.setCore c k).bad = s.bad := rfl
@[simp] theorem State.setCore_origin (s : State) (c : Nat) (k : Core) : (s.setCore c k).origin = s.origin := rfl
@[simp] theorem State.setCore_clusters (s : State) (c : Nat) (k : Core) : (s.setCore c k).clusters = s.clusters := rfl
@[simp] theorem State.setCore_dies (s : State) (c : Nat) (k : Core) : (s.setCore c k).dies = s.dies := rfl
@[simp] theorem State.setCore_hbm (s : State) (c : Nat) (k : Core) : (s.setCore c k).hbm = s.hbm := rfl
@[simp] theorem State.setCore_flash (s : State) (c : Nat) (k : Core) : (s.setCore c k).flash = s.flash := rfl
@[simp] theorem State.setCore_reads (s : State) (c : Nat) (k : Core) : (s.setCore c k).reads = s.reads := rfl
@[simp] theorem State.setCore_nextRead (s : State) (c : Nat) (k : Core) : (s.setCore c k).nextRead = s.nextRead := rfl
@[simp] theorem State.setCore_handles (s : State) (c : Nat) (k : Core) : (s.setCore c k).handles = s.handles := rfl
@[simp] theorem State.setCore_hreqs (s : State) (c : Nat) (k : Core) : (s.setCore c k).hreqs = s.hreqs := rfl
@[simp] theorem State.setCore_disp (s : State) (c : Nat) (k : Core) : (s.setCore c k).disp = s.disp := rfl
@[simp] theorem State.setCore_jobs (s : State) (c : Nat) (k : Core) : (s.setCore c k).jobs = s.jobs := rfl
@[simp] theorem State.setCore_saved (s : State) (c : Nat) (k : Core) : (s.setCore c k).saved = s.saved := rfl
@[simp] theorem State.setCore_faults (s : State) (c : Nat) (k : Core) : (s.setCore c k).faults = s.faults := rfl
@[simp] theorem State.setCore_fabric (s : State) (c : Nat) (k : Core) : (s.setCore c k).fabric = s.fabric := rfl
@[simp] theorem State.setCore_port (s : State) (c : Nat) (k : Core) : (s.setCore c k).port = s.port := rfl
@[simp] theorem State.setCore_mbox (s : State) (c : Nat) (k : Core) : (s.setCore c k).mbox = s.mbox := rfl
@[simp] theorem State.setCore_pkg (s : State) (c : Nat) (k : Core) : (s.setCore c k).pkg = s.pkg := rfl

@[simp] theorem State.modCore_agenda (s : State) (c : Nat) (f : Core → Core) : (s.modCore c f).agenda = s.agenda := rfl
@[simp] theorem State.modCore_turn (s : State) (c : Nat) (f : Core → Core) : (s.modCore c f).turn = s.turn := rfl
@[simp] theorem State.modCore_others (s : State) (c : Nat) (f : Core → Core) : (s.modCore c f).others = s.others := rfl
@[simp] theorem State.modCore_free (s : State) (c : Nat) (f : Core → Core) : (s.modCore c f).free = s.free := rfl
@[simp] theorem State.modCore_issue (s : State) (c : Nat) (f : Core → Core) : (s.modCore c f).issue = s.issue := rfl
@[simp] theorem State.modCore_arg (s : State) (c : Nat) (f : Core → Core) : (s.modCore c f).arg = s.arg := rfl
@[simp] theorem State.modCore_sidereal (s : State) (c : Nat) (f : Core → Core) : (s.modCore c f).sidereal = s.sidereal := rfl
@[simp] theorem State.modCore_mem (s : State) (c : Nat) (f : Core → Core) : (s.modCore c f).mem = s.mem := rfl
@[simp] theorem State.modCore_bad (s : State) (c : Nat) (f : Core → Core) : (s.modCore c f).bad = s.bad := rfl
@[simp] theorem State.modCore_origin (s : State) (c : Nat) (f : Core → Core) : (s.modCore c f).origin = s.origin := rfl
@[simp] theorem State.modCore_clusters (s : State) (c : Nat) (f : Core → Core) : (s.modCore c f).clusters = s.clusters := rfl
@[simp] theorem State.modCore_dies (s : State) (c : Nat) (f : Core → Core) : (s.modCore c f).dies = s.dies := rfl
@[simp] theorem State.modCore_hbm (s : State) (c : Nat) (f : Core → Core) : (s.modCore c f).hbm = s.hbm := rfl
@[simp] theorem State.modCore_flash (s : State) (c : Nat) (f : Core → Core) : (s.modCore c f).flash = s.flash := rfl
@[simp] theorem State.modCore_reads (s : State) (c : Nat) (f : Core → Core) : (s.modCore c f).reads = s.reads := rfl
@[simp] theorem State.modCore_nextRead (s : State) (c : Nat) (f : Core → Core) : (s.modCore c f).nextRead = s.nextRead := rfl
@[simp] theorem State.modCore_handles (s : State) (c : Nat) (f : Core → Core) : (s.modCore c f).handles = s.handles := rfl
@[simp] theorem State.modCore_hreqs (s : State) (c : Nat) (f : Core → Core) : (s.modCore c f).hreqs = s.hreqs := rfl
@[simp] theorem State.modCore_disp (s : State) (c : Nat) (f : Core → Core) : (s.modCore c f).disp = s.disp := rfl
@[simp] theorem State.modCore_jobs (s : State) (c : Nat) (f : Core → Core) : (s.modCore c f).jobs = s.jobs := rfl
@[simp] theorem State.modCore_saved (s : State) (c : Nat) (f : Core → Core) : (s.modCore c f).saved = s.saved := rfl
@[simp] theorem State.modCore_faults (s : State) (c : Nat) (f : Core → Core) : (s.modCore c f).faults = s.faults := rfl
@[simp] theorem State.modCore_fabric (s : State) (c : Nat) (f : Core → Core) : (s.modCore c f).fabric = s.fabric := rfl
@[simp] theorem State.modCore_port (s : State) (c : Nat) (f : Core → Core) : (s.modCore c f).port = s.port := rfl
@[simp] theorem State.modCore_mbox (s : State) (c : Nat) (f : Core → Core) : (s.modCore c f).mbox = s.mbox := rfl
@[simp] theorem State.modCore_pkg (s : State) (c : Nat) (f : Core → Core) : (s.modCore c f).pkg = s.pkg := rfl

@[simp] theorem State.setCtx_agenda (s : State) (c b : Nat) (k : Ctx) : (s.setCtx c b k).agenda = s.agenda := rfl
@[simp] theorem State.setCtx_turn (s : State) (c b : Nat) (k : Ctx) : (s.setCtx c b k).turn = s.turn := rfl
@[simp] theorem State.setCtx_others (s : State) (c b : Nat) (k : Ctx) : (s.setCtx c b k).others = s.others := rfl
@[simp] theorem State.setCtx_free (s : State) (c b : Nat) (k : Ctx) : (s.setCtx c b k).free = s.free := rfl
@[simp] theorem State.setCtx_issue (s : State) (c b : Nat) (k : Ctx) : (s.setCtx c b k).issue = s.issue := rfl
@[simp] theorem State.setCtx_arg (s : State) (c b : Nat) (k : Ctx) : (s.setCtx c b k).arg = s.arg := rfl
@[simp] theorem State.setCtx_sidereal (s : State) (c b : Nat) (k : Ctx) : (s.setCtx c b k).sidereal = s.sidereal := rfl
@[simp] theorem State.setCtx_mem (s : State) (c b : Nat) (k : Ctx) : (s.setCtx c b k).mem = s.mem := rfl
@[simp] theorem State.setCtx_bad (s : State) (c b : Nat) (k : Ctx) : (s.setCtx c b k).bad = s.bad := rfl
@[simp] theorem State.setCtx_origin (s : State) (c b : Nat) (k : Ctx) : (s.setCtx c b k).origin = s.origin := rfl
@[simp] theorem State.setCtx_clusters (s : State) (c b : Nat) (k : Ctx) : (s.setCtx c b k).clusters = s.clusters := rfl
@[simp] theorem State.setCtx_dies (s : State) (c b : Nat) (k : Ctx) : (s.setCtx c b k).dies = s.dies := rfl
@[simp] theorem State.setCtx_hbm (s : State) (c b : Nat) (k : Ctx) : (s.setCtx c b k).hbm = s.hbm := rfl
@[simp] theorem State.setCtx_flash (s : State) (c b : Nat) (k : Ctx) : (s.setCtx c b k).flash = s.flash := rfl
@[simp] theorem State.setCtx_reads (s : State) (c b : Nat) (k : Ctx) : (s.setCtx c b k).reads = s.reads := rfl
@[simp] theorem State.setCtx_nextRead (s : State) (c b : Nat) (k : Ctx) : (s.setCtx c b k).nextRead = s.nextRead := rfl
@[simp] theorem State.setCtx_handles (s : State) (c b : Nat) (k : Ctx) : (s.setCtx c b k).handles = s.handles := rfl
@[simp] theorem State.setCtx_hreqs (s : State) (c b : Nat) (k : Ctx) : (s.setCtx c b k).hreqs = s.hreqs := rfl
@[simp] theorem State.setCtx_disp (s : State) (c b : Nat) (k : Ctx) : (s.setCtx c b k).disp = s.disp := rfl
@[simp] theorem State.setCtx_jobs (s : State) (c b : Nat) (k : Ctx) : (s.setCtx c b k).jobs = s.jobs := rfl
@[simp] theorem State.setCtx_saved (s : State) (c b : Nat) (k : Ctx) : (s.setCtx c b k).saved = s.saved := rfl
@[simp] theorem State.setCtx_faults (s : State) (c b : Nat) (k : Ctx) : (s.setCtx c b k).faults = s.faults := rfl
@[simp] theorem State.setCtx_fabric (s : State) (c b : Nat) (k : Ctx) : (s.setCtx c b k).fabric = s.fabric := rfl
@[simp] theorem State.setCtx_port (s : State) (c b : Nat) (k : Ctx) : (s.setCtx c b k).port = s.port := rfl
@[simp] theorem State.setCtx_mbox (s : State) (c b : Nat) (k : Ctx) : (s.setCtx c b k).mbox = s.mbox := rfl
@[simp] theorem State.setCtx_pkg (s : State) (c b : Nat) (k : Ctx) : (s.setCtx c b k).pkg = s.pkg := rfl

@[simp] theorem State.modCtx_agenda (s : State) (c b : Nat) (f : Ctx → Ctx) : (s.modCtx c b f).agenda = s.agenda := rfl
@[simp] theorem State.modCtx_turn (s : State) (c b : Nat) (f : Ctx → Ctx) : (s.modCtx c b f).turn = s.turn := rfl
@[simp] theorem State.modCtx_others (s : State) (c b : Nat) (f : Ctx → Ctx) : (s.modCtx c b f).others = s.others := rfl
@[simp] theorem State.modCtx_free (s : State) (c b : Nat) (f : Ctx → Ctx) : (s.modCtx c b f).free = s.free := rfl
@[simp] theorem State.modCtx_issue (s : State) (c b : Nat) (f : Ctx → Ctx) : (s.modCtx c b f).issue = s.issue := rfl
@[simp] theorem State.modCtx_arg (s : State) (c b : Nat) (f : Ctx → Ctx) : (s.modCtx c b f).arg = s.arg := rfl
@[simp] theorem State.modCtx_sidereal (s : State) (c b : Nat) (f : Ctx → Ctx) : (s.modCtx c b f).sidereal = s.sidereal := rfl
@[simp] theorem State.modCtx_mem (s : State) (c b : Nat) (f : Ctx → Ctx) : (s.modCtx c b f).mem = s.mem := rfl
@[simp] theorem State.modCtx_bad (s : State) (c b : Nat) (f : Ctx → Ctx) : (s.modCtx c b f).bad = s.bad := rfl
@[simp] theorem State.modCtx_origin (s : State) (c b : Nat) (f : Ctx → Ctx) : (s.modCtx c b f).origin = s.origin := rfl
@[simp] theorem State.modCtx_clusters (s : State) (c b : Nat) (f : Ctx → Ctx) : (s.modCtx c b f).clusters = s.clusters := rfl
@[simp] theorem State.modCtx_dies (s : State) (c b : Nat) (f : Ctx → Ctx) : (s.modCtx c b f).dies = s.dies := rfl
@[simp] theorem State.modCtx_hbm (s : State) (c b : Nat) (f : Ctx → Ctx) : (s.modCtx c b f).hbm = s.hbm := rfl
@[simp] theorem State.modCtx_flash (s : State) (c b : Nat) (f : Ctx → Ctx) : (s.modCtx c b f).flash = s.flash := rfl
@[simp] theorem State.modCtx_reads (s : State) (c b : Nat) (f : Ctx → Ctx) : (s.modCtx c b f).reads = s.reads := rfl
@[simp] theorem State.modCtx_nextRead (s : State) (c b : Nat) (f : Ctx → Ctx) : (s.modCtx c b f).nextRead = s.nextRead := rfl
@[simp] theorem State.modCtx_handles (s : State) (c b : Nat) (f : Ctx → Ctx) : (s.modCtx c b f).handles = s.handles := rfl
@[simp] theorem State.modCtx_hreqs (s : State) (c b : Nat) (f : Ctx → Ctx) : (s.modCtx c b f).hreqs = s.hreqs := rfl
@[simp] theorem State.modCtx_disp (s : State) (c b : Nat) (f : Ctx → Ctx) : (s.modCtx c b f).disp = s.disp := rfl
@[simp] theorem State.modCtx_jobs (s : State) (c b : Nat) (f : Ctx → Ctx) : (s.modCtx c b f).jobs = s.jobs := rfl
@[simp] theorem State.modCtx_saved (s : State) (c b : Nat) (f : Ctx → Ctx) : (s.modCtx c b f).saved = s.saved := rfl
@[simp] theorem State.modCtx_faults (s : State) (c b : Nat) (f : Ctx → Ctx) : (s.modCtx c b f).faults = s.faults := rfl
@[simp] theorem State.modCtx_fabric (s : State) (c b : Nat) (f : Ctx → Ctx) : (s.modCtx c b f).fabric = s.fabric := rfl
@[simp] theorem State.modCtx_port (s : State) (c b : Nat) (f : Ctx → Ctx) : (s.modCtx c b f).port = s.port := rfl
@[simp] theorem State.modCtx_mbox (s : State) (c b : Nat) (f : Ctx → Ctx) : (s.modCtx c b f).mbox = s.mbox := rfl
@[simp] theorem State.modCtx_pkg (s : State) (c b : Nat) (f : Ctx → Ctx) : (s.modCtx c b f).pkg = s.pkg := rfl

@[simp] theorem State.modCur_agenda (s : State) (f : Ctx → Ctx) : (s.modCur f).agenda = s.agenda := rfl
@[simp] theorem State.modCur_turn (s : State) (f : Ctx → Ctx) : (s.modCur f).turn = s.turn := rfl
@[simp] theorem State.modCur_others (s : State) (f : Ctx → Ctx) : (s.modCur f).others = s.others := rfl
@[simp] theorem State.modCur_free (s : State) (f : Ctx → Ctx) : (s.modCur f).free = s.free := rfl
@[simp] theorem State.modCur_issue (s : State) (f : Ctx → Ctx) : (s.modCur f).issue = s.issue := rfl
@[simp] theorem State.modCur_arg (s : State) (f : Ctx → Ctx) : (s.modCur f).arg = s.arg := rfl
@[simp] theorem State.modCur_sidereal (s : State) (f : Ctx → Ctx) : (s.modCur f).sidereal = s.sidereal := rfl
@[simp] theorem State.modCur_mem (s : State) (f : Ctx → Ctx) : (s.modCur f).mem = s.mem := rfl
@[simp] theorem State.modCur_bad (s : State) (f : Ctx → Ctx) : (s.modCur f).bad = s.bad := rfl
@[simp] theorem State.modCur_origin (s : State) (f : Ctx → Ctx) : (s.modCur f).origin = s.origin := rfl
@[simp] theorem State.modCur_clusters (s : State) (f : Ctx → Ctx) : (s.modCur f).clusters = s.clusters := rfl
@[simp] theorem State.modCur_dies (s : State) (f : Ctx → Ctx) : (s.modCur f).dies = s.dies := rfl
@[simp] theorem State.modCur_hbm (s : State) (f : Ctx → Ctx) : (s.modCur f).hbm = s.hbm := rfl
@[simp] theorem State.modCur_flash (s : State) (f : Ctx → Ctx) : (s.modCur f).flash = s.flash := rfl
@[simp] theorem State.modCur_reads (s : State) (f : Ctx → Ctx) : (s.modCur f).reads = s.reads := rfl
@[simp] theorem State.modCur_nextRead (s : State) (f : Ctx → Ctx) : (s.modCur f).nextRead = s.nextRead := rfl
@[simp] theorem State.modCur_handles (s : State) (f : Ctx → Ctx) : (s.modCur f).handles = s.handles := rfl
@[simp] theorem State.modCur_hreqs (s : State) (f : Ctx → Ctx) : (s.modCur f).hreqs = s.hreqs := rfl
@[simp] theorem State.modCur_disp (s : State) (f : Ctx → Ctx) : (s.modCur f).disp = s.disp := rfl
@[simp] theorem State.modCur_jobs (s : State) (f : Ctx → Ctx) : (s.modCur f).jobs = s.jobs := rfl
@[simp] theorem State.modCur_saved (s : State) (f : Ctx → Ctx) : (s.modCur f).saved = s.saved := rfl
@[simp] theorem State.modCur_faults (s : State) (f : Ctx → Ctx) : (s.modCur f).faults = s.faults := rfl
@[simp] theorem State.modCur_fabric (s : State) (f : Ctx → Ctx) : (s.modCur f).fabric = s.fabric := rfl
@[simp] theorem State.modCur_port (s : State) (f : Ctx → Ctx) : (s.modCur f).port = s.port := rfl
@[simp] theorem State.modCur_mbox (s : State) (f : Ctx → Ctx) : (s.modCur f).mbox = s.mbox := rfl
@[simp] theorem State.modCur_pkg (s : State) (f : Ctx → Ctx) : (s.modCur f).pkg = s.pkg := rfl

@[simp] theorem State.modCluster_agenda (s : State) (d : Nat) (f : Cluster → Cluster) : (s.modCluster d f).agenda = s.agenda := rfl
@[simp] theorem State.modCluster_turn (s : State) (d : Nat) (f : Cluster → Cluster) : (s.modCluster d f).turn = s.turn := rfl
@[simp] theorem State.modCluster_others (s : State) (d : Nat) (f : Cluster → Cluster) : (s.modCluster d f).others = s.others := rfl
@[simp] theorem State.modCluster_free (s : State) (d : Nat) (f : Cluster → Cluster) : (s.modCluster d f).free = s.free := rfl
@[simp] theorem State.modCluster_issue (s : State) (d : Nat) (f : Cluster → Cluster) : (s.modCluster d f).issue = s.issue := rfl
@[simp] theorem State.modCluster_arg (s : State) (d : Nat) (f : Cluster → Cluster) : (s.modCluster d f).arg = s.arg := rfl
@[simp] theorem State.modCluster_sidereal (s : State) (d : Nat) (f : Cluster → Cluster) : (s.modCluster d f).sidereal = s.sidereal := rfl
@[simp] theorem State.modCluster_mem (s : State) (d : Nat) (f : Cluster → Cluster) : (s.modCluster d f).mem = s.mem := rfl
@[simp] theorem State.modCluster_bad (s : State) (d : Nat) (f : Cluster → Cluster) : (s.modCluster d f).bad = s.bad := rfl
@[simp] theorem State.modCluster_origin (s : State) (d : Nat) (f : Cluster → Cluster) : (s.modCluster d f).origin = s.origin := rfl
@[simp] theorem State.modCluster_cores (s : State) (d : Nat) (f : Cluster → Cluster) : (s.modCluster d f).cores = s.cores := rfl
@[simp] theorem State.modCluster_dies (s : State) (d : Nat) (f : Cluster → Cluster) : (s.modCluster d f).dies = s.dies := rfl
@[simp] theorem State.modCluster_hbm (s : State) (d : Nat) (f : Cluster → Cluster) : (s.modCluster d f).hbm = s.hbm := rfl
@[simp] theorem State.modCluster_flash (s : State) (d : Nat) (f : Cluster → Cluster) : (s.modCluster d f).flash = s.flash := rfl
@[simp] theorem State.modCluster_reads (s : State) (d : Nat) (f : Cluster → Cluster) : (s.modCluster d f).reads = s.reads := rfl
@[simp] theorem State.modCluster_nextRead (s : State) (d : Nat) (f : Cluster → Cluster) : (s.modCluster d f).nextRead = s.nextRead := rfl
@[simp] theorem State.modCluster_handles (s : State) (d : Nat) (f : Cluster → Cluster) : (s.modCluster d f).handles = s.handles := rfl
@[simp] theorem State.modCluster_hreqs (s : State) (d : Nat) (f : Cluster → Cluster) : (s.modCluster d f).hreqs = s.hreqs := rfl
@[simp] theorem State.modCluster_disp (s : State) (d : Nat) (f : Cluster → Cluster) : (s.modCluster d f).disp = s.disp := rfl
@[simp] theorem State.modCluster_jobs (s : State) (d : Nat) (f : Cluster → Cluster) : (s.modCluster d f).jobs = s.jobs := rfl
@[simp] theorem State.modCluster_saved (s : State) (d : Nat) (f : Cluster → Cluster) : (s.modCluster d f).saved = s.saved := rfl
@[simp] theorem State.modCluster_faults (s : State) (d : Nat) (f : Cluster → Cluster) : (s.modCluster d f).faults = s.faults := rfl
@[simp] theorem State.modCluster_fabric (s : State) (d : Nat) (f : Cluster → Cluster) : (s.modCluster d f).fabric = s.fabric := rfl
@[simp] theorem State.modCluster_port (s : State) (d : Nat) (f : Cluster → Cluster) : (s.modCluster d f).port = s.port := rfl
@[simp] theorem State.modCluster_mbox (s : State) (d : Nat) (f : Cluster → Cluster) : (s.modCluster d f).mbox = s.mbox := rfl
@[simp] theorem State.modCluster_pkg (s : State) (d : Nat) (f : Cluster → Cluster) : (s.modCluster d f).pkg = s.pkg := rfl

@[simp] theorem State.modDie_agenda (s : State) (d : Nat) (f : Die → Die) : (s.modDie d f).agenda = s.agenda := rfl
@[simp] theorem State.modDie_turn (s : State) (d : Nat) (f : Die → Die) : (s.modDie d f).turn = s.turn := rfl
@[simp] theorem State.modDie_others (s : State) (d : Nat) (f : Die → Die) : (s.modDie d f).others = s.others := rfl
@[simp] theorem State.modDie_free (s : State) (d : Nat) (f : Die → Die) : (s.modDie d f).free = s.free := rfl
@[simp] theorem State.modDie_issue (s : State) (d : Nat) (f : Die → Die) : (s.modDie d f).issue = s.issue := rfl
@[simp] theorem State.modDie_arg (s : State) (d : Nat) (f : Die → Die) : (s.modDie d f).arg = s.arg := rfl
@[simp] theorem State.modDie_sidereal (s : State) (d : Nat) (f : Die → Die) : (s.modDie d f).sidereal = s.sidereal := rfl
@[simp] theorem State.modDie_mem (s : State) (d : Nat) (f : Die → Die) : (s.modDie d f).mem = s.mem := rfl
@[simp] theorem State.modDie_bad (s : State) (d : Nat) (f : Die → Die) : (s.modDie d f).bad = s.bad := rfl
@[simp] theorem State.modDie_origin (s : State) (d : Nat) (f : Die → Die) : (s.modDie d f).origin = s.origin := rfl
@[simp] theorem State.modDie_cores (s : State) (d : Nat) (f : Die → Die) : (s.modDie d f).cores = s.cores := rfl
@[simp] theorem State.modDie_clusters (s : State) (d : Nat) (f : Die → Die) : (s.modDie d f).clusters = s.clusters := rfl
@[simp] theorem State.modDie_hbm (s : State) (d : Nat) (f : Die → Die) : (s.modDie d f).hbm = s.hbm := rfl
@[simp] theorem State.modDie_flash (s : State) (d : Nat) (f : Die → Die) : (s.modDie d f).flash = s.flash := rfl
@[simp] theorem State.modDie_reads (s : State) (d : Nat) (f : Die → Die) : (s.modDie d f).reads = s.reads := rfl
@[simp] theorem State.modDie_nextRead (s : State) (d : Nat) (f : Die → Die) : (s.modDie d f).nextRead = s.nextRead := rfl
@[simp] theorem State.modDie_handles (s : State) (d : Nat) (f : Die → Die) : (s.modDie d f).handles = s.handles := rfl
@[simp] theorem State.modDie_hreqs (s : State) (d : Nat) (f : Die → Die) : (s.modDie d f).hreqs = s.hreqs := rfl
@[simp] theorem State.modDie_disp (s : State) (d : Nat) (f : Die → Die) : (s.modDie d f).disp = s.disp := rfl
@[simp] theorem State.modDie_jobs (s : State) (d : Nat) (f : Die → Die) : (s.modDie d f).jobs = s.jobs := rfl
@[simp] theorem State.modDie_saved (s : State) (d : Nat) (f : Die → Die) : (s.modDie d f).saved = s.saved := rfl
@[simp] theorem State.modDie_faults (s : State) (d : Nat) (f : Die → Die) : (s.modDie d f).faults = s.faults := rfl
@[simp] theorem State.modDie_fabric (s : State) (d : Nat) (f : Die → Die) : (s.modDie d f).fabric = s.fabric := rfl
@[simp] theorem State.modDie_port (s : State) (d : Nat) (f : Die → Die) : (s.modDie d f).port = s.port := rfl
@[simp] theorem State.modDie_mbox (s : State) (d : Nat) (f : Die → Die) : (s.modDie d f).mbox = s.mbox := rfl
@[simp] theorem State.modDie_pkg (s : State) (d : Nat) (f : Die → Die) : (s.modDie d f).pkg = s.pkg := rfl

@[simp] theorem State.modHbm_agenda (s : State) (d : Nat) (f : HbmStack → HbmStack) : (s.modHbm d f).agenda = s.agenda := rfl
@[simp] theorem State.modHbm_turn (s : State) (d : Nat) (f : HbmStack → HbmStack) : (s.modHbm d f).turn = s.turn := rfl
@[simp] theorem State.modHbm_others (s : State) (d : Nat) (f : HbmStack → HbmStack) : (s.modHbm d f).others = s.others := rfl
@[simp] theorem State.modHbm_free (s : State) (d : Nat) (f : HbmStack → HbmStack) : (s.modHbm d f).free = s.free := rfl
@[simp] theorem State.modHbm_issue (s : State) (d : Nat) (f : HbmStack → HbmStack) : (s.modHbm d f).issue = s.issue := rfl
@[simp] theorem State.modHbm_arg (s : State) (d : Nat) (f : HbmStack → HbmStack) : (s.modHbm d f).arg = s.arg := rfl
@[simp] theorem State.modHbm_sidereal (s : State) (d : Nat) (f : HbmStack → HbmStack) : (s.modHbm d f).sidereal = s.sidereal := rfl
@[simp] theorem State.modHbm_mem (s : State) (d : Nat) (f : HbmStack → HbmStack) : (s.modHbm d f).mem = s.mem := rfl
@[simp] theorem State.modHbm_bad (s : State) (d : Nat) (f : HbmStack → HbmStack) : (s.modHbm d f).bad = s.bad := rfl
@[simp] theorem State.modHbm_origin (s : State) (d : Nat) (f : HbmStack → HbmStack) : (s.modHbm d f).origin = s.origin := rfl
@[simp] theorem State.modHbm_cores (s : State) (d : Nat) (f : HbmStack → HbmStack) : (s.modHbm d f).cores = s.cores := rfl
@[simp] theorem State.modHbm_clusters (s : State) (d : Nat) (f : HbmStack → HbmStack) : (s.modHbm d f).clusters = s.clusters := rfl
@[simp] theorem State.modHbm_dies (s : State) (d : Nat) (f : HbmStack → HbmStack) : (s.modHbm d f).dies = s.dies := rfl
@[simp] theorem State.modHbm_flash (s : State) (d : Nat) (f : HbmStack → HbmStack) : (s.modHbm d f).flash = s.flash := rfl
@[simp] theorem State.modHbm_reads (s : State) (d : Nat) (f : HbmStack → HbmStack) : (s.modHbm d f).reads = s.reads := rfl
@[simp] theorem State.modHbm_nextRead (s : State) (d : Nat) (f : HbmStack → HbmStack) : (s.modHbm d f).nextRead = s.nextRead := rfl
@[simp] theorem State.modHbm_handles (s : State) (d : Nat) (f : HbmStack → HbmStack) : (s.modHbm d f).handles = s.handles := rfl
@[simp] theorem State.modHbm_hreqs (s : State) (d : Nat) (f : HbmStack → HbmStack) : (s.modHbm d f).hreqs = s.hreqs := rfl
@[simp] theorem State.modHbm_disp (s : State) (d : Nat) (f : HbmStack → HbmStack) : (s.modHbm d f).disp = s.disp := rfl
@[simp] theorem State.modHbm_jobs (s : State) (d : Nat) (f : HbmStack → HbmStack) : (s.modHbm d f).jobs = s.jobs := rfl
@[simp] theorem State.modHbm_saved (s : State) (d : Nat) (f : HbmStack → HbmStack) : (s.modHbm d f).saved = s.saved := rfl
@[simp] theorem State.modHbm_faults (s : State) (d : Nat) (f : HbmStack → HbmStack) : (s.modHbm d f).faults = s.faults := rfl
@[simp] theorem State.modHbm_fabric (s : State) (d : Nat) (f : HbmStack → HbmStack) : (s.modHbm d f).fabric = s.fabric := rfl
@[simp] theorem State.modHbm_port (s : State) (d : Nat) (f : HbmStack → HbmStack) : (s.modHbm d f).port = s.port := rfl
@[simp] theorem State.modHbm_mbox (s : State) (d : Nat) (f : HbmStack → HbmStack) : (s.modHbm d f).mbox = s.mbox := rfl
@[simp] theorem State.modHbm_pkg (s : State) (d : Nat) (f : HbmStack → HbmStack) : (s.modHbm d f).pkg = s.pkg := rfl

@[simp] theorem State.modFlash_agenda (s : State) (d : Nat) (f : FlashStack → FlashStack) : (s.modFlash d f).agenda = s.agenda := rfl
@[simp] theorem State.modFlash_turn (s : State) (d : Nat) (f : FlashStack → FlashStack) : (s.modFlash d f).turn = s.turn := rfl
@[simp] theorem State.modFlash_others (s : State) (d : Nat) (f : FlashStack → FlashStack) : (s.modFlash d f).others = s.others := rfl
@[simp] theorem State.modFlash_free (s : State) (d : Nat) (f : FlashStack → FlashStack) : (s.modFlash d f).free = s.free := rfl
@[simp] theorem State.modFlash_issue (s : State) (d : Nat) (f : FlashStack → FlashStack) : (s.modFlash d f).issue = s.issue := rfl
@[simp] theorem State.modFlash_arg (s : State) (d : Nat) (f : FlashStack → FlashStack) : (s.modFlash d f).arg = s.arg := rfl
@[simp] theorem State.modFlash_sidereal (s : State) (d : Nat) (f : FlashStack → FlashStack) : (s.modFlash d f).sidereal = s.sidereal := rfl
@[simp] theorem State.modFlash_mem (s : State) (d : Nat) (f : FlashStack → FlashStack) : (s.modFlash d f).mem = s.mem := rfl
@[simp] theorem State.modFlash_bad (s : State) (d : Nat) (f : FlashStack → FlashStack) : (s.modFlash d f).bad = s.bad := rfl
@[simp] theorem State.modFlash_origin (s : State) (d : Nat) (f : FlashStack → FlashStack) : (s.modFlash d f).origin = s.origin := rfl
@[simp] theorem State.modFlash_cores (s : State) (d : Nat) (f : FlashStack → FlashStack) : (s.modFlash d f).cores = s.cores := rfl
@[simp] theorem State.modFlash_clusters (s : State) (d : Nat) (f : FlashStack → FlashStack) : (s.modFlash d f).clusters = s.clusters := rfl
@[simp] theorem State.modFlash_dies (s : State) (d : Nat) (f : FlashStack → FlashStack) : (s.modFlash d f).dies = s.dies := rfl
@[simp] theorem State.modFlash_hbm (s : State) (d : Nat) (f : FlashStack → FlashStack) : (s.modFlash d f).hbm = s.hbm := rfl
@[simp] theorem State.modFlash_reads (s : State) (d : Nat) (f : FlashStack → FlashStack) : (s.modFlash d f).reads = s.reads := rfl
@[simp] theorem State.modFlash_nextRead (s : State) (d : Nat) (f : FlashStack → FlashStack) : (s.modFlash d f).nextRead = s.nextRead := rfl
@[simp] theorem State.modFlash_handles (s : State) (d : Nat) (f : FlashStack → FlashStack) : (s.modFlash d f).handles = s.handles := rfl
@[simp] theorem State.modFlash_hreqs (s : State) (d : Nat) (f : FlashStack → FlashStack) : (s.modFlash d f).hreqs = s.hreqs := rfl
@[simp] theorem State.modFlash_disp (s : State) (d : Nat) (f : FlashStack → FlashStack) : (s.modFlash d f).disp = s.disp := rfl
@[simp] theorem State.modFlash_jobs (s : State) (d : Nat) (f : FlashStack → FlashStack) : (s.modFlash d f).jobs = s.jobs := rfl
@[simp] theorem State.modFlash_saved (s : State) (d : Nat) (f : FlashStack → FlashStack) : (s.modFlash d f).saved = s.saved := rfl
@[simp] theorem State.modFlash_faults (s : State) (d : Nat) (f : FlashStack → FlashStack) : (s.modFlash d f).faults = s.faults := rfl
@[simp] theorem State.modFlash_fabric (s : State) (d : Nat) (f : FlashStack → FlashStack) : (s.modFlash d f).fabric = s.fabric := rfl
@[simp] theorem State.modFlash_port (s : State) (d : Nat) (f : FlashStack → FlashStack) : (s.modFlash d f).port = s.port := rfl
@[simp] theorem State.modFlash_mbox (s : State) (d : Nat) (f : FlashStack → FlashStack) : (s.modFlash d f).mbox = s.mbox := rfl
@[simp] theorem State.modFlash_pkg (s : State) (d : Nat) (f : FlashStack → FlashStack) : (s.modFlash d f).pkg = s.pkg := rfl

@[simp] theorem State.setHandle_agenda (s : State) (h : Nat) (x : Handle) : (s.setHandle h x).agenda = s.agenda := rfl
@[simp] theorem State.setHandle_turn (s : State) (h : Nat) (x : Handle) : (s.setHandle h x).turn = s.turn := rfl
@[simp] theorem State.setHandle_others (s : State) (h : Nat) (x : Handle) : (s.setHandle h x).others = s.others := rfl
@[simp] theorem State.setHandle_free (s : State) (h : Nat) (x : Handle) : (s.setHandle h x).free = s.free := rfl
@[simp] theorem State.setHandle_issue (s : State) (h : Nat) (x : Handle) : (s.setHandle h x).issue = s.issue := rfl
@[simp] theorem State.setHandle_arg (s : State) (h : Nat) (x : Handle) : (s.setHandle h x).arg = s.arg := rfl
@[simp] theorem State.setHandle_sidereal (s : State) (h : Nat) (x : Handle) : (s.setHandle h x).sidereal = s.sidereal := rfl
@[simp] theorem State.setHandle_mem (s : State) (h : Nat) (x : Handle) : (s.setHandle h x).mem = s.mem := rfl
@[simp] theorem State.setHandle_bad (s : State) (h : Nat) (x : Handle) : (s.setHandle h x).bad = s.bad := rfl
@[simp] theorem State.setHandle_origin (s : State) (h : Nat) (x : Handle) : (s.setHandle h x).origin = s.origin := rfl
@[simp] theorem State.setHandle_cores (s : State) (h : Nat) (x : Handle) : (s.setHandle h x).cores = s.cores := rfl
@[simp] theorem State.setHandle_clusters (s : State) (h : Nat) (x : Handle) : (s.setHandle h x).clusters = s.clusters := rfl
@[simp] theorem State.setHandle_dies (s : State) (h : Nat) (x : Handle) : (s.setHandle h x).dies = s.dies := rfl
@[simp] theorem State.setHandle_hbm (s : State) (h : Nat) (x : Handle) : (s.setHandle h x).hbm = s.hbm := rfl
@[simp] theorem State.setHandle_flash (s : State) (h : Nat) (x : Handle) : (s.setHandle h x).flash = s.flash := rfl
@[simp] theorem State.setHandle_reads (s : State) (h : Nat) (x : Handle) : (s.setHandle h x).reads = s.reads := rfl
@[simp] theorem State.setHandle_nextRead (s : State) (h : Nat) (x : Handle) : (s.setHandle h x).nextRead = s.nextRead := rfl
@[simp] theorem State.setHandle_hreqs (s : State) (h : Nat) (x : Handle) : (s.setHandle h x).hreqs = s.hreqs := rfl
@[simp] theorem State.setHandle_disp (s : State) (h : Nat) (x : Handle) : (s.setHandle h x).disp = s.disp := rfl
@[simp] theorem State.setHandle_jobs (s : State) (h : Nat) (x : Handle) : (s.setHandle h x).jobs = s.jobs := rfl
@[simp] theorem State.setHandle_saved (s : State) (h : Nat) (x : Handle) : (s.setHandle h x).saved = s.saved := rfl
@[simp] theorem State.setHandle_faults (s : State) (h : Nat) (x : Handle) : (s.setHandle h x).faults = s.faults := rfl
@[simp] theorem State.setHandle_fabric (s : State) (h : Nat) (x : Handle) : (s.setHandle h x).fabric = s.fabric := rfl
@[simp] theorem State.setHandle_port (s : State) (h : Nat) (x : Handle) : (s.setHandle h x).port = s.port := rfl
@[simp] theorem State.setHandle_mbox (s : State) (h : Nat) (x : Handle) : (s.setHandle h x).mbox = s.mbox := rfl
@[simp] theorem State.setHandle_pkg (s : State) (h : Nat) (x : Handle) : (s.setHandle h x).pkg = s.pkg := rfl

@[simp] theorem State.modJob_agenda (s : State) (j : Nat) (f : Job → Job) : (s.modJob j f).agenda = s.agenda := rfl
@[simp] theorem State.modJob_turn (s : State) (j : Nat) (f : Job → Job) : (s.modJob j f).turn = s.turn := rfl
@[simp] theorem State.modJob_others (s : State) (j : Nat) (f : Job → Job) : (s.modJob j f).others = s.others := rfl
@[simp] theorem State.modJob_free (s : State) (j : Nat) (f : Job → Job) : (s.modJob j f).free = s.free := rfl
@[simp] theorem State.modJob_issue (s : State) (j : Nat) (f : Job → Job) : (s.modJob j f).issue = s.issue := rfl
@[simp] theorem State.modJob_arg (s : State) (j : Nat) (f : Job → Job) : (s.modJob j f).arg = s.arg := rfl
@[simp] theorem State.modJob_sidereal (s : State) (j : Nat) (f : Job → Job) : (s.modJob j f).sidereal = s.sidereal := rfl
@[simp] theorem State.modJob_mem (s : State) (j : Nat) (f : Job → Job) : (s.modJob j f).mem = s.mem := rfl
@[simp] theorem State.modJob_bad (s : State) (j : Nat) (f : Job → Job) : (s.modJob j f).bad = s.bad := rfl
@[simp] theorem State.modJob_origin (s : State) (j : Nat) (f : Job → Job) : (s.modJob j f).origin = s.origin := rfl
@[simp] theorem State.modJob_cores (s : State) (j : Nat) (f : Job → Job) : (s.modJob j f).cores = s.cores := rfl
@[simp] theorem State.modJob_clusters (s : State) (j : Nat) (f : Job → Job) : (s.modJob j f).clusters = s.clusters := rfl
@[simp] theorem State.modJob_dies (s : State) (j : Nat) (f : Job → Job) : (s.modJob j f).dies = s.dies := rfl
@[simp] theorem State.modJob_hbm (s : State) (j : Nat) (f : Job → Job) : (s.modJob j f).hbm = s.hbm := rfl
@[simp] theorem State.modJob_flash (s : State) (j : Nat) (f : Job → Job) : (s.modJob j f).flash = s.flash := rfl
@[simp] theorem State.modJob_reads (s : State) (j : Nat) (f : Job → Job) : (s.modJob j f).reads = s.reads := rfl
@[simp] theorem State.modJob_nextRead (s : State) (j : Nat) (f : Job → Job) : (s.modJob j f).nextRead = s.nextRead := rfl
@[simp] theorem State.modJob_handles (s : State) (j : Nat) (f : Job → Job) : (s.modJob j f).handles = s.handles := rfl
@[simp] theorem State.modJob_hreqs (s : State) (j : Nat) (f : Job → Job) : (s.modJob j f).hreqs = s.hreqs := rfl
@[simp] theorem State.modJob_disp (s : State) (j : Nat) (f : Job → Job) : (s.modJob j f).disp = s.disp := rfl
@[simp] theorem State.modJob_saved (s : State) (j : Nat) (f : Job → Job) : (s.modJob j f).saved = s.saved := rfl
@[simp] theorem State.modJob_faults (s : State) (j : Nat) (f : Job → Job) : (s.modJob j f).faults = s.faults := rfl
@[simp] theorem State.modJob_fabric (s : State) (j : Nat) (f : Job → Job) : (s.modJob j f).fabric = s.fabric := rfl
@[simp] theorem State.modJob_port (s : State) (j : Nat) (f : Job → Job) : (s.modJob j f).port = s.port := rfl
@[simp] theorem State.modJob_mbox (s : State) (j : Nat) (f : Job → Job) : (s.modJob j f).mbox = s.mbox := rfl
@[simp] theorem State.modJob_pkg (s : State) (j : Nat) (f : Job → Job) : (s.modJob j f).pkg = s.pkg := rfl

@[simp] theorem State.signal_agenda (s : State) (v : Nat) : (s.signal v).agenda = s.agenda := rfl
@[simp] theorem State.signal_turn (s : State) (v : Nat) : (s.signal v).turn = s.turn := rfl
@[simp] theorem State.signal_others (s : State) (v : Nat) : (s.signal v).others = s.others := rfl
@[simp] theorem State.signal_free (s : State) (v : Nat) : (s.signal v).free = s.free := rfl
@[simp] theorem State.signal_issue (s : State) (v : Nat) : (s.signal v).issue = s.issue := rfl
@[simp] theorem State.signal_arg (s : State) (v : Nat) : (s.signal v).arg = s.arg := rfl
@[simp] theorem State.signal_sidereal (s : State) (v : Nat) : (s.signal v).sidereal = s.sidereal := rfl
@[simp] theorem State.signal_mem (s : State) (v : Nat) : (s.signal v).mem = s.mem := rfl
@[simp] theorem State.signal_bad (s : State) (v : Nat) : (s.signal v).bad = s.bad := rfl
@[simp] theorem State.signal_origin (s : State) (v : Nat) : (s.signal v).origin = s.origin := rfl
@[simp] theorem State.signal_cores (s : State) (v : Nat) : (s.signal v).cores = s.cores := rfl
@[simp] theorem State.signal_clusters (s : State) (v : Nat) : (s.signal v).clusters = s.clusters := rfl
@[simp] theorem State.signal_dies (s : State) (v : Nat) : (s.signal v).dies = s.dies := rfl
@[simp] theorem State.signal_hbm (s : State) (v : Nat) : (s.signal v).hbm = s.hbm := rfl
@[simp] theorem State.signal_flash (s : State) (v : Nat) : (s.signal v).flash = s.flash := rfl
@[simp] theorem State.signal_reads (s : State) (v : Nat) : (s.signal v).reads = s.reads := rfl
@[simp] theorem State.signal_nextRead (s : State) (v : Nat) : (s.signal v).nextRead = s.nextRead := rfl
@[simp] theorem State.signal_handles (s : State) (v : Nat) : (s.signal v).handles = s.handles := rfl
@[simp] theorem State.signal_hreqs (s : State) (v : Nat) : (s.signal v).hreqs = s.hreqs := rfl
@[simp] theorem State.signal_disp (s : State) (v : Nat) : (s.signal v).disp = s.disp := rfl
@[simp] theorem State.signal_jobs (s : State) (v : Nat) : (s.signal v).jobs = s.jobs := rfl
@[simp] theorem State.signal_saved (s : State) (v : Nat) : (s.signal v).saved = s.saved := rfl
@[simp] theorem State.signal_faults (s : State) (v : Nat) : (s.signal v).faults = s.faults := rfl
@[simp] theorem State.signal_fabric (s : State) (v : Nat) : (s.signal v).fabric = s.fabric := rfl
@[simp] theorem State.signal_port (s : State) (v : Nat) : (s.signal v).port = s.port := rfl
@[simp] theorem State.signal_mbox (s : State) (v : Nat) : (s.signal v).mbox = s.mbox := rfl

@[simp] theorem State.count_agenda (s : State) (i j : Nat) (f : Counter → Counter) : (s.count i j f).agenda = s.agenda := rfl
@[simp] theorem State.count_turn (s : State) (i j : Nat) (f : Counter → Counter) : (s.count i j f).turn = s.turn := rfl
@[simp] theorem State.count_others (s : State) (i j : Nat) (f : Counter → Counter) : (s.count i j f).others = s.others := rfl
@[simp] theorem State.count_free (s : State) (i j : Nat) (f : Counter → Counter) : (s.count i j f).free = s.free := rfl
@[simp] theorem State.count_issue (s : State) (i j : Nat) (f : Counter → Counter) : (s.count i j f).issue = s.issue := rfl
@[simp] theorem State.count_arg (s : State) (i j : Nat) (f : Counter → Counter) : (s.count i j f).arg = s.arg := rfl
@[simp] theorem State.count_sidereal (s : State) (i j : Nat) (f : Counter → Counter) : (s.count i j f).sidereal = s.sidereal := rfl
@[simp] theorem State.count_mem (s : State) (i j : Nat) (f : Counter → Counter) : (s.count i j f).mem = s.mem := rfl
@[simp] theorem State.count_bad (s : State) (i j : Nat) (f : Counter → Counter) : (s.count i j f).bad = s.bad := rfl
@[simp] theorem State.count_origin (s : State) (i j : Nat) (f : Counter → Counter) : (s.count i j f).origin = s.origin := rfl
@[simp] theorem State.count_cores (s : State) (i j : Nat) (f : Counter → Counter) : (s.count i j f).cores = s.cores := rfl
@[simp] theorem State.count_clusters (s : State) (i j : Nat) (f : Counter → Counter) : (s.count i j f).clusters = s.clusters := rfl
@[simp] theorem State.count_dies (s : State) (i j : Nat) (f : Counter → Counter) : (s.count i j f).dies = s.dies := rfl
@[simp] theorem State.count_hbm (s : State) (i j : Nat) (f : Counter → Counter) : (s.count i j f).hbm = s.hbm := rfl
@[simp] theorem State.count_flash (s : State) (i j : Nat) (f : Counter → Counter) : (s.count i j f).flash = s.flash := rfl
@[simp] theorem State.count_reads (s : State) (i j : Nat) (f : Counter → Counter) : (s.count i j f).reads = s.reads := rfl
@[simp] theorem State.count_nextRead (s : State) (i j : Nat) (f : Counter → Counter) : (s.count i j f).nextRead = s.nextRead := rfl
@[simp] theorem State.count_handles (s : State) (i j : Nat) (f : Counter → Counter) : (s.count i j f).handles = s.handles := rfl
@[simp] theorem State.count_hreqs (s : State) (i j : Nat) (f : Counter → Counter) : (s.count i j f).hreqs = s.hreqs := rfl
@[simp] theorem State.count_disp (s : State) (i j : Nat) (f : Counter → Counter) : (s.count i j f).disp = s.disp := rfl
@[simp] theorem State.count_jobs (s : State) (i j : Nat) (f : Counter → Counter) : (s.count i j f).jobs = s.jobs := rfl
@[simp] theorem State.count_saved (s : State) (i j : Nat) (f : Counter → Counter) : (s.count i j f).saved = s.saved := rfl
@[simp] theorem State.count_faults (s : State) (i j : Nat) (f : Counter → Counter) : (s.count i j f).faults = s.faults := rfl
@[simp] theorem State.count_port (s : State) (i j : Nat) (f : Counter → Counter) : (s.count i j f).port = s.port := rfl
@[simp] theorem State.count_mbox (s : State) (i j : Nat) (f : Counter → Counter) : (s.count i j f).mbox = s.mbox := rfl
@[simp] theorem State.count_pkg (s : State) (i j : Nat) (f : Counter → Counter) : (s.count i j f).pkg = s.pkg := rfl

@[simp] theorem State.inject_agenda (s : State) (i j : Nat) : (s.inject i j).agenda = s.agenda := rfl
@[simp] theorem State.inject_turn (s : State) (i j : Nat) : (s.inject i j).turn = s.turn := rfl
@[simp] theorem State.inject_others (s : State) (i j : Nat) : (s.inject i j).others = s.others := rfl
@[simp] theorem State.inject_free (s : State) (i j : Nat) : (s.inject i j).free = s.free := rfl
@[simp] theorem State.inject_issue (s : State) (i j : Nat) : (s.inject i j).issue = s.issue := rfl
@[simp] theorem State.inject_arg (s : State) (i j : Nat) : (s.inject i j).arg = s.arg := rfl
@[simp] theorem State.inject_sidereal (s : State) (i j : Nat) : (s.inject i j).sidereal = s.sidereal := rfl
@[simp] theorem State.inject_mem (s : State) (i j : Nat) : (s.inject i j).mem = s.mem := rfl
@[simp] theorem State.inject_bad (s : State) (i j : Nat) : (s.inject i j).bad = s.bad := rfl
@[simp] theorem State.inject_origin (s : State) (i j : Nat) : (s.inject i j).origin = s.origin := rfl
@[simp] theorem State.inject_cores (s : State) (i j : Nat) : (s.inject i j).cores = s.cores := rfl
@[simp] theorem State.inject_clusters (s : State) (i j : Nat) : (s.inject i j).clusters = s.clusters := rfl
@[simp] theorem State.inject_dies (s : State) (i j : Nat) : (s.inject i j).dies = s.dies := rfl
@[simp] theorem State.inject_hbm (s : State) (i j : Nat) : (s.inject i j).hbm = s.hbm := rfl
@[simp] theorem State.inject_flash (s : State) (i j : Nat) : (s.inject i j).flash = s.flash := rfl
@[simp] theorem State.inject_reads (s : State) (i j : Nat) : (s.inject i j).reads = s.reads := rfl
@[simp] theorem State.inject_nextRead (s : State) (i j : Nat) : (s.inject i j).nextRead = s.nextRead := rfl
@[simp] theorem State.inject_handles (s : State) (i j : Nat) : (s.inject i j).handles = s.handles := rfl
@[simp] theorem State.inject_hreqs (s : State) (i j : Nat) : (s.inject i j).hreqs = s.hreqs := rfl
@[simp] theorem State.inject_disp (s : State) (i j : Nat) : (s.inject i j).disp = s.disp := rfl
@[simp] theorem State.inject_jobs (s : State) (i j : Nat) : (s.inject i j).jobs = s.jobs := rfl
@[simp] theorem State.inject_saved (s : State) (i j : Nat) : (s.inject i j).saved = s.saved := rfl
@[simp] theorem State.inject_faults (s : State) (i j : Nat) : (s.inject i j).faults = s.faults := rfl
@[simp] theorem State.inject_port (s : State) (i j : Nat) : (s.inject i j).port = s.port := rfl
@[simp] theorem State.inject_mbox (s : State) (i j : Nat) : (s.inject i j).mbox = s.mbox := rfl
@[simp] theorem State.inject_pkg (s : State) (i j : Nat) : (s.inject i j).pkg = s.pkg := rfl

@[simp] theorem State.consume_agenda (s : State) (i j : Nat) : (s.consume i j).agenda = s.agenda := rfl
@[simp] theorem State.consume_turn (s : State) (i j : Nat) : (s.consume i j).turn = s.turn := rfl
@[simp] theorem State.consume_others (s : State) (i j : Nat) : (s.consume i j).others = s.others := rfl
@[simp] theorem State.consume_free (s : State) (i j : Nat) : (s.consume i j).free = s.free := rfl
@[simp] theorem State.consume_issue (s : State) (i j : Nat) : (s.consume i j).issue = s.issue := rfl
@[simp] theorem State.consume_arg (s : State) (i j : Nat) : (s.consume i j).arg = s.arg := rfl
@[simp] theorem State.consume_sidereal (s : State) (i j : Nat) : (s.consume i j).sidereal = s.sidereal := rfl
@[simp] theorem State.consume_mem (s : State) (i j : Nat) : (s.consume i j).mem = s.mem := rfl
@[simp] theorem State.consume_bad (s : State) (i j : Nat) : (s.consume i j).bad = s.bad := rfl
@[simp] theorem State.consume_origin (s : State) (i j : Nat) : (s.consume i j).origin = s.origin := rfl
@[simp] theorem State.consume_cores (s : State) (i j : Nat) : (s.consume i j).cores = s.cores := rfl
@[simp] theorem State.consume_clusters (s : State) (i j : Nat) : (s.consume i j).clusters = s.clusters := rfl
@[simp] theorem State.consume_dies (s : State) (i j : Nat) : (s.consume i j).dies = s.dies := rfl
@[simp] theorem State.consume_hbm (s : State) (i j : Nat) : (s.consume i j).hbm = s.hbm := rfl
@[simp] theorem State.consume_flash (s : State) (i j : Nat) : (s.consume i j).flash = s.flash := rfl
@[simp] theorem State.consume_reads (s : State) (i j : Nat) : (s.consume i j).reads = s.reads := rfl
@[simp] theorem State.consume_nextRead (s : State) (i j : Nat) : (s.consume i j).nextRead = s.nextRead := rfl
@[simp] theorem State.consume_handles (s : State) (i j : Nat) : (s.consume i j).handles = s.handles := rfl
@[simp] theorem State.consume_hreqs (s : State) (i j : Nat) : (s.consume i j).hreqs = s.hreqs := rfl
@[simp] theorem State.consume_disp (s : State) (i j : Nat) : (s.consume i j).disp = s.disp := rfl
@[simp] theorem State.consume_jobs (s : State) (i j : Nat) : (s.consume i j).jobs = s.jobs := rfl
@[simp] theorem State.consume_saved (s : State) (i j : Nat) : (s.consume i j).saved = s.saved := rfl
@[simp] theorem State.consume_faults (s : State) (i j : Nat) : (s.consume i j).faults = s.faults := rfl
@[simp] theorem State.consume_port (s : State) (i j : Nat) : (s.consume i j).port = s.port := rfl
@[simp] theorem State.consume_mbox (s : State) (i j : Nat) : (s.consume i j).mbox = s.mbox := rfl
@[simp] theorem State.consume_pkg (s : State) (i j : Nat) : (s.consume i j).pkg = s.pkg := rfl

@[simp] theorem State.sendNotice_agenda (s : State) (k : NoticeKind) (i j : Nat) : (s.sendNotice k i j).agenda = s.agenda := rfl
@[simp] theorem State.sendNotice_turn (s : State) (k : NoticeKind) (i j : Nat) : (s.sendNotice k i j).turn = s.turn := rfl
@[simp] theorem State.sendNotice_others (s : State) (k : NoticeKind) (i j : Nat) : (s.sendNotice k i j).others = s.others := rfl
@[simp] theorem State.sendNotice_free (s : State) (k : NoticeKind) (i j : Nat) : (s.sendNotice k i j).free = s.free := rfl
@[simp] theorem State.sendNotice_issue (s : State) (k : NoticeKind) (i j : Nat) : (s.sendNotice k i j).issue = s.issue := rfl
@[simp] theorem State.sendNotice_arg (s : State) (k : NoticeKind) (i j : Nat) : (s.sendNotice k i j).arg = s.arg := rfl
@[simp] theorem State.sendNotice_sidereal (s : State) (k : NoticeKind) (i j : Nat) : (s.sendNotice k i j).sidereal = s.sidereal := rfl
@[simp] theorem State.sendNotice_mem (s : State) (k : NoticeKind) (i j : Nat) : (s.sendNotice k i j).mem = s.mem := rfl
@[simp] theorem State.sendNotice_bad (s : State) (k : NoticeKind) (i j : Nat) : (s.sendNotice k i j).bad = s.bad := rfl
@[simp] theorem State.sendNotice_origin (s : State) (k : NoticeKind) (i j : Nat) : (s.sendNotice k i j).origin = s.origin := rfl
@[simp] theorem State.sendNotice_cores (s : State) (k : NoticeKind) (i j : Nat) : (s.sendNotice k i j).cores = s.cores := rfl
@[simp] theorem State.sendNotice_clusters (s : State) (k : NoticeKind) (i j : Nat) : (s.sendNotice k i j).clusters = s.clusters := rfl
@[simp] theorem State.sendNotice_dies (s : State) (k : NoticeKind) (i j : Nat) : (s.sendNotice k i j).dies = s.dies := rfl
@[simp] theorem State.sendNotice_hbm (s : State) (k : NoticeKind) (i j : Nat) : (s.sendNotice k i j).hbm = s.hbm := rfl
@[simp] theorem State.sendNotice_flash (s : State) (k : NoticeKind) (i j : Nat) : (s.sendNotice k i j).flash = s.flash := rfl
@[simp] theorem State.sendNotice_reads (s : State) (k : NoticeKind) (i j : Nat) : (s.sendNotice k i j).reads = s.reads := rfl
@[simp] theorem State.sendNotice_nextRead (s : State) (k : NoticeKind) (i j : Nat) : (s.sendNotice k i j).nextRead = s.nextRead := rfl
@[simp] theorem State.sendNotice_handles (s : State) (k : NoticeKind) (i j : Nat) : (s.sendNotice k i j).handles = s.handles := rfl
@[simp] theorem State.sendNotice_hreqs (s : State) (k : NoticeKind) (i j : Nat) : (s.sendNotice k i j).hreqs = s.hreqs := rfl
@[simp] theorem State.sendNotice_disp (s : State) (k : NoticeKind) (i j : Nat) : (s.sendNotice k i j).disp = s.disp := rfl
@[simp] theorem State.sendNotice_jobs (s : State) (k : NoticeKind) (i j : Nat) : (s.sendNotice k i j).jobs = s.jobs := rfl
@[simp] theorem State.sendNotice_saved (s : State) (k : NoticeKind) (i j : Nat) : (s.sendNotice k i j).saved = s.saved := rfl
@[simp] theorem State.sendNotice_faults (s : State) (k : NoticeKind) (i j : Nat) : (s.sendNotice k i j).faults = s.faults := rfl
@[simp] theorem State.sendNotice_port (s : State) (k : NoticeKind) (i j : Nat) : (s.sendNotice k i j).port = s.port := rfl
@[simp] theorem State.sendNotice_mbox (s : State) (k : NoticeKind) (i j : Nat) : (s.sendNotice k i j).mbox = s.mbox := rfl
@[simp] theorem State.sendNotice_pkg (s : State) (k : NoticeKind) (i j : Nat) : (s.sendNotice k i j).pkg = s.pkg := rfl

@[simp] theorem State.report_agenda (s : State) (r : FaultRec) : (s.report r).agenda = s.agenda := rfl
@[simp] theorem State.report_turn (s : State) (r : FaultRec) : (s.report r).turn = s.turn := rfl
@[simp] theorem State.report_others (s : State) (r : FaultRec) : (s.report r).others = s.others := rfl
@[simp] theorem State.report_free (s : State) (r : FaultRec) : (s.report r).free = s.free := rfl
@[simp] theorem State.report_issue (s : State) (r : FaultRec) : (s.report r).issue = s.issue := rfl
@[simp] theorem State.report_arg (s : State) (r : FaultRec) : (s.report r).arg = s.arg := rfl
@[simp] theorem State.report_sidereal (s : State) (r : FaultRec) : (s.report r).sidereal = s.sidereal := rfl
@[simp] theorem State.report_mem (s : State) (r : FaultRec) : (s.report r).mem = s.mem := rfl
@[simp] theorem State.report_bad (s : State) (r : FaultRec) : (s.report r).bad = s.bad := rfl
@[simp] theorem State.report_origin (s : State) (r : FaultRec) : (s.report r).origin = s.origin := rfl
@[simp] theorem State.report_cores (s : State) (r : FaultRec) : (s.report r).cores = s.cores := rfl
@[simp] theorem State.report_clusters (s : State) (r : FaultRec) : (s.report r).clusters = s.clusters := rfl
@[simp] theorem State.report_dies (s : State) (r : FaultRec) : (s.report r).dies = s.dies := rfl
@[simp] theorem State.report_hbm (s : State) (r : FaultRec) : (s.report r).hbm = s.hbm := rfl
@[simp] theorem State.report_flash (s : State) (r : FaultRec) : (s.report r).flash = s.flash := rfl
@[simp] theorem State.report_reads (s : State) (r : FaultRec) : (s.report r).reads = s.reads := rfl
@[simp] theorem State.report_nextRead (s : State) (r : FaultRec) : (s.report r).nextRead = s.nextRead := rfl
@[simp] theorem State.report_handles (s : State) (r : FaultRec) : (s.report r).handles = s.handles := rfl
@[simp] theorem State.report_hreqs (s : State) (r : FaultRec) : (s.report r).hreqs = s.hreqs := rfl
@[simp] theorem State.report_disp (s : State) (r : FaultRec) : (s.report r).disp = s.disp := rfl
@[simp] theorem State.report_jobs (s : State) (r : FaultRec) : (s.report r).jobs = s.jobs := rfl
@[simp] theorem State.report_saved (s : State) (r : FaultRec) : (s.report r).saved = s.saved := rfl
@[simp] theorem State.report_fabric (s : State) (r : FaultRec) : (s.report r).fabric = s.fabric := rfl
@[simp] theorem State.report_port (s : State) (r : FaultRec) : (s.report r).port = s.port := rfl
@[simp] theorem State.report_mbox (s : State) (r : FaultRec) : (s.report r).mbox = s.mbox := rfl
@[simp] theorem State.report_pkg (s : State) (r : FaultRec) : (s.report r).pkg = s.pkg := rfl

@[simp] theorem State.useFree_agenda (s : State) : s.useFree.2.agenda = s.agenda := rfl
@[simp] theorem State.useFree_turn (s : State) : s.useFree.2.turn = s.turn := rfl
@[simp] theorem State.useFree_others (s : State) : s.useFree.2.others = s.others := rfl
@[simp] theorem State.useFree_issue (s : State) : s.useFree.2.issue = s.issue := rfl
@[simp] theorem State.useFree_arg (s : State) : s.useFree.2.arg = s.arg := rfl
@[simp] theorem State.useFree_sidereal (s : State) : s.useFree.2.sidereal = s.sidereal := rfl
@[simp] theorem State.useFree_mem (s : State) : s.useFree.2.mem = s.mem := rfl
@[simp] theorem State.useFree_bad (s : State) : s.useFree.2.bad = s.bad := rfl
@[simp] theorem State.useFree_origin (s : State) : s.useFree.2.origin = s.origin := rfl
@[simp] theorem State.useFree_cores (s : State) : s.useFree.2.cores = s.cores := rfl
@[simp] theorem State.useFree_clusters (s : State) : s.useFree.2.clusters = s.clusters := rfl
@[simp] theorem State.useFree_dies (s : State) : s.useFree.2.dies = s.dies := rfl
@[simp] theorem State.useFree_hbm (s : State) : s.useFree.2.hbm = s.hbm := rfl
@[simp] theorem State.useFree_flash (s : State) : s.useFree.2.flash = s.flash := rfl
@[simp] theorem State.useFree_reads (s : State) : s.useFree.2.reads = s.reads := rfl
@[simp] theorem State.useFree_nextRead (s : State) : s.useFree.2.nextRead = s.nextRead := rfl
@[simp] theorem State.useFree_handles (s : State) : s.useFree.2.handles = s.handles := rfl
@[simp] theorem State.useFree_hreqs (s : State) : s.useFree.2.hreqs = s.hreqs := rfl
@[simp] theorem State.useFree_disp (s : State) : s.useFree.2.disp = s.disp := rfl
@[simp] theorem State.useFree_jobs (s : State) : s.useFree.2.jobs = s.jobs := rfl
@[simp] theorem State.useFree_saved (s : State) : s.useFree.2.saved = s.saved := rfl
@[simp] theorem State.useFree_faults (s : State) : s.useFree.2.faults = s.faults := rfl
@[simp] theorem State.useFree_fabric (s : State) : s.useFree.2.fabric = s.fabric := rfl
@[simp] theorem State.useFree_port (s : State) : s.useFree.2.port = s.port := rfl
@[simp] theorem State.useFree_mbox (s : State) : s.useFree.2.mbox = s.mbox := rfl
@[simp] theorem State.useFree_pkg (s : State) : s.useFree.2.pkg = s.pkg := rfl

end Sys2Proof.Machine
end

