-- ==== Sys2Proof/Laws/Access.lean ====
section
/-! SUPPORT. What a unit reads as after an update of another kind of unit: it is as before. -/
namespace Sys2Proof.Machine

@[simp] theorem State.job_setCore (s : State) (m : Nat) (k : Core) (j : Nat) : (s.setCore m k).job j = s.job j := rfl
@[simp] theorem State.cluster_setCore (s : State) (m : Nat) (k : Core) (d : Nat) : (s.setCore m k).cluster d = s.cluster d := rfl
@[simp] theorem State.handle_setCore (s : State) (m : Nat) (k : Core) (h : Nat) : (s.setCore m k).handle h = s.handle h := rfl
@[simp] theorem State.hbmStack_setCore (s : State) (m : Nat) (k : Core) (n : Nat) : (s.setCore m k).hbmStack n = s.hbmStack n := rfl
@[simp] theorem State.flashStack_setCore (s : State) (m : Nat) (k : Core) (n : Nat) : (s.setCore m k).flashStack n = s.flashStack n := rfl
@[simp] theorem State.die_setCore (s : State) (m : Nat) (k : Core) (e : Nat) : (s.setCore m k).die e = s.die e := rfl
@[simp] theorem State.counter_setCore (s : State) (m : Nat) (k : Core) (i j : Nat) : (s.setCore m k).counter i j = s.counter i j := rfl

@[simp] theorem State.job_modCore (s : State) (m : Nat) (f : Core → Core) (j : Nat) : (s.modCore m f).job j = s.job j := rfl
@[simp] theorem State.cluster_modCore (s : State) (m : Nat) (f : Core → Core) (d : Nat) : (s.modCore m f).cluster d = s.cluster d := rfl
@[simp] theorem State.handle_modCore (s : State) (m : Nat) (f : Core → Core) (h : Nat) : (s.modCore m f).handle h = s.handle h := rfl
@[simp] theorem State.hbmStack_modCore (s : State) (m : Nat) (f : Core → Core) (n : Nat) : (s.modCore m f).hbmStack n = s.hbmStack n := rfl
@[simp] theorem State.flashStack_modCore (s : State) (m : Nat) (f : Core → Core) (n : Nat) : (s.modCore m f).flashStack n = s.flashStack n := rfl
@[simp] theorem State.die_modCore (s : State) (m : Nat) (f : Core → Core) (e : Nat) : (s.modCore m f).die e = s.die e := rfl
@[simp] theorem State.counter_modCore (s : State) (m : Nat) (f : Core → Core) (i j : Nat) : (s.modCore m f).counter i j = s.counter i j := rfl

@[simp] theorem State.job_setCtx (s : State) (m p : Nat) (k : Ctx) (j : Nat) : (s.setCtx m p k).job j = s.job j := rfl
@[simp] theorem State.cluster_setCtx (s : State) (m p : Nat) (k : Ctx) (d : Nat) : (s.setCtx m p k).cluster d = s.cluster d := rfl
@[simp] theorem State.handle_setCtx (s : State) (m p : Nat) (k : Ctx) (h : Nat) : (s.setCtx m p k).handle h = s.handle h := rfl
@[simp] theorem State.hbmStack_setCtx (s : State) (m p : Nat) (k : Ctx) (n : Nat) : (s.setCtx m p k).hbmStack n = s.hbmStack n := rfl
@[simp] theorem State.flashStack_setCtx (s : State) (m p : Nat) (k : Ctx) (n : Nat) : (s.setCtx m p k).flashStack n = s.flashStack n := rfl
@[simp] theorem State.die_setCtx (s : State) (m p : Nat) (k : Ctx) (e : Nat) : (s.setCtx m p k).die e = s.die e := rfl
@[simp] theorem State.counter_setCtx (s : State) (m p : Nat) (k : Ctx) (i j : Nat) : (s.setCtx m p k).counter i j = s.counter i j := rfl

@[simp] theorem State.job_modCtx (s : State) (m p : Nat) (f : Ctx → Ctx) (j : Nat) : (s.modCtx m p f).job j = s.job j := rfl
@[simp] theorem State.cluster_modCtx (s : State) (m p : Nat) (f : Ctx → Ctx) (d : Nat) : (s.modCtx m p f).cluster d = s.cluster d := rfl
@[simp] theorem State.handle_modCtx (s : State) (m p : Nat) (f : Ctx → Ctx) (h : Nat) : (s.modCtx m p f).handle h = s.handle h := rfl
@[simp] theorem State.hbmStack_modCtx (s : State) (m p : Nat) (f : Ctx → Ctx) (n : Nat) : (s.modCtx m p f).hbmStack n = s.hbmStack n := rfl
@[simp] theorem State.flashStack_modCtx (s : State) (m p : Nat) (f : Ctx → Ctx) (n : Nat) : (s.modCtx m p f).flashStack n = s.flashStack n := rfl
@[simp] theorem State.die_modCtx (s : State) (m p : Nat) (f : Ctx → Ctx) (e : Nat) : (s.modCtx m p f).die e = s.die e := rfl
@[simp] theorem State.counter_modCtx (s : State) (m p : Nat) (f : Ctx → Ctx) (i j : Nat) : (s.modCtx m p f).counter i j = s.counter i j := rfl

@[simp] theorem State.job_modCur (s : State) (f : Ctx → Ctx) (j : Nat) : (s.modCur f).job j = s.job j := rfl
@[simp] theorem State.cluster_modCur (s : State) (f : Ctx → Ctx) (d : Nat) : (s.modCur f).cluster d = s.cluster d := rfl
@[simp] theorem State.handle_modCur (s : State) (f : Ctx → Ctx) (h : Nat) : (s.modCur f).handle h = s.handle h := rfl
@[simp] theorem State.hbmStack_modCur (s : State) (f : Ctx → Ctx) (n : Nat) : (s.modCur f).hbmStack n = s.hbmStack n := rfl
@[simp] theorem State.flashStack_modCur (s : State) (f : Ctx → Ctx) (n : Nat) : (s.modCur f).flashStack n = s.flashStack n := rfl
@[simp] theorem State.die_modCur (s : State) (f : Ctx → Ctx) (e : Nat) : (s.modCur f).die e = s.die e := rfl
@[simp] theorem State.counter_modCur (s : State) (f : Ctx → Ctx) (i j : Nat) : (s.modCur f).counter i j = s.counter i j := rfl

@[simp] theorem State.core_modCluster (s : State) (m : Nat) (f : Cluster → Cluster) (c : Nat) : (s.modCluster m f).core c = s.core c := rfl
@[simp] theorem State.ctx_modCluster (s : State) (m : Nat) (f : Cluster → Cluster) (c b : Nat) : (s.modCluster m f).ctx c b = s.ctx c b := rfl
@[simp] theorem State.job_modCluster (s : State) (m : Nat) (f : Cluster → Cluster) (j : Nat) : (s.modCluster m f).job j = s.job j := rfl
@[simp] theorem State.handle_modCluster (s : State) (m : Nat) (f : Cluster → Cluster) (h : Nat) : (s.modCluster m f).handle h = s.handle h := rfl
@[simp] theorem State.hbmStack_modCluster (s : State) (m : Nat) (f : Cluster → Cluster) (n : Nat) : (s.modCluster m f).hbmStack n = s.hbmStack n := rfl
@[simp] theorem State.flashStack_modCluster (s : State) (m : Nat) (f : Cluster → Cluster) (n : Nat) : (s.modCluster m f).flashStack n = s.flashStack n := rfl
@[simp] theorem State.die_modCluster (s : State) (m : Nat) (f : Cluster → Cluster) (e : Nat) : (s.modCluster m f).die e = s.die e := rfl
@[simp] theorem State.counter_modCluster (s : State) (m : Nat) (f : Cluster → Cluster) (i j : Nat) : (s.modCluster m f).counter i j = s.counter i j := rfl

@[simp] theorem State.core_modDie (s : State) (m : Nat) (f : Die → Die) (c : Nat) : (s.modDie m f).core c = s.core c := rfl
@[simp] theorem State.ctx_modDie (s : State) (m : Nat) (f : Die → Die) (c b : Nat) : (s.modDie m f).ctx c b = s.ctx c b := rfl
@[simp] theorem State.job_modDie (s : State) (m : Nat) (f : Die → Die) (j : Nat) : (s.modDie m f).job j = s.job j := rfl
@[simp] theorem State.cluster_modDie (s : State) (m : Nat) (f : Die → Die) (d : Nat) : (s.modDie m f).cluster d = s.cluster d := rfl
@[simp] theorem State.handle_modDie (s : State) (m : Nat) (f : Die → Die) (h : Nat) : (s.modDie m f).handle h = s.handle h := rfl
@[simp] theorem State.hbmStack_modDie (s : State) (m : Nat) (f : Die → Die) (n : Nat) : (s.modDie m f).hbmStack n = s.hbmStack n := rfl
@[simp] theorem State.flashStack_modDie (s : State) (m : Nat) (f : Die → Die) (n : Nat) : (s.modDie m f).flashStack n = s.flashStack n := rfl
@[simp] theorem State.counter_modDie (s : State) (m : Nat) (f : Die → Die) (i j : Nat) : (s.modDie m f).counter i j = s.counter i j := rfl

@[simp] theorem State.core_modHbm (s : State) (m : Nat) (f : HbmStack → HbmStack) (c : Nat) : (s.modHbm m f).core c = s.core c := rfl
@[simp] theorem State.ctx_modHbm (s : State) (m : Nat) (f : HbmStack → HbmStack) (c b : Nat) : (s.modHbm m f).ctx c b = s.ctx c b := rfl
@[simp] theorem State.job_modHbm (s : State) (m : Nat) (f : HbmStack → HbmStack) (j : Nat) : (s.modHbm m f).job j = s.job j := rfl
@[simp] theorem State.cluster_modHbm (s : State) (m : Nat) (f : HbmStack → HbmStack) (d : Nat) : (s.modHbm m f).cluster d = s.cluster d := rfl
@[simp] theorem State.handle_modHbm (s : State) (m : Nat) (f : HbmStack → HbmStack) (h : Nat) : (s.modHbm m f).handle h = s.handle h := rfl
@[simp] theorem State.flashStack_modHbm (s : State) (m : Nat) (f : HbmStack → HbmStack) (n : Nat) : (s.modHbm m f).flashStack n = s.flashStack n := rfl
@[simp] theorem State.die_modHbm (s : State) (m : Nat) (f : HbmStack → HbmStack) (e : Nat) : (s.modHbm m f).die e = s.die e := rfl
@[simp] theorem State.counter_modHbm (s : State) (m : Nat) (f : HbmStack → HbmStack) (i j : Nat) : (s.modHbm m f).counter i j = s.counter i j := rfl

@[simp] theorem State.core_modFlash (s : State) (m : Nat) (f : FlashStack → FlashStack) (c : Nat) : (s.modFlash m f).core c = s.core c := rfl
@[simp] theorem State.ctx_modFlash (s : State) (m : Nat) (f : FlashStack → FlashStack) (c b : Nat) : (s.modFlash m f).ctx c b = s.ctx c b := rfl
@[simp] theorem State.job_modFlash (s : State) (m : Nat) (f : FlashStack → FlashStack) (j : Nat) : (s.modFlash m f).job j = s.job j := rfl
@[simp] theorem State.cluster_modFlash (s : State) (m : Nat) (f : FlashStack → FlashStack) (d : Nat) : (s.modFlash m f).cluster d = s.cluster d := rfl
@[simp] theorem State.handle_modFlash (s : State) (m : Nat) (f : FlashStack → FlashStack) (h : Nat) : (s.modFlash m f).handle h = s.handle h := rfl
@[simp] theorem State.hbmStack_modFlash (s : State) (m : Nat) (f : FlashStack → FlashStack) (n : Nat) : (s.modFlash m f).hbmStack n = s.hbmStack n := rfl
@[simp] theorem State.die_modFlash (s : State) (m : Nat) (f : FlashStack → FlashStack) (e : Nat) : (s.modFlash m f).die e = s.die e := rfl
@[simp] theorem State.counter_modFlash (s : State) (m : Nat) (f : FlashStack → FlashStack) (i j : Nat) : (s.modFlash m f).counter i j = s.counter i j := rfl

@[simp] theorem State.core_setHandle (s : State) (m : Nat) (x : Handle) (c : Nat) : (s.setHandle m x).core c = s.core c := rfl
@[simp] theorem State.ctx_setHandle (s : State) (m : Nat) (x : Handle) (c b : Nat) : (s.setHandle m x).ctx c b = s.ctx c b := rfl
@[simp] theorem State.job_setHandle (s : State) (m : Nat) (x : Handle) (j : Nat) : (s.setHandle m x).job j = s.job j := rfl
@[simp] theorem State.cluster_setHandle (s : State) (m : Nat) (x : Handle) (d : Nat) : (s.setHandle m x).cluster d = s.cluster d := rfl
@[simp] theorem State.hbmStack_setHandle (s : State) (m : Nat) (x : Handle) (n : Nat) : (s.setHandle m x).hbmStack n = s.hbmStack n := rfl
@[simp] theorem State.flashStack_setHandle (s : State) (m : Nat) (x : Handle) (n : Nat) : (s.setHandle m x).flashStack n = s.flashStack n := rfl
@[simp] theorem State.die_setHandle (s : State) (m : Nat) (x : Handle) (e : Nat) : (s.setHandle m x).die e = s.die e := rfl
@[simp] theorem State.counter_setHandle (s : State) (m : Nat) (x : Handle) (i j : Nat) : (s.setHandle m x).counter i j = s.counter i j := rfl

@[simp] theorem State.core_modJob (s : State) (m : Nat) (f : Job → Job) (c : Nat) : (s.modJob m f).core c = s.core c := rfl
@[simp] theorem State.ctx_modJob (s : State) (m : Nat) (f : Job → Job) (c b : Nat) : (s.modJob m f).ctx c b = s.ctx c b := rfl
@[simp] theorem State.cluster_modJob (s : State) (m : Nat) (f : Job → Job) (d : Nat) : (s.modJob m f).cluster d = s.cluster d := rfl
@[simp] theorem State.handle_modJob (s : State) (m : Nat) (f : Job → Job) (h : Nat) : (s.modJob m f).handle h = s.handle h := rfl
@[simp] theorem State.hbmStack_modJob (s : State) (m : Nat) (f : Job → Job) (n : Nat) : (s.modJob m f).hbmStack n = s.hbmStack n := rfl
@[simp] theorem State.flashStack_modJob (s : State) (m : Nat) (f : Job → Job) (n : Nat) : (s.modJob m f).flashStack n = s.flashStack n := rfl
@[simp] theorem State.die_modJob (s : State) (m : Nat) (f : Job → Job) (e : Nat) : (s.modJob m f).die e = s.die e := rfl
@[simp] theorem State.counter_modJob (s : State) (m : Nat) (f : Job → Job) (i j : Nat) : (s.modJob m f).counter i j = s.counter i j := rfl

@[simp] theorem State.core_signal (s : State) (m : Nat) (c : Nat) : (s.signal m).core c = s.core c := rfl
@[simp] theorem State.ctx_signal (s : State) (m : Nat) (c b : Nat) : (s.signal m).ctx c b = s.ctx c b := rfl
@[simp] theorem State.job_signal (s : State) (m : Nat) (j : Nat) : (s.signal m).job j = s.job j := rfl
@[simp] theorem State.cluster_signal (s : State) (m : Nat) (d : Nat) : (s.signal m).cluster d = s.cluster d := rfl
@[simp] theorem State.handle_signal (s : State) (m : Nat) (h : Nat) : (s.signal m).handle h = s.handle h := rfl
@[simp] theorem State.hbmStack_signal (s : State) (m : Nat) (n : Nat) : (s.signal m).hbmStack n = s.hbmStack n := rfl
@[simp] theorem State.flashStack_signal (s : State) (m : Nat) (n : Nat) : (s.signal m).flashStack n = s.flashStack n := rfl
@[simp] theorem State.die_signal (s : State) (m : Nat) (e : Nat) : (s.signal m).die e = s.die e := rfl
@[simp] theorem State.counter_signal (s : State) (m : Nat) (i j : Nat) : (s.signal m).counter i j = s.counter i j := rfl

@[simp] theorem State.core_count (s : State) (m p : Nat) (f : Counter → Counter) (c : Nat) : (s.count m p f).core c = s.core c := rfl
@[simp] theorem State.ctx_count (s : State) (m p : Nat) (f : Counter → Counter) (c b : Nat) : (s.count m p f).ctx c b = s.ctx c b := rfl
@[simp] theorem State.job_count (s : State) (m p : Nat) (f : Counter → Counter) (j : Nat) : (s.count m p f).job j = s.job j := rfl
@[simp] theorem State.cluster_count (s : State) (m p : Nat) (f : Counter → Counter) (d : Nat) : (s.count m p f).cluster d = s.cluster d := rfl
@[simp] theorem State.handle_count (s : State) (m p : Nat) (f : Counter → Counter) (h : Nat) : (s.count m p f).handle h = s.handle h := rfl
@[simp] theorem State.hbmStack_count (s : State) (m p : Nat) (f : Counter → Counter) (n : Nat) : (s.count m p f).hbmStack n = s.hbmStack n := rfl
@[simp] theorem State.flashStack_count (s : State) (m p : Nat) (f : Counter → Counter) (n : Nat) : (s.count m p f).flashStack n = s.flashStack n := rfl
@[simp] theorem State.die_count (s : State) (m p : Nat) (f : Counter → Counter) (e : Nat) : (s.count m p f).die e = s.die e := rfl

@[simp] theorem State.core_inject (s : State) (m p : Nat) (c : Nat) : (s.inject m p).core c = s.core c := rfl
@[simp] theorem State.ctx_inject (s : State) (m p : Nat) (c b : Nat) : (s.inject m p).ctx c b = s.ctx c b := rfl
@[simp] theorem State.job_inject (s : State) (m p : Nat) (j : Nat) : (s.inject m p).job j = s.job j := rfl
@[simp] theorem State.cluster_inject (s : State) (m p : Nat) (d : Nat) : (s.inject m p).cluster d = s.cluster d := rfl
@[simp] theorem State.handle_inject (s : State) (m p : Nat) (h : Nat) : (s.inject m p).handle h = s.handle h := rfl
@[simp] theorem State.hbmStack_inject (s : State) (m p : Nat) (n : Nat) : (s.inject m p).hbmStack n = s.hbmStack n := rfl
@[simp] theorem State.flashStack_inject (s : State) (m p : Nat) (n : Nat) : (s.inject m p).flashStack n = s.flashStack n := rfl
@[simp] theorem State.die_inject (s : State) (m p : Nat) (e : Nat) : (s.inject m p).die e = s.die e := rfl

@[simp] theorem State.core_consume (s : State) (m p : Nat) (c : Nat) : (s.consume m p).core c = s.core c := rfl
@[simp] theorem State.ctx_consume (s : State) (m p : Nat) (c b : Nat) : (s.consume m p).ctx c b = s.ctx c b := rfl
@[simp] theorem State.job_consume (s : State) (m p : Nat) (j : Nat) : (s.consume m p).job j = s.job j := rfl
@[simp] theorem State.cluster_consume (s : State) (m p : Nat) (d : Nat) : (s.consume m p).cluster d = s.cluster d := rfl
@[simp] theorem State.handle_consume (s : State) (m p : Nat) (h : Nat) : (s.consume m p).handle h = s.handle h := rfl
@[simp] theorem State.hbmStack_consume (s : State) (m p : Nat) (n : Nat) : (s.consume m p).hbmStack n = s.hbmStack n := rfl
@[simp] theorem State.flashStack_consume (s : State) (m p : Nat) (n : Nat) : (s.consume m p).flashStack n = s.flashStack n := rfl
@[simp] theorem State.die_consume (s : State) (m p : Nat) (e : Nat) : (s.consume m p).die e = s.die e := rfl

@[simp] theorem State.core_sendNotice (s : State) (x : NoticeKind) (m p : Nat) (c : Nat) : (s.sendNotice x m p).core c = s.core c := rfl
@[simp] theorem State.ctx_sendNotice (s : State) (x : NoticeKind) (m p : Nat) (c b : Nat) : (s.sendNotice x m p).ctx c b = s.ctx c b := rfl
@[simp] theorem State.job_sendNotice (s : State) (x : NoticeKind) (m p : Nat) (j : Nat) : (s.sendNotice x m p).job j = s.job j := rfl
@[simp] theorem State.cluster_sendNotice (s : State) (x : NoticeKind) (m p : Nat) (d : Nat) : (s.sendNotice x m p).cluster d = s.cluster d := rfl
@[simp] theorem State.handle_sendNotice (s : State) (x : NoticeKind) (m p : Nat) (h : Nat) : (s.sendNotice x m p).handle h = s.handle h := rfl
@[simp] theorem State.hbmStack_sendNotice (s : State) (x : NoticeKind) (m p : Nat) (n : Nat) : (s.sendNotice x m p).hbmStack n = s.hbmStack n := rfl
@[simp] theorem State.flashStack_sendNotice (s : State) (x : NoticeKind) (m p : Nat) (n : Nat) : (s.sendNotice x m p).flashStack n = s.flashStack n := rfl
@[simp] theorem State.die_sendNotice (s : State) (x : NoticeKind) (m p : Nat) (e : Nat) : (s.sendNotice x m p).die e = s.die e := rfl
@[simp] theorem State.counter_sendNotice (s : State) (x : NoticeKind) (m p : Nat) (i j : Nat) : (s.sendNotice x m p).counter i j = s.counter i j := rfl

@[simp] theorem State.core_report (s : State) (r : FaultRec) (c : Nat) : (s.report r).core c = s.core c := rfl
@[simp] theorem State.ctx_report (s : State) (r : FaultRec) (c b : Nat) : (s.report r).ctx c b = s.ctx c b := rfl
@[simp] theorem State.job_report (s : State) (r : FaultRec) (j : Nat) : (s.report r).job j = s.job j := rfl
@[simp] theorem State.cluster_report (s : State) (r : FaultRec) (d : Nat) : (s.report r).cluster d = s.cluster d := rfl
@[simp] theorem State.handle_report (s : State) (r : FaultRec) (h : Nat) : (s.report r).handle h = s.handle h := rfl
@[simp] theorem State.hbmStack_report (s : State) (r : FaultRec) (n : Nat) : (s.report r).hbmStack n = s.hbmStack n := rfl
@[simp] theorem State.flashStack_report (s : State) (r : FaultRec) (n : Nat) : (s.report r).flashStack n = s.flashStack n := rfl
@[simp] theorem State.die_report (s : State) (r : FaultRec) (e : Nat) : (s.report r).die e = s.die e := rfl
@[simp] theorem State.counter_report (s : State) (r : FaultRec) (i j : Nat) : (s.report r).counter i j = s.counter i j := rfl

end Sys2Proof.Machine
end

