-- ==== Sys2Proof/Laws/Encoding.lean ====
section
/-! SUPPORT. The bit fields of slot words: every body keeps its fields, every word its header. -/
namespace Sys2Proof

/-- Two fields side by side, as a number. -/
theorem toNat_append_add {n m : Nat} (x : BitVec n) (y : BitVec m) : (x ++ y).toNat = x.toNat * 2 ^ m + y.toNat := by
  rw [BitVec.toNat_append, ← Nat.shiftLeft_add_eq_or_of_lt y.isLt, Nat.shiftLeft_eq]

/-- A field, as a number. -/
theorem extract_toNat {n : Nat} (x : BitVec n) (s l : Nat) : (x.extractLsb' s l).toNat = x.toNat / 2 ^ s % 2 ^ l := by
  rw [BitVec.extractLsb'_toNat, Nat.shiftRight_eq_div_pow]

/-- Neighbouring fields of a number make one field. -/
theorem fields_join (n k l m : Nat) : n / 2 ^ (k + l) % 2 ^ m * 2 ^ l + n / 2 ^ k % 2 ^ l = n / 2 ^ k % 2 ^ (m + l) := by
  rw [Nat.pow_add, ← Nat.div_div_eq_div_mul, Nat.add_comm m l, Nat.pow_add 2 l m, Nat.mod_mul, Nat.mul_comm, Nat.add_comm]

/-- The SR body keeps every field (R72). -/
theorem SR.ofBits_toBits (f : SR) : SR.ofBits f.toBits = f := by
  cases f with | mk d a b c ha hb hc fmt rnd sat fn9 => 
  have h1 := d.isLt; have h2 := a.isLt; have h3 := b.isLt; have h4 := c.isLt; have h5 := ha.isLt; have h6 := hb.isLt
  have h7 := hc.isLt; have h8 := fmt.isLt; have h9 := rnd.isLt; have h10 := sat.isLt; have h11 := fn9.isLt
  simp only [SR.ofBits, SR.toBits, SR.mk.injEq]
  refine ⟨?_, ?_, ?_, ?_, ?_, ?_, ?_, ?_, ?_, ?_, ?_⟩ <;>
  · apply BitVec.eq_of_toNat_eq
    simp only [extract_toNat, toNat_append_add]
    omega

/-- The SR fields keep every bit. -/
theorem SR.toBits_ofBits (b : BitVec 49) : (SR.ofBits b).toBits = b := by
  apply BitVec.eq_of_toNat_eq
  simp only [SR.ofBits, SR.toBits, extract_toNat, toNat_append_add]
  rw [show b.toNat / 2 ^ 43 % 2 ^ 6 * 2 ^ 6 + b.toNat / 2 ^ 37 % 2 ^ 6 = b.toNat / 2 ^ 37 % 2 ^ 12 from fields_join _ 37 6 6]
  rw [show b.toNat / 2 ^ 37 % 2 ^ 12 * 2 ^ 6 + b.toNat / 2 ^ 31 % 2 ^ 6 = b.toNat / 2 ^ 31 % 2 ^ 18 from fields_join _ 31 6 12]
  rw [show b.toNat / 2 ^ 31 % 2 ^ 18 * 2 ^ 6 + b.toNat / 2 ^ 25 % 2 ^ 6 = b.toNat / 2 ^ 25 % 2 ^ 24 from fields_join _ 25 6 18]
  rw [show b.toNat / 2 ^ 25 % 2 ^ 24 * 2 ^ 2 + b.toNat / 2 ^ 23 % 2 ^ 2 = b.toNat / 2 ^ 23 % 2 ^ 26 from fields_join _ 23 2 24]
  rw [show b.toNat / 2 ^ 23 % 2 ^ 26 * 2 ^ 2 + b.toNat / 2 ^ 21 % 2 ^ 2 = b.toNat / 2 ^ 21 % 2 ^ 28 from fields_join _ 21 2 26]
  rw [show b.toNat / 2 ^ 21 % 2 ^ 28 * 2 ^ 2 + b.toNat / 2 ^ 19 % 2 ^ 2 = b.toNat / 2 ^ 19 % 2 ^ 30 from fields_join _ 19 2 28]
  rw [show b.toNat / 2 ^ 19 % 2 ^ 30 * 2 ^ 6 + b.toNat / 2 ^ 13 % 2 ^ 6 = b.toNat / 2 ^ 13 % 2 ^ 36 from fields_join _ 13 6 30]
  rw [show b.toNat / 2 ^ 13 % 2 ^ 36 * 2 ^ 3 + b.toNat / 2 ^ 10 % 2 ^ 3 = b.toNat / 2 ^ 10 % 2 ^ 39 from fields_join _ 10 3 36]
  rw [show b.toNat / 2 ^ 10 % 2 ^ 39 * 2 ^ 1 + b.toNat / 2 ^ 9 % 2 ^ 1 = b.toNat / 2 ^ 9 % 2 ^ 40 from fields_join _ 9 1 39]
  rw [show b.toNat / 2 ^ 9 % 2 ^ 40 * 2 ^ 9 + b.toNat / 2 ^ 0 % 2 ^ 9 = b.toNat / 2 ^ 0 % 2 ^ 49 from fields_join _ 0 9 40]
  have h := b.isLt
  omega

/-- The SI body keeps every field (R73). -/
theorem SI.ofBits_toBits (f : SI) : SI.ofBits f.toBits = f := by
  cases f with | mk d a imm fn5 => 
  have h1 := d.isLt; have h2 := a.isLt; have h3 := imm.isLt; have h4 := fn5.isLt
  simp only [SI.ofBits, SI.toBits, SI.mk.injEq]
  refine ⟨?_, ?_, ?_, ?_⟩ <;>
  · apply BitVec.eq_of_toNat_eq
    simp only [extract_toNat, toNat_append_add]
    omega

/-- The SI fields keep every bit. -/
theorem SI.toBits_ofBits (b : BitVec 49) : (SI.ofBits b).toBits = b := by
  have h := b.isLt
  apply BitVec.eq_of_toNat_eq
  simp only [SI.ofBits, SI.toBits, extract_toNat, toNat_append_add]
  omega

/-- The MEM body keeps every field (R75). -/
theorem MEM.ofBits_toBits (f : MEM) : MEM.ofBits f.toBits = f := by
  cases f with | mk d a b ord scope scl disp => 
  have h1 := d.isLt; have h2 := a.isLt; have h3 := b.isLt; have h4 := ord.isLt; have h5 := scope.isLt; have h6 := scl.isLt
  have h7 := disp.isLt
  simp only [MEM.ofBits, MEM.toBits, MEM.mk.injEq]
  refine ⟨?_, ?_, ?_, ?_, ?_, ?_, ?_⟩ <;>
  · apply BitVec.eq_of_toNat_eq
    simp only [extract_toNat, toNat_append_add]
    omega

/-- The MEM fields keep every bit. -/
theorem MEM.toBits_ofBits (b : BitVec 49) : (MEM.ofBits b).toBits = b := by
  have h := b.isLt
  apply BitVec.eq_of_toNat_eq
  simp only [MEM.ofBits, MEM.toBits, extract_toNat, toNat_append_add]
  omega

/-- The MX fields keep every bit. -/
theorem MX.toBits_ofBits (b : BitVec 49) : (MX.ofBits b).toBits = b := by
  apply BitVec.eq_of_toNat_eq
  simp only [MX.ofBits, MX.toBits, extract_toNat, toNat_append_add]
  rw [show b.toNat / 2 ^ 43 % 2 ^ 6 * 2 ^ 6 + b.toNat / 2 ^ 37 % 2 ^ 6 = b.toNat / 2 ^ 37 % 2 ^ 12 from fields_join _ 37 6 6]
  rw [show b.toNat / 2 ^ 37 % 2 ^ 12 * 2 ^ 1 + b.toNat / 2 ^ 36 % 2 ^ 1 = b.toNat / 2 ^ 36 % 2 ^ 13 from fields_join _ 36 1 12]
  rw [show b.toNat / 2 ^ 36 % 2 ^ 13 * 2 ^ 3 + b.toNat / 2 ^ 33 % 2 ^ 3 = b.toNat / 2 ^ 33 % 2 ^ 16 from fields_join _ 33 3 13]
  rw [show b.toNat / 2 ^ 33 % 2 ^ 16 * 2 ^ 3 + b.toNat / 2 ^ 30 % 2 ^ 3 = b.toNat / 2 ^ 30 % 2 ^ 19 from fields_join _ 30 3 16]
  rw [show b.toNat / 2 ^ 30 % 2 ^ 19 * 2 ^ 2 + b.toNat / 2 ^ 28 % 2 ^ 2 = b.toNat / 2 ^ 28 % 2 ^ 21 from fields_join _ 28 2 19]
  rw [show b.toNat / 2 ^ 28 % 2 ^ 21 * 2 ^ 2 + b.toNat / 2 ^ 26 % 2 ^ 2 = b.toNat / 2 ^ 26 % 2 ^ 23 from fields_join _ 26 2 21]
  rw [show b.toNat / 2 ^ 26 % 2 ^ 23 * 2 ^ 1 + b.toNat / 2 ^ 25 % 2 ^ 1 = b.toNat / 2 ^ 25 % 2 ^ 24 from fields_join _ 25 1 23]
  rw [show b.toNat / 2 ^ 25 % 2 ^ 24 * 2 ^ 1 + b.toNat / 2 ^ 24 % 2 ^ 1 = b.toNat / 2 ^ 24 % 2 ^ 25 from fields_join _ 24 1 24]
  rw [show b.toNat / 2 ^ 24 % 2 ^ 25 * 2 ^ 2 + b.toNat / 2 ^ 22 % 2 ^ 2 = b.toNat / 2 ^ 22 % 2 ^ 27 from fields_join _ 22 2 25]
  rw [show b.toNat / 2 ^ 22 % 2 ^ 27 * 2 ^ 2 + b.toNat / 2 ^ 20 % 2 ^ 2 = b.toNat / 2 ^ 20 % 2 ^ 29 from fields_join _ 20 2 27]
  rw [show b.toNat / 2 ^ 20 % 2 ^ 29 * 2 ^ 3 + b.toNat / 2 ^ 17 % 2 ^ 3 = b.toNat / 2 ^ 17 % 2 ^ 32 from fields_join _ 17 3 29]
  rw [show b.toNat / 2 ^ 17 % 2 ^ 32 * 2 ^ 3 + b.toNat / 2 ^ 14 % 2 ^ 3 = b.toNat / 2 ^ 14 % 2 ^ 35 from fields_join _ 14 3 32]
  rw [show b.toNat / 2 ^ 14 % 2 ^ 35 * 2 ^ 14 + b.toNat / 2 ^ 0 % 2 ^ 14 = b.toNat / 2 ^ 0 % 2 ^ 49 from fields_join _ 0 14 35]
  have h := b.isLt
  omega

/-- The MX body keeps every field (R76). -/
theorem MX.ofBits_toBits (f : MX) : MX.ofBits f.toBits = f := by
  cases f with | mk a b bm acc hr kv xs mrg za ha hb cm kb disp => 
  have h1 := a.isLt; have h2 := b.isLt; have h3 := bm.isLt; have h4 := acc.isLt; have h5 := hr.isLt; have h6 := kv.isLt
  have h7 := xs.isLt; have h8 := mrg.isLt; have h9 := za.isLt; have h10 := ha.isLt; have h11 := hb.isLt; have h12 := cm.isLt; have h13 := kb.isLt; have h14 := disp.isLt
  simp only [MX.ofBits, MX.toBits, MX.mk.injEq]
  refine ⟨?_, ?_, ?_, ?_, ?_, ?_, ?_, ?_, ?_, ?_, ?_, ?_, ?_, ?_⟩ <;>
  · apply BitVec.eq_of_toNat_eq
    simp only [extract_toNat, toNat_append_add]
    omega

/-- The OP of a word (R70). -/
theorem Parts.word_op (q : Parts) (p : Pred) : (q.word p).extractLsb' 57 7 = q.op := by
  have h1 := q.op.isLt; have h2 := q.body.isLt; have h3 := p.reg.isLt; have h4 := (BitVec.ofBool p.neg).isLt
  apply BitVec.eq_of_toNat_eq
  simp only [Parts.word, extract_toNat, toNat_append_add]
  omega

/-- The body of a word (R70). -/
theorem Parts.word_body (q : Parts) (p : Pred) : (q.word p).extractLsb' 0 49 = q.body := by
  have h1 := q.op.isLt; have h2 := q.body.isLt; have h3 := p.reg.isLt; have h4 := (BitVec.ofBool p.neg).isLt
  apply BitVec.eq_of_toNat_eq
  simp only [Parts.word, extract_toNat, toNat_append_add]
  omega

/-- The predicate of a word (R70). -/
theorem Parts.word_pred (q : Parts) (p : Pred) : Pred.ofBits (q.word p) = p := by
  cases p with | mk n r =>
  have h1 := q.op.isLt; have h2 := q.body.isLt; have h3 := r.isLt
  simp only [Pred.ofBits, Pred.mk.injEq]
  refine ⟨?_, ?_⟩
  · simp only [Parts.word, BitVec.getLsbD_append]
    simp
  · apply BitVec.eq_of_toNat_eq
    have h4 := (BitVec.ofBool n).isLt
    simp only [Parts.word, extract_toNat, toNat_append_add]
    omega

end Sys2Proof
end

