-- ==== Sys2Proof/Laws/Sparse.lean ====
section
/-! SUPPORT. Laws of finite maps: a read after a write, and that every change keeps the canonical form. -/
namespace Sys2Proof

variable {α : Type} [DecidableEq α]

omit [DecidableEq α] in
theorem Sparse.get_filter_ne (d : α) (m : Sparse α) (k j : Nat) (h : j ≠ k) :
    Sparse.get d (m.filter (fun e => e.1 ≠ k)) j = Sparse.get d m j := by
  induction m with
  | nil => rfl
  | cons e r ih =>
    obtain ⟨i, w⟩ := e
    by_cases hik : i = k
    · subst hik
      simp [Sparse.get, Ne.symm h] at *
      exact ih
    · by_cases hij : i = j <;> simp_all [Sparse.get]

omit [DecidableEq α] in
theorem Sparse.get_filter_self (d : α) (m : Sparse α) (k : Nat) :
    Sparse.get d (m.filter (fun e => e.1 ≠ k)) k = d := by
  induction m with
  | nil => rfl
  | cons e r ih => by_cases h : e.1 = k <;> simp_all [Sparse.get]

omit [DecidableEq α] in
theorem Sparse.get_put_self (d : α) (m : Sparse α) (k : Nat) (v : α) : Sparse.get d (Sparse.put v k m) k = v := by
  induction m with
  | nil => simp [Sparse.put, Sparse.get]
  | cons e r ih =>
    simp only [Sparse.put]
    split
    · simp [Sparse.get]
    · split
      · simp [Sparse.get]
      · simp [Sparse.get, ih]; omega

omit [DecidableEq α] in
theorem Sparse.get_put_ne (d : α) (m : Sparse α) (k j : Nat) (v : α) (h : j ≠ k) :
    Sparse.get d (Sparse.put v k m) j = Sparse.get d m j := by
  induction m with
  | nil => simp [Sparse.put, Sparse.get, Ne.symm h]
  | cons e r ih =>
    simp only [Sparse.put]
    split
    · simp [Sparse.get, Ne.symm h]
    · split
      · rename_i h1; subst h1; simp [Sparse.get, Ne.symm h]
      · simp [Sparse.get, ih]

/-- A key reads what was written to it. -/
@[simp] theorem Sparse.get_set_self (d : α) (m : Sparse α) (k : Nat) (v : α) : Sparse.get d (Sparse.set d m k v) k = v := by
  unfold Sparse.set
  split
  · rename_i h; rw [Sparse.get_filter_self, h]
  · exact Sparse.get_put_self d m k v

/-- A write leaves every other key. -/
theorem Sparse.get_set_ne (d : α) (m : Sparse α) (k j : Nat) (v : α) (h : j ≠ k) :
    Sparse.get d (Sparse.set d m k v) j = Sparse.get d m j := by
  unfold Sparse.set
  split
  · exact Sparse.get_filter_ne d m k j h
  · exact Sparse.get_put_ne d m k j v h

/-! The canonical form -/

/-- The canonical form as a statement about pairs: keys rise, nothing equals the default. -/
theorem Sparse.wf_iff (d : α) (m : Sparse α) :
    Sparse.wf d m = true ↔ m.Pairwise (fun a b => a.1 < b.1) ∧ ∀ e ∈ m, e.2 ≠ d := by
  induction m with
  | nil => simp [Sparse.wf]
  | cons e r ih =>
    cases r with
    | nil => simp [Sparse.wf]
    | cons e2 r2 =>
      simp only [Sparse.wf, Bool.and_eq_true, decide_eq_true_eq, ih, List.pairwise_cons, List.forall_mem_cons]
      constructor
      · rintro ⟨⟨h1, h2⟩, ⟨h3, h4⟩, h5, h6⟩
        exact ⟨⟨⟨h2, fun a ha => Nat.lt_trans h2 (h3 a ha)⟩, h3, h4⟩, h1, h5, h6⟩
      · rintro ⟨⟨⟨h2, -⟩, h3, h4⟩, h1, h5, h6⟩
        exact ⟨⟨h1, h2⟩, ⟨h3, h4⟩, h5, h6⟩

theorem Sparse.wf_filter (d : α) (m : Sparse α) (p : Nat × α → Bool) (h : Sparse.wf d m = true) :
    Sparse.wf d (m.filter p) = true := by
  rw [Sparse.wf_iff] at *
  exact ⟨h.1.filter p, fun e he => h.2 e (List.mem_filter.mp he).1⟩

/-- Two canonical maps, the keys of the first below those of the second. -/
theorem Sparse.wf_append (d : α) (m n : Sparse α) (hm : Sparse.wf d m = true) (hn : Sparse.wf d n = true)
    (h : ∀ a ∈ m, ∀ b ∈ n, a.1 < b.1) : Sparse.wf d (m ++ n) = true := by
  rw [Sparse.wf_iff] at *
  refine ⟨List.pairwise_append.mpr ⟨hm.1, hn.1, h⟩, fun e he => ?_⟩
  rcases List.mem_append.mp he with h1 | h1
  · exact hm.2 e h1
  · exact hn.2 e h1

omit [DecidableEq α] in
theorem Sparse.mem_put (v : α) (k : Nat) (m : Sparse α) (e : Nat × α) (h : e ∈ Sparse.put v k m) :
    e = (k, v) ∨ e ∈ m := by
  induction m with
  | nil => simpa [Sparse.put] using h
  | cons a r ih =>
    simp only [Sparse.put] at h
    split at h
    · simpa using h
    · split at h
      · simp only [List.mem_cons] at h ⊢; tauto
      · simp only [List.mem_cons] at h ⊢; tauto

theorem Sparse.wf_put (d : α) (m : Sparse α) (k : Nat) (v : α) (hv : v ≠ d) (h : Sparse.wf d m = true) :
    Sparse.wf d (Sparse.put v k m) = true := by
  rw [Sparse.wf_iff] at *
  obtain ⟨h1, h2⟩ := h
  refine ⟨?_, fun e he => ?_⟩
  · induction m with
    | nil => simp [Sparse.put]
    | cons a r ih =>
      rw [List.pairwise_cons] at h1
      simp only [Sparse.put]
      split
      · rename_i hk
        refine List.pairwise_cons.mpr ⟨fun b hb => ?_, List.pairwise_cons.mpr h1⟩
        rcases List.mem_cons.mp hb with rfl | hb
        · exact hk
        · exact Nat.lt_trans hk (h1.1 b hb)
      · split
        · rename_i hk; exact List.pairwise_cons.mpr ⟨fun b hb => by simpa [hk] using h1.1 b hb, h1.2⟩
        · refine List.pairwise_cons.mpr ⟨fun b hb => ?_, ih h1.2 fun e he => h2 e (List.mem_cons_of_mem _ he)⟩
          rcases Sparse.mem_put v k r b hb with rfl | hb
          · show a.1 < k; omega
          · exact h1.1 b hb
  · rcases Sparse.mem_put v k m e he with rfl | he
    · exact hv
    · exact h2 e he

/-- A write keeps the canonical form. -/
theorem Sparse.wf_set (d : α) (m : Sparse α) (k : Nat) (v : α) (h : Sparse.wf d m = true) :
    Sparse.wf d (Sparse.set d m k v) = true := by
  unfold Sparse.set
  split
  · exact Sparse.wf_filter d m _ h
  · rename_i hv; exact Sparse.wf_put d m k v hv h

theorem Sparse.mem_run (d : α) (k : Nat) (vs : List α) (e : Nat × α) (h : e ∈ Sparse.run d k vs) :
    k ≤ e.1 ∧ e.1 < k + vs.length ∧ e.2 ≠ d := by
  induction vs generalizing k with
  | nil => simp [Sparse.run] at h
  | cons v vs ih =>
    simp only [Sparse.run] at h
    split at h
    · have := ih (k + 1) h; simp only [List.length_cons]; refine ⟨by omega, by omega, this.2.2⟩
    · rename_i hv
      rcases List.mem_cons.mp h with rfl | h
      · exact ⟨Nat.le_refl _, by simp, hv⟩
      · have := ih (k + 1) h; simp only [List.length_cons]; refine ⟨by omega, by omega, this.2.2⟩

theorem Sparse.wf_run (d : α) (k : Nat) (vs : List α) : Sparse.wf d (Sparse.run d k vs) = true := by
  rw [Sparse.wf_iff]
  refine ⟨?_, fun e he => (Sparse.mem_run d k vs e he).2.2⟩
  induction vs generalizing k with
  | nil => simp [Sparse.run]
  | cons v vs ih =>
    simp only [Sparse.run]
    split
    · exact ih (k + 1)
    · exact List.pairwise_cons.mpr ⟨fun b hb => by have := Sparse.mem_run d (k + 1) vs b hb; show k < b.1; omega, ih (k + 1)⟩

/-- Writing a run of values keeps the canonical form. -/
theorem Sparse.wf_splice (d : α) (m : Sparse α) (k : Nat) (vs : List α) (h : Sparse.wf d m = true) :
    Sparse.wf d (Sparse.splice d m k vs) = true := by
  unfold Sparse.splice
  refine Sparse.wf_append d _ _ (Sparse.wf_filter d m _ h)
    (Sparse.wf_append d _ _ (Sparse.wf_run d k vs) (Sparse.wf_filter d m _ h) ?_) ?_
  · intro a ha b hb
    have h1 := Sparse.mem_run d k vs a ha
    have h2 := (List.mem_filter.mp hb).2
    simp only [decide_eq_true_eq] at h2; omega
  · intro a ha b hb
    have h1 := (List.mem_filter.mp ha).2
    simp only [decide_eq_true_eq] at h1
    rcases List.mem_append.mp hb with hb | hb
    · have h2 := Sparse.mem_run d k vs b hb; omega
    · have h2 := (List.mem_filter.mp hb).2
      simp only [decide_eq_true_eq] at h2; omega

/-- Copying a run keeps the canonical form. -/
theorem Sparse.wf_copyRun (d : α) (m : Sparse α) (src dst n : Nat) (h : Sparse.wf d m = true) :
    Sparse.wf d (Sparse.copyRun m src dst n) = true := by
  have hf := Sparse.wf_filter d m (fun e => decide (src ≤ e.1) && decide (e.1 < src + n)) h
  have hw : Sparse.wf d ((m.filter fun e => decide (src ≤ e.1) && decide (e.1 < src + n)).map fun e => (e.1 - src + dst, e.2)) = true := by
    rw [Sparse.wf_iff] at *
    refine ⟨List.pairwise_map.mpr (hf.1.imp_of_mem ?_), ?_⟩
    · intro a b ha hb hab
      have h1 := (List.mem_filter.mp ha).2
      simp only [Bool.and_eq_true, decide_eq_true_eq] at h1
      show a.1 - src + dst < b.1 - src + dst
      omega
    · intro e he
      obtain ⟨x, hx, rfl⟩ := List.mem_map.mp he
      exact hf.2 x hx
  have bound : ∀ a ∈ ((m.filter fun e => decide (src ≤ e.1) && decide (e.1 < src + n)).map fun e => (e.1 - src + dst, e.2)),
      dst ≤ a.1 ∧ a.1 < dst + n := by
    intro a ha
    obtain ⟨x, hx, rfl⟩ := List.mem_map.mp ha
    have h1 := (List.mem_filter.mp hx).2
    simp only [Bool.and_eq_true, decide_eq_true_eq] at h1
    show dst ≤ x.1 - src + dst ∧ x.1 - src + dst < dst + n
    omega
  unfold Sparse.copyRun
  refine Sparse.wf_append d _ _ (Sparse.wf_filter d m _ h) (Sparse.wf_append d _ _ hw (Sparse.wf_filter d m _ h) ?_) ?_
  · intro a ha b hb
    have h1 := bound a ha
    have h2 := (List.mem_filter.mp hb).2
    simp only [decide_eq_true_eq] at h2; omega
  · intro a ha b hb
    have h1 := (List.mem_filter.mp ha).2
    simp only [decide_eq_true_eq] at h1
    rcases List.mem_append.mp hb with hb | hb
    · have h2 := bound b hb; omega
    · have h2 := (List.mem_filter.mp hb).2
      simp only [decide_eq_true_eq] at h2; omega

omit [DecidableEq α] in
theorem Sparse.get_eq_of_lt (d : α) (m : Sparse α) (j : Nat) (h : ∀ e ∈ m, e.1 ≠ j) : Sparse.get d m j = d := by
  induction m with
  | nil => rfl
  | cons e r ih =>
    have h1 := h e (by simp)
    simp only [Sparse.get, h1, if_false]
    exact ih fun e he => h e (List.mem_cons_of_mem _ he)

omit [DecidableEq α] in
theorem Sparse.get_append (d : α) (m n : Sparse α) (j : Nat) :
    Sparse.get d (m ++ n) j = if (∃ e ∈ m, e.1 = j) then Sparse.get d m j else Sparse.get d n j := by
  induction m with
  | nil => simp
  | cons e r ih =>
    by_cases h : e.1 = j
    · simp [Sparse.get, h]
    · have h2 : (∃ x ∈ e :: r, x.1 = j) ↔ ∃ x ∈ r, x.1 = j := by simp [h]
      simp only [List.cons_append, Sparse.get, h, if_false, ih, h2]

omit [DecidableEq α] in
theorem Sparse.get_filter (d : α) (m : Sparse α) (p : Nat → Bool) (j : Nat) (h : p j = true) :
    Sparse.get d (m.filter fun e => p e.1) j = Sparse.get d m j := by
  induction m with
  | nil => rfl
  | cons e r ih =>
    by_cases he : e.1 = j
    · simp [Sparse.get, he, h]
    · by_cases hp : p e.1 <;> simp [Sparse.get, he, hp, ih]

theorem Sparse.get_run (d : α) (k : Nat) (vs : List α) (j : Nat) (h : k ≤ j) (h2 : j < k + vs.length) :
    Sparse.get d (Sparse.run d k vs) j = vs.getD (j - k) d := by
  induction vs generalizing k with
  | nil => simp at h2; omega
  | cons v vs ih =>
    simp only [List.length_cons] at h2
    by_cases hj : j = k
    · subst hj
      simp only [Sparse.run]
      split
      · rename_i hv
        rw [Sparse.get_eq_of_lt, hv]
        · simp
        · intro e he; have := Sparse.mem_run d (j + 1) vs e he; omega
      · simp [Sparse.get]
    · have h3 := ih (k + 1) (by omega) (by omega)
      have h4 : (v :: vs).getD (j - k) d = vs.getD (j - (k + 1)) d := by
        rw [show j - k = (j - (k + 1)) + 1 by omega]; simp
      simp only [Sparse.run]
      split
      · rw [h3, h4]
      · simp only [Sparse.get, Ne.symm hj, if_false]; rw [h3, h4]

omit [DecidableEq α] in
/-- What a map reads as, of which a run of keys was replaced. -/
theorem Sparse.get_replaced (d : α) (m w : Sparse α) (k n j : Nat) (hw : ∀ e ∈ w, k ≤ e.1 ∧ e.1 < k + n) :
    Sparse.get d (m.filter (fun e => e.1 < k) ++ (w ++ m.filter fun e => k + n ≤ e.1)) j =
      if k ≤ j ∧ j < k + n then Sparse.get d w j else Sparse.get d m j := by
  rw [Sparse.get_append, Sparse.get_append]
  by_cases h : k ≤ j ∧ j < k + n
  · rw [if_pos h, if_neg]
    · split
      · rfl
      · rename_i h1
        rw [Sparse.get_eq_of_lt, Sparse.get_eq_of_lt]
        · intro e he hj; exact h1 ⟨e, he, hj⟩
        · intro e he hj
          have := (List.mem_filter.mp he).2
          simp only [decide_eq_true_eq] at this; omega
    · rintro ⟨e, he, hj⟩
      have := (List.mem_filter.mp he).2
      simp only [decide_eq_true_eq] at this; omega
  · rw [if_neg h]
    by_cases h1 : j < k
    · by_cases h2 : ∃ e ∈ m.filter (fun e => decide (e.1 < k)), e.1 = j
      · rw [if_pos h2, Sparse.get_filter d m (fun i => decide (i < k)) j (by simpa using h1)]
      · rw [if_neg h2, if_neg, Sparse.get_eq_of_lt, Sparse.get_eq_of_lt]
        · intro e he hj; exact h2 ⟨e, List.mem_filter.mpr ⟨he, by simp; omega⟩, hj⟩
        · intro e he hj
          have := (List.mem_filter.mp he).2
          simp only [decide_eq_true_eq] at this; omega
        · rintro ⟨e, he, hj⟩
          have := hw e he; omega
    · rw [if_neg, if_neg, Sparse.get_filter d m (fun i => decide (k + n ≤ i)) j (by simp; omega)]
      · rintro ⟨e, he, hj⟩
        have := hw e he; omega
      · rintro ⟨e, he, hj⟩
        have := (List.mem_filter.mp he).2
        simp only [decide_eq_true_eq] at this; omega

/-- What a splice reads as. -/
theorem Sparse.get_splice (d : α) (m : Sparse α) (k : Nat) (vs : List α) (j : Nat) :
    Sparse.get d (Sparse.splice d m k vs) j = if k ≤ j ∧ j < k + vs.length then vs.getD (j - k) d else Sparse.get d m j := by
  rw [Sparse.splice, Sparse.get_replaced d m _ k vs.length j fun e he => ⟨(Sparse.mem_run d k vs e he).1, (Sparse.mem_run d k vs e he).2.1⟩]
  exact ite_congr rfl (fun h => Sparse.get_run d k vs j h.1 h.2) fun _ => rfl

omit [DecidableEq α] in
theorem Sparse.get_shift (d : α) (m : Sparse α) (src dst n j : Nat) (h : dst ≤ j) (h2 : j < dst + n) :
    Sparse.get d ((m.filter fun e => src ≤ e.1 && e.1 < src + n).map fun e => (e.1 - src + dst, e.2)) j = Sparse.get d m (j - dst + src) := by
  induction m with
  | nil => rfl
  | cons e r ih =>
    by_cases hp : (src ≤ e.1 && e.1 < src + n) = true
    · have h3 : (e.1 - src + dst = j) ↔ e.1 = j - dst + src := by simp at hp; omega
      simp only [List.filter_cons, hp, if_true, List.map_cons, Sparse.get, h3, ih]
    · have h3 : e.1 ≠ j - dst + src := by simp at hp; omega
      simp only [List.filter_cons, hp, Sparse.get, h3, if_false, ih, Bool.false_eq_true]

omit [DecidableEq α] in
/-- What a copied run reads as: its source as it stood. -/
theorem Sparse.get_copyRun (d : α) (m : Sparse α) (src dst n j : Nat) :
    Sparse.get d (Sparse.copyRun m src dst n) j = if dst ≤ j ∧ j < dst + n then Sparse.get d m (j - dst + src) else Sparse.get d m j := by
  rw [Sparse.copyRun, Sparse.get_replaced d m _ dst n j]
  · exact ite_congr rfl (fun h => Sparse.get_shift d m src dst n j h.1 h.2) fun _ => rfl
  · intro e he
    obtain ⟨x, hx, rfl⟩ := List.mem_map.mp he
    have h1 := (List.mem_filter.mp hx).2
    simp only [Bool.and_eq_true, decide_eq_true_eq] at h1
    show dst ≤ x.1 - src + dst ∧ x.1 - src + dst < dst + n
    omega

end Sys2Proof
end

