-- ==== Sys2Proof/Laws/Ops.lean ====
section
/-! SUPPORT. What the shared operations do: units read after they are written, registers, latches, and the two ways a slot's operation runs inside its bundle. -/
namespace Sys2Proof.Machine

/-! Units -/

@[simp] theorem State.core_setCore_self (s : State) (c : Nat) (k : Core) : (s.setCore c k).core c = k := by
  simp [State.core, State.setCore]

theorem State.core_setCore_ne (s : State) (c d : Nat) (k : Core) (h : d ≠ c) : (s.setCore c k).core d = s.core d := by
  simp [State.core, State.setCore, Sparse.get_set_ne _ _ _ _ _ h]

@[simp] theorem Core.bank_setBank_self (k : Core) (b : Nat) (x : Ctx) : (k.setBank b x).bank b = x := by
  unfold Core.setBank Core.bank; split <;> rfl

theorem Core.bank_setBank_ne (k : Core) (b d : Nat) (x : Ctx) (h : ¬(d = 0 ↔ b = 0)) :
    (k.setBank b x).bank d = k.bank d := by
  unfold Core.setBank Core.bank; split <;> split <;> simp_all

theorem Core.setBank_rest (k : Core) (b : Nat) (x : Ctx) :
    { k.setBank b x with b0 := .idle, b1 := .idle } = { k with b0 := .idle, b1 := .idle } := by
  unfold Core.setBank; split <;> rfl

@[simp] theorem State.ctx_setCtx_self (s : State) (c b : Nat) (x : Ctx) : (s.setCtx c b x).ctx c b = x := by
  simp [State.ctx, State.setCtx, State.modCore]

@[simp] theorem State.ctx_modCtx_self (s : State) (c b : Nat) (f : Ctx → Ctx) : (s.modCtx c b f).ctx c b = f (s.ctx c b) := by
  simp [State.modCtx]

@[simp] theorem State.cur_modCur (s : State) (f : Ctx → Ctx) : (s.modCur f).cur = f s.cur := by
  simp [State.cur, State.modCur]

theorem State.job_modJob_self (s : State) (j : Nat) (f : Job → Job) : (s.modJob j f).job j = f (s.job j) := by
  simp [State.job, State.modJob]

theorem State.job_modJob_ne (s : State) (j i : Nat) (f : Job → Job) (h : i ≠ j) : (s.modJob j f).job i = s.job i := by
  simp [State.job, State.modJob, Sparse.get_set_ne _ _ _ _ _ h]

theorem State.cluster_modCluster_self (s : State) (d : Nat) (f : Cluster → Cluster) :
    (s.modCluster d f).cluster d = f (s.cluster d) := by simp [State.cluster, State.modCluster]

theorem State.cluster_modCluster_ne (s : State) (d e : Nat) (f : Cluster → Cluster) (h : e ≠ d) :
    (s.modCluster d f).cluster e = s.cluster e := by
  simp [State.cluster, State.modCluster, Sparse.get_set_ne _ _ _ _ _ h]

theorem State.handle_setHandle_self (s : State) (h : Nat) (x : Handle) : (s.setHandle h x).handle h = x := by
  simp [State.handle, State.setHandle]

theorem State.handle_setHandle_ne (s : State) (h i : Nat) (x : Handle) (hi : i ≠ h) :
    (s.setHandle h x).handle i = s.handle i := by
  simp [State.handle, State.setHandle, Sparse.get_set_ne _ _ _ _ _ hi]

/-! Elsewhere -/

theorem Elsewhere.refl (s : State) : Elsewhere s s := ⟨rfl, fun _ _ => rfl, rfl, fun _ _ => rfl⟩

theorem Elsewhere.issue {s t : State} (h : Elsewhere s t) : { t.issue with need := s.issue.need } = s.issue := by
  have := congrArg State.issue h.package; exact this

theorem Elsewhere.issue_core {s t : State} (h : Elsewhere s t) : t.issue.core = s.issue.core := by
  have := congrArg Issue.core h.issue; exact this

theorem Elsewhere.issue_bank {s t : State} (h : Elsewhere s t) : t.issue.bank = s.issue.bank := by
  have := congrArg Issue.bank h.issue; exact this

theorem Elsewhere.mem {s t : State} (h : Elsewhere s t) : t.mem = s.mem := by
  have := congrArg State.mem h.package; exact this

theorem Elsewhere.trans {s t u : State} (h : Elsewhere s t) (g : Elsewhere t u) : Elsewhere s u := by
  have hc := h.issue_core
  have hb := h.issue_bank
  refine ⟨?_, fun c hn => ?_, ?_, fun b hn => ?_⟩
  · have a := congrArg (fun x : State => { x with issue := { x.issue with need := s.issue.need } }) g.package
    exact a.trans h.package
  · rw [g.cores c (by rw [hc]; exact hn), h.cores c hn]
  · have := g.core; rw [hc] at this; exact this.trans h.core
  · have := g.bank b (by rw [hb]; exact hn); rw [hc] at this; rw [this, h.bank b hn]

/-- What the operation needs to leave its queue is no change elsewhere. -/
theorem Elsewhere.needs (s : State) (n : Need) : Elsewhere s { s with issue := { s.issue with need := n } } :=
  ⟨rfl, fun _ _ => rfl, rfl, fun _ _ => rfl⟩

/-- A change of the running context changes nothing elsewhere. -/
theorem Elsewhere.modCur (s : State) (f : Ctx → Ctx) : Elsewhere s (s.modCur f) := by
  refine ⟨rfl, fun c hc => ?_, ?_, fun b hb => ?_⟩
  · exact State.core_setCore_ne _ _ _ _ hc
  · simp only [State.modCur, State.modCtx, State.setCtx, State.modCore, State.core_setCore_self]
    exact Core.setBank_rest _ _ _
  · simp only [State.modCur, State.modCtx, State.setCtx, State.modCore, State.ctx, State.core_setCore_self]
    exact Core.bank_setBank_ne _ _ _ _ hb

/-! Registers (R98, R77) -/

theorem Ctx.getX_setX (k : Ctx) (n m : Nat) (v : Word) :
    (k.setX n v).getX m = if m = n ∧ n ≠ 0 then v else k.getX m := by
  unfold Ctx.setX Ctx.getX
  by_cases hn : n = 0
  · simp [hn]
  · by_cases hm : m = n
    · subst hm; simp [hn]
    · simp [hn, hm, Sparse.get_set_ne _ _ _ _ _ hm]

theorem Ctx.getP_setP (k : Ctx) (n m : Nat) (v : Word) :
    (k.setP n v).getP m = if m = n ∧ n ≠ 0 then v else k.getP m := by
  unfold Ctx.setP Ctx.getP
  by_cases hn : n = 0
  · simp [hn]
  · by_cases hm : m = n
    · subst hm; simp [hn]
    · simp [hn, hm, Sparse.get_set_ne _ _ _ _ _ hm]

theorem Ctx.getV_setV (k : Ctx) (n m : Nat) (r : VReg) : (k.setV n r).getV m = if m = n then r else k.getV m := by
  unfold Ctx.setV Ctx.getV
  split
  · rename_i h; subst h; simp
  · rename_i h; exact Sparse.get_set_ne _ _ _ _ _ h

theorem Ctx.getT_setT (k : Ctx) (n m : Nat) (r : Tile) : (k.setT n r).getT m = if m = n then r else k.getT m := by
  unfold Ctx.setT Ctx.getT
  split
  · rename_i h; subst h; simp
  · rename_i h; exact Sparse.get_set_ne _ _ _ _ _ h

theorem Ctx.getA_setA (k : Ctx) (n m : Nat) (r : Acc) : (k.setA n r).getA m = if m = n then r else k.getA m := by
  unfold Ctx.setA Ctx.getA
  split
  · rename_i h; subst h; simp
  · rename_i h; exact Sparse.get_set_ne _ _ _ _ _ h

theorem Ctx.getRing_setRing (k : Ctx) (n m : Nat) (r : Ring) :
    (k.setRing n r).getRing m = if m = n then r else k.getRing m := by
  unfold Ctx.setRing Ctx.getRing
  split
  · rename_i h; subst h; simp
  · rename_i h; exact Sparse.get_set_ne _ _ _ _ _ h

/-- What a write of x n leaves: everything but x and its marks. -/
theorem Ctx.setX_rest (k : Ctx) (n : Nat) (v : Word) : { k.setX n v with x := [], xbad := 0 } = { k with x := [], xbad := 0 } := by
  unfold Ctx.setX; split <;> rfl

theorem Ctx.setP_rest (k : Ctx) (n : Nat) (v : Word) : { k.setP n v with p := [], pbad := 0 } = { k with p := [], pbad := 0 } := by
  unfold Ctx.setP; split <;> rfl

/-! Hold actions (R74) -/

/-- One hold action changes the running context's latches only. -/
theorem Elsewhere.latchOne (s : State) (o : Opd) : Elsewhere s (s.latchOne o) := by
  unfold State.latchOne
  split
  · exact Elsewhere.modCur _ _
  · split
    · exact Elsewhere.modCur _ _
    · exact Elsewhere.refl s

theorem Elsewhere.latchAll (s : State) (os : List Opd) : Elsewhere s (s.latchAll os) := by
  unfold State.latchAll
  induction os generalizing s with
  | nil => exact Elsewhere.refl s
  | cons o os ih => exact (Elsewhere.latchOne s o).trans (ih _)

theorem State.latchOne_issue (s : State) (o : Opd) : (s.latchOne o).issue = s.issue := by
  unfold State.latchOne; split
  · rfl
  · split <;> rfl

@[simp] theorem State.latchAll_issue (s : State) (os : List Opd) : (s.latchAll os).issue = s.issue := by
  unfold State.latchAll
  induction os generalizing s with
  | nil => rfl
  | cons o os ih => exact (ih _).trans (State.latchOne_issue s o)

@[simp] theorem State.latchAll_mem (s : State) (os : List Opd) : (s.latchAll os).mem = s.mem := (Elsewhere.latchAll s os).mem

theorem State.latchOne_rest (s : State) (o : Opd) : { (s.latchOne o).cur with latch := [] } = { s.cur with latch := [] } := by
  unfold State.latchOne
  split
  · simp [Ctx.setLatch]
  · split
    · simp [Ctx.setLatch]
    · rfl

/-- Hold actions change latches only. -/
theorem State.latchAll_rest (s : State) (os : List Opd) : { (s.latchAll os).cur with latch := [] } = { s.cur with latch := [] } := by
  unfold State.latchAll
  induction os generalizing s with
  | nil => rfl
  | cons o os ih => exact (ih _).trans (State.latchOne_rest s o)

/-- Sources that are not latched leave the state. -/
theorem State.latchAll_plain (s : State) (os : List Opd) (h : ∀ o ∈ os, o.h = 0) : s.latchAll os = s := by
  unfold State.latchAll
  induction os with
  | nil => rfl
  | cons o os ih =>
    have h1 : s.latchOne o = s := by simp [State.latchOne, h o (by simp)]
    simp only [List.foldl_cons, h1]
    exact ih fun p hp => h p (by simp [hp])

/-! The two shapes -/

theorem State.waits_false (s : State) (rd wr : List Reg) (h : ∀ e ∈ s.issue.pre.pend, e.reg ∉ rd ++ wr)
    (hq : ∀ q ∈ s.issue.pre.queue, ∀ r ∈ q.reads, r ∉ wr) : s.waits rd wr = false := by
  unfold State.waits
  rw [Bool.or_eq_false_iff, List.any_eq_false, List.any_eq_false]
  refine ⟨fun e he h1 => h e he (by simpa using h1), fun q hm h1 => ?_⟩
  obtain ⟨r, hr, hw⟩ := List.any_eq_true.mp h1
  exact hq q hm r hr (by simpa using hw)

theorem State.later_false (s : State) (r : Reg) (h : ∀ e ∈ s.issue.pre.pend, e.why.unknown = true ∨ e.bad = true → e.reg ≠ r) :
    s.later r = false := by
  unfold State.later
  rw [List.any_eq_false]
  intro e he h1
  simp only [Bool.and_eq_true, decide_eq_true_eq, Bool.or_eq_true] at h1
  exact h e he h1.2 h1.1

theorem State.blind_of_later (s : State) (r : Reg) (h : s.later r = false) : s.blind r = false := by
  unfold State.later at h
  unfold State.blind
  rw [List.any_eq_false] at h ⊢
  intro e he h1
  have := h e he
  simp only [Bool.and_eq_true, decide_eq_true_eq, Bool.or_eq_true] at h1 this
  exact this ⟨h1.1, .inl h1.2⟩

theorem Opd.copies_sub (os : List Opd) (r : Reg) (h : r ∈ os.flatMap (·.copies)) : r ∈ regsOf (os.filter (·.h = 1)) := by
  simp only [regsOf, List.mem_flatMap, List.mem_filter, decide_eq_true_eq] at h ⊢
  obtain ⟨o, ho, hr⟩ := h
  unfold Opd.copies at hr
  split at hr
  · rename_i hc; simp only [Bool.and_eq_true, decide_eq_true_eq] at hc; exact ⟨o, ⟨ho, hc.1⟩, hr⟩
  · cases hr

/-- A ready operation of an anchored slot has its effect. -/
theorem State.anchored_ready (s : State) (os : List Opd) (wr : List Reg) (body : State → State) (h : Ready s os wr) :
    s.anchored os wr body = .next (body (s.latchAll os)) := by
  have hw : s.waits (os.flatMap (·.regs)) wr = false := State.waits_false s _ _ h.free h.unread
  have hf : (os.flatMap (·.regs)).find? s.issue.pre.spoilt = none := by
    rw [List.find?_eq_none]; intro r hr; simp [h.clean r hr]
  unfold State.anchored
  simp only [h.active, if_true, hw, Bool.not_true, Bool.false_eq_true, if_false, hf]

/-- An inactive operation of an anchored slot takes its hold actions and nothing else. -/
theorem State.anchored_inactive (s : State) (os : List Opd) (wr : List Reg) (body : State → State) (h : Skips s os) :
    s.anchored os wr body = .next (s.latchAll os) := by
  have hw : (os.flatMap (·.copies)).any s.later = false := by
    rw [List.any_eq_false]
    intro r hr
    simp [State.later_false s r fun e he h1 hn => h.free e he h1 (hn ▸ Opd.copies_sub os r hr)]
  unfold State.anchored
  simp only [h.inactive, hw, Bool.false_eq_true, if_false, Bool.not_false, if_true]

/-- An operation of an anchored slot always answers a next state. -/
theorem State.anchored_next (s : State) (os : List Opd) (wr : List Reg) (body : State → State) :
    ∃ t, s.anchored os wr body = .next t := by
  unfold State.anchored
  simp only
  (repeat' split) <;> exact ⟨_, rfl⟩

/-- No source of a ready operation is poisoned. -/
theorem ReadySlip.unspoilt {s : State} {os : List Opd} {wr : List Reg} (h : ReadySlip s os wr) :
    (os.flatMap (·.regs)).find? s.issue.pre.spoilt = none := by
  rw [List.find?_eq_none]; intro r hr; simp [h.clean r hr]

/-- An operation that leaves its queue takes its hold actions and has its effect (R109, R110). -/
theorem State.slipped_late (s : State) (os : List Opd) (wr : List Reg) (body : State → State) (h : ReadySlip s os wr)
    (hl : s.issue.late.isSome = true) : s.slipped true os wr body = .next (body (s.latchAll os)) := by
  unfold State.slipped
  simp only [hl, if_true, h.unspoilt, Option.isSome_none, Bool.false_eq_true, if_false]

theorem AtHand.later {s : State} {os : List Opd} {wr : List Reg} (h : AtHand s os wr) (r : Reg)
    (hr : r ∈ regsOf os ++ wr ++ latchesOf s.issue.slot os) : s.later r = false :=
  State.later_false s r fun e he h1 hn => h.free e he (h1.imp_right .inl) (hn ▸ hr)

/-- Nothing that decides an operation's checks is awaited. -/
theorem AtHand.decided {s : State} {os : List Opd} {wr : List Reg} (h : AtHand s os wr) :
    s.undecided (os.flatMap (·.regs)) wr = false := by
  unfold State.undecided
  rw [Bool.or_eq_false_iff]
  constructor
  · rw [Bool.and_eq_false_iff]
    right
    rw [List.any_eq_false]
    intro r hr
    simp [State.blind_of_later s r (h.later r (by
      have := (List.mem_filter.mp hr).1
      simp only [List.mem_append]; exact .inl (.inl this)))]
  · rw [List.any_eq_false]
    intro e he h1
    simp only [Bool.and_eq_true, List.contains_iff_mem] at h1
    exact h.free e he (.inr (.inr h1.1)) (List.mem_append_left _ h1.2)

/-- No hold action and no use of a latch is awaited. -/
theorem AtHand.latched {s : State} {os : List Opd} {wr : List Reg} (h : AtHand s os wr) : s.latchLate os = false := by
  unfold State.latchLate
  rw [List.any_eq_false]
  intro r hr
  obtain ⟨o, ho, hr⟩ := List.mem_flatMap.mp hr
  simp only [List.mem_append] at hr
  suffices r ∈ regsOf os ++ wr ++ latchesOf s.issue.slot os by simp [h.later r this]
  simp only [List.mem_append, regsOf, latchesOf, List.mem_flatMap]
  rcases hr with (hr | hr) | hr
  · refine .inl (.inl ⟨o, ho, ?_⟩)
    unfold Opd.copies at hr
    split at hr
    · exact hr
    · cases hr
  · exact .inr ⟨o, ho, .inl hr⟩
  · exact .inr ⟨o, ho, .inr hr⟩

/-- With all it uses at hand, an operation of a slot that slips has its effect and enters its queue; `need` is what it waits for
there (R109 to R111). -/
theorem State.slipped_ready (s : State) (os : List Opd) (wr : List Reg) (body : State → State) (h : ReadySlip s os wr)
    (ha : AtHand s os wr) (hb : (body (s.latchAll os)).issue.verdict = .commit)
    (hn : (body (s.latchAll os)).issue.need.img = none) (hp : (body (s.latchAll os)).issue.pre = s.issue.pre)
    (hu : (body (s.latchAll os)).issue.unsure = s.issue.unsure) :
    s.slipped true os wr body = .next ((body (s.latchAll os)).enqueue (regsOf os) wr) := by
  have h3 : (s.cur.queue.any fun e => e.bundle = s.issue.pre.bundle && e.wantsAny wr) = false := by
    rw [List.any_eq_false]
    intro q hq
    simp [ha.unwanted q (List.mem_append_right _ hq)]
  have h4 : (body (s.latchAll os)).goesLate (os.flatMap (·.regs)) wr = false := by
    unfold State.goesLate
    rw [hn, hp, hu, ha.sure]
    simp only [Option.isSome_none, Bool.false_or, Bool.or_eq_false_iff, List.any_eq_false]
    refine ⟨fun r hr => ?_, fun q hq => by simp [ha.unwanted q (List.mem_append_left _ hq)]⟩
    have := ha.later r (List.mem_append_left _ hr)
    unfold State.later at this ⊢
    rw [hp]; simp [this]
  unfold State.slipped
  simp only [ha.first, Option.isSome_none, Bool.false_eq_true, if_false, ha.decided, h3, h4, ha.latched, Bool.or_false, Bool.and_false,
    h.unspoilt, if_true, hb, ne_eq, not_true_eq_false, regsOf]

/-- An operation of a slot that slips always answers a next state. -/
theorem State.slipped_next (s : State) (act : Bool) (os : List Opd) (wr : List Reg) (body : State → State) :
    ∃ t, s.slipped act os wr body = .next t := by
  unfold State.slipped
  simp only
  (repeat' split) <;> exact ⟨_, rfl⟩

/-- The operation enters its queue, and nothing else changes. -/
theorem State.enqueue_cur (s : State) (rd wr : List Reg) (mwait : Bool) :
    (s.enqueue rd wr mwait).cur =
      { wr.foldl (fun k r => k.pendOn r (.slip s.issue.slot) s.issue.pre.bundle) s.cur with
        queue := s.cur.queue ++ [⟨s.issue.slot, s.issue.pre.bundle, mwait, s.issue.guard ++ rd, wr, s.issue.need, none⟩] } := by
  simp [State.enqueue]

/-- An anchored operation that changes its bank's context only. -/
theorem runs_of_anchored (i : Instr) (s : State) (os : List Opd) (wr : List Reg) (g : Ctx → Ctx)
    (he : exec i s = s.anchored os wr fun t => t.modCur g) (h : Ready s os wr) : Runs i s os g := by
  refine ⟨(s.latchAll os).modCur g, ?_, by simp, (Elsewhere.latchAll s os).trans (Elsewhere.modCur _ _)⟩
  rw [he, State.anchored_ready s os wr _ h]

/-- A slipping operation that changes its bank's context only. -/
theorem runsSlip_of_slipped (i : Instr) (s : State) (os : List Opd) (wr : List Reg) (g : Ctx → Ctx)
    (he : exec i s = s.slipped true os wr fun t => t.modCur g) (h : ReadySlip s os wr) : RunsSlip i s os wr g := by
  by_cases hl : s.issue.late.isSome = true
  · refine ⟨(s.latchAll os).modCur g, ?_, (Elsewhere.latchAll s os).trans (Elsewhere.modCur _ g), by simp [hl]⟩
    rw [he, State.slipped_late s os wr _ h hl]
  · have ha : AtHand s os wr := h.at_.resolve_left hl
    refine ⟨((s.latchAll os).modCur g).enqueue (regsOf os) wr, ?_, ?_, ?_⟩
    · rw [he, State.slipped_ready s os wr _ h ha] <;> simp [ha.commit, ha.plain]
    · exact ((Elsewhere.latchAll s os).trans (Elsewhere.modCur _ g)).trans (Elsewhere.modCur _ _)
    · rw [State.enqueue_cur]
      simp [Ctx.queued, hl]

end Sys2Proof.Machine
end

