-- ==== Sys2Proof/Laws/Lanes.lean ====
section
/-! SUPPORT. Lanes of vector registers: what packing writes and what unpacking reads, and the keep rule. -/
namespace Sys2Proof.Machine

/-- The packed number before it is cut to the body. -/
theorem packed_lane (w : Nat) (es : List Nat) (i : Nat) :
    es.foldr (fun e acc => e % 2 ^ w + acc * 2 ^ w) 0 / 2 ^ (w * i) % 2 ^ w = es.getD i 0 % 2 ^ w := by
  induction es generalizing i with
  | nil => simp
  | cons e es ih =>
    have hp : 0 < 2 ^ w := Nat.two_pow_pos w
    cases i with
    | zero => simp
    | succ i =>
      simp only [List.foldr_cons, List.getD_cons_succ]
      rw [← ih i, Nat.mul_succ, Nat.add_comm (w * i), Nat.pow_add, ← Nat.div_div_eq_div_mul]
      congr 2
      rw [Nat.add_mul_div_right _ _ hp, Nat.div_eq_of_lt (Nat.mod_lt _ hp), Nat.zero_add]

/-- A field of a number cut to N bits, within those bits. -/
theorem field_of_cut (n N a w : Nat) (h : a + w ≤ N) : n % 2 ^ N / 2 ^ a % 2 ^ w = n / 2 ^ a % 2 ^ w := by
  obtain ⟨k, rfl⟩ := Nat.exists_eq_add_of_le h
  rw [Nat.add_assoc, Nat.pow_add 2 a, Nat.mod_mul_right_div_self, Nat.pow_add, Nat.mod_mul_right_mod]

/-- Lane i of a packed body. -/
theorem packLanes_lane (w : Nat) (es : List Nat) (i : Nat) (h : w * (i + 1) ≤ 2048) :
    (packLanes w es).toNat / 2 ^ (w * i) % 2 ^ w = es.getD i 0 % 2 ^ w := by
  rw [← packed_lane, packLanes, BitVec.toNat_ofNat]
  exact field_of_cut _ _ _ _ h

@[simp] theorem lanesOf_length (w : Nat) (body : BitVec 2048) : (lanesOf w body).length = 2048 / w := by simp [lanesOf]

/-- Lane i as unpacking reads it. -/
theorem lanesOf_getD (w : Nat) (body : BitVec 2048) (i : Nat) (h : i < 2048 / w) :
    (lanesOf w body).getD i 0 = body.toNat / 2 ^ (w * i) % 2 ^ w := by
  simp [lanesOf, List.getD, h]

/-- A lane of every format stands inside the body. -/
theorem Fmt.lane_inside (g : Fmt) (i : Nat) (h : i < g.lanes) : g.width * (i + 1) ≤ 2048 := by
  unfold Fmt.lanes at h
  calc g.width * (i + 1) ≤ g.width * (2048 / g.width) := Nat.mul_le_mul_left _ h
    _ ≤ 2048 := Nat.mul_div_le _ _

@[simp] theorem VReg.merge_tag (old : VReg) (g : Fmt) (cond : Word) (new : List Nat) : (old.merge g cond new).tag = g := rfl
@[simp] theorem VReg.merge_side (old : VReg) (g : Fmt) (cond : Word) (new : List Nat) : (old.merge g cond new).side = 0 := rfl

/-- The keep rule, lane by lane (R183). -/
theorem VReg.merge_lane (old : VReg) (g : Fmt) (cond : Word) (new : List Nat) (i : Nat) (h : i < g.lanes) :
    (old.merge g cond new).body.toNat / 2 ^ (g.width * i) % 2 ^ g.width =
      if laneOn cond g.lanes i then g.clean (new.getD i 0) % 2 ^ g.width
      else if old.tag = g then old.body.toNat / 2 ^ (g.width * i) % 2 ^ g.width else 0 := by
  unfold VReg.merge
  rw [packLanes_lane _ _ _ (Fmt.lane_inside g i h)]
  have hl : ∀ f : Nat → Nat, ((List.range g.lanes).map f).getD i 0 = f i := by
    intro f; simp [List.getD, h]
  rw [hl]
  split
  · rfl
  · split
    · rw [VReg.elems, lanesOf_getD _ _ _ h, Nat.mod_mod]
    · simp

end Sys2Proof.Machine
end

