-- ==== Sys2Proof/Laws/Memory.lean ====
section
/-! SUPPORT. Memory keeps its canonical form under every operation that changes it, and what a write of bytes leaves alone. -/
namespace Sys2Proof.Machine

/-! Writes of bytes -/

/-- A strike breaks load-blocks and changes nothing else of a bank. -/
theorem Core.strike_rest (key n : Nat) (k : Core) (b : Nat) :
    { (k.strike key n).bank b with blocks := [] } = { k.bank b with blocks := [] } := by
  unfold Core.strike Core.bank; split <;> rfl

/-- What a write of bytes leaves of the package. -/
theorem State.putBytes_package (s : State) (w key : Nat) (data : List Byte) (bad : Bool) :
    { s.putBytes w key data bad with mem := [], bad := [], origin := [], cores := [], clusters := [] } =
      { s with mem := [], bad := [], origin := [], cores := [], clusters := [] } := by
  unfold State.putBytes
  split
  · rfl
  · unfold State.soilPinned; split <;> rfl

@[simp] theorem State.putBytes_issue (s : State) (w key : Nat) (data : List Byte) (bad : Bool) :
    (s.putBytes w key data bad).issue = s.issue := by
  have := congrArg State.issue (State.putBytes_package s w key data bad); exact this

@[simp] theorem State.putBytes_fabric (s : State) (w key : Nat) (data : List Byte) (bad : Bool) :
    (s.putBytes w key data bad).fabric = s.fabric := by
  have := congrArg State.fabric (State.putBytes_package s w key data bad); exact this

@[simp] theorem State.putBytes_jobs (s : State) (w key : Nat) (data : List Byte) (bad : Bool) :
    (s.putBytes w key data bad).jobs = s.jobs := by
  have := congrArg State.jobs (State.putBytes_package s w key data bad); exact this

@[simp] theorem State.putBytes_arg (s : State) (w key : Nat) (data : List Byte) (bad : Bool) :
    (s.putBytes w key data bad).arg = s.arg := by
  have := congrArg State.arg (State.putBytes_package s w key data bad); exact this

@[simp] theorem State.putBytes_sidereal (s : State) (w key : Nat) (data : List Byte) (bad : Bool) :
    (s.putBytes w key data bad).sidereal = s.sidereal := by
  have := congrArg State.sidereal (State.putBytes_package s w key data bad); exact this

/-- Each byte after a write of bytes: the written one inside the run, the old one outside; an offline LDM ignores
the write (R14). -/
theorem State.get_putBytes (s : State) (w key : Nat) (data : List Byte) (bad : Bool) (a : Nat) :
    Sparse.get 0 (s.putBytes w key data bad).mem a =
      if s.deadLdm key = false ∧ key ≤ a ∧ a < key + data.length then data.getD (a - key) 0 else Sparse.get 0 s.mem a := by
  unfold State.putBytes
  split
  · rename_i h; simp [h]
  · rename_i h
    have hm : ∀ t : State, (t.soilPinned key data.length).mem = t.mem := by
      intro t; unfold State.soilPinned; split <;> rfl
    rw [hm]
    show Sparse.get 0 (Sparse.splice 0 s.mem key data) a = _
    rw [Sparse.get_splice]
    simp [h]

/-! Canonical memory -/

/-- Memory that has not changed is as canonical as it was. -/
theorem State.MemOk.of_eq {s t : State} (h : s.MemOk) (hm : t.mem = s.mem) (h0 : t.issue.mem0 = s.issue.mem0) : t.MemOk :=
  ⟨by rw [hm]; exact h.mem, by rw [h0]; exact h.mem0⟩

/-- A fold of operations that keep the form keeps it. -/
theorem State.MemOk.foldl {α : Type} (f : State → α → State) (hf : ∀ s a, s.MemOk → (f s a).MemOk) :
    ∀ (as : List α) (s : State), s.MemOk → (as.foldl f s).MemOk := by
  intro as
  induction as with
  | nil => intro s h; exact h
  | cons a as ih => intro s h; exact ih _ (hf s a h)

theorem State.MemOk.reset : State.reset.MemOk := ⟨rfl, rfl⟩

theorem State.MemOk.modCore {s : State} (h : s.MemOk) (c : Nat) (f : Core → Core) : (s.modCore c f).MemOk := ⟨h.mem, h.mem0⟩
theorem State.MemOk.setCtx {s : State} (h : s.MemOk) (c b : Nat) (k : Ctx) : (s.setCtx c b k).MemOk := ⟨h.mem, h.mem0⟩
theorem State.MemOk.modCtx {s : State} (h : s.MemOk) (c b : Nat) (f : Ctx → Ctx) : (s.modCtx c b f).MemOk := ⟨h.mem, h.mem0⟩
theorem State.MemOk.modCur {s : State} (h : s.MemOk) (f : Ctx → Ctx) : (s.modCur f).MemOk := ⟨h.mem, h.mem0⟩
theorem State.MemOk.modCluster {s : State} (h : s.MemOk) (d : Nat) (f : Cluster → Cluster) : (s.modCluster d f).MemOk :=
  ⟨h.mem, h.mem0⟩
theorem State.MemOk.modJob {s : State} (h : s.MemOk) (j : Nat) (f : Job → Job) : (s.modJob j f).MemOk := ⟨h.mem, h.mem0⟩
theorem State.MemOk.modRegion {s : State} (h : s.MemOk) (c n : Nat) (f : Region → Region) : (s.modRegion c n f).MemOk :=
  ⟨h.mem, h.mem0⟩
theorem State.MemOk.useFree {s : State} (h : s.MemOk) : s.useFree.2.MemOk := ⟨h.mem, h.mem0⟩
theorem State.MemOk.report {s : State} (h : s.MemOk) (r : FaultRec) : (s.report r).MemOk := ⟨h.mem, h.mem0⟩
theorem State.MemOk.latchOne {s : State} (h : s.MemOk) (o : Opd) : (s.latchOne o).MemOk := by
  unfold State.latchOne; split
  · exact h.modCur _
  · split
    · exact h.modCur _
    · exact h
theorem State.MemOk.latchAll {s : State} (h : s.MemOk) (os : List Opd) : (s.latchAll os).MemOk :=
  State.MemOk.foldl _ (fun _ o h => State.MemOk.latchOne h o) os s h
theorem State.MemOk.strike {s : State} (h : s.MemOk) (w key n : Nat) : (s.strike w key n).MemOk := ⟨h.mem, h.mem0⟩
theorem State.MemOk.soilPinned {s : State} (h : s.MemOk) (key n : Nat) : (s.soilPinned key n).MemOk := by
  unfold State.soilPinned; split
  · exact h
  · exact h.modCluster _ _

/-- Memory replaced by a canonical one. -/
theorem State.MemOk.withMem {s : State} (h : s.MemOk) (m : List Host.Cell) (b : Sparse Bool) (o : Sparse Nat) (hm : Memory.wf m = true) :
    ({ s with mem := m, bad := b, origin := o } : State).MemOk := ⟨hm, h.mem0⟩

/-- Bytes copied, with their marks and writers. -/
theorem State.MemOk.moveBytes {s : State} (h : s.MemOk) (src dst n : Nat) : (s.moveBytes src dst n).MemOk :=
  ⟨Sparse.wf_copyRun 0 _ _ _ _ h.mem, h.mem0⟩

theorem State.MemOk.moveCode {s : State} (h : s.MemOk) (f : Sparse Byte → Sparse Byte) : (s.moveCode f).MemOk := ⟨h.mem, h.mem0⟩

/-- A write of bytes. -/
theorem State.MemOk.putBytes {s : State} (h : s.MemOk) (w key : Nat) (data : List Byte) (bad : Bool := false) :
    (s.putBytes w key data bad).MemOk := by
  unfold State.putBytes
  split
  · exact h
  · exact State.MemOk.soilPinned (State.MemOk.strike (h.withMem _ _ _ (Sparse.wf_splice 0 _ _ _ h.mem)) _ _ _) _ _

theorem State.MemOk.putParts {s : State} (h : s.MemOk) (w : Nat) (ps : List (Nat × List Byte)) (bad : Bool := false) :
    (s.putParts w ps bad).MemOk :=
  State.MemOk.foldl _ (fun _ p h => State.MemOk.putBytes h w p.1 p.2 bad) ps s h

theorem State.MemOk.putNum {s : State} (h : s.MemOk) (w key n v : Nat) : (s.putNum w key n v).MemOk := h.putBytes _ _ _

/-- The committed stores of a bank perform. -/
theorem State.MemOk.flush {s : State} (h : s.MemOk) (c b : Nat) : (s.flush c b).MemOk := by
  unfold State.flush
  exact (State.MemOk.foldl _ (fun _ st h => State.MemOk.putParts h c st.parts st.bad) _ s h).modCtx _ _ _

/-- A task that no longer waits in QUIET lowers QW (R357). -/
theorem State.MemOk.dropQw {s : State} (h : s.MemOk) (c b : Nat) : (s.dropQw c b).MemOk := by
  unfold State.dropQw
  simp only
  split
  · exact ⟨h.mem, h.mem0⟩
  · exact h

theorem State.MemOk.startKill {s : State} (h : s.MemOk) (j : Nat) : (s.startKill j).MemOk := by
  unfold State.startKill
  split
  · exact h
  · have hf : ∀ (t : State) (c : Nat), t.MemOk →
        (let t := if (t.ctx c 0).job = j then t.flush c 0 else t
         if (t.ctx c 1).job = j then t.flush c 1 else t).MemOk := by
      intro t c ht
      have h1 : (if (t.ctx c 0).job = j then t.flush c 0 else t).MemOk := by
        split
        · exact ht.flush _ _
        · exact ht
      generalize (if (t.ctx c 0).job = j then t.flush c 0 else t) = u at h1
      show (if (u.ctx c 1).job = j then u.flush c 1 else u).MemOk
      split
      · exact State.MemOk.flush h1 _ _
      · exact h1
    have hq := State.MemOk.foldl (fun s (p : Nat × Nat) => s.dropQw p.1 p.2) (fun _ p h => State.MemOk.dropQw h p.1 p.2) (s.banksOf j) s h
    generalize (s.banksOf j).foldl (fun s p => s.dropQw p.1 p.2) s = u at hq
    have h2 := State.MemOk.foldl _ hf ((List.range 256).filter fun c => !(u.core c).b0.stores.isEmpty || !(u.core c).b1.stores.isEmpty) u hq
    exact ⟨h2.mem, h2.mem0⟩

/-- Taking a trap writes its frame (R387). -/
theorem State.MemOk.takeTrap {s : State} (h : s.MemOk) (c b : Nat) (i : TrapInfo) : (s.takeTrap c b i).MemOk := by
  unfold State.takeTrap
  simp only
  split
  · exact State.MemOk.startKill (State.MemOk.report h _) _
  · have hw : (s.withdraw c b).MemOk := h.modCluster _ _
    have hd := State.MemOk.dropQw hw c b
    exact ⟨Sparse.wf_splice 0 _ _ _ hd.mem, hd.mem0⟩

/-- A bundle that commits nothing leaves memory as it stood before it. -/
theorem State.MemOk.undo {s : State} (h : s.MemOk) : s.undo.MemOk := ⟨h.mem0, h.mem0⟩

theorem State.MemOk.raiseAs {s : State} (h : s.MemOk) (i : TrapInfo) (r : Option FaultRec) : (s.raiseAs i r).MemOk := by
  have hu := h.undo
  have h1 : (s.undo.trapAs i r).MemOk := by
    unfold State.trapAs
    simp only
    apply State.MemOk.takeTrap
    split
    · split
      · exact hu
      · exact hu.report _
    · exact hu
  unfold State.raiseAs
  exact ⟨h1.mem, h.mem0⟩

theorem State.MemOk.raise {s : State} (h : s.MemOk) (cause : Nat) (addr : Word) (detail : BitVec 32 := 0) (bte : Word := 0) :
    (s.raise cause addr detail bte).MemOk := h.raiseAs _ _

theorem State.MemOk.raiseLate {s : State} (h : s.MemOk) : s.raiseLate.MemOk := h.raiseAs _ _

theorem State.MemOk.holdFor {s : State} (h : s.MemOk) (w : Option Await) : (s.holdFor w).MemOk := ⟨h.mem0, h.mem0⟩

theorem State.MemOk.parkFor {s : State} (h : s.MemOk) (w : Await) : (s.parkFor w).MemOk := ⟨h.mem0, h.mem0⟩

theorem State.MemOk.raiseFault {s : State} (h : s.MemOk) (cause access : Nat) (va detail : Word) (bte : Word := 0) :
    (s.raiseFault cause access va detail bte).MemOk := by
  unfold State.raiseFault
  simp only
  split
  · have h1 : ∀ r, (s.undo.absentAs r).MemOk := by
      intro r
      unfold State.absentAs
      simp only
      split
      · exact h.undo.takeTrap _ _ _
      · exact (h.undo.report _).modCtx _ _ _
    exact ⟨(h1 _).mem, h.mem0⟩
  · exact h.raiseAs _ _

/-! Translation (R235 to R252) -/

theorem State.MemOk.markUsed {s : State} (h : s.MemOk) (l : Leaf) (w : Bool) : (s.markUsed l w).MemOk := by
  unfold State.markUsed
  simp only
  generalize (if w then (0x180 : Word) else 0x80) = m
  split
  · exact h
  · exact ⟨Sparse.wf_splice 0 _ _ _ h.mem, h.mem0⟩

theorem State.MemOk.cacheLeaf {s : State} (h : s.MemOk) (g : Agent) (l : Leaf) : (s.cacheLeaf g l).MemOk := by
  unfold State.cacheLeaf
  split
  · exact h
  · exact ⟨h.mem, h.mem0⟩

theorem State.MemOk.propose {s : State} (h : s.MemOk) (d frame : Nat) : (s.propose d frame).MemOk := by
  unfold State.propose
  simp only
  split
  · exact h.modCluster _ _
  · exact State.MemOk.modCluster (State.MemOk.putNum (State.MemOk.putNum h _ _ _ _) _ _ _ _) _ _

theorem State.MemOk.hptCountUp {s : State} (h : s.MemOk) (d frame : Nat) (p : Bool) : (s.hptCountUp d frame p).MemOk := by
  unfold State.hptCountUp
  simp only
  split
  · split
    · exact State.MemOk.modCluster (State.MemOk.modCluster h _ _) _ _
    · exact State.MemOk.modCluster (State.MemOk.propose (State.MemOk.modCluster h _ _) _ _) _ _
  · exact h.modCluster _ _

theorem State.MemOk.track {s : State} (h : s.MemOk) (g : Agent) (q : XReq) (l : Leaf) (va : Word) (len : Nat) :
    (s.track g q l va len).MemOk := by
  unfold State.track
  simp only
  split
  · have hr : ∀ (n : Nat) (t : State), t.MemOk →
        (n.repeat (fun t => t.hptCountUp (pteHidx l.entry) (l.pa va / 16384) (pteP l.entry)) t).MemOk := by
      intro n
      induction n with
      | zero => intro t ht; exact ht
      | succ n ih => intro t ht; exact State.MemOk.hptCountUp (ih t ht) _ _ _
    exact hr _ _ h.useFree
  · exact h

theorem State.MemOk.chooseStale {s : State} (h : s.MemOk) (ls : List Leaf) : (s.chooseStale ls).2.MemOk := by
  induction ls generalizing s with
  | nil => exact h
  | cons l ls ih =>
    unfold State.chooseStale
    split
    · exact h.useFree
    · exact ih h.useFree

/-- A map changed key by key, each value found in the map so far, keeps its form. -/
theorem Memory.wf_foldl_set {α : Type} (f : α → Nat) (g : List Host.Cell → α → Byte) (as : List α) (m : List Host.Cell)
    (h : Memory.wf m = true) : Memory.wf (as.foldl (fun m e => Sparse.set 0 m (f e) (g m e)) m) = true := by
  induction as generalizing m with
  | nil => exact h
  | cons a as ih => exact ih _ (Sparse.wf_set 0 m _ _ h)

theorem State.MemOk.unpin {s : State} (h : s.MemOk) (d : Nat) (e : TlbEntry) : (s.unpin d e).MemOk := by
  unfold State.unpin
  simp only
  exact ⟨Sparse.wf_filter 0 _ _ (Memory.wf_foldl_set (fun e : Nat × Bool => e.1) (fun m e => Sparse.get 0 m (pinKey d e.1)) _ _ h.mem), h.mem0⟩

theorem State.MemOk.trimPinned {s : State} (h : s.MemOk) (d : Nat) : (s.trimPinned d).MemOk :=
  State.MemOk.foldl _ (fun _ e h => State.MemOk.unpin h d e) _ s h

theorem State.MemOk.pinned {s : State} (h : s.MemOk) (d : Nat) (e : TlbEntry) (pa : Nat) : (s.pinned d e pa).2.MemOk := by
  unfold State.pinned
  simp only
  split
  · exact h
  · split
    · exact h
    · split
      · exact ⟨(h.moveBytes _ _ _).mem, h.mem0⟩
      · exact ⟨h.mem, h.mem0⟩

theorem State.MemOk.through {s : State} (h : s.MemOk) (g : Agent) (q : XReq) (l : Leaf) (va : Word) (len : Nat) :
    (s.through g q l va len).2.MemOk := by
  unfold State.through
  simp only
  split
  · exact (((h.markUsed l q.write).cacheLeaf g l).track g q l va len).pinned _ _ _
  · exact ((h.markUsed l q.write).cacheLeaf g l).track g q l va len

theorem State.MemOk.leafDetail {s : State} (h : s.MemOk) (g : Agent) (l : Leaf) (va : Word) : (s.leafDetail g l va).2.MemOk := by
  unfold State.leafDetail
  simp only
  split
  · exact h
  · split
    · exact h.useFree
    · exact h

/-- Translation sets A and D bits and may fetch a page into a slice (R236, R252). -/
theorem State.MemOk.translate {s : State} (h : s.MemOk) (g : Agent) (q : XReq) (va : Word) (len : Nat) : (s.translate g q va len).2.MemOk := by
  unfold State.translate
  have h1 := h.chooseStale (s.stale g va)
  simp only
  have take : ∀ l : Leaf, (if leafFault g q l va ≠ 0 then
      ((.error ⟨leafFault g q l va, va, ((s.chooseStale (s.stale g va)).2.leafDetail g l va).1, none⟩ : Except XFault Nat),
        ((s.chooseStale (s.stale g va)).2.leafDetail g l va).2.cacheLeaf g l)
      else (.ok ((s.chooseStale (s.stale g va)).2.through g q l va len).1, ((s.chooseStale (s.stale g va)).2.through g q l va len).2)).2.MemOk := by
    intro l
    split
    · exact (h1.leafDetail g l va).cacheLeaf g l
    · exact h1.through g q l va len
  split
  · exact take _
  · split
    · exact take _
    · exact h1

theorem State.MemOk.fillSector {s : State} (h : s.MemOk) (g : Agent) (n : Nat) (r : Region) (sec : Nat) :
    (s.fillSector g n r sec).2.MemOk := by
  unfold State.fillSector
  simp only
  generalize ha : s.translate g { homed := true } _ _ = a
  have h1 : a.2.MemOk := by rw [← ha]; exact h.translate _ _ _ _
  split
  · exact h1
  · rename_i key0 s1
    have h2 : (if r.zfill then (s1.putBytes g.core (ldmKey g.core (r.ldmbase * 16384 + 1024 * sec)) (List.replicate 1024 0)).moveCode
          fun m => Sparse.splice 0 m (ldmKey g.core (r.ldmbase * 16384 + 1024 * sec)) (List.replicate 1024 0)
        else (s1.moveBytes key0 (ldmKey g.core (r.ldmbase * 16384 + 1024 * sec)) 1024).moveCode fun m =>
          Sparse.copyRun m key0 (ldmKey g.core (r.ldmbase * 16384 + 1024 * sec)) 1024).MemOk := by
      split
      · exact (State.MemOk.putBytes h1 _ _ _).moveCode _
      · exact (State.MemOk.moveBytes h1 _ _ _).moveCode _
    exact ⟨h2.mem, h2.mem0⟩

theorem State.MemOk.touchSectors {s : State} (h : s.MemOk) (g : Agent) (n : Nat) (w : Bool) (secs : List Nat) :
    (s.touchSectors g n w secs).2.MemOk := by
  induction secs generalizing s with
  | nil => exact h
  | cons sec secs ih =>
    have next : ∀ t : State, t.MemOk → ((if w then t.modRegion g.core n fun r => { r with dirty := r.dirty.set false sec true }
        else t).touchSectors g n w secs).2.MemOk := by
      intro t ht
      apply ih
      split
      · exact ht.modRegion _ _ _
      · exact ht
    unfold State.touchSectors
    simp only
    split
    · exact next s h
    · generalize ha : s.fillSector g n _ sec = a
      have h1 : a.2.MemOk := by rw [← ha]; exact h.fillSector _ _ _ _
      split
      · exact h1
      · exact next _ h1

theorem State.MemOk.inRegion {s : State} (h : s.MemOk) (g : Agent) (q : XReq) (va : Word) (len n : Nat) (r : Region) :
    (s.inRegion g q va len n r).2.MemOk := by
  unfold State.inRegion
  simp only
  generalize ha : s.touchSectors g n q.write _ = a
  have h1 : a.2.MemOk := by rw [← ha]; exact h.touchSectors _ _ _ _
  split <;> exact h1

theorem State.MemOk.place {s : State} (h : s.MemOk) (g : Agent) (q : XReq) (va : Word) (len : Nat) : (s.place g q va len).2.MemOk := by
  unfold State.place
  simp only
  split
  · (repeat' split) <;> exact h
  · (repeat' split) <;> exact h
  · (repeat' split) <;> exact h
  · split
    · exact h
    · split
      · split
        · exact h
        · split
          · generalize ha : s.translate g q va len = a
            have h1 : a.2.MemOk := by rw [← ha]; exact h.translate _ _ _ _
            split
            · exact h1
            · exact State.MemOk.inRegion h1 _ _ _ _ _ _
          · exact h.inRegion _ _ _ _ _ _
      · exact h.translate _ _ _ _

theorem State.MemOk.resolveGo {s : State} (h : s.MemOk) (g : Agent) (q : XReq) (ps : List (Word × Nat)) (ks : List (Nat × Nat))
    (f : Option XFault) : (s.resolveGo g q ps ks f).2.MemOk := by
  induction ps generalizing s ks f with
  | nil => exact h
  | cons p ps ih =>
    obtain ⟨va, n⟩ := p
    unfold State.resolveGo
    generalize ha : s.place g q va n = a
    have h1 : a.2.MemOk := by rw [← ha]; exact h.place _ _ _ _
    split
    · exact ih h1 _ _
    · exact ih h1 _ _

/-- An access's bytes found, or its fault (R242). -/
theorem State.MemOk.resolve {s : State} (h : s.MemOk) (g : Agent) (q : XReq) (ps : List (Word × Nat)) :
    (s.resolve g q ps).2.MemOk := by
  unfold State.resolve
  generalize ha : s.resolveGo g q ps [] none = a
  have h1 : a.2.MemOk := by rw [← ha]; exact h.resolveGo _ _ _ _ _
  split <;> exact h1

/-- The same for an access of the running bundle, which is found in memory before the bundle too (R108). -/
theorem State.MemOk.resolveIn {s : State} (h : s.MemOk) (q : XReq) (ps : List (Word × Nat)) : (s.resolveIn q ps).2.MemOk := by
  unfold State.resolveIn
  simp only
  refine ⟨(h.resolve _ _ _).mem, ?_⟩
  have h0 : ({ s with mem := s.issue.mem0, bad := s.issue.bad0 } : State).MemOk := ⟨h.mem0, h.mem0⟩
  exact (h0.resolve _ _ _).mem

theorem State.MemOk.writeBack {s : State} (h : s.MemOk) (c n sec : Nat) (by_ : FaultRec → FaultRec := id) :
    (s.writeBack c n sec by_).MemOk := by
  unfold State.writeBack
  simp only
  split
  · exact h
  · generalize ha : s.translate _ _ _ _ = a
    have h1 : a.2.MemOk := by rw [← ha]; exact h.translate _ _ _ _
    split
    · exact State.MemOk.modRegion (State.MemOk.report h1 _) _ _ _
    · exact State.MemOk.modRegion (State.MemOk.soilPinned (State.MemOk.strike ((h1.moveBytes _ _ _).modCore _ _) _ _ _) _ _) _ _ _

theorem State.MemOk.writeBackAll {s : State} (h : s.MemOk) (c n : Nat) : (s.writeBackAll c n).MemOk :=
  State.MemOk.foldl _ (fun _ e h => State.MemOk.writeBack h c n e.1) _ s h

end Sys2Proof.Machine
end

