-- ==== Sys2Proof/Tests/Slice0.lean ====
section
/-! SUPPORT. Tests of the model: ill-formed terms refused, words written out from the tables, worked examples of the spec, and for every statement with hypotheses states and operands that meet them. -/
namespace Sys2Proof.Tests
open Sys2Proof Sys2Proof.Machine
set_option Elab.async false

/-! Bodies with every field zero, for the tests to fill in. -/

def sr0 : SR := ⟨0, 0, 0, 0, 0, 0, 0, 0, 0, 0, 0⟩
def si0 : SI := ⟨0, 0, 0, 0⟩
def mem0 : MEM := ⟨0, 0, 0, 0, 0, 0, 0⟩
def mx0 : MX := ⟨0, 0, 0, 0, 0, 0, 0, 0, 0, 0, 0, 0, 0, 0⟩

/-! Ill-formed terms: one for each check of decode. -/

theorem test_wf_field_not_named : (Instr.add { sr0 with c := 1 }).wf = false := by decide
theorem test_wf_hold_code_with_register : (Instr.add { sr0 with a := 1, ha := 2 }).wf = false := by decide
theorem test_wf_hold_code_empty_field : (Instr.add { sr0 with ha := 2 }).wf = true := by decide
theorem test_wf_format_code_unassigned : (Instr.vadd .v0 { sr0 with fmt := 0x3E }).wf = false := by decide
theorem test_wf_rounding_mode : (Instr.fadd { sr0 with rnd := 5 }).wf = false ∧ (Instr.vcvt .v0 { sr0 with rnd := 5, fmt := 1 }).wf = true := by
  decide
theorem test_wf_function_bits : (Instr.add { sr0 with fn9 := 1 }).wf = false := by decide
theorem test_wf_si_immediate : (Instr.shli { si0 with imm := 64 }).wf = false := by decide
theorem test_wf_si_function_bits : (Instr.addi { si0 with fn5 := 1 }).wf = false := by decide
theorem test_wf_bitfield_sum : (Instr.bfx { si0 with imm := 63 + 64 * 1 }).wf = false ∧ (Instr.bfx { si0 with imm := 63 }).wf = true := by decide
theorem test_wf_widf_k : (Instr.widf { si0 with imm := 7 }).wf = false ∧ (Instr.widf { si0 with imm := 0 }).wf = false := by decide
theorem test_wf_fcvt_format : (Instr.fcvti { sr0 with fmt := 1 }).wf = false := by decide
theorem test_wf_selectors : (Instr.mfs { si0 with imm := 0x0B }).wf = false ∧ (Instr.mts { si0 with imm := 0x09 }).wf = false := by decide
theorem test_wf_repeat : (Instr.rep { si0 with imm := 5 }).wf = false ∧ (Instr.rep { si0 with imm := 65536, d := 3, a := 3 }).wf = false := by
  decide
theorem test_wf_loop_length : (Instr.loop si0).wf = false ∧ (Instr.loopi { si0 with imm := 0x10000 }).wf = false := by decide
theorem test_wf_lbrk_levels : (Instr.lbrk sr0).wf = false ∧ (Instr.lbrk { sr0 with fn9 := 7 }).wf = false := by decide
theorem test_wf_jadd_count : (Instr.jadd { si0 with imm := 0x80000000 }).wf = false := by decide
theorem test_wf_qinit_bounds : (Instr.qinit { si0 with imm := 0x10 * 0x100 + 0x11 * 0x10000 }).wf = false := by decide
theorem test_wf_qadv_count : (Instr.qadvh si0).wf = false ∧ (Instr.qadvt { si0 with imm := 33 * 0x10000 }).wf = false := by decide
theorem test_wf_bwany_count : (Instr.bwany sr0).wf = false ∧ (Instr.bwany { sr0 with fn9 := 17 }).wf = false := by decide
theorem test_wf_scope : (Instr.fence { sr0 with fn9 := 5 }).wf = false := by decide
theorem test_wf_evt_tr : (Instr.evtTr si0).wf = false := by decide
theorem test_wf_order : (Instr.ldd { mem0 with ord := 2 }).wf = false ∧ (Instr.vld { mem0 with ord := 4, idx := 1 }).wf = false := by decide
theorem test_wf_relaxed_scope : (Instr.ldd { mem0 with scope := 1 }).wf = false := by decide
theorem test_wf_seqcst_system : (Instr.ldd { mem0 with ord := 4, scope := 4 }).wf = false := by decide
theorem test_wf_pair : (Instr.ldq { mem0 with d := 3 }).wf = false ∧ (Instr.ldq mem0).wf = false := by decide
theorem test_wf_width : (Instr.amadd { mem0 with scl := 4 }).wf = false := by decide
theorem test_wf_fmt6 : (Instr.vld { mem0 with idx := 0x3E }).wf = false := by decide
theorem test_wf_ring_tail : (Instr.tld { sr0 with fn9 := 1, fmt := 0x04, d := 33 }).wf = false := by decide
theorem test_wf_rows : (Instr.tld { sr0 with fn9 := 129, fmt := 0x04 }).wf = false := by decide
theorem test_wf_gather_format : (Instr.vgth { sr0 with fmt := 2 }).wf = false := by decide
theorem test_wf_mx_heights : (Instr.mma { mx0 with hr := 5 }).wf = false := by decide
theorem test_wf_mx_key_block : (Instr.mmaAbs { mx0 with kv := 3, kb := 5 }).wf = false := by decide
theorem test_wf_mx_kv : (Instr.mma { mx0 with kv := 1 }).wf = false := by decide
theorem test_wf_mx_hold_with_image : (Instr.mma { mx0 with bm := 1, hb := 1 }).wf = false := by decide
theorem test_wf_mx_displacement : (Instr.mma { mx0 with disp := 1 }).wf = false := by decide
theorem test_wf_mx_accumulator_in_a : (Instr.aadd { mx0 with a := 8 }).wf = false := by decide
theorem test_wf_afold_onto_itself : (Instr.afold { mx0 with za := 1 }).wf = false := by decide
theorem test_wf_lxld_needs_image : (Instr.lxld mx0).wf = false := by decide
theorem test_wf_even_registers : (Instr.vsortk { sr0 with d := 1 }).wf = false ∧ (Instr.vmrgk { sr0 with b := 1 }).wf = false := by decide
theorem test_wf_conversion_formats : (Instr.vcvt .v0 { sr0 with fmt := 0x0A }).wf = false ∧ (Instr.vqnt .v0 { sr0 with fmt := 1 }).wf = false ∧
    (Instr.vdqnt .v0 { sr0 with fmt := 0x0A }).wf = false := by decide
theorem test_wf_copy_mode : (Instr.cmode { si0 with imm := 8 }).wf = false := by decide
theorem test_wf_cdim_dimension : (Instr.cdim { sr0 with fn9 := 6 }).wf = false := by decide
theorem test_wf_ccan_all : (Instr.ccanAll sr0).wf = false := by decide
theorem test_wf_whdmd_up : (Instr.whdmdUp sr0).wf = false := by decide

/-! Words of each slot, bit by bit from the tables: OP in bits 63..57, N in 56, PRED in 55..49, then the body (R70). -/

theorem test_decode_addi : decodeSlot .s 0x060028A000000800 = .ok (⟨false, 0⟩, .addi ⟨5, 5, 64, 0⟩) := by decide
theorem test_decode_cmpltu_p70 : decodeSlot .s 0x5600308280000100 = .ok (⟨false, 0⟩, .cmpltu { sr0 with d := 6, a := 4, b := 5, fn9 := 0x100 }) := by
  decide
theorem test_decode_vadd : decodeSlot .v0 0x0206204180000000 = .ok (⟨false, 3⟩, .vadd .v0 { sr0 with d := 4, a := 2, b := 3 }) ∧
    decodeSlot .v1 0x0206204180000000 = .ok (⟨false, 3⟩, .vadd .v1 { sr0 with d := 4, a := 2, b := 3 }) := by decide
theorem test_decode_vsortk : decodeSlot .v0 0x6800404180000000 = .ok (⟨false, 0⟩, .vsortk { sr0 with d := 8, a := 2, b := 3 }) := by decide
theorem test_decode_mmam : decodeSlot .m 0x0400011603000000 = .ok (⟨false, 0⟩, .mmam { mx0 with b := 8, bm := 1, acc := 3, mrg := 1, za := 1 }) := by
  decide
theorem test_decode_arow : decodeSlot .m 0x1A00004000000080 = .ok (⟨false, 0⟩, .arow { mx0 with b := 2, disp := 128 }) := by decide
theorem test_decode_ldd : decodeSlot .l 0x0E0030E000000100 = .ok (⟨false, 0⟩, .ldd { mem0 with d := 6, base := 7, disp := 256 }) := by decide
theorem test_decode_amcas : decodeSlot .l 0x340028C3B6C00008 =
    .ok (⟨false, 0⟩, .amcas { mem0 with d := 5, base := 6, idx := 7, ord := 3, scope := 3, scl := 3, disp := 8 }) := by decide
theorem test_decode_std_release : decodeSlot .w 0x080028C046000000 = .ok (⟨false, 0⟩, .std { mem0 with d := 5, base := 6, ord := 4, scope := 3 }) := by
  decide
theorem test_decode_tstk : decodeSlot .w 0x1A00328AD0000001 = .ok (⟨false, 0⟩, .tstk { sr0 with d := 6, a := 20, b := 21, c := 40, fn9 := 1 }) := by
  decide
theorem test_decode_loopi : decodeSlot .y 0x0E00000000800060 = .ok (⟨false, 0⟩, .loopi { si0 with imm := 0x40003 }) := by decide
theorem test_decode_quiet : decodeSlot .y 0x5400000000000000 = .ok (⟨false, 0⟩, .quiet) := by decide
theorem test_decode_svc : decodeSlot .y 0x6200000000000420 = .ok (⟨false, 0⟩, .svc { si0 with imm := 33 }) := by decide
theorem test_decode_cdim : decodeSlot .c 0x0600014598000001 = .ok (⟨false, 0⟩, .cdim { sr0 with a := 10, b := 11, c := 12, fn9 := 1 }) := by decide
theorem test_decode_cmode : decodeSlot .c 0x0A00000000010220 = .ok (⟨false, 0⟩, .cmode { si0 with imm := 0x811 }) := by decide
theorem test_decode_whreq : decodeSlot .c 0x2000628A80000000 = .ok (⟨false, 0⟩, .whreq { sr0 with d := 12, a := 20, b := 21 }) := by decide
theorem test_decode_msend : decodeSlot .c 0x3000498686000000 = .ok (⟨false, 0⟩, .msend { sr0 with d := 9, a := 12, b := 13, c := 3 }) := by decide
theorem test_decode_refuses_by_name : decodeSlot .s 0x1400000000000000 = .error (.unassigned .s 0x0A) ∧
    decodeSlot .v1 0x6800404180000000 = .error .v0Only ∧ decodeSlot .s 1 = .error .nopBody ∧
    decodeSlot .y 0x5400000000000001 = .error .badField := by decide

/-! One bank of core 0 in a package after reset, about to run the operation of a slot.  The state is reached by no program;
it is small, and meets the hypotheses on one operation. -/

def runner (k : Ctx) (slot : Nat) : State :=
  { State.reset with
    cores := [(0, { Core.idle with b0 := k })]
    issue := { Issue.none with slot := slot, pre := k } }

/-- A running user bank with x registers. -/
def bankX (x : Sparse Word) : Ctx := { Ctx.idle with status := .running, x := x }

/-- What x[d] holds after one operation. -/
def afterX (i : Instr) (s : State) (d : Nat) : Option Word :=
  match exec i s with
  | .next t => some (t.cur.getX d)
  | _ => none

/-- The trap that one operation takes. -/
def afterTrap (i : Instr) (s : State) : Option (Nat × Word) :=
  match exec i s with
  | .next t => (match t.issue.verdict with
    | .trap j _ => some (j.cause, j.addr)
    | _ => none)
  | _ => none

/-! Worked examples of the spec. -/

/-- The table of R169. -/
def divBank : Ctx := bankX [(1, 7), (2, -2), (3, -7), (4, 2), (5, 0x8000000000000000), (6, -1), (7, 5)]

theorem test_div_table : afterX (.div { sr0 with d := 9, a := 1, b := 2 }) (runner divBank 1) 9 = some (-3) ∧
    afterX (.div { sr0 with d := 9, a := 3, b := 4 }) (runner divBank 1) 9 = some (-3) ∧
    afterX (.div { sr0 with d := 9, a := 5, b := 6 }) (runner divBank 1) 9 = some 0x8000000000000000 ∧
    afterX (.div { sr0 with d := 9, a := 7 }) (runner divBank 1) 9 = some (-1) := by decide +kernel
theorem test_divu_table : afterX (.divu { sr0 with d := 9, a := 3, b := 4 }) (runner divBank 1) 9 = some 0x7FFFFFFFFFFFFFFC ∧
    afterX (.divu { sr0 with d := 9, a := 1, b := 2 }) (runner divBank 1) 9 = some 0 := by decide +kernel
theorem test_rem_table : afterX (.rem { sr0 with d := 9, a := 1, b := 2 }) (runner divBank 1) 9 = some 1 ∧
    afterX (.rem { sr0 with d := 9, a := 3, b := 4 }) (runner divBank 1) 9 = some (-1) ∧
    afterX (.rem { sr0 with d := 9, a := 5, b := 6 }) (runner divBank 1) 9 = some 0 ∧
    afterX (.rem { sr0 with d := 9, a := 7 }) (runner divBank 1) 9 = some 5 := by decide +kernel

/-- The table of R173: WID 0x04B5 with widths 7, 2 and 3. -/
def widBank : Ctx := { bankX [] with wid := 0x04B5, widths := [7, 2, 3, 0, 0, 0] }

theorem test_widf_table : afterX (.widf { si0 with d := 10, imm := 1 }) (runner widBank 1) 10 = some 37 ∧
    afterX (.widf { si0 with d := 11, imm := 2 }) (runner widBank 1) 11 = some 2 ∧
    afterX (.widf { si0 with d := 12, imm := 3 }) (runner widBank 1) 12 = some 5 ∧
    afterX (.widf { si0 with d := 13, imm := 10 }) (runner widBank 1) 13 = some 150 := by decide +kernel

/-- R129 and R178: the first word of key 0x1234 and counter 1. -/
def rngBank : Ctx := { bankX [] with rbq := [genWord 0x1234 1] }

theorem test_rndq_word : afterX (.rndq { sr0 with d := 20 }) (runner rngBank 1) 20 = some 0x500AB3FF := by decide +kernel
theorem test_rndf_word : afterX (.rndf { sr0 with d := 20 }) (runner rngBank 1) 20 = some 0x3EA01566 := by decide +kernel

/-- R133: the RESA element of −3 × 5 folds to −15. -/
theorem test_resa_fold : resFold 0x00EEF0F1 = -15 := by decide +kernel

/-- The walk of R236's tables for the expert tile's address. -/
theorem test_walk_indexes : (bits (0x000000123456C000 : Word) 47 1, bits (0x000000123456C000 : Word) 36 11, bits (0x000000123456C000 : Word) 25 11,
    bits (0x000000123456C000 : Word) 14 11) = (0, 1, 282, 347) := by decide

/-- R121's block: 12.5 and −0.7 in E2M1·B32, scale byte 0x81. -/
def quantBank : Ctx :=
  { bankX [] with v := [(1, ⟨.fp32, 0x41480000 + 2 ^ 32 * 0xBF333333, 0⟩)] }

theorem test_vqnt_block : (match exec (.vqnt .v0 { sr0 with d := 2, a := 1, fmt := 0x0E }) (runner quantBank 2) with
    | .next t => ((t.cur.getV 2).tag, bits ((t.cur.getV 2).body.setWidth 64) 0 8, (t.cur.getV 2).side.toNat % 256)
    | _ => (.poison, 0, 0)) = (.e2m1b32, 0x85, 0x81) := by decide +kernel

/-! Single operations, by hand from their rules. -/

def fpBank : Ctx := { bankX [(1, 0x3FC00000), (2, 0x40100000)] with
  v := [(1, ⟨.fp32, 0x3FC00000, 0⟩), (2, ⟨.fp32, 0x40100000, 0⟩)] }

/-- 1.5 + 2.25 = 3.75. -/
theorem test_fadd : afterX (.fadd { sr0 with d := 3, a := 1, b := 2 }) (runner fpBank 1) 3 = some 0x40700000 := by decide +kernel
theorem test_vadd : (match exec (.vadd .v0 { sr0 with d := 3, a := 1, b := 2 }) (runner fpBank 2) with
    | .next t => (t.cur.getV 3).body.toNat
    | _ => 0) = 0x40700000 := by decide +kernel

/-- x0 as a destination keeps nothing. -/
theorem test_add_to_x0 : afterX (.add { sr0 with a := 1, b := 1 }) (runner (bankX [(1, 5)]) 1) 0 = some 0 := by decide +kernel
theorem test_add_wraps : afterX (.add { sr0 with d := 2, a := 1, b := 1 }) (runner (bankX [(1, 0x8000000000000001)]) 1) 2 = some 2 := by
  decide +kernel
theorem test_mulh_signed : afterX (.mulh { sr0 with d := 2, a := 1, b := 1 }) (runner (bankX [(1, -1)]) 1) 2 = some 0 ∧
    afterX (.mulhu { sr0 with d := 2, a := 1, b := 1 }) (runner (bankX [(1, -1)]) 1) 2 = some (-2) := by decide +kernel
theorem test_misaligned_acquire : afterTrap (.ldd { mem0 with d := 3, base := 1, ord := 1, scope := 1 }) (runner (bankX [(1, 0xFF000000000004)]) 5) =
    some (0x0E, 0xFF000000000004) := by decide +kernel
theorem test_svc : afterTrap (.svc { si0 with imm := 33 }) (runner (bankX []) 0) = some (0x14, 0) := by decide +kernel
theorem test_eret_in_user_mode : afterTrap .eret (runner (bankX []) 0) = some (0x0B, 0) := by decide +kernel

/-- A store through the window of the own LDM and its bytes, least significant first (R231). -/
theorem test_store_to_own_ldm : (match exec (.sth { mem0 with d := 3, base := 1 }) (runner (bankX [(1, 0x00FF000000000100), (3, 0xABCD)]) 6) with
    | .next t => t.mem
    | _ => []) = [(ldmKey 0 0x100, 0xCD), (ldmKey 0 0x101, 0xAB)] := by decide +kernel

/-- One step from reset with LI x5, 7 in slot S. -/
theorem test_step_runs_li : (match step (State.reset.withFetchWord 512 (2 ^ 64 * ((encode ⟨false, 0⟩ (.li { si0 with d := 5, imm := 7 })).getD 0).toNat)) with
    | .next t => (t.ctx 0 0).getX 5
    | _ => 0) = 7 := by decide +kernel

/-! Witnesses: states and operands that meet the hypotheses of the statements. -/

/-- Nothing is pending, queued or poisoned in the bank: every operation of an anchored slot is ready. -/
theorem runner_ready (k : Ctx) (slot : Nat) (os : List Opd) (wr : List Reg) (h : k.pend = []) (hq : k.queue = []) (hx : k.xbad = 0) (hp : k.pbad = 0) :
    Ready (runner k slot) os wr := by
  refine ⟨by simp [State.active, runner, Issue.none], ?_, ?_, ?_⟩
  · intro e he; simp [runner, h] at he
  · intro q he; simp [runner, hq] at he
  · intro r _; cases r <;> simp [Ctx.spoilt, runner, hx, hp]

theorem runner_cur (k : Ctx) (slot : Nat) : (runner k slot).cur = k := rfl

theorem runner_slips (k : Ctx) (slot : Nat) (os : List Opd) (wr : List Reg) (h : k.pend = []) (hq : k.queue = []) (hx : k.xbad = 0) (hp : k.pbad = 0) :
    ReadySlip (runner k slot) os wr := by
  refine ⟨.inr ⟨rfl, rfl, rfl, rfl, ?_, ?_⟩, ?_⟩
  · intro e he; simp [runner, h] at he
  · intro q he; rw [runner_cur] at he; simp [runner, hq] at he
  · intro r _; cases r <;> simp [Ctx.spoilt, runner, hx, hp]

/-- An operation that leaves its queue. -/
def leaver (k : Ctx) (slot : Nat) : State := { runner k slot with issue := { (runner k slot).issue with late := some 0 } }

theorem leaver_slips (k : Ctx) (slot : Nat) (os : List Opd) (wr : List Reg) (hx : k.xbad = 0) (hp : k.pbad = 0) :
    ReadySlip (leaver k slot) os wr := by
  refine ⟨.inl rfl, ?_⟩
  intro r _; cases r <;> simp [Ctx.spoilt, leaver, runner, hx, hp]

/-- Every field of every operation of slot S, in one bank. -/
theorem witness_ScalarArithmeticAndDivision (f : SR) (g : SI) : Ready (runner divBank 1) [opA .x f, opB .x f] [.x f.d.toNat] ∧
    Ready (runner divBank 1) [opA .x f] [.x f.d.toNat] ∧ Ready (runner divBank 1) [opReg .x g.a.toNat] [.x g.d.toNat] ∧
    Ready (runner divBank 1) [opA .x f, opB .x f, opPC f] [.x f.d.toNat] := by
  refine ⟨?_, ?_, ?_, ?_⟩ <;> exact runner_ready _ _ _ _ rfl rfl rfl rfl

/-- The bitfields at both ends of the register, and every K of WIDF that decode accepts. -/
theorem witness_ScalarLogicConstantsAndFields (f : SR) (g : SI) :
    (Ready (runner widBank 1) [opA .x f, opB .x f] [.x f.d.toNat] ∧ Ready (runner widBank 1) [] [.x g.d.toNat] ∧
      Ready (runner widBank 1) [opReg .x g.a.toNat] [.x g.d.toNat] ∧
      Ready (runner widBank 1) [opReg .x g.a.toNat, opReg .x g.d.toNat] [.x g.d.toNat]) ∧
    ((63 : BitVec 32).extractLsb' 0 6).toNat + ((63 : BitVec 32).extractLsb' 6 6).toNat + 1 ≤ 64 ∧
    ((4032 : BitVec 32).extractLsb' 0 6).toNat + ((4032 : BitVec 32).extractLsb' 6 6).toNat + 1 ≤ 64 ∧
    (runner widBank 1).issue.pre.widths.length = 6 ∧
    ((1 : BitVec 32).getLsbD 3 = false ∧ 1 ≤ ((1 : BitVec 32).extractLsb' 0 3).toNat) ∧ ((6 : BitVec 32).extractLsb' 0 3).toNat ≤ 6 ∧
    (8 : BitVec 32).getLsbD 3 = true ∧ ((8 : BitVec 32).extractLsb' 0 3).toNat = 0 := by
  refine ⟨⟨?_, ?_, ?_, ?_⟩, by decide, by decide, rfl, by decide, by decide, by decide, by decide⟩ <;> exact runner_ready _ _ _ _ rfl rfl rfl rfl

theorem witness_ComparesAndPredicateOperations (f : SR) (g : SI) : Ready (runner divBank 1) [opA .x f, opB .x f] [.p f.pd] ∧
    Ready (runner divBank 1) [opReg .x g.a.toNat] [.p g.pd] ∧ Ready (runner divBank 1) [opPA f, opPB f] [.p f.pd] ∧
    Ready (runner divBank 1) [opA .x f] [.p f.pd] ∧ Ready (runner divBank 1) [opPA f] [.x f.d.toNat] := by
  refine ⟨?_, ?_, ?_, ?_, ?_⟩ <;> exact runner_ready _ _ _ _ rfl rfl rfl rfl

/-- A queue with one word, and an empty one. -/
theorem witness_ScalarFloatAndRandomDraws (f : SR) : Ready (runner rngBank 1) [opA .x f, opB .x f, opC .x f] [.x f.d.toNat] ∧
    Ready (runner rngBank 1) [] [.x f.d.toNat] ∧ (runner rngBank 1).cur.rbq = [genWord 0x1234 1] ∧
    Ready (runner (bankX []) 1) [] [.x f.d.toNat] ∧ (runner (bankX []) 1).cur.rbq = [] := by
  refine ⟨?_, ?_, rfl, ?_, rfl⟩ <;> exact runner_ready _ _ _ _ rfl rfl rfl rfl

/-- The condition's bit 0 is clear. -/
def idler (k : Ctx) (slot : Nat) : State := { runner k slot with issue := { (runner k slot).issue with cond := 0 } }

/-- x1 and p1 are marked poisoned. -/
def marked : State := runner { divBank with xbad := 2, pbad := 2 } 1

theorem witness_HoldActionsWritesAndPoison (f : SR) (g : SI) : Skips (idler divBank 1) [opA .x f, opB .x f] ∧
    (idler divBank 1).active = false ∧ (opA .x f).i < 3 ∧ (opC .x f).i < 3 ∧
    (.add f, [opA .x f, opB .x f], [.x f.d.toNat]) ∈ scalarForms f ∧ (.addi g, [opReg .x g.a.toNat], [.x g.d.toNat]) ∈ scalarImmForms g ∧
    Poisoned marked [opA .x { sr0 with a := 1 }, opB .x sr0] [.x 2] ∧ Poisoned marked [opReg .x 1] [.x 2] ∧
    Poisoned marked [opPA { sr0 with a := 1 }] [.x 2] := by
  refine ⟨⟨rfl, ?_⟩, rfl, by simp [opA], by simp [opC], by simp [scalarForms], by simp [scalarImmForms], ?_, ?_, ?_⟩
  · intro e he; simp [idler, runner, divBank, bankX, Ctx.idle] at he
  all_goals exact ⟨by decide, by decide, by decide, by decide⟩

/-! Slots V0 and V1: a float bank, an integer bank and a bank of raw patterns, and operands 1 to 3. -/

def vecBank (g h : Fmt) : Ctx :=
  { bankX [(1, 5)] with
    v := [(1, ⟨g, 0x0102030405060708, 0⟩), (2, ⟨h, 0x1112131415161718, 0⟩), (3, ⟨g, 0x2122232425262728, 0⟩)] }

def abc : SR := { sr0 with d := 4, a := 1, b := 2, c := 3 }

/-- The lowest and the highest of the classes' formats, one of each kind. -/
theorem witness_tagged (g : Fmt) : Tagged (runner (vecBank g g) 2) abc [opA .v abc, opB .v abc, opC .v abc] (fun _ => true) g := by
  refine ⟨?_, rfl, Or.inl rfl⟩
  cases g <;> decide

theorem witness_LaneArithmeticResults :
    (∀ os wr, ReadySlip (runner (vecBank .fp32 .fp32) 2) os wr) ∧ (∀ os wr, ReadySlip (runner (vecBank .int8 .int8) 2) os wr) ∧
    Tagged (runner (vecBank .fp32 .fp32) 2) abc [opA .v abc, opB .v abc, opC .v abc] Fmt.isArith .fp32 ∧
    Tagged (runner (vecBank .int8 .int8) 2) abc [opA .v abc, opB .v abc, opC .v abc] Fmt.isArith .int8 ∧
    Tagged (runner (vecBank .e8m10 .e8m10) 2) { abc with fmt := Fmt.e8m10.code } [opA .v abc, opB .v abc] Fmt.isFloat .e8m10 := by
  refine ⟨?_, ?_, ⟨by decide, by decide, Or.inl rfl⟩, ⟨by decide, by decide, Or.inl rfl⟩, ⟨by decide, by decide, Or.inr (by decide)⟩⟩ <;>
    exact fun os wr => runner_slips _ _ _ _ rfl rfl rfl rfl

theorem witness_LaneLogicShiftsAndWrapping :
    (∀ os wr, ReadySlip (runner (vecBank .raw .raw) 2) os wr) ∧ (∀ os wr, ReadySlip (runner (vecBank .int16 .int16) 3) os wr) ∧
    Tagged (runner (vecBank .raw .raw) 2) abc [opA .v abc, opB .v abc] Fmt.isBit .raw ∧
    Tagged (runner (vecBank .int16 .int16) 3) abc [opA .v abc, opB .v abc] isShiftable .int16 ∧
    Tagged (runner (vecBank .int16 .int16) 3) abc [opA .v abc, opB .v abc] Fmt.isInteger .int16 ∧ abc.sat = 0 := by
  refine ⟨?_, ?_, ⟨by decide, by decide, Or.inl rfl⟩, ⟨by decide, by decide, Or.inl rfl⟩, ⟨by decide, by decide, Or.inl rfl⟩, rfl⟩ <;>
    exact fun os wr => runner_slips _ _ _ _ rfl rfl rfl rfl

theorem witness_LaneComparesWritePredicateBits :
    ReadySlip (runner (vecBank .fp16 .fp16) 2) [opA .v abc, opB .v abc] [.p abc.pd] ∧
    Tagged (runner (vecBank .fp16 .fp16) 2) abc [opA .v abc, opB .v abc] Fmt.isArith .fp16 ∧
    Tagged (runner (vecBank .uint32 .uint32) 2) abc [opA .v abc, opB .v abc] Fmt.isArith .uint32 :=
  ⟨runner_slips _ _ _ _ rfl rfl rfl rfl, ⟨by decide, by decide, Or.inl rfl⟩, ⟨by decide, by decide, Or.inl rfl⟩⟩

/-- A slot whose condition is not all ones. -/
def partly (k : Ctx) (slot : Nat) : State := { runner k slot with issue := { (runner k slot).issue with cond := 0x0F } }

theorem witness_LaneMovesResults :
    (∀ os wr, ReadySlip (runner (vecBank .fp32 .int32) 2) os wr) ∧ (∀ os wr, ReadySlip (partly (vecBank .fp32 .int32) 2) os wr) ∧
    (∀ os wr, ReadySlip (partly (vecBank .e2m1b32 .int32) 2) os wr) ∧
    Tagged (runner (vecBank .fp32 .fp32) 2) abc [opA .v abc, opB .v abc] Fmt.isUnscaled .fp32 ∧
    (runner (vecBank .fp32 .int32) 2).issue.cond = -1 ∧ (partly (vecBank .fp32 .int32) 2).issue.cond ≠ -1 ∧
    ((partly (vecBank .fp32 .int32) 2).srcV (opA .v abc)).tag.scale = .none ∧
    ((partly (vecBank .e2m1b32 .int32) 2).srcV (opA .v abc)).tag.scale ≠ .none ∧
    (runner (vecBank .fp32 .int32) 2).active = true ∧ Tagged (runner (vecBank .fp32 .int32) 2) abc [opA .v abc] isIndexable .fp32 ∧
    Tagged (runner (vecBank .fp32 .int32) 2) { abc with d := 3 } [opReg .v 3] isIndexable .fp32 ∧
    Tagged (runner (vecBank .fp32 .int32) 2) abc [opA .v abc] (fun t => t.isUnscaled && decide (8 ≤ t.width)) .fp32 ∧
    ((runner (vecBank .fp32 .int32) 2).srcV (opB .v abc)).tag = .int32 ∧ Fmt.int32.isInteger = true ∧ Fmt.int32.width = Fmt.fp32.width ∧
    Tagged (runner (vecBank .fp32 .int32) 2) abc [opA .v abc] Fmt.isUnscaled .fp32 := by
  refine ⟨?_, ?_, ?_, ⟨by decide, by decide, Or.inl rfl⟩, rfl, by decide, by decide, by decide, rfl, ⟨by decide, by decide, Or.inl rfl⟩,
    ⟨by decide, by decide, Or.inl rfl⟩, ⟨by decide, by decide, Or.inl rfl⟩, by decide, by decide, by decide,
    ⟨by decide, by decide, Or.inl rfl⟩⟩
  · exact fun os wr => runner_slips _ _ _ _ rfl rfl rfl rfl
  all_goals
    intro os wr
    refine ⟨.inr ⟨rfl, rfl, rfl, rfl, ?_, ?_⟩, ?_⟩
    · intro e he; simp [partly, runner, vecBank, bankX, Ctx.idle] at he
    · intro q hq; simp [partly, State.cur, State.ctx, State.core, runner, Sparse.get, Core.bank, Issue.none, vecBank, bankX, Ctx.idle] at hq
    · intro r _; cases r <;> simp [Ctx.spoilt, partly, runner, vecBank, bankX, Ctx.idle]

/-- All lanes NaN; some lane not. -/
theorem witness_ReductionsAndScans :
    (∀ os wr, ReadySlip (runner (vecBank .fp32 .fp32) 2) os wr) ∧
    Tagged (runner (vecBank .fp32 .fp32) 2) abc [opA .v abc] Fmt.isArith .fp32 ∧
    Tagged (runner (vecBank .fp32 .fp32) 2) abc [opA .v abc] (fun t => t.isUnscaled && decide (8 ≤ t.width)) .fp32 ∧
    (∃ j < Fmt.fp32.lanes, laneOn (runner (vecBank .fp32 .fp32) 2).issue.cond Fmt.fp32.lanes j = true ∧
      Num.ofElem .fp32 (laneAt .fp32 ((runner (vecBank .fp32 .fp32) 2).srcV (opA .v abc)) j) ≠ .nan) ∧
    (∀ i < Fmt.fp32.lanes, Num.ofElem .fp32 (laneAt .fp32 ⟨.fp32, -1, 0⟩ i) = .nan) := by
  refine ⟨fun os wr => runner_slips _ _ _ _ rfl rfl rfl rfl, ⟨by decide, by decide, Or.inl rfl⟩, ⟨by decide, by decide, Or.inl rfl⟩,
    ⟨1, by decide, by decide +kernel, by decide +kernel⟩, by decide +kernel⟩

theorem witness_KeySortAndMerge :
    (∀ os wr, ReadySlip (runner (vecBank .fp32 .raw) 2) os wr) ∧ ((runner (vecBank .fp32 .raw) 2).srcV (opA .v abc)).tag = .fp32 ∧
    isKeyFmt .fp32 = true ∧ ((runner (vecBank .fp32 .raw) 2).srcV (opB .v abc)).tag = .raw ∧ isPayload .raw = true ∧
    (let k := { bankX [] with v := [(2, ⟨.uint32, 1, 0⟩), (3, ⟨.raw, 2, 0⟩), (4, ⟨.uint32, 3, 0⟩), (5, ⟨.raw, 4, 0⟩)] }
     let f := { sr0 with d := 6, a := 2, b := 4 }
     (runner k 2).active = true ∧ ((runner k 2).srcV (opA .v f)).tag = .uint32 ∧ ((runner k 2).srcV (opB .v f)).tag = .uint32 ∧
     isKeyFmt .uint32 = true ∧ ((runner k 2).issue.pre.getV 3).tag = .raw ∧ ((runner k 2).issue.pre.getV 5).tag = .raw) ∧
    (∀ i j, i < j ∧ j < 64 ∨ 64 ≤ i ∧ i < j ∧ j < 128 → keyBefore .uint32 true ((fun i => i % 64) j) ((fun i => i % 64) i) = false) := by
  refine ⟨fun os wr => runner_slips _ _ _ _ rfl rfl rfl rfl, by decide, by decide, by decide, by decide, by decide, fun i j h => ?_⟩
  have (i j : Fin 64) : i ≤ j → keyBefore .uint32 true j i = false := by revert i j; decide +kernel
  exact this ⟨i % 64, by omega⟩ ⟨j % 64, by omega⟩ (by show i % 64 ≤ j % 64; omega)

/-- Plans with and without random words. -/
theorem witness_ConversionsAndTags :
    (∀ os wr, ReadySlip (runner (vecBank .fp32 .raw) 2) os wr) ∧ (runner (vecBank .fp32 .raw) 2).active = true ∧
    ((runner (vecBank .fp32 .raw) 2).srcV (opA .v abc)).tag = .fp32 ∧ Fmt.inVcvt .fp32 = true ∧ (cvtPlan .fp32 .bf16 0).isSome = true ∧
    (cvtPlan .fp32 .e2m1b32 7).isSome = true ∧ (cvtPlan .e2m1b32 .fp32 7).isSome = true ∧ (Fmt.e2m1b32.scale != .none) = true ∧
    (cvtPlan .fp32 .e4m3 3).isSome = true ∧
    srWords (((cvtPlan .fp32 .bf16 0).map (·.n)).getD 0) ≤ (runner { vecBank .fp32 .raw with rbq := [0, 0, 0, 0] } 2).cur.rbq.length ∧
    ((runner (vecBank .fp32 .raw) 2).srcV (opA .v abc)).tag ≠ .poison := by
  refine ⟨fun os wr => runner_slips _ _ _ _ rfl rfl rfl rfl, by decide, by decide, by decide, by decide, by decide, by decide, by decide,
    by decide, by decide +kernel, by decide⟩

theorem witness_TagFaultsOfLaneOperations :
    (∀ os wr, ReadySlip (runner (vecBank .fp32 .fp32) 2) os wr) ∧ ((runner (vecBank .fp32 .fp32) 2).srcV (opA .v abc)).tag = .fp32 ∧
    Fmt.ofCode Fmt.int32.code = some .int32 ∧ Fmt.fp32 ≠ .poison ∧ Fmt.int32 ≠ .raw ∧ Fmt.fp32 ≠ .int32 ∧
    ((runner (vecBank .poison .fp32) 2).srcV (opA .v abc)).tag = .poison ∧
    (∀ os wr, ReadySlip (leaver (vecBank .poison .fp32) 2) os wr) := by
  refine ⟨fun os wr => runner_slips _ _ _ _ rfl rfl rfl rfl, by decide, by decide, by decide, by decide, by decide, by decide,
    fun os wr => leaver_slips _ _ _ _ rfl rfl⟩

/-! Slot M.  Tile 1 and 2 carry a format, accumulator 0 a tag; x1 holds the address of an image in the core's own LDM. -/

theorem runner_readyM (k : Ctx) (slot : Nat) (srcs : List (TSrc × Nat)) (dsts : List (BitVec 6 × Nat)) (rd : List Opd) (wr : List Reg)
    (h : k.pend = []) (hq : k.queue = []) (hx : k.xbad = 0) (hp : k.pbad = 0)
    (hs : ∀ p ∈ srcs, (runner k slot).tileOf p.1 = some p.2 ∧ (p.1.h < 2 → k.tileReserved p.1.fld = true))
    (hd : ∀ p ∈ dsts, (k.tileField p.1).map Prod.fst = some p.2) : ReadyM (runner k slot) srcs dsts rd wr :=
  ⟨by simp [State.active, runner, Issue.none], hs, hd, runner_slips _ _ _ _ h hq hx hp⟩

def tileBank (g h : Fmt) (acc : Acc) : Ctx :=
  { bankX [(1, 0x00FF000000000000)] with t := [(1, ⟨g, []⟩), (2, ⟨h, []⟩)], a := [(0, acc)], v := [(1, ⟨acc.tag, 0, 0⟩)] }

/-- A is tile 1, B is tile 2, or the image at x1. -/
def mx12 : MX := { mx0 with a := 1, b := 2 }
def mxImage : MX := { mx0 with a := 1, b := 1, bm := 1 }

/-- The same package with an image's format byte in the LDM. -/
def withImage (s : State) (g : Fmt) : State :=
  { s with mem := [(ldmKey 0 0, g.code.setWidth 8)], issue := { s.issue with mem0 := [(ldmKey 0 0, g.code.setWidth 8)] } }

theorem witness_MultipliesOfTwoTiles :
    (mx12.bm = 0 ∧ mx12.kv ≠ 3 ∧ ReadyM (runner (tileBank .int8 .int8 ⟨.acc32i, 0, []⟩) 4) [(tA mx12, 1), (tB mx12, 2)] [] [] [.a 0]) ∧
    ((runner (tileBank .int8 .int8 ⟨.acc32i, 0, []⟩) 4).tileIn 1).tag = .int8 ∧ pairClass .int8 .int8 = some .integer ∧
    AddsInto (runner (tileBank .int8 .int8 ⟨.acc32i, 0, []⟩) 4) .integer 0 false (residueCharge .int8) ⟨.acc32i, 0, []⟩ ∧
    pairClass .res8 .res8 = some .residue ∧
    AddsInto (runner (tileBank .res8 .res8 ⟨.resa, 3145728, []⟩) 4) .residue 0 false (residueCharge .res8) ⟨.resa, 6291456, []⟩ ∧
    AddsInto (runner (tileBank .fp32 .fp32 ⟨.acc32i, 0, []⟩) 4) .float 0 true (residueCharge .fp32) ⟨.acc32f, 0, []⟩ := by
  refine ⟨⟨rfl, by decide, runner_readyM _ _ _ _ _ _ rfl rfl rfl rfl (by decide) (by decide)⟩, rfl, by decide, ?_, by decide, ?_, ?_⟩
  · exact ⟨⟨.acc32i, 0, []⟩, Or.inr ⟨rfl, rfl, rfl, by decide⟩, Or.inr ⟨by decide, rfl⟩⟩
  · exact ⟨⟨.resa, 3145728, []⟩, Or.inr ⟨rfl, rfl, rfl, by decide⟩, Or.inl ⟨rfl, by decide, rfl⟩⟩
  · exact ⟨⟨.acc32f, 0, []⟩, Or.inl ⟨rfl, rfl⟩, Or.inr ⟨by decide, rfl⟩⟩

/-- An image's format as its bundle finds it. -/
def imageFinds (r : Except State (Fmt × State)) (g : Fmt) : Bool :=
  match r with
  | .ok (h, _) => h = g
  | .error _ => false

theorem imageFinds_ok (r : Except State (Fmt × State)) (g : Fmt) (h : imageFinds r g = true) : ∃ t, r = .ok (g, t) := by
  unfold imageFinds at h
  split at h
  · rename_i h' t; simp at h; exact ⟨t, by rw [h]⟩
  · cases h

def imageState : State := withImage (runner (tileBank .int8 .int8 ⟨.acc32i, 0, []⟩) 4) .int8

theorem imageState_ready (f : MX) (h : f.a = 1) (h2 : f.ha = 0) : ReadyM imageState [(tA f, 1)] [] [opReg .x f.b.toNat] [.a f.acc.toNat] := by
  refine ⟨by decide, ?_, by simp, ⟨.inr ⟨rfl, rfl, rfl, rfl, ?_, ?_⟩, ?_⟩⟩
  · intro p hp
    simp only [List.mem_singleton] at hp
    subst hp
    simp only [tA, h, h2]
    decide
  · intro e he; simp [imageState, withImage, runner, tileBank, bankX, Ctx.idle] at he
  · intro q hq
    rw [show imageState.issue.pre.queue ++ imageState.cur.queue = [] from rfl] at hq
    simp at hq
  · intro r _; cases r <;> simp [Ctx.spoilt, imageState, withImage, runner, tileBank, bankX, Ctx.idle]

/-- The same operation as it leaves its queue: its need names the image's format and place. -/
def imageLeaves : State :=
  { imageState with issue := { imageState.issue with late := some 0, need := { imageState.issue.need with img := some (.int8, [(ldmKey 0 0, imageLen)]) } } }

theorem imageLeaves_ready (f : MX) (h : f.a = 1) (h2 : f.ha = 0) : ReadyM imageLeaves [(tA f, 1)] [] [opReg .x f.b.toNat] [.a f.acc.toNat] := by
  refine ⟨by decide, ?_, by simp, ⟨.inl rfl, ?_⟩⟩
  · intro p hp
    simp only [List.mem_singleton] at hp
    subst hp
    simp only [tA, h, h2]
    decide
  · intro r _; cases r <;> simp [Ctx.spoilt, imageLeaves, imageState, withImage, runner, tileBank, bankX, Ctx.idle]

def imageReads (r : Except Trouble (List (Nat × Nat)) × State) : Bool :=
  match r with
  | (.ok parts, t) => !imageDataMarked t parts
  | _ => false

theorem imageReads_ok (r : Except Trouble (List (Nat × Nat)) × State) (h : imageReads r = true) :
    ∃ parts t, r = (.ok parts, t) ∧ imageDataMarked t parts = false := by
  obtain ⟨r, t⟩ := r
  cases r
  · cases h
  · simp [imageReads] at h; exact ⟨_, _, rfl, h⟩

theorem witness_MultiplyWithAnImage :
    mxImage.bm = 1 ∧ mxImage.kv ≠ 3 ∧ ReadyM imageState [(tA mxImage, 1)] [] [opReg .x 1] [.a 0] ∧
    (∃ t, (latchedM imageState [(tA mxImage, 1)] [opReg .x 1]).image (imageState.imageVA mxImage) = .ok (.int8, t)) ∧
    imageState.issue.late = none ∧ (imageState.tileIn 1).tag ≠ .poison ∧ pairClass .int8 .int8 = some .integer ∧
    AddsInto imageState .integer 0 false (residueCharge .int8) ⟨.acc32i, 0, []⟩ := by
  refine ⟨rfl, by decide, imageState_ready _ rfl rfl, imageFinds_ok _ _ (by decide +kernel), rfl, by decide, by decide, ?_⟩
  exact ⟨⟨.acc32i, 0, []⟩, Or.inr ⟨rfl, rfl, rfl, by decide⟩, Or.inr ⟨by decide, rfl⟩⟩

def isOk {ε α : Type} (r : Except ε α) : Bool :=
  match r with
  | .ok _ => true
  | .error _ => false

theorem isOk_ok {ε α : Type} (r : Except ε α) (h : isOk r = true) : ∃ a, r = .ok a := by
  cases r
  · cases h
  · exact ⟨_, rfl⟩

theorem isOk_error {ε α : Type} (r : Except ε α × State) (h : isOk r.1 = false) : ∃ x t, r = (.error x, t) := by
  obtain ⟨r, t⟩ := r
  cases r
  · exact ⟨_, _, rfl⟩
  · cases h

/-- The same, with an image of another core's LDM that this package does not have. -/
def imageAway : State :=
  { imageLeaves with issue := { imageLeaves.issue with pre := { imageLeaves.issue.pre with x := [(1, 0x0100000000000000)] } } }

/-- The multiply leaves its queue: the rows are read; they can not be; the merge buffer takes the member, or does not. -/
theorem witness_MultiplyWithAnImage_leaves :
    ReadyM imageLeaves [(tA mxImage, 1)] [] [opReg .x 1] [.a 0] ∧ imageLeaves.issue.late.isSome = true ∧
    imageLeaves.issue.need.img = some (.int8, [(ldmKey 0 0, imageLen)]) ∧
    AddsInto imageLeaves .integer 0 false (residueCharge .int8) ⟨.acc32i, 0, []⟩ ∧
    (let t := latchedM imageLeaves [(tA mxImage, 1)] [opReg .x 1]
     (∃ parts t1, t.resolve t.me {} (pieces (imageLeaves.imageVA mxImage) imageLen) = (.ok parts, t1) ∧ imageDataMarked t1 parts = false) ∧
     t.mergeable 0 mxImage = false ∧ t.mergeable 0 { mxImage with mrg := 1 } = true ∧
     (t.joinBuffer { mxImage with mrg := 1 } (imageLeaves.tileIn 1) .int8 [(ldmKey 0 0, imageLen)] (imageLeaves.imageVA mxImage) 0).isSome = true) ∧
    (let t := latchedM imageAway [(tA mxImage, 1)] [opReg .x 1]
     ∃ x t1, t.resolve t.me {} (pieces (imageAway.imageVA mxImage) imageLen) = (.error x, t1)) := by
  refine ⟨imageLeaves_ready _ rfl rfl, rfl, rfl, ?_, ⟨imageReads_ok _ (by decide +kernel), by decide, by decide, by decide +kernel⟩,
    isOk_error _ (by decide +kernel)⟩
  exact ⟨⟨.acc32i, 0, []⟩, Or.inr ⟨rfl, rfl, rfl, by decide⟩, Or.inr ⟨by decide, rfl⟩⟩

/-- Expander slot 0 holds the projection that descriptor 0 of the bank names. -/
def absorbState : State :=
  let k := { tileBank .e4m3 .lat8 ⟨.acc32f, 0, []⟩ with exp := [(0, ⟨true, 0x00FF000000000000⟩)] }
  { runner k 4 with cores := [(0, { Core.idle with b0 := k, exp := [(0, ⟨true, 0, 0x00FF000000000000, false, [], false, 0⟩)] })] }

def projects (r : Except State (ExpSlot × State)) : Bool :=
  match r with
  | .ok (w, _) => !w.bad
  | .error _ => false

theorem witness_AbsorbAndExpanderSlots :
    ({ mx12 with kv := 3 }.kv = 3 ∧ ReadyM absorbState [(tA mx12, 1), (tB mx12, 2)] [] [] [.a 0]) ∧
    (absorbState.tileIn 1).tag ∈ [Fmt.e4m3, .e4m3row] ∧ (absorbState.tileIn 2).tag = .lat8 ∧
    projects ((latchedM absorbState [(tA mx12, 1), (tB mx12, 2)] []).projection 0 .e4m3) = true ∧
    AddsInto absorbState .float 0 false 0 ⟨.acc32f, 0, []⟩ ∧
    (ReadyM imageState [] [] [opReg .x 1] [] ∧ isOk ((latchedM imageState [] [opReg .x 1]).loadExpander 0 (imageState.imageVA mxImage)) = true) ∧
    ReadyM imageState [] [] [] [] ∧ imageState.active = true := by
  refine ⟨⟨rfl, by decide, by decide, by decide, .inr ⟨rfl, rfl, rfl, rfl, ?_, ?_⟩, ?_⟩, by decide, rfl, by decide +kernel, ?_, ⟨?_, by decide +kernel⟩, ?_, rfl⟩
  · intro e he; simp [absorbState, runner, tileBank, bankX, Ctx.idle] at he
  · intro q hq
    rw [show absorbState.issue.pre.queue ++ absorbState.cur.queue = [] from rfl] at hq
    simp at hq
  · intro r _; cases r <;> simp [Ctx.spoilt, absorbState, runner, tileBank, bankX, Ctx.idle]
  · exact ⟨⟨.acc32f, 0, []⟩, Or.inr ⟨rfl, rfl, rfl, by decide⟩, Or.inr ⟨by decide, rfl⟩⟩
  all_goals
    refine ⟨rfl, by simp, by simp, .inr ⟨rfl, rfl, rfl, rfl, ?_, ?_⟩, ?_⟩
    · intro e he; simp [imageState, withImage, runner, tileBank, bankX, Ctx.idle] at he
    · intro q hq
      rw [show imageState.issue.pre.queue ++ imageState.cur.queue = [] from rfl] at hq
      simp at hq
    · intro r _; cases r <;> simp [Ctx.spoilt, imageState, withImage, runner, tileBank, bankX, Ctx.idle]

/-- Absorb leaves its queue with its operands. -/
theorem witness_AbsorbAndExpanderSlots_leaves :
    let s : State := { absorbState with issue := { absorbState.issue with late := some 0 } }
    ReadyM s [(tA mx12, 1), (tB mx12, 2)] [] [] [.a 0] := by
  refine ⟨by decide, by decide, by decide, .inl rfl, ?_⟩
  intro r _; cases r <;> simp [Ctx.spoilt, absorbState, runner, tileBank, bankX, Ctx.idle]

/-- Window 2, the last one of an 8-bit format, and an unscaled format for the permutation. -/
theorem witness_TileTransformsAndRowSums :
    (let s := runner (tileBank .int8 .int8 ⟨.acc32i, 0, []⟩) 4
     let f := { mx12 with cm := 2 }
     ReadyM s [(tA f, 1)] [(f.b, 2)] [] [] ∧ inTtrn (s.tileIn 1).tag = true ∧ (s.tileIn 1).tag.width = 8 ∧ f.cm.toNat ≤ 2 ∧
     (s.tileIn 1).tag.isUnscaled = true ∧ ReadyM s [(tA f, 1)] [] [] [.a 0] ∧ (s.tileIn 1).tag ≠ .poison ∧
     pairClass .int8 .int8 = some .integer ∧ AddsInto s .integer 0 true 3072 ⟨.acc32i, 0, []⟩) ∧
    (let s := runner (tileBank .res8 .res8 ⟨.resa, 0, []⟩) 4
     pairClass (s.tileIn 1).tag (s.tileIn 1).tag = some .residue ∧ AddsInto s .residue 0 false 24576 ⟨.resa, 24576, []⟩) ∧
    (Fmt.e2m1 ∈ [Fmt.int8, .e4m3, .uint8, .res8, .int4, .uint4, .e2m1]) := by
  refine ⟨⟨runner_readyM _ _ _ _ _ _ rfl rfl rfl rfl (by decide) (by decide), rfl, rfl, by decide, rfl,
    runner_readyM _ _ _ _ _ _ rfl rfl rfl rfl (by decide) (by decide), by decide, by decide, ?_⟩, ⟨by decide, ?_⟩, by decide⟩
  · exact ⟨⟨.acc32i, 0, []⟩, Or.inl ⟨rfl, rfl⟩, Or.inr ⟨by decide, rfl⟩⟩
  · exact ⟨⟨.resa, 0, []⟩, Or.inr ⟨rfl, rfl, rfl, by decide⟩, Or.inl ⟨rfl, by decide, rfl⟩⟩

/-- Accumulators in two registers, at the residue limit; the fold onto itself and into another; sums, rows and scales. -/
theorem witness_AccumulatorAndTileOperations :
    (let s := runner { tileBank .int8 .int8 ⟨.acc32i, 0, []⟩ with a := [(0, ⟨.resa, 8257918, []⟩), (1, ⟨.resa, 1, []⟩), (2, ⟨.acc32i, 0, []⟩)] } 4
     ReadyM s [] [] [] [.a 0] ∧ ReadyM s [] [(mx12.a, 1)] [] [] ∧ ReadyM s [(⟨0, mx12.a, 0⟩, 1)] [(mx12.a, 1)] [] [] ∧ (s.tileIn 1).tag ≠ .poison ∧
     ReadyM s [] [] [opReg .a (mx12.a.toNat % 8)] [.a 0] ∧
     (s.issue.pre.getA 0).tag ≠ .poison ∧ (s.issue.pre.getA 1).tag = (s.issue.pre.getA 0).tag ∧
     (s.issue.pre.getA 0).bound + (s.issue.pre.getA 1).bound ≤ residueLimit ∧
     ReadyM s [] [] [] [.a 0, .a (mx12.a.toNat % 8)] ∧ (s.issue.pre.getA (mx12.a.toNat % 8)).tag = .resa ∧
     mx12.a.toNat % 8 = ({ mx12 with acc := 1 } : MX).acc.toNat ∧ mx12.a.toNat % 8 ≠ ({ mx12 with acc := 2 } : MX).acc.toNat ∧
     (s.issue.pre.getA 2).tag = .acc32i ∧
     ReadyM s [(tA mx12, 1)] [(mx12.b, 2)] [] [] ∧ ReadyM s [(tA mx12, 1)] [] [] [.v 2] ∧ (s.tileIn 1).tag ≠ .int2) ∧
    (let s := runner { tileBank .int8 .int8 ⟨.acc32i, 0, []⟩ with v := [(2, ⟨.int8, 0, 0⟩)] } 4
     ReadyM s [(⟨0, mx12.a, 0⟩, 1)] [(mx12.a, 1)] [opReg .v 2] [] ∧ (s.issue.pre.getV 2).tag ≠ .poison ∧
     (s.issue.pre.getV 2).tag = (s.tileIn 1).tag) ∧
    (let s := runner { tileBank .int8 .int8 ⟨.acc32f, 0, []⟩ with v := [(2, ⟨accLaneFmt .acc32f, 0, 0⟩)] } 4
     ReadyM s [] [] [opReg .a 0] [.v 2] ∧ (s.issue.pre.getA 0).tag ≠ .poison ∧ ReadyM s [] [] [opReg .v 2] [.a 0] ∧
     (s.issue.pre.getV 2).tag ≠ .poison ∧ (s.issue.pre.getV 2).tag = accLaneFmt (s.issue.pre.getA 0).tag ∧
     (s.issue.pre.getA 0).tag = .acc32f ∧ (s.tileIn 1).tag.inMatrix = true ∧ (s.tileIn 2).tag.inMatrix = true ∧
     ReadyM s [(tA mx12, 1), (tB mx12, 2)] [] [] [.a 0]) ∧
    ReadyM imageState [(tA mxImage, 1)] [] [opReg .x 1] [.a 0] := by
  refine ⟨⟨?_, ?_, ?_, by decide, ?_, by decide, by decide, by decide, ?_, by decide, by decide, by decide, by decide, ?_, ?_, by decide⟩,
    ⟨?_, by decide, by decide⟩, ⟨?_, by decide, ?_, by decide, by decide, by decide, by decide, by decide, ?_⟩, imageState_ready _ rfl rfl⟩
  all_goals exact runner_readyM _ _ _ _ _ _ rfl rfl rfl rfl (by decide) (by decide)

/-! Slots L and W: addresses in the core's own LDM, which no page table is needed for. -/

def ldm : Word := 0x00FF000000000000

/-- x1 the LDM, x2 a stride, x3 rows 0 to 127 of 128, x5 data, x6 7, x7 an odd address; vectors and tiles of each kind. -/
def memBank : Ctx :=
  { bankX [(1, ldm), (2, 216), (3, 2 ^ 32), (5, 0x1122334455667788), (6, 7), (7, ldm + 4), (8, 64), (9, ldm + 0x4000)] with
    p := [(1, 5)]
    v := [(1, ⟨.uint32, 0x0000000300000002000000010000000F, 0⟩), (2, ⟨.fp32, 0x11, 0⟩)]
    t := [(1, ⟨.lat8, []⟩), (2, ⟨.raw, []⟩)] }

def memState : State := runner memBank 5

/-- Page tables in one frame that map page 0x100400C000 as a KV page, and a block table of one entry at the LDM's start
that names it. -/
def kvState : State :=
  let m : List Host.Cell := [(16384, 1), (16385, 0x40), (16392, 1), (16393, 0x40), (16400, 1), (16401, 0x40), (16408, 0x8B), (16409, 0x85),
    (ldmKey 0 1, 0xC0), (ldmKey 0 3, 4), (ldmKey 0 4, 0x10)]
  { memState with mem := m, jobs := [(0, { Job.idle with ptbase := 16384 })], issue := { memState.issue with mem0 := m } }

theorem memState_ready (os : List Opd) (wr : List Reg) : Ready memState os wr := runner_ready _ _ _ _ rfl rfl rfl rfl

def finds (r : Except XFault (List (Nat × Nat)) × State) : Bool :=
  match r with
  | (.ok _, _) => true
  | (.error _, _) => false

theorem finds_ok (r : Except XFault (List (Nat × Nat)) × State) (h : finds r = true) : ∃ parts t, r = (.ok parts, t) := by
  obtain ⟨a, t⟩ := r
  cases a
  · cases h
  · exact ⟨_, t, rfl⟩

/-- A read that nothing of the context holds back. -/
def reads (r : Except XFault (List (Nat × Nat)) × State) : Bool :=
  match r with
  | (.ok parts, t) => !t.readWaits parts && !(t.core t.issue.core).inBlock parts
  | (.error _, _) => false

def mem1 : MEM := { mem0 with d := 5, base := 1 }

/-- Sixty-three loads are out. -/
def busyState : State :=
  runner { memBank with pend := (List.range 63).map fun n => ⟨.v 9, .load, n, false, 0, none, none, false⟩ } 5

/-- A seq_cst load that has performed beside a store, and the stamp of a bundle whose one access is a store. -/
def scDoneState (slot : Nat) : State :=
  runner { memBank with sc := some ⟨0, some 0, [⟨5, .load, ldmKey 0 0, 8, 0, 0, some (7, false), []⟩, ⟨6, .store, ldmKey 0 8, 8, 9, 0, some (0, false), []⟩]⟩ } slot
def scStoreState : State := { runner { memBank with sc := some ⟨0, some 5, [⟨6, .store, ldmKey 0 0, 8, 0, 0, none, []⟩]⟩ } 6 with sidereal := 5 }

theorem scStore_ready (os : List Opd) (wr : List Reg) : Ready scStoreState os wr :=
  let h := runner_ready { memBank with sc := scStoreState.issue.pre.sc } 6 os wr rfl rfl rfl rfl
  ⟨rfl, h.free, h.unread, h.clean⟩

def findsKey (r : Except XFault (List (Nat × Nat)) × State) (w : Nat) : Bool :=
  match r with
  | (.ok [(key, n)], _) => n = w && !isReg key
  | _ => false

theorem witness_ScalarLoadsAndStores : (∀ os wr, Ready memState os wr) ∧ memState.issue.pre.loadsOut < 64 ∧
    busyState.issue.pre.loadsOut = 63 ∧
    (∀ w ∈ [1, 2, 4, 8, 16], (memState.ea mem1).toNat % w = 0 ∧ reads (memState.resolveIn {} (pieces (memState.ea mem1) w)) = true ∧
      finds (memState.resolveIn { write := true } (pieces (memState.ea mem1) w)) = true) ∧
    (scDoneState 5).scResult = some (7, false) ∧ ({ mem1 with ord := 4, scope := 1 } : MEM).ord = 4 ∧
    (scDoneState 6).storeStamp = none ∧ (scDoneState 6).scResult = some (0, false) ∧ scStoreState.storeStamp = some 5 ∧
    (∀ os wr, Ready (scDoneState 6) os wr) ∧ (∀ os wr, Ready scStoreState os wr) ∧
    (∀ w ∈ [1, 2, 4, 8], findsKey (scStoreState.resolveIn { write := true } (pieces (scStoreState.ea mem1) w)) w = true) ∧
    misaligned (memState.ea { mem1 with base := 7 }) 16 = true ∧
    finds (memState.resolveIn { write := true } (pieces (memState.ea { mem1 with base := 7 }) 16)) = true ∧
    (memState.ea mem1).toNat % 128 = 0 ∧ finds (memState.resolveIn { write := true } (pieces (memState.ea mem1) 128)) = true :=
  ⟨memState_ready, by decide, by decide +kernel, by decide +kernel, by decide, rfl, by decide, by decide, by decide,
    fun os wr => runner_ready _ _ _ _ rfl rfl rfl rfl, fun os wr => scStore_ready os wr, by decide +kernel,
    by decide, by decide +kernel, by decide, by decide +kernel⟩

/-- The first and the last bytes of the LDM. -/
theorem witness_OwnLdmLoadsAndStores : (∀ os wr, Ready memState os wr) ∧ memState.issue.pre.loadsOut < 64 ∧ mem1.ord ≠ 4 ∧ mem1.ord ≠ 2 ∧
    memState.issue.core < 256 ∧ memState.offline memState.issue.core = false ∧ memState.issue.pre.stores = [] ∧
    memState.reductionsOut memState.issue.core memState.issue.bank = false ∧
    (∀ w ∈ [1, 2, 4, 8], memState.ldmNow 0 [(ldmKey memState.issue.core 0, leBytes w 7)] = true ∧
      memState.ldmNow 0 [(ldmKey memState.issue.core (0x200000 - w), leBytes w 7)] = true) ∧ memState.ea mem1 = word (0xFF * 2 ^ 48 + 0) ∧
    memState.ea { mem1 with disp := 0x1FFFF8 } = word (0xFF * 2 ^ 48 + 0x1FFFF8) ∧ 0x1FFFF8 + 8 ≤ 2 ^ 21 ∧ 0x1FFFF8 % 16384 + 8 ≤ 16384 :=
  ⟨memState_ready, by decide, by decide, by decide, by decide, by decide +kernel, rfl, by decide, by decide, by decide, by decide +kernel,
    by decide, by decide⟩

theorem witness_CommittedStoresWaitAndPerformInOrder :
    (let data : List (Nat × List Byte) := [(ldmKey 1 0, [7])]
     data ≠ [] ∧ ∀ p ∈ data, isReg p.1 = false ∧ isLdmOf memState.issue.core p.1 = false) ∧
    (let data : List (Nat × List Byte) := [(ldmKey 0 0, List.replicate 16 7)]
     data ≠ [] ∧ isReg (ldmKey 0 0) = false ∧ isLdmOf memState.issue.core (ldmKey 0 0) = true ∧ memState.ldmNow 8 data = false) ∧
    (let s := runner { memBank with stores := [⟨0, [(100, [7])], false, false, 0, 0, none⟩] } 5
     ∀ st ∈ (s.ctx 0 0).stores, ∀ p ∈ st.parts, s.deadLdm p.1 = false) := by decide +kernel

def sr1 : SR := { sr0 with d := 2, a := 1, b := 1, c := 8, fn9 := 1 }

/-- Lanes 0 and 2 of the gather; the predicated store writes the same lanes. -/
theorem witness_VectorLoadsAndStores : (∀ os wr, Ready memState os wr) ∧ memState.issue.pre.loadsOut < 64 ∧
    (memState.baseDisp mem1).toNat % 8 = 0 ∧
    reads (memState.resolveIn {} (pieces (memState.baseDisp mem1) (imageBytes (fmt6 { mem1 with idx := Fmt.e2m1q16.code })))) = true ∧
    (let f := { mem1 with idx := Fmt.fp32.code, disp := 4 }
     (stridden (memState.issue.pre.getX f.base.toNat) (f.disp.signExtend 64) (fmt6 f).lanes).all (fun va => va.toNat % ((fmt6 f).width / 8) = 0) = true ∧
     reads (memState.resolveIn {} ((stridden (memState.issue.pre.getX f.base.toNat) (f.disp.signExtend 64) (fmt6 f).lanes).map
       fun va => (va, (fmt6 f).width / 8))) = true) ∧
    ((memState.srcV (opB .v sr1)).tag = .uint32 ∧ memState.lanesAt { sr1 with fn9 := 257 } = [(0, 15, ldm + 60), (2, 2, ldm + 8)] ∧
      (∀ l ∈ memState.lanesAt { sr1 with fn9 := 257 }, l.2.2.toNat % 4 = 0 ∧ l.2.1 < (memState.srcX (opC .x sr1)).toNat) ∧
      finds ((memState.latchAll (gatherReads { sr1 with fn9 := 257 })).resolveIn { write := true }
        ((memState.lanesAt { sr1 with fn9 := 257 }).map fun l => (l.2.2, 4))) = true ∧
      reads ((memState.latchAll (gatherReads { sr1 with fn9 := 257 })).resolveIn {}
        ((memState.lanesAt { sr1 with fn9 := 257 }).map fun l => (l.2.2, 4))) = true) ∧
    (memState.issue.pre.getV 2).tag = .fp32 ∧ (memState.issue.pre.getV 2).tag.inStrided = true ∧ (memState.issue.pre.getV 2).tag.inGather = true ∧
    (memState.issue.pre.getV 2).tag.isUnscaled = true ∧
    finds (memState.resolveIn { write := true } (pieces (memState.ea mem1) (imageBytes .fp32))) = true ∧
    (List.range 64).filter (fun i => (memState.issue.pre.getP 1).getLsbD i) = [0, 2] ∧
    finds (memState.resolveIn { write := true } ([0, 2].map fun i => (memState.baseDisp mem1 + word (4 * i), 4))) = true :=
  ⟨memState_ready, by decide, by decide, by decide +kernel, ⟨by decide +kernel, by decide +kernel⟩,
    ⟨by decide, by decide +kernel, by decide +kernel, by decide +kernel, by decide +kernel⟩, by decide, by decide, by decide, by decide,
    by decide +kernel, by decide +kernel, by decide +kernel⟩

/-- The entries of the rows are found, none of them marked. -/
def kvFinds (r : Except State (List KvRow × State)) (field : Nat × Nat) : Bool :=
  match r with
  | .ok (rows, t) => rows.length = 1 && rows.all (!·.bad) && finds (t.resolveIn { kv := true, write := true } (kvRuns rows [field]))
  | .error _ => false

/-- A tile load of 128 rows; one row of a latent cache; a tile and a ring as destinations. -/
theorem witness_TileAndKvAccesses :
    (let f := { sr0 with d := 3, a := 1, b := 2, fn9 := 128, fmt := Fmt.int8b32.code }
     (∀ os wr, Ready memState os wr) ∧ memState.tileDest f.d = some (3, none) ∧ memState.issue.pre.loadsOut < 64 ∧
     (stridden (memState.srcX (opA .x f)) (memState.srcX (opB .x f)) (rowCount f)).all (fun va => va.toNat % 8 = 0) = true ∧
     reads ((memState.latchAll [opA .x f, opB .x f]).resolveIn {}
       (runs ((stridden (memState.srcX (opA .x f)) (memState.srcX (opB .x f)) (rowCount f)).map fun va => (va, tldRowBytes (fmtOf f))))) = true) ∧
    (runner { memBank with ring := [(0, ⟨4, 2, 0, 0, 0⟩)] } 5).tileDest 32 = some (4, some 0) ∧
    ((memState.issue.pre.tileField 1).map Prod.fst = some 1 ∧ memState.issue.pre.tileReserved 1 = true ∧ (memState.ea mem1).toNat % 64 = 0 ∧
      finds (memState.resolveIn { write := true } (pieces (memState.ea mem1) imageLen)) = true ∧ (memState.tileIn 1).tag ≠ .poison) ∧
    (let f := { sr0 with d := 2, a := 1, b := 3, c := 40, fn9 := 1 }
     (∀ os wr, Ready kvState os wr) ∧ (kvState.issue.pre.tileField f.d).map Prod.fst = some 2 ∧ (kvState.tileIn 2).tag = .raw ∧
     kvFinds ((kvState.latchAll [opA .x f, opB .x f, opReg .t 2]).kvEntries 6 (kvState.kvRows f) []) (960, 64) = true) ∧
    projects (absorbState.projection 0 .e4m3row) = true := by
  refine ⟨⟨memState_ready, by decide, by decide, by decide +kernel, by decide +kernel⟩, by decide,
    ⟨by decide, by decide, by decide, by decide +kernel, by decide⟩, ⟨fun os wr => ⟨by decide, ?_, ?_, ?_⟩, by decide, by decide, by decide +kernel⟩,
    by decide +kernel⟩
  · intro e he; simp [kvState, memState, runner, memBank, bankX, Ctx.idle] at he
  · intro q hq; simp [kvState, memState, runner, memBank, bankX, Ctx.idle] at hq
  · intro r _; cases r <;> simp [Ctx.spoilt, kvState, memState, runner, memBank, bankX, Ctx.idle]

/-- An address that names one run of memory, which nothing of the context holds back. -/
def findsOne (r : Except XFault (List (Nat × Nat)) × State) (w : Nat) : Bool :=
  match r with
  | (.ok [(key, n)], t) => n = w && t.cur.stores = [] && !t.reductionsOut t.issue.core t.issue.bank && !isReg key &&
      !t.imageWaits t.issue.core t.issue.bank t.fabric.nextItem [(key, w)] && !viewBad t.atomMem.2 [(key, w)]
  | _ => false

/-- Outside the LDM and inside it; beside a load of the L slot, and alone. -/
theorem witness_AtomicsAndReductions : (∀ os wr, Ready memState os wr) ∧ memState.issue.pre.loadsOut < 64 ∧
    (∀ c ∈ [(2, 4), (3, 8), (4, 16)], c.2 = atomWidth (BitVec.ofNat 3 c.1) ∧ (memState.baseDisp mem1).toNat % c.2 = 0 ∧
      findsOne (memState.resolveIn { write := true, atomic := true } (pieces (memState.baseDisp mem1) c.2)) c.2 = true) ∧ mem1.ord ≠ 4 ∧
    (let s : State := { memState with issue := { memState.issue with served := true } }
     findsOne (s.resolveIn { write := true, atomic := true } (pieces (s.baseDisp mem1) 8)) 8 = true) ∧
    (∀ c ∈ [(2, 4), (3, 8)], (memState.baseDisp { mem1 with base := 2, scl := BitVec.ofNat 3 c.1 }).toNat % c.2 = 0 ∧
      memState.ownLdmKey (memState.baseDisp { mem1 with base := 2 }) c.2 = none ∧
      memState.ownLdmKey (memState.baseDisp mem1) c.2 = some (ldmKey 0 0) ∧ memState.ldmNow 0 [(ldmKey 0 0, List.replicate c.2 0)] = true ∧
      anyBad memState.bad (ldmKey 0 0) c.2 = false) ∧ mem1.ord ≠ 2 ∧ mem1.ord ≠ 3 :=
  ⟨memState_ready, by decide, by decide +kernel, by decide, by decide +kernel, by decide +kernel, by decide, by decide⟩

/-- Three blocks in use: one filled, one broken; x9 names a page of a bound region. -/
def blockBank : Ctx :=
  let b : LoadBlock := ⟨true, 0, [], 1, true, false⟩
  { memBank with x := [(1, ldm), (9, 0x4000), (10, 2), (11, 3)], blocks := [(0, b), (1, b), (2, { b with broken := true })] }

/-- x1 names a page that the tables of `kvState` map. -/
def pageState : State := { kvState with issue := { kvState.issue with pre := { memBank with x := [(1, 0x100400C000)] } } }

def blockState : State :=
  { runner blockBank 5 with cores := [(0, { Core.idle with b0 := blockBank, region := [(0, ⟨0x4000, 0, 0, 0, false, false, false, true, [], []⟩)] })] }

/-- No block is free; a block of the other bank holds the line, under its address or under its bytes only; a block that is not filled yet. -/
def allBlocks : State := runner { memBank with blocks := (List.range 4).map fun i => (i, ⟨true, 0x4000, [], 1, true, false⟩) } 5
def heldState : State :=
  { memState with cores := [(0, { Core.idle with b0 := memBank, b1 := { Ctx.idle with status := .resumable, blocks := [(0, ⟨true, ldm, [(ldmKey 0 0, 128)], 1, true, false⟩)] } })] }
def heldBytes : Bool :=
  let s : State := { pageState with cores := [(0, { Core.idle with b0 := memBank, b1 := { Ctx.idle with blocks := [(0, ⟨true, 0, [(0x100400C000, 128)], 1, true, false⟩)] } })] }
  match s.resolveIn { line := true } (pieces (s.baseDisp mem1) 128) with
  | (.ok parts, t) => !t.readWaits parts && !(s.core 0).blockAt 0 (s.baseDisp mem1) 1
  | (.error _, _) => false
def waitState : State := runner { memBank with x := [(1, 0)], blocks := [(0, ⟨true, 0, [], 1, false, false⟩)] } 5

theorem witness_BlocksPrefetchesAndLines :
    (memState.baseDisp mem1).toNat % 128 = 0 ∧ (∀ j < 3, (blockState.issue.pre.blocks.get .none j).used = true) ∧
    (blockState.issue.pre.blocks.get .none 3).used = false ∧ (memState.issue.pre.blocks.get .none 0).used = false ∧
    (pageState.core 0).blockAt 0 (pageState.baseDisp mem1) 16 = false ∧ (pageState.baseDisp { mem1 with disp := 8 }).toNat % 128 ≠ 0 ∧
    (∀ i < 4, (allBlocks.issue.pre.blocks.get .none i).used = true) ∧ (allBlocks.baseDisp mem1).toNat % 128 = 0 ∧
    (heldState.core 0).blockAt 0 (heldState.baseDisp mem1) 1 = true ∧ heldBytes = true ∧ 4 ≤ (memState.issue.pre.getX 6).toNat ∧
    (waitState.issue.pre.blocks.get .none 0).used = true ∧ (waitState.issue.pre.blocks.get .none 0).broken = false ∧
    (waitState.issue.pre.blocks.get .none 0).filled = false ∧ (pageState.baseDisp mem1).toNat % 128 = 0 ∧
    (∀ n ∈ [1, 16], reads (pageState.resolveIn { line := true } (pieces (pageState.baseDisp mem1) (128 * n))) = true) ∧
    finds (pageState.resolveIn { write := true } (pieces (lineOf (pageState.ea mem1)) 128)) = true ∧
    pageState.regionFor pageState.me (pageState.ea mem1) = none ∧
    (blockState.issue.pre.getX 12).toNat = 0 ∧ (blockState.issue.pre.blocks.get .none 0).filled = true ∧
    (blockState.issue.pre.getX 10).toNat = 2 ∧ (blockState.issue.pre.blocks.get .none 2).broken = true ∧
    (blockState.issue.pre.getX 11).toNat = 3 ∧ (blockState.issue.pre.blocks.get .none 3).used = false ∧
    (∀ os wr, Ready memState os wr) ∧ (∀ os wr, Ready blockState os wr) ∧
    reads (memState.resolveIn {} (pieces (lineOf (memState.ea mem1)) 128)) = true ∧
    bits (memState.ea mem1) 48 16 = 0xFF ∧ memState.regionFor memState.me (memState.ea mem1) = none ∧
    (blockState.regionFor blockState.me 0x4000).isSome = true ∧ canonical 0x4000 = true ∧ bits (0x4000 : Word) 48 16 = 0 ∧
    blockState.ea { mem1 with base := 9 } = 0x4000 ∧
    finds (memState.resolveIn { write := true } (pieces (lineOf (memState.ea mem1)) 128)) = true := by
  refine ⟨by decide, by decide, by decide, by decide, by decide, by decide, by decide, by decide, by decide, by decide +kernel, by decide, by decide,
    by decide, by decide, by decide, by decide +kernel, by decide +kernel, by decide +kernel,
    by decide, by decide, by decide, by decide, by decide, by decide, memState_ready, fun os wr => ⟨rfl, ?_, ?_, ?_⟩, by decide +kernel, by decide, by decide +kernel, by decide +kernel, by decide, by decide,
    by decide, by decide +kernel⟩
  · intro e he; simp [blockState, blockBank, runner, memBank, bankX, Ctx.idle] at he
  · intro q hq; simp [blockState, blockBank, runner, memBank, bankX, Ctx.idle] at hq
  · intro r _; cases r <;> simp [Ctx.spoilt, blockState, blockBank, runner, memBank, bankX, Ctx.idle]

def faults (r : Except XFault (List (Nat × Nat)) × State) : Bool := !finds r

theorem witness_MisalignedAndTranslationFaults : (∀ os wr, Ready memState os wr) ∧ memState.issue.pre.loadsOut < 64 ∧
    (let f := { mem1 with base := 7, ord := 1, scope := 1 }
     f.ord ≠ 0 ∧ (memState.ea f).toNat % 8 ≠ 0) ∧
    (let f := { mem1 with base := 6, ord := 1, scope := 1 }
     ∀ w ∈ [2, 4, 8], (memState.ea f).toNat % w ≠ 0) ∧
    (memState.baseDisp { mem1 with base := 7, scl := 3 }).toNat % atomWidth 3 ≠ 0 ∧
    (let f := { mem1 with base := 6 }
     f.ord = 0 ∧ faults (memState.resolveIn {} (pieces (memState.ea f) 8)) = true ∧
     faults (memState.resolveIn { write := true } (pieces (memState.ea f) 8)) = true) :=
  ⟨memState_ready, by decide, ⟨by decide, by decide⟩, by decide, by decide, rfl, by decide +kernel, by decide +kernel⟩

/-! Slots Y and C. -/

def loopEntry : LoopEntry := ⟨false, 1, 2, 1, 0⟩
def yBank : Ctx := { memBank with pc := 128, loop := [loopEntry] }
def yState : State := runner yBank 0

theorem yState_ready (os : List Opd) (wr : List Reg) : Ready yState os wr := runner_ready _ _ _ _ rfl rfl rfl rfl

theorem witness_BranchesAndCalls : (∀ os wr, Ready yState os wr) ∧ (yState.srcX (opA .x { sr0 with a := 1 })).toNat % 64 = 0 ∧
    (yState.srcX (opA .x { sr0 with a := 7 })).toNat % 64 ≠ 0 := ⟨yState_ready, by decide, by decide⟩

/-- Counts of zero and more, a stack of no, one and six entries, a repeat at its own bundle, loops that end here. -/
theorem witness_LoopsRepeatsAndBackEdges : (∀ os wr, Ready yState os wr) ∧
    (yState.issue.pre.getX 0).setWidth 32 = (0 : BitVec 32) ∧ (yState.issue.pre.getX 6).setWidth 32 ≠ (0 : BitVec 32) ∧
    yState.issue.pre.loop.length < 6 ∧ (runner { yBank with loop := List.replicate 6 loopEntry } 0).issue.pre.loop.length = 6 ∧
    yState.issue.pre.loop[1 - 1]? = some loopEntry ∧
    (runner { yBank with loop := List.replicate 6 loopEntry } 0).issue.pre.loop[6 - 1]? = some loopEntry ∧
    yState.issue.pre.repeating yState.issue.pre.pc = false ∧ finderCapable yState.issue.core = true ∧
    (let k := { yBank with loop := [⟨true, 2, 2, 1, 0⟩] }
     (runner k 0).issue.pre.repeating (runner k 0).issue.pre.pc = true) ∧
    ({ Issue.none with npc := some 64 } : Issue).npc = some 64 ∧ Issue.none.npc = none ∧ Issue.none.push = none ∧
    (∀ e ∈ Ctx.idle.loop.head?, e.last ≠ bundleOf (Issue.none.pre.pc)) ∧
    (let i : Issue := { Issue.none with pre := yBank }
     i.npc = none ∧ i.push = none ∧ loopEntry.repf = false ∧ loopEntry.last = bundleOf i.pre.pc ∧ loopEntry.rem = 1 ∧
     ({ loopEntry with rem := 2 } : LoopEntry).rem ≠ 1 ∧ ∀ o ∈ ([] : List LoopEntry).head?, o.last ≠ loopEntry.last) :=
  ⟨yState_ready, by decide, by decide, by decide, by decide, by decide, by decide, by decide, by decide, by decide, rfl, rfl, rfl, by decide,
    rfl, rfl, rfl, by decide, rfl, by decide, by decide⟩

/-- A launch of job 0 with one pipeline of one declared stage. -/
def launch0 : Launch := ⟨0, 0, 0, 0, [8, 0, 0, 0, 0, 0], [4, 1, 1, 1, 1, 1], 0, 0, 0, 1, 0, 0, 0, 64, 0, 0, [(0, ⟨64, 0, 256, 0, 1⟩)], [], 0, 4, []⟩
def postState : State := { yState with disp := ⟨[], 0, [launch0], 1, [], [], [], 1⟩ }
def record0 : Rec := ⟨7, 0, 64, 0, 0, 0, 0, 0, 0, 0, 0, 0, 0, 0, 0, none, false, false, none, 0, 0, 0, none, none, [8, 0, 0, 0, 0, 0], 256⟩
def fullState : State := { postState with disp := { postState.disp with recs := [record0] } }
def mainRecord (s : State) (b : List Host.Cell) : State := { s with mem := b, issue := { s.issue with mem0 := b } }

/-- The record at x1 is read; whether it passes its check, and whether its stage has room. -/
def posts (s : State) (kind : Nat) (ok room : Bool) : Bool :=
  match (s.latchAll [opA .x { sr0 with a := 1 }]).resolveIn {} (pieces (s.srcX (opA .x { sr0 with a := 1 })) 64) with
  | (.ok parts, t) =>
    let r := RecIn.ofBytes (t.bytesRead parts)
    let u := t.afterRead parts
    !t.badRead parts && !t.readWaits parts && (u.recordOk s.issue.pre.job kind r == ok) && (!ok || (u.mayEnter s.issue.pre.job (bits r.ctrl 8 8) (bits r.ctrl 2 3) == room)) &&
      !u.storesStuck u.issue.core u.issue.bank && !u.imagesOut
  | _ => false

theorem witness_PostsEnterOrAreRejected : (∀ os wr, Ready yState os wr) ∧ (yState.srcX (opA .x { sr0 with a := 1 })).toNat % 64 = 0 ∧
    (∀ kind ∈ [0, 1, 2], posts postState kind true true = true ∧ posts fullState kind true false = true ∧ posts yState kind false false = true) ∧
    postState.issue.pre.blocked = none := ⟨yState_ready, by decide, by decide +kernel, rfl⟩

/-- A bank with a JOINP, memory and marks in its own LDM, and a launch whose one counter stands 8 bytes into the LDM. -/
def joinAs (joinp : Word) (m : List Host.Cell) (marks : List (Nat × Bool)) : State :=
  { mainRecord (runner { yBank with joinp := joinp } 0) m with
    bad := marks, disp := ⟨[], 0, [{ launch0 with jmask := 1, jbase := ldm + 8 }], 1, [], [], [], 1⟩ }
def joinState : State := joinAs ldm [(ldmKey 0 0, 2)] []

/-- The clause of the decrement that a state meets. -/
def joinCase (s : State) : Nat :=
  if s.issue.pre.joinp = 0 then 0
  else if !counterAt s then 1
  else
    match s.resolve s.me { write := true, atomic := true } (pieces s.issue.pre.joinp 8) with
    | (.error _, _) => 2
    | (.ok parts, t) =>
      let n := word (ofLeBytes (t.view t.mem parts))
      if viewBad t.bad parts then 3
      else if n.toInt ≤ 0 then 4
      else if 1 < n.toInt then 5
      else if (s.launchCounter s.issue.pre.job s.issue.pre.joinp).isSome then 6
      else
        match t.resolve t.me {} (pieces (s.issue.pre.joinp + 64) 64) with
        | (.error _, _) => 7
        | (.ok ps, u) => if viewBad u.bad ps then 8 else 9

/-- An operand image of an earlier bundle has yet to be read. -/
def imageYet : QEntry := ⟨4, 7, false, [], [], { Need.none with img := some (.fp32, [(ldmKey 0 0, 16)]) }, some ⟨.nop, -1, none, 0, yBank.regs, [], 0⟩⟩

def jadds (s : State) : Bool :=
  match s.resolveIn { write := true, atomic := true } (pieces (s.issue.pre.getX 1) 8) with
  | (.ok [(key, 8)], t) => !t.storesFirst [(key, 8)] && !isReg key && !anyBad t.bad key 8 && !t.behindOwn [(key, 8)] && !t.imageBefore [(key, 8)]
  | _ => false

theorem witness_JoinsAndRetirement : (∀ os wr, Ready yState os wr) ∧ (yState.issue.pre.getX 1).toNat % 8 = 0 ∧ jadds yState = true ∧
    yState.issue.pre.settled = true ∧ yState.storesStuck yState.issue.core yState.issue.bank = false ∧
    posts postState 0 true true = true ∧
    [joinAs 0 [] [], joinAs (ldm + 4) [] [], joinAs 64 [] [], joinAs ldm [] [(ldmKey 0 7, true)], joinAs ldm [] [],
      joinAs (ldm + 8) [(ldmKey 0 8, 2)] [], joinAs (ldm + 8) [(ldmKey 0 8, 1)] [], joinAs (ldm + 0x1FFFC0) [(ldmKey 0 0x1FFFC0, 1)] [],
      joinAs ldm [(ldmKey 0 0, 1)] [(ldmKey 0 127, true)], joinAs ldm [(ldmKey 0 0, 1)] []].map joinCase = [0, 1, 2, 3, 4, 5, 6, 7, 8, 9] :=
  ⟨yState_ready, by decide, by decide +kernel, by decide, by decide, by decide +kernel, by decide +kernel⟩

/-- Handles 0 to 4095 of each state, words that differ and agree, queues empty and not, rings with and without room. -/
def handleIn (st : HState) : State := { yState with handles := [(0, { Handle.free with state := st })] }

def waitaFinds (s : State) (v : Word) : Bool :=
  match (s.latchAll [opA .x { sr0 with a := 1 }, opB .x { sr0 with a := 1 }, opC .x { sr0 with a := 1 }]).resolveIn {}
    (pieces (s.srcX (opA .x { sr0 with a := 1 })) 8) with
  | (.ok parts, t) => word (ofLeBytes (t.bytesRead parts)) = v && !t.badRead parts && !t.readWaits parts
  | _ => false

theorem witness_WaitsFencesAndRings : (∀ os wr, Ready yState os wr) ∧ (handleIn .ready).handleState 0 0 = .ready ∧
    (handleIn .pending).handleState 0 0 = .pending ∧ (handleIn .error).handleState 0 0 = .error ∧ yState.handleState 0 4095 = .free ∧
    (yState.srcX (opA .x { sr0 with a := 1 })).toNat % 8 = 0 ∧ waitaFinds yState 0 = true ∧ waitaFinds joinState 2 = true ∧
    yState.issue.pre.expired = false ∧ yState.orderedOut yState.issue.core yState.issue.bank = false ∧
    yState.storesStuck yState.issue.core yState.issue.bank = false ∧ yState.copiesOut = false ∧
    yState.reductionsOut yState.issue.core yState.issue.bank = false ∧ yState.issue.pre.queue = [] ∧
    (runner { yBank with queue := [⟨2, 0, false, [], [], ⟨none, none, none, []⟩, none⟩] } 0).issue.pre.queue ≠ [] ∧ yState.imagesOut = false ∧
    (runner { yBank with queue := [imageYet] } 0).imagesOut = true ∧
    (let s : State := { runner { yBank with since := some 5 } 0 with jobs := [(0, { Job.idle with qstat := 13 })] }
     s.issue.pre.since = some 5 ∧ (s.job s.issue.pre.job).quietSince 5 = true) ∧ yState.issue.pre.since = none ∧
    (yState.issue.pre.getRing 7).fill = (yState.issue.pre.getRing 7).rsv ∧
    (let r := (runner { yBank with ring := [(7, ⟨0, 32, 31, 32, 32⟩)] } 0).issue.pre.getRing 7
     r.len ≠ 0 ∧ 32 ≤ r.len ∧ 32 ≤ r.rsv ∧ 32 ≤ r.fill) ∧
    (let r := (runner { yBank with ring := [(7, ⟨0, 32, 31, 0, 0⟩)] } 0).issue.pre.getRing 7
     r.len ≠ 0 ∧ 32 ≤ r.len ∧ r.rsv + 32 ≤ r.len ∧ r.fill = r.rsv) :=
  ⟨yState_ready, by decide, by decide, by decide, by decide, by decide, by decide +kernel, by decide +kernel, rfl, by decide, by decide, by decide +kernel,
    by decide, rfl, by decide, by decide, by decide, ⟨rfl, by decide⟩, rfl, by decide, by decide, by decide⟩

/-- Barriers in the own LDM: one whose phase the task expects, one whose phase has moved, sixteen at once. -/
theorem witness_BarrierOperations :
    (let f := { sr0 with a := 1, b := 6, d := 9 }
     AtBarrier yState (yState.latchAll [opA .x f, opB .x f]) f [.x 9] (ldmKey 0 0) ∧ (yState.srcX (opB .x f)).toNat % 2 ^ 20 ≠ 0 ∧
     -(2 ^ 39 : Int) ≤ (yState.srcX (opB .x f)).toInt ∧ (yState.srcX (opB .x f)).toInt < 2 ^ 39 ∧
     yState.storesStuck 0 0 = false ∧ yState.reductionsOut 0 0 = false ∧ yState.imagesOut = false ∧
     yState.behindOwn [(ldmKey 0 0, 16)] = false ∧ yState.storesFirst [(ldmKey 0 0, 16)] = false ∧ anyBad yState.bad (ldmKey 0 0) 16 = false ∧
     (yState.barrier (ldmKey 0 0)).phase ≠ (yState.srcX (opB .x f)).toNat % 16 ∧
     (yState.barrier (ldmKey 0 0)).phase = (yState.srcX (opB .x { f with b := 0 })).toNat % 16) ∧
    (∀ n : Int, n ∈ [-(2 ^ 39), 2 ^ 39 - 1] → -(2 ^ 39 : Int) ≤ (BitVec.ofInt 64 n).toInt ∧ (BitVec.ofInt 64 n).toInt < 2 ^ 39) ∧
    (isOk (yState.barrierKeys ldm 16 0 []) = true) ∧
    (yState.flipped [ldmKey 0 0, ldmKey 0 16] 0x10 0 = some (1, ldmKey 0 16)) ∧
    (let b : Barrier := ⟨15, 1, 3, 0, false⟩
     b.pending = 1 ∧ (b.sectors + (0 : Int)) % 2 ^ 40 = 0 ∧ b.phase < 16) ∧
    (let b : Barrier := ⟨15, 2 ^ 20 - 1, 2 ^ 20 - 1, 2 ^ 40 - 1, true⟩
     b.phase < 16 ∧ b.pending < 2 ^ 20 ∧ b.init < 2 ^ 20 ∧ b.sectors < 2 ^ 40 ∧ 1 < b.pending) :=
  ⟨⟨⟨yState_ready _ _, rfl, by decide, by decide +kernel, by decide +kernel⟩, by decide, by decide, by decide, by decide, by decide, by decide, by decide, by decide, by decide +kernel,
    by decide +kernel, by decide +kernel⟩, by decide, by decide +kernel, by decide +kernel, by decide, by decide⟩

def supBank : Ctx := { yBank with mode := .supervisor, epc := 192, aside := some .clear }
def supState : State := runner supBank 0
theorem supState_ready (os : List Opd) (wr : List Reg) : Ready supState os wr := runner_ready _ _ _ _ rfl rfl rfl rfl

theorem witness_TrapInstructionsAndReturn : (∀ os wr, Ready yState os wr) ∧ (∀ os wr, Ready supState os wr) ∧ (idler yBank 0).active = false ∧
    supState.issue.pre.mode = .supervisor ∧ supState.issue.pre.nores = false ∧ supBank.aside = some .clear ∧
    (runner { supBank with nores := true } 0).issue.pre.nores = true ∧ yState.issue.pre.mode = .user :=
  ⟨yState_ready, supState_ready, by decide, rfl, rfl, rfl, rfl, rfl⟩

theorem witness_TrapEntryParksAndDoubleTraps :
    (let i : TrapInfo := ⟨255, 0, 0, 0, 0, false, false, 64⟩
     ((yState.ctx 0 0).mode = .user ∨ i.async = true) ∧ i.cause < 256 ∧ (yState.ctx 0 0).qw = false) ∧
    (let s : State := { supState with jobs := [(0, { Job.idle with active := true })] }
     (s.ctx 0 0).mode = .supervisor ∧ (s.ctx 0 0).job = 0 ∧ (s.ctx 0 0).occupied = true ∧ (s.job 0).active = true ∧ (s.job 0).kstat = 0) ∧
    yState.issue.pre.mode = .user := ⟨⟨Or.inl rfl, by decide, rfl⟩, by decide, rfl⟩

/-- Every selector of the two lists, in a supervisor bank of a finder-capable core. -/
theorem witness_SystemRegisterMoves : (∀ os wr, Ready supState os wr) ∧ supState.issue.pre.mode = .supervisor ∧
    finderCapable supState.issue.core = true ∧ (∀ sel ∈ [0x00, 0x0A, 0x10, 0x15, 0x18, 0x1B, 0x1C], sel ∈ (sysRegs supState).map (·.1)) ∧
    (∀ sel ∈ [0x05, 0x08, 0x0A, 0x10, 0x15, 0x18, 0x19, 0x1B], sel ∈ (sysWrites supState 0).map (·.1)) ∧ yState.issue.pre.mode = .user ∧
    (0x15 : BitVec 32).toNat % 4096 = 0x15 :=
  ⟨supState_ready, rfl, by decide, by decide +kernel, by decide +kernel, rfl, by decide⟩

/-- The other bank in each of its states; images that pass and fail their check. -/
def otherBank (st : Status) : State := { supState with cores := [(0, { Core.idle with b0 := supBank, b1 := { Ctx.idle with status := st } })] }

def csaves (s : State) : Bool :=
  match (s.latchAll [opA .x { sr0 with a := 1 }]).resolveIn { write := true } (pieces (s.srcX (opA .x { sr0 with a := 1 })) ctxImageLen) with
  | (.ok _, t) => (t.ctx t.issue.core (1 - t.issue.bank)).queue = [] && (t.ctx t.issue.core (1 - t.issue.bank)).pend = [] &&
      !t.storesStuck t.issue.core (1 - t.issue.bank)
  | _ => false

def cloads (s : State) : Bool :=
  match (s.latchAll [opA .x { sr0 with a := 1 }]).resolveIn {} (pieces (s.srcX (opA .x { sr0 with a := 1 })) ctxImageLen) with
  | (.ok parts, t) => !t.badRead parts && !t.readWaits parts && !imageOk (t.bytesRead parts)
  | _ => false

/-- A parked bank with a register that a merge member keeps busy. -/
def mergingBank : State :=
  { supState with cores := [(0, { Core.idle with b0 := supBank, b1 := { Ctx.idle with status := .parked .event, pend := [⟨.a 0, .merge, 3, false, 0, none, none, false⟩] } })] }

def cwithdraws (s : State) : Bool :=
  match (s.latchAll [opA .x { sr0 with a := 1 }]).resolveIn { write := true } (pieces (s.srcX (opA .x { sr0 with a := 1 })) ctxImageLen) with
  | (.ok _, t) => (t.ctx t.issue.core (1 - t.issue.bank)).pend ≠ []
  | _ => false

theorem witness_YieldsEventsAndContextMoves : (∀ os wr, Ready yState os wr) ∧ (∀ os wr, Ready supState os wr) ∧
    (511 : Word).toNat < 512 ∧ yState.pkg.trcEn = false ∧
    (let s : State := { yState with pkg := { yState.pkg with trcEn := true } }
     s.pkg.trcEn = true ∧ (s.core s.issue.core).tracing = false) ∧
    supState.issue.pre.mode = .supervisor ∧ (supState.srcX (opA .x { sr0 with a := 1 })).toNat % 4096 = 0 ∧
    ((otherBank .idle).ctx 0 1).status = .idle ∧ (otherBank .idle).issue.bank < 2 ∧ ((otherBank .resumable).ctx 0 1).status = .resumable ∧
    ((otherBank (.parked .event)).ctx 0 1).status = .parked .event ∧ csaves (otherBank .resumable) = true ∧
    ((mergingBank.ctx 0 1).status = .parked .event ∧ cwithdraws mergingBank = true) ∧
    ((otherBank .idle).ctx 0 1).occupied = false ∧ ((otherBank .resumable).ctx 0 1).occupied = true ∧ cloads (otherBank .idle) = true :=
  ⟨yState_ready, supState_ready, by decide, rfl, ⟨rfl, rfl⟩, rfl, by decide, by decide, by decide, by decide, by decide, by decide +kernel,
    ⟨by decide, by decide +kernel⟩, by decide, by decide, by decide +kernel⟩

/-- A job with links to package 3: queue 2 sends and receives, full of bytes that wrap; the port is up. -/
def linkJob : Job := { Job.idle with active := true, peert := 0, links := [(3, 2, false), (3, 2, true)], stream := [(50, 65528, 65536)] }
def cState : State :=
  { runner { memBank with x := [(1, ldm), (2, 0x20003), (3, 8), (4, 1), (5, 256), (6, 3), (7, 64), (8, 0x100000001)] } 7 with
    port := { State.reset.port with up := true }, jobs := [(0, linkJob)] }
theorem cState_ready (os : List Opd) (wr : List Reg) : Ready cState os wr := by
  refine ⟨by decide, ?_, ?_, ?_⟩
  · intro e he; simp [cState, runner, memBank, bankX, Ctx.idle] at he
  · intro q hq; simp [cState, runner, memBank, bankX, Ctx.idle] at hq
  · intro r _; cases r <;> simp [Ctx.spoilt, cState, runner, memBank, bankX, Ctx.idle]

theorem witness_CopyDescriptorsAndCommands : (∀ os wr, Ready cState os wr) ∧
    ((0xFFFFFF : Nat) < 2 ^ 24 ∧ cState.srcX (opB .x { sr0 with b := 3 }) = (8 : BitVec 40).signExtend 64 ∧
      (-1 : Word) = (-1 : BitVec 40).signExtend 64 ∧ cState.srcX (opA .x { sr0 with a := 5 }) = BitVec.ofNat 64 256) ∧
    (1 ≤ (cState.srcX (opA .x { sr0 with a := 4 })).toNat ∧ (cState.srcX (opA .x { sr0 with a := 5 })).toNat ≤ 256) ∧
    (cState.srcX (opA .x { sr0 with a := 1 })).toNat % 16 = 0 ∧ isOk (cState.barrierKey cState.me (cState.srcX (opA .x { sr0 with a := 1 }))) = true ∧
    (cState.srcX (opA .x { sr0 with a := 1 })).toNat % 8 = 0 ∧
    (let s : State := runner { memBank with shadow := { CopyDesc.clear with src := ldm, dst := ldm + 256, run := 64, cnt := [1, 1, 1, 1, 1, 1] } } 7
     s.issue.pre.shadow.ok = true ∧ (s.core s.issue.core).engine.waiting = none ∧ (s.core s.issue.core).engine.claims = [] ∧ s.imagesOut = false) ∧
    ({ Core.idle with b1 := { Ctx.idle with status := .resumable, serial := 3, pc := 64 }, engine := { Engine.idle with claims := [(3, 64)] } } : Core).claimed 0 = true ∧
    cState.storesStuck cState.issue.core cState.issue.bank = false ∧ cState.reductionsOut cState.issue.core cState.issue.bank = false ∧
    (runner { memBank with shadow := { CopyDesc.clear with flaga := 8, flagv := -1 } } 7).issue.pre.shadow.ok = false ∧
    extentOf (cState.srcX (opA .x { sr0 with a := 8 })) = some (1, 1) ∧ (cState.srcX (opB .x { sr0 with b := 1 })).toNat % 16384 = 0 ∧
    (cState.core cState.issue.core).findEn = false ∧
    (let s : State := { cState with cores := [(0, { Core.idle with b0 := memBank, findEn := true })] }
     (s.core s.issue.core).findEn = true) ∧
    cState.issue.find.1 = false ∧ (∀ r ∈ (opC .x sr0).copies, cState.later r = false) ∧
    ({ cState with issue := { cState.issue with find := (true, 7) } } : State).issue.find.1 = true ∧
    cState.asking = false ∧ ({ cState with hreqs := [⟨5, cState.issue.core, cState.issue.bank, 0, 0, false, 9, 0, .upgrade 1⟩] } : State).asking = true ∧
    (∀ h ∈ [HState.free, .pending, .ready, .error], (handleIn h).handleState 0 0 = h ∧ (handleIn h).asking = false) ∧ cState.issue.pre.await ≠ some (.release 0) ∧
    ({ memBank with await := some (.release 0) } : Ctx).await = some (.release 0) := by
  refine ⟨cState_ready, ⟨by decide, by decide, by decide, by decide⟩, ⟨by decide, by decide⟩, by decide, by decide +kernel, by decide,
    ⟨by decide +kernel, rfl, rfl, by decide⟩, by decide, by decide, by decide, by decide +kernel, by decide +kernel, by decide, rfl, rfl, rfl, by decide, rfl, by decide, by decide, by decide, by decide, rfl⟩

/-- The bytes that a link transfer reads or writes. -/
def linkFinds (s : State) (write : Bool) : Bool :=
  let f := { sr0 with a := 1, b := 2, c := 3 }
  match (s.latchAll [opA .x f, opB .x f, opC .x f]).resolveIn { write := write } (pieces (s.srcX (opA .x f)) (s.srcX (opC .x f)).toNat) with
  | (.ok parts, t) => !t.badRead parts && !t.readWaits parts && (t.job 0).stream.get (0, 0) 50 = (65528, 65536) &&
      (s.srcX (opC .x f)).toNat ≤ 65536 && !t.storesStuck t.issue.core t.issue.bank &&
      !(t.flush t.issue.core t.issue.bank).imageBefore parts && !(t.flush t.issue.core t.issue.bank).behindOwn parts
  | _ => false

theorem witness_MessagesLinksAndGeneratorKey : (∀ os wr, Ready cState os wr) ∧
    SendOk cState (cState.srcX (opA .x { sr0 with a := 7 })) (cState.srcX (opB .x { sr0 with b := 6 })) ∧
    (memBank.getV 2).tag ≠ .poison ∧
    (let f := { sr0 with a := 1, b := 2, c := 3 }
     (cState.srcX (opA .x f)).toNat % 8 = 0 ∧ (cState.srcX (opB .x f)).toNat < 2 ^ 20 ∧ 8 ≤ (cState.srcX (opC .x f)).toNat ∧
     (cState.srcX (opC .x f)).toNat ≤ 65536 ∧ (cState.srcX (opC .x f)).toNat % 8 = 0 ∧ cState.port.up = true ∧
     (cState.job 0).links.contains ((cState.srcX (opB .x f)).toNat % 2 ^ 16, (cState.srcX (opB .x f)).toNat / 2 ^ 16, false) = true ∧
     (cState.job 0).links.contains ((cState.srcX (opB .x f)).toNat % 2 ^ 16, (cState.srcX (opB .x f)).toNat / 2 ^ 16, true) = true ∧
     (cState.job 0).broken.get false (16 * ((cState.srcX (opB .x f)).toNat % 2 ^ 16) + (cState.srcX (opB .x f)).toNat / 2 ^ 16) = false) ∧
    linkFinds cState false = true ∧ linkFinds cState true = true := by
  refine ⟨cState_ready, ⟨by decide, by decide, by decide, by decide⟩, by decide, by decide, by decide +kernel, by decide +kernel⟩

/-! Events.  `about` puts operands beside a package. -/

def evS : State := State.reset
def about (s : State) (a : EventArg) : State := { s with arg := a }
def none0 : EventArg := EventArg.none

/-- One core with a bank, at a time. -/
def evBank (k : Ctx) (now : Word) : State := { evS with cores := [(0, { Core.idle with b0 := k })], sidereal := now }

def pend0 (r : Reg) (why : PendWhy) (bad : Bool := false) : Pend := ⟨r, why, 9, bad, 1, none, none, false⟩
def entry0 : QEntry := ⟨4, 3, false, [], [.v 4], Need.none, none⟩

/-- Each wait, queue, load and buffer that an event ends; loads and tiles under token 9. -/
theorem witness_BankEventsTakePlace :
    (let s := evBank { bankX [] with await := some (.word 0 true 0), timeout := 1, since := some 0 } 1
     (theCtx s).status = .running ∧ (theCtx s).await = some (.word 0 true 0) ∧ (theCtx s).timeout ≠ 0 ∧ (theCtx s).since = some 0 ∧
     (theCtx s).timeout ≤ (s.sidereal - 0).toNat) ∧
    (let s := evBank { bankX [] with await := some .quiet, since := some 0 } 512
     (theCtx s).status = .running ∧ (theCtx s).await = some .quiet ∧ (theCtx s).since = some 0 ∧ 512 ≤ (s.sidereal - 0).toNat ∧
     (theCtx s).queue = [] ∧ (theCtx s).pend = [] ∧ (theCtx s).preq = none ∧ Await.quiet ≠ .swap ∧
     (theCtx (evBank { bankX [] with await := some .swap } 512)).await = some .swap ∧
     (theCtx (evBank { bankX [] with preq := some 0 } 512)).preq ≠ none ∧ (theCtx s).mode = .user) ∧
    ((511 : Word) - 0).toNat < 512 ∧
    (let s := about (evBank { bankX [] with queue := [entry0] } 0) { none0 with n := 4 }
     (theCtx s).queue.find? (fun q => q.slot = s.arg.n) = some entry0 ∧ entry0.late = none ∧ entry0.mwait = false ∧
     s.headReady 0 0 entry0 = true ∧
     (about (evBank { bankX [] with queue := [entry0], pend := [pend0 (.v 4) .load] } 0) { none0 with n := 4 }).headReady 0 0 entry0 = false) ∧
    (let e := { entry0 with mwait := true }
     let s := about (evBank { bankX [] with queue := [e], pend := [pend0 (.t 1) .matrix] } 0) { none0 with n := 4 }
     (theCtx s).queue.find? (fun q => q.slot = s.arg.n) = some e ∧ (pend0 (.t 1) .matrix).bundle < e.bundle ∧ (theCore s).exp = [] ∧
     (theCtx (evBank { bankX [] with queue := [e] } 0)).pend = [] ∧
     ((evBank { bankX [] with queue := [e] } 0).releaseStacksOf 0 0).siblingsReady 0 0 e = true) := by decide +kernel

theorem witness_BankEventsTakePlace_data :
    (let s := about (evBank { bankX [] with pend := [pend0 (.t 1) (.tile none)] } 0) { none0 with n := 9 }
     (theCtx s).pend = [pend0 (.t 1) (.tile none)] ∧ s.xsBusy 0 (pend0 (.t 1) (.tile none)).xs = false) ∧
    (let s := about (evBank { bankX [] with pend := [pend0 (.t 1) (.tile none) true] } 0) { none0 with n := 9 }
     (theCtx s).pend = [pend0 (.t 1) (.tile none) true] ∧ (pend0 (.t 1) (.tile none) true).bad = true) ∧
    (let s := about (evBank { bankX [] with pend := [pend0 (.t 1) (.tile (some 2))] } 0) { none0 with n := 9 }
     (theCtx s).pend = [pend0 (.t 1) (.tile (some 2))]) ∧
    (let e := { pend0 (.t 1) (.tile none) with xs := some 0 }
     let s : State := { evS with cores := [(0, { Core.idle with b0 := { bankX [] with pend := [e] }, exp := [(0, ⟨true, 0, 0, true, [], false, 0⟩)] })],
                                 arg := { none0 with n := 9 } }
     (theCtx s).pend.find? (fun e => e.n = s.arg.n && (match e.why with
      | .tile _ => true
      | _ => false)) = some e ∧ ((theCore s).exp.get .none 0).busy = true) ∧
    (let s := about (evBank { bankX [] with pend := [pend0 (.x 63) .load true, pend0 (.x 1) .matrix] } 0) { none0 with n := 9 }
     pend0 (.x 63) .load true ∈ (theCtx s).pend ∧ (pend0 (.x 63) .load true).n = s.arg.n ∧ ∀ e ∈ (theCtx s).pend, e.why = .matrix → e.bad = false) ∧
    (let s := about (evBank { bankX [] with blocks := [(3, ⟨true, 0, [], 1, false, false⟩)] } 0) { none0 with n := 3 }
     ((theCtx s).blocks.get .none s.arg.n).used = true ∧ ((theCtx s).blocks.get .none s.arg.n).broken = false) ∧
    (let s := evBank { bankX [] with rbq := [0, 0, 0, 0, 0, 0, 0] } 0
     (theCtx s).status ≠ .idle ∧ (theCtx s).rbq.length < 8) ∧
    (let s : State := { about (evBank (bankX []) 0) { none0 with n := 5 } with fabric := { evS.fabric with events := [(5, 0, 0, 0, false)] } }
     s.fabric.events.find? (fun e => e.1 = s.arg.n) = some (5, 0, 0, 0, false) ∧ (s.ctx 0 0).status ≠ .idle ∧ (s.ctx 0 0).job = 0 ∧
     (s.ctx 0 1).status = .idle) := by decide +kernel

/-- VADD v4, v1, v2 and AZERO a0 in their queues, over the registers as their bundle found them. -/
def lateOp (i : Instr) (k : Ctx) : LateOp := ⟨i, -1, none, 128, k.regs, [], 0⟩
def lateAdd (v : List (Nat × VReg)) : QEntry :=
  ⟨2, 3, false, [.v 1, .v 2], [.v 4], Need.none, some (lateOp (.vadd .v0 { sr0 with d := 4, a := 1, b := 2 }) { bankX [] with v := v })⟩
def lateZero : QEntry := ⟨4, 3, false, [], [.a 0], Need.none, some (lateOp (.azero { mx0 with a := 0x23 }) (bankX []))⟩
def queueState (e : QEntry) : State := about (evBank { bankX [] with queue := [e], pend := [pend0 (.v 9) .load] } 0) { none0 with n := e.slot }

/-- How a queued operation ends as it leaves its queue. -/
def leaves (s : State) (e : QEntry) (trap ahead : Bool) : Bool :=
  match e.late with
  | some o =>
    s.headReady 0 0 e && (match s.carryOut 0 0 e o with
      | .next t => t.arg = s.arg && (match t.issue.verdict with
        | .commit => !trap && (s.engineAhead 0 e == ahead) && !t.issue.joined
        | .trap _ _ => trap && (theCtx s).siblingsHave e && (theCtx s).queue.all (fun q => decide (e.bundle ≤ q.bundle)) &&
            ((theCtx s).siblings e).all fun q => decide (e.slot ≤ q.slot)
        | _ => false)
      | _ => false)
  | none => false

/-- An inactive MMAM in its queue, which joins no stack, while a released stack of its cluster waits for an engine. -/
def lateMmam : QEntry :=
  ⟨4, 3, false, [.t 1, .x 1], [.a 0], { Need.none with img := some (.int8, [(ldmKey 0 0, imageLen)]) },
    some { lateOp (.mmam { mxImage with mrg := 1 }) (tileBank .int8 .int8 ⟨.acc32i, 0, []⟩) with cond := 0 }⟩
def aheadState (e : QEntry) : State :=
  { about (evBank { bankX [] with queue := [e] } 0) { none0 with n := e.slot } with
    clusters := [(0, { Cluster.idle with stk := [⟨2, 0, 0, .int8, .int8, [], 96, 96, some 96, none, none, none, false⟩] })] }

theorem witness_BankEventsTakePlace_late :
    (let e := lateAdd [(1, ⟨.fp32, 1, 0⟩), (2, ⟨.fp32, 2, 0⟩)]
     leaves (queueState e) e false false = true) ∧
    (let e := lateAdd [(1, ⟨.poison, 1, 0⟩), (2, ⟨.fp32, 2, 0⟩)]
     leaves (queueState e) e true false = true) ∧
    leaves (aheadState lateMmam) lateMmam false true = true ∧ leaves (queueState lateZero) lateZero false false = true ∧ (queueState lateZero).splitOut 0 0 = false ∧
    (∀ e ∈ [lateAdd [], lateZero], (theCtx (queueState e)).queue.find? (fun q => q.slot = (queueState e).arg.n) = some e ∧
      ∀ q ∈ (theCtx (queueState e)).queue, e.bundle < q.bundle ∨ (e.bundle = q.bundle ∧ e.slot ≤ q.slot)) := by decide +kernel

/-- One reduction of the bank on its own LDM. -/
def reduction0 : Reduction :=
  { n := 3, core := 0, bank := 0, job := 0, asid := 0, sup := false, wid := 0, pc := 0, op := 0x10, scl := 3, ord := 0, scope := 0, va := ldm
    operand := 5, stage := 0, ctx := 5, fault := none }

def findsAt (s : State) (r : Reduction) : Bool :=
  match s.resolve r.agent { write := true, atomic := true } (pieces r.va r.width) with
  | (.ok [(key, w)], t) => w = r.width && !isReg key && !anyBad t.bad key r.width && t.fabric = s.fabric
  | _ => false

def store0 (unit : Nat) (release : Bool) (stamp : Option Word) : StoreOp := ⟨2, [(100, [7, 8])], false, release, 0, unit, stamp⟩

theorem witness_AccessesPerform :
    (∀ st ∈ [store0 0 false none, store0 1 false none, store0 1 true none],
      let s := about (evBank { bankX [] with stores := [st] } 0) { none0 with n := 2 }
      (theCtx s).stores = [st] ∧ s.imageWaits 0 0 st.n st.runs = false ∧ s.imageRuns 0 0 st.n = [] ∧ s.fabric.reductions = [] ∧ st.n = s.arg.n ∧
      st.stamp = none ∧ (st.unit = 0 ∨ unitsOf st.unit st.parts ≠ [])) ∧
    (let s := about (evBank { bankX [] with stores := [store0 0 true (some 512)] } 0) none0
     (theCtx s).stores = [store0 0 true (some 512)] ∧ s.imageWaits 0 0 2 (store0 0 true (some 512)).runs = false ∧ (store0 0 true (some 512)).stamp = some 512 ∧
     (s.cores.all fun e => e.2.b0.stamped.all (fun v => 512 ≤ v) && e.2.b1.stamped.all (fun v => 512 ≤ v)) = true) ∧
    (let q : ScWait := ⟨0, none, []⟩
     let s := evBank { bankX [] with sc := some q } 300
     (theCtx s).sc = some q ∧ q.stamp = none ∧ (theCtx s).status = .running ∧ (theCtx s).stores = [] ∧ s.fabric.reductions = [] ∧ s.imageRuns 0 0 s.fabric.nextItem = [] ∧
     (theCore s).scLast = none ∧ (512 : Word) = s.sidereal + word ((s.arg.core + 256 - s.sidereal.toNat % 256) % 256)) ∧
    (let a : ScAccess := ⟨5, .load, 100, 8, 7, 0, none, []⟩
     let q : ScWait := ⟨0, some 512, [a]⟩
     let s := evBank { bankX [] with sc := some q } 300
     (theCtx s).sc = some q ∧ q.stamp = some 512 ∧ a.result = none ∧ a.kind = .load ∧ (theCtx s).stores = [] ∧ isReg a.key = false ∧
     (s.cores.all fun e => e.2.b0.stamped.all (fun v => 512 ≤ v) && e.2.b1.stamped.all (fun v => 512 ≤ v)) = true) ∧
    (let s : State := { about evS { none0 with n := 3 } with fabric := { evS.fabric with reductions := [reduction0] } }
     s.fabric.reductions = [reduction0] ∧ reduction0.n = s.arg.n ∧ reduction0.stage = 0 ∧ reduction0.fault = none ∧ s.bankOf reduction0.ctx = none ∧ findsAt s reduction0 = true) ∧
    (let s : State := { about evS { none0 with n := 3 } with fabric := { evS.fabric with reductions := [{ reduction0 with stage := 1 }] } }
     s.fabric.reductions.find? (fun r => r.n = s.arg.n && r.stage = 1) = some { reduction0 with stage := 1 }) ∧
    (let s : State := { evBank { bankX [] with cycles := 200 } 0 with jobs := [(0, { Job.idle with tslice := 100 })] }
     (theCtx s).status = .running ∧ (theCtx s).mode = .user ∧ (theCtx s).sc = none ∧ (theCtx s).leaving = none ∧ (theCtx s).trapping = false ∧ s.drained 0 0 = true ∧ (s.job (theCtx s).job).tslice ≠ 0 ∧
     2 = (theCtx s).cycles.toNat / (s.job (theCtx s).job).tslice ∧ (theCtx s).slices < 2) := by decide +kernel

/-- A dispatcher with one record at a time, for an idle core 0. -/
def dispState (r : Rec) : State :=
  { about evS { none0 with n := 7 } with disp := ⟨[r], 8, [launch0], 1, [], [], [], 1⟩, jobs := [(0, { Job.idle with active := true, ceil := 3 })] }
def handler0 : Arrived := ⟨.handler, 0, 64, .words 1 2, 3, 0, 0, 0, 9, [8, 0, 0, 0, 0, 0], 1, some 0, 0⟩
def blocked0 : Blocked := ⟨0, 0, 0, 0, none, false, false⟩

/-- The core picks the record, the handler, the expansion entry; gates that have run out, records that have aged, posts that
wait: each at the first cycle that counts. -/
theorem witness_DispatcherPlacesAndAdmits :
    (let s := dispState record0
     s.arg.core < 256 ∧ s.offline s.arg.core = false ∧ (theCore s).idleBank = some 0 ∧ (s.pick s.arg.core).isSome = true ∧
     (s.pick s.arg.core).map (fun p => p.2.2) = some (.record 7) ∧ s.disp.recs.find? (fun r => r.id = 7) = some record0 ∧ record0.expand = false) ∧
    (let s : State := { evS with cores := [(0, { Core.idle with queue := [handler0] })] }
     (theCore s).idleBank = some 0 ∧ (s.pick 0).map (fun p => p.2) = some (0, .handler 0) ∧ (theCore s).queue[0]? = some handler0 ∧
     handler0.kind = .handler) ∧
    (let r := { record0 with expand := true, total := some 2, made := 1 }
     let s := dispState r
     (theCore s).idleBank = some 0 ∧ (s.pick s.arg.core).map (fun p => p.2.2) = some (.record s.arg.n) ∧
     s.disp.recs.find? (fun r => r.id = s.arg.n) = some r ∧ r.expand = true ∧ r.total = some 2 ∧ r.made < 2 ∧ r.handles = 0) ∧
    (let r := { record0 with gated := some 0 }
     let s : State := { dispState r with sidereal := 1024, jobs := [(0, { Job.idle with ptimeout := 1 })] }
     s.disp.recs = [r] ∧ r.id = s.arg.n ∧ r.gated = some 0 ∧ (s.job r.job).ptimeout ≠ 0 ∧
     max 1024 (s.job r.job).ptimeout ≤ (s.sidereal - 0).toNat) ∧
    (let s : State := { dispState record0 with sidereal := 2 ^ 20 }
     record0.prio < min (min 3 (s.job record0.job).ceil) (record0.prio0 + (s.sidereal - record0.time).toNat / 2 ^ 20)) ∧
    (let s : State := { about (evBank { bankX [] with blocked := some blocked0 } 1025) none0 with disp := ⟨[], 0, [launch0], 1, [], [], [], 1⟩ }
     s.stageRoom s.arg.n s.arg.m s.arg.k = true ∧ s.longestBlocked s.arg.n s.arg.m s.arg.k = some (0, 0, blocked0) ∧
     (theCtx s).blocked = some blocked0 ∧ blocked0.admitted = false ∧ blocked0.probe = none ∧ 1024 < (s.sidereal - blocked0.since).toNat ∧
     ({ blocked0 with probe := some 1 } : Blocked).probe = some 1 ∧ 1024 ≤ (s.sidereal - 1).toNat) ∧
    (let q := { blocked0 with returned := true }
     let s := about (evBank { bankX [] with blocked := some q } 0) none0
     let t := onCtx s (fun k => { k with blocked := some { q with returned := false } })
     (theCtx s).blocked = some q ∧ q.admitted = false ∧ q.returned = true ∧ (q.job, q.pipe, q.stage) ∉ s.disp.spent ∧
     t.longestBlocked q.job q.pipe q.stage = some (0, 0, { q with returned := false })) := by decide +kernel

/-- A grid of four tasks, header bytes that ask for a launch in the IOD's view of job 0, and posts of the host. -/
def hostState (n : Nat) : State :=
  { about evS { none0 with data := List.replicate 64 0 } with
    jobs := [(0, { Job.idle with active := true })], disp := { evS.disp with host := List.replicate n (0, []) } }

/-- Inputs for Obligations.HostPostsAndLaunches, its clauses about host posts. -/
theorem witness_HostPosts :
    (let s := hostState 31
     s.arg.n < 64 ∧ (s.job 0).active = true ∧ (s.job 0).kstat = 0 ∧ (s.job 0).tearing = false ∧ s.arg.data.length = 64 ∧ s.arg.m % 64 = 0 ∧
     (s.disp.host.filter fun e => e.1 = 0).length < 32 ∧ (RecIn.ofBytes s.arg.data).ctrl.getLsbD 5 = false) ∧
    (RecIn.ofBytes (List.replicate 64 0xFF)).ctrl.getLsbD 5 = true ∧
    (32 ≤ ((hostState 32).disp.host.filter fun e => e.1 = 0).length) ∧
    (let s : State := { evS with disp := ⟨[], 0, [launch0], 1, [(0, List.replicate 64 0)], [], [], 1⟩ }
     s.disp.host.find? (fun e => e.1 = 0) = some (0, List.replicate 64 0) ∧ s.recordOk 0 0 (RecIn.ofBytes (List.replicate 64 0)) = true ∧
     s.mayEnter 0 0 0 = true ∧ State.mayEnter { s with disp := { s.disp with recs := [record0] } } 0 0 0 = false ∧
     evS.recordOk 0 0 (RecIn.ofBytes (List.replicate 64 0)) = false) ∧
    (let s : State := { evS with disp := ⟨[], 0, [launch0], 1, [], [], [], 1⟩ }
     s.disp.launches.find? (fun l => l.id = s.arg.n) = some launch0 ∧ launch0.posted < launch0.ext.foldl (· * ·) 1 ∧
     (let r : RecIn := ⟨launch0.gentry, launch0.widAt (launch0.indexes 6 launch0.posted), launch0.arg, launch0.joinpFor 7 launch0.posted, 0, 0,
        launch0.gctrl, 0⟩
      s.recordOk launch0.job 0 r = true ∧ s.mayEnter launch0.job (bits r.ctrl 8 8) (bits r.ctrl 2 3) = true ∧
      State.mayEnter { s with disp := { s.disp with recs := [record0] } } launch0.job (bits r.ctrl 8 8) (bits r.ctrl 2 3) = false)) := by
  decide +kernel

/-- Page tables that map two pages from 0x100400C000 on, and in the first a launch header: width 1, two grid tasks, level 0 joins, one
pipeline of one stage. -/
def tables : List Host.Cell :=
  [(16384, 1), (16385, 0x40), (16392, 1), (16393, 0x40), (16400, 1), (16401, 0x40), (16408, 0x8B), (16409, 0x85), (16416, 0x8B), (16417, 0xC5)]
def headerCells : List Host.Cell :=
  [(0x8000, 1), (0x8004, 0x80), (0x8008, 2), (0x800C, 1), (0x8010, 1), (0x8014, 1), (0x8018, 1), (0x801C, 1), (0x8020, 0x80), (0x8021, 0xC0),
   (0x8023, 4), (0x8024, 0x10), (0x8029, 0xC2), (0x802B, 4), (0x802C, 0x10), (0x8031, 0xC3), (0x8033, 4), (0x8034, 0x10), (0x8040, 0x40),
   (0x8080, 0x40), (0x8088, 0x10), (0x808C, 2)]
def page0 : Word := 0x100400C000
def launchState (m : List Host.Cell) : State :=
  { about evS { none0 with v := page0 } with mem := tables ++ m, jobs := [(0, { Job.idle with active := true, ptbase := 16384 })] }

/-- What the first checks of a launch say of the header in memory. -/
def launches (s : State) (ok : Bool) : Bool :=
  match (s.modJob 0 fun q => { q with launchVA := page0 }).iodRead 0 page0 128 with
  | (some bs, t1) =>
    let h := Header.ofBytes bs
    (t1.launchCode h (h.launch t1.disp.nextLaunch 0 (t1.job 0).asid page0) == 0) == ok
  | _ => false

/-- Tables read, second checks passed, counters written. -/
def launchesWhole (s : State) : Bool :=
  match s.iodRead 0 page0 128 with
  | (some bs, s0) =>
    let h := Header.ofBytes bs
    let l := h.launch 0 0 0 page0
    match s0.iodRead l.job h.pipet (128 * l.npipe) with
    | (some pt, s1) =>
      match s1.iodReadAll l.job 32 (l.levels.map fun k => l.joint + word (32 * k)) with
      | (some js, s2) =>
        let l1 : Launch := { l with stages := Sparse.run .none 0 ((stageTable pt l.npipe).map (·.1)), joins := l.levels.zip (js.map joinOf)
                                    live := l.grid + l.counters }
        l.levels = [0] && s2.launchCode2 l1 (stageTable pt l.npipe) == 0 && (s2.iodFill l.job (pieces l.jbase (8 * l.counters)) l1.counterBytes).1
      | _ => false
    | _ => false
  | _ => false

/-- Inputs for Obligations.HostPostsAndLaunches, its clauses about launches and their grids. -/
theorem witness_Launches : (evS.job 0).active = false ∧ ((launchState []).job 0).active = true ∧ page0.toNat % 128 = 0 ∧
    launches (launchState headerCells) true = true ∧ launches (launchState []) false = true ∧ launchesWhole (launchState headerCells) = true ∧
    (let h : Header := ⟨0x400000000000, [], 0, 0, 0, 0, 0, 0, 0, 0⟩
     bits h.shape 46 2 ≠ 0) ∧
    (let h : Header := ⟨0x7DF7DF, [1, 1, 1, 1, 1, 1], 0, 0, 0, 0, 0, 0, 0, 0⟩
     bits h.shape 46 2 = 0 ∧ h.rest = 0 ∧ 64 < (h.launch 0 0 0 0).widths.sum) := by decide +kernel

/-- A released stack of cluster 0 with one member, over an image in the member's own LDM (`va`), or where nothing is mapped. -/
def member0 : Member := ⟨0, 0, 0, 0, false, 1, 0, false, 8, ⟨.int8, []⟩, 4, 0, false, 0, []⟩
def stack0 (va : Word) (core : Option Nat) (b : Option Tile) (begun : Option (List (Nat × Nat) × List Byte) := none) : Stack :=
  ⟨2, 0, va, .int8, .int8, [member0], 96, 96, some 96, begun, b, core, false⟩
def stackState (st : Stack) : State :=
  { about evS { none0 with m := 2 } with cores := [(0, { Core.idle with b0 := bankX [] })], clusters := [(0, { Cluster.idle with stk := [st] })] }

def fetches (s : State) (st : Stack) (ok : Bool) : Bool :=
  match s.memberImage st member0 with
  | (.ok _, _) => ok && (match s.fetchImage st member0 with
    | (.ok _, _) => true
    | _ => false)
  | (.error _, _) => !ok

/-- Inputs for Obligations.MergeStacksAndCopies, its clauses about merge stacks: an image of eight bytes as it was, changed since, and
marked. -/
theorem witness_MergeStacks :
    (let s := stackState (stack0 ldm none none)
     (s.cluster s.arg.n).nextReleased = some (stack0 ldm none none) ∧ (s.cluster s.arg.n).nextFor 0 = some (stack0 ldm none none) ∧
     clusterOf s.arg.core = s.arg.n ∧ s.offline s.arg.core = false ∧
     (∀ x ∈ (s.cluster s.arg.n).stk, x.core ≠ some s.arg.core) ∧
     (stack0 ldm none none).members.find? (fun m => !m.gone) = some member0 ∧ fetches s (stack0 ldm none none) true = true ∧
     fetches s (stack0 0 none none) false = true) ∧
    (let st := { stack0 ldm none none with lone := true }
     (stackState st).cluster 0 |>.nextFor 0) = some { stack0 ldm none none with lone := true } ∧
    (let run : List (Nat × Nat) := [(ldmKey 0 0, 8)]
     let st := stack0 ldm (some 0) none (some (run, List.replicate 8 0))
     let s := stackState st
     s.stackAt s.arg.n s.arg.m = some st ∧ st.b = none ∧ viewBad s.bad run = false ∧ List.replicate 8 0 = s.view s.mem run ∧
     (let t : State := { s with mem := [(ldmKey 0 3, 1)] }
      List.replicate 8 0 ≠ t.view t.mem run ∧ (List.replicate 8 (0 : Byte)).length = (t.view t.mem run).length) ∧
     viewBad [(ldmKey 0 3, true)] run = true) ∧
    (let st := stack0 ldm (some 0) (some ⟨.int8, []⟩)
     let s := stackState st
     s.stackAt s.arg.n s.arg.m = some st ∧ st.b = some ⟨.int8, []⟩ ∧ st.members = [member0] ∧ member0.gone = false ∧
     pairClass st.afmt st.bfmt = some .integer) ∧
    (let st := { stack0 ldm (some 0) (some ⟨.int8, []⟩) with members := [{ member0 with gone := true }] }
     let s := stackState st
     s.stackAt s.arg.n s.arg.m = some st ∧ ∀ m ∈ st.members, m.gone = true) ∧
    (let st := { stack0 ldm (some 0) (some ⟨.int8, []⟩) with members := [{ member0 with gone := true }, member0] }
     (stackState st).stackAt 0 2 = some st) ∧
    (let st := stack0 ldm (some 0) none
     let s := stackState st
     s.stackAt s.arg.n s.arg.m = some st ∧ st.core.isSome = true ∧ st.b = none ∧ st.begun = none ∧ fetches s st true = true) ∧
    (let s := stackState (stack0 0 (some 0) none)
     fetches s (stack0 0 (some 0) none) false = true) := by decide +kernel

/-- A copy of one element of 64 bytes from the own LDM to itself; the zero fill; a frame move; an unmapped source; a finished copy. -/
def copy0 (d : CopyDesc) : Copy := ⟨1, 0, 0, false, 0, 0, 0, 0, d, 0, 0, 0, true, false, false, false, [], none, none, none, (0, false)⟩
def move0 : CopyDesc := { CopyDesc.clear with src := ldm, dst := ldm + 4096, cnt := [1, 1, 1, 1, 1, 1], run := 64 }
def copyState (q : Copy) : State :=
  { evS with cores := [(0, { Core.idle with engine := { Engine.idle with current := some q } })], mem := tables
             jobs := [(0, { Job.idle with ptbase := 16384 })] }

def copies (s : State) (q : Copy) : Bool :=
  match s.copyRead 0 q (strideSum q.desc.src (q.desc.index q.pos) q.desc.sstr) q.desc.run with
  | (.ok r, t) => !r.bad && (match t.copyWrite 0 q (strideSum q.desc.dst (q.desc.index q.pos) q.desc.dstr) r with
    | (.ok (), _) => true
    | _ => false)
  | _ => false

def fills (s : State) (q : Copy) : Bool :=
  match s.copyWrite 0 q (strideSum q.desc.dst (q.desc.index q.pos) q.desc.dstr) (.clean (List.replicate q.desc.run 0)) with
  | (.ok (), _) => true
  | _ => false

def frames (s : State) (q : Copy) : Bool :=
  match s.framePlace 0 q false (q.desc.src + word (16384 * q.pos)) with
  | (.ok src, t) => (match t.framePlace 0 q true (q.desc.dst + word (16384 * q.pos)) with
    | (.ok _, u) => !anyBad u.bad src 16384
    | _ => false)
  | _ => false

def copyFaults (s : State) (q : Copy) : Bool :=
  match s.copyUnit 0 q with
  | (.error _, _) => true
  | _ => false

def flagFinds (s : State) (q : Copy) : Bool := finds (s.resolve (q.agent 0) { write := true } (pieces q.desc.flaga 8))

/-- Inputs for Obligations.MergeStacksAndCopies, its clauses about copies. -/
theorem witness_Copies :
    (let s : State := { evS with cores := [(0, { Core.idle with engine := { Engine.idle with waiting := some (copy0 move0) } })] }
     (theCore s).engine.current = none ∧ (theCore s).engine.waiting = some (copy0 move0)) ∧
    (let q := copy0 move0
     let s := copyState q
     s.working s.arg.core = some q ∧ s.arg.flag = false ∧ q.desc.mode = 0 ∧ q.desc.srcf = false ∧ q.desc.dstf = false ∧ copies s q = true) ∧
    (let q := copy0 { move0 with mode := 7 }
     let s := copyState q
     s.working s.arg.core = some q ∧ q.desc.mode = 7 ∧ q.desc.srcf = false ∧ q.desc.dstf = false ∧ fills s q = true) ∧
    (let q := copy0 { CopyDesc.clear with mode := 5, src := page0, dst := page0 + 0x4000, cnt := [1, 1, 1, 1, 1, 1], run := 16384 }
     let s := copyState q
     s.working s.arg.core = some q ∧ q.desc.mode = 5 ∧ q.desc.mpar = 0 ∧ frames s q = true) ∧
    (let q := copy0 { move0 with src := 0x4000 }
     let s := copyState q
     s.working s.arg.core = some q ∧ q.desc.mode ≠ 5 ∧ copyFaults s q = true) := by decide +kernel

/-- Its clauses about the end of a copy. -/
theorem witness_CopiesComplete :
    (let q := { copy0 move0 with pos := 1 }
     let s := copyState q
     (theCore s).engine.current = some q ∧ q.program = none ∧ q.land = none ∧ q.started = true ∧ q.finished = true ∧ q.quiet = false ∧ q.err = false ∧
     q.desc.flaga = 0 ∧ s.arg.m = 0) ∧
    (let q := { copy0 { move0 with flaga := ldm } with pos := 1 }
     let s := copyState q
     (theCore s).engine.current = some q ∧ q.finished = true ∧ q.desc.flaga ≠ 0 ∧ flagFinds s q = true ∧ s.arg.m = 0) ∧
    (let q := { copy0 move0 with stopped := true, quiet := true }
     (theCore (copyState q)).engine.current = some q ∧ q.program = none ∧ q.land = none ∧ q.stopped = true ∧ q.quiet = true ∧ (copyState q).arg.m = 0) ∧
    (let q := { copy0 move0 with stopped := true, quiet := true }
     let s : State := { about evS { none0 with m := 1 } with cores := [(0, { Core.idle with engine := { Engine.idle with waiting := some q } })] }
     (theCore s).engine.waiting = some q ∧ q.stopped = true ∧ q.quiet = true ∧ s.arg.m = 1) ∧
    (let q := { copy0 move0 with program := some (0, [7], [false]) }
     (theCore (copyState q)).engine.current = some q ∧ q.program = some (0, [7], [false]) ∧ q.quiet = false) := by decide +kernel

/-- A unit of a copy of which two runs have yet to land. -/
theorem witness_CopiesLand :
    let q := { copy0 move0 with land := some [(100, .clean [1]), (200, .clean [2])], owed := (1, false) }
    (theCore (copyState q)).engine.current = some q ∧ q.land = some [(100, .clean [1]), (200, .clean [2])] ∧ (copyState q).arg.flag = false ∧
    q.quiet = false := by decide +kernel

def handleReader : FlashRead := ⟨4, 8, .handle 1 0, false, false, none, none⟩
def asked (kind : HReqKind) : HReq := ⟨5, 0, 0, 0, 0, false, 9, 0, kind⟩
def tableState (h : HState) (r : HReq) (m : List Host.Cell) : State :=
  { about evS { none0 with n := 5 } with hreqs := [r], handles := [(1, { Handle.free with state := h })], mem := m
                                         jobs := [(0, { Job.idle with ptbase := 16384, fgrant := [(0, (0x8000000000000000, 0x1FFFFFFF))] })] }

/-- Reads below and at the threshold, lost and armed pages, blocks being moved and erased; every answer of the table; landed pages. -/
theorem witness_FlashAndHandlesWork :
    (let s : State := { about evS { none0 with n := 4 } with reads := [handleReader] }
     let k := s.flashStack (handleReader.page % 8)
     s.reads = [handleReader] ∧ handleReader.n = s.arg.n ∧ handleReader.got = none ∧ handleReader.held = false ∧
     k.moving.contains (k.blockOf handleReader.page) = false ∧ k.arm = false ∧ k.lost.contains handleReader.page = false ∧
     k.reads.get 0 (k.blockOf handleReader.page) + 1 < k.thresh) ∧
    (let k := { FlashStack.idle with thresh := 1 }
     k.moving.contains (k.blockOf 0) = false ∧ k.thresh ≤ k.reads.get 0 (k.blockOf 0) + 1) ∧
    ({ FlashStack.idle with lost := [8] } : FlashStack).lost.contains 8 = true ∧
    ({ FlashStack.idle with arm := true, armPage := 8 } : FlashStack).arm = true ∧
    (let k := { FlashStack.idle with nextBlock := 9 }
     0 < k.nextBlock ∧ k.fresh = none ∧ ({ k with fresh := some (8, 2047) } : FlashStack).fresh = some (8, 2047)) ∧
    (let s : State := { about evS { none0 with m := 3 } with flash := [(0, { FlashStack.idle with moving := [3], erasing := [3] })] }
     (s.flashStack s.arg.n).moving.contains s.arg.m = true ∧ s.readsAt s.arg.n s.arg.m = false ∧
     State.readsAt { s with reads := [{ handleReader with page := 8 * 2048 * 3 }] } 0 3 = true ∧ (s.flashStack s.arg.n).erasing.contains s.arg.m = true) ∧
    (∀ h ∈ [HState.free, .pending, .ready, .error],
      let s := tableState h (asked (.upgrade 1)) []
      s.nextAsk s.arg.n = some (asked (.upgrade 1)) ∧ s.handleState 0 1 = h) ∧
    (let r := asked (.request 8 1 page0 false false)
     let s := tableState .ready r tables
     s.nextAsk s.arg.n = some r ∧ s.freeHandle.isSome = true ∧
     s.destOk r (page0 + word (16384 * 0)) = true ∧ (s.job r.job).granted (8 + 0) false = true ∧
     s.destOk r 0 = false ∧ (s.job r.job).granted 0x20000000 false = false) ∧
    (let r := asked (.request 8 1 page0 false true)
     let s := tableState .ready r tables
     s.nextAsk s.arg.n = some r ∧ s.freeHandle.isSome = true ∧ s.destOk r (page0 + word (16384 * 0)) = true ∧
     (s.job r.job).granted (8 + 0) false = true) ∧
    (let s : State := { evS with reads := [{ handleReader with reader := .handle 0 0, got := some true }] }
     s.reads.find? (fun r => r.reader = .handle s.arg.n s.arg.m && r.got.isSome) = some { handleReader with reader := .handle 0 0, got := some true } ∧
     handleReader.land = none ∧ s.arg.flag = false) ∧
    (let k : Handle := ⟨.pending, 0, 0, 8, 1, 0, false, [(0, true)], false, false⟩
     k.state = .pending ∧ k.landed.length = k.count ∧ k.err = false ∧ k.mark = false) := by decide +kernel

/-- Every handle in use. -/
theorem get_map_const {α : Type} (d x : α) (l : List Nat) (h : Nat) (hl : h ∈ l) : Sparse.get d (l.map fun j => (j, x)) h = x := by
  induction l with
  | nil => cases hl
  | cons j r ih =>
    simp only [List.map, Sparse.get]
    split
    · rfl
    · exact ih (by rcases List.mem_cons.1 hl with e | e <;> simp_all)

theorem witness_NoFreeHandle :
    State.freeHandle { evS with handles := (List.range 4096).map fun h => (h, { Handle.free with state := .ready }) } = none := by
  unfold State.freeHandle
  rw [List.find?_eq_none]
  intro h hh
  simp [State.handle, get_map_const Handle.free _ _ h hh]

/-! The fabric, the port, sweeps. -/

/-- A message of job 0 from context 0 to core 3, at its last holder; a handler of that job; a job that lives, with its areas. -/
def msg0 : Msg :=
  { n := 5, job := 0, core := 0, bank := 0, ctx := 4, target := 3, rem := false, chip := 0, entry := 64, payload := .words 1 2, word := 3, sender := 0
    wid := 9, widths := [8], prio := 1, holder := 0, route := [], entryHeld := false }
def liveJob : Job := { Job.idle with active := true }
def fabricState (f : Fabric → Fabric) (q : Job) : State := { about evS { none0 with n := 5 } with fabric := f evS.fabric, jobs := [(0, q)] }
def packet0 : Packet := ⟨5, 1, 0, 3, 1, .message msg0, (0, 0)⟩
def portState (p : Packet) (now : Word) (q : Job) : State :=
  { about evS { none0 with n := 5 } with port := { evS.port with packets := [p] }, sidereal := now, jobs := [(0, q)] }
def fullCore : Core := { Core.idle with queue := List.replicate 64 handler0 }
def wire0 : WireMsg := ⟨0, 0, 1, 0, 0, 3, 64, .words 1 2, 9, [8], 1⟩
def twoChips : Job := { liveJob with xqctl := 2 ^ 32 }

/-- Arrivals with room, into the overflow area and beyond it; handovers on the package and into the port; notices; a peer's message;
packets before and at their limits; link bytes that fit and that break the queue. -/
theorem witness_MessagesAndPacketsMove :
    (let s := fabricState (fun f => { f with msgs := [msg0] }) liveJob
     s.fabric.msgs = [msg0] ∧ msg0.n = s.arg.n ∧ msg0.route = [] ∧ msg0.entryHeld = false ∧ s.bankOf msg0.ctx = none ∧ msg0.target < 256 ∧ (s.job msg0.job).active = true ∧
     (s.job msg0.job).kstat = 0 ∧ s.offline msg0.target = false ∧ (s.job msg0.job).overflow = [] ∧ (s.core msg0.target).held < 64) ∧
    (let s : State := { fabricState id { liveJob with movbase := 0x1000 } with cores := [(0, fullCore)] }
     s.offline 0 = false ∧ 64 ≤ (s.core 0).held ∧ (s.job handler0.job).overflow.length < (s.job handler0.job).overflowRoom) ∧
    (let s : State := { fabricState id liveJob with cores := [(0, fullCore)] }
     s.offline 0 = false ∧ 64 ≤ (s.core 0).held ∧ (s.job handler0.job).overflowRoom ≤ (s.job handler0.job).overflow.length) := by decide +kernel

/-- Handovers on the package and into the port; notices. -/
theorem witness_MessagesAreHandedOver :
    (let m := { msg0 with route := [33] }
     let s := fabricState (fun f => { f with msgs := [m] }) liveJob
     s.fabric.msgs = [m] ∧ m.n = s.arg.n ∧ m.route = [33] ∧ m.entryHeld = false ∧ s.bankOf m.ctx = none) ∧
    (let m := { msg0 with route := [48] }
     let s := fabricState (fun f => { f with msgs := [m] }) liveJob
     s.fabric.msgs = [m] ∧ m.n = s.arg.n ∧ m.route = [48] ∧ m.entryHeld = false ∧ s.bankOf m.ctx = none) ∧
    (let m := { msg0 with route := [33] }
     let s : State := { fabricState (fun f => { f with msgs := [m] }) liveJob with
       cores := [(0, { Core.idle with b0 := { bankX [] with serial := 4, stores := [store0 0 false none] } })] }
     s.bankOf m.ctx = some (0, 0) ∧ store0 0 false none ∈ (s.ctx 0 0).stores ∧ (store0 0 false none).n < m.n) ∧
    (∀ kind ∈ [NoticeKind.handover, .retirement],
      (let s := fabricState (fun f => { f with notices := [⟨5, kind, 0, 0⟩] }) liveJob
       s.fabric.notices.find? (fun x => x.n = s.arg.n && x.kind = kind) = some ⟨5, kind, 0, 0⟩)) := by decide +kernel

/-- A peer's message; packets before and at their limits; link bytes that fit. -/
theorem witness_PacketsAndLinks :
    (let s : State := { about evS { none0 with msg := some wire0 } with port := { evS.port with up := true }, jobs := [(0, twoChips)] }
     s.arg.msg = some wire0 ∧ s.port.up = true ∧ wire0.slot < 64 ∧ (s.job wire0.slot).active = true ∧ (s.job wire0.slot).kstat = 0 ∧
     s.isPeer wire0.slot wire0.chip = true ∧ (s.peer wire0.slot wire0.chip).1 = wire0.endpoint) ∧
    (let s := portState packet0 1200 liveJob
     s.port.packets = [packet0] ∧ packet0.n = s.arg.n ∧ packet0.sent < packet0.retry ∧ 1200 * packet0.rto ≤ (s.sidereal - packet0.last).toNat ∧
     packet0.cargo = .message msg0) ∧
    (∀ l ∈ [true, false],
      (let p := { packet0 with sent := 3 }
       let s := portState p 1200 { liveJob with losslog := if l then 0x1000 else 0 }
       s.port.packets = [p] ∧ p.n = s.arg.n ∧ p.cargo = .message msg0 ∧ p.retry ≤ p.sent ∧ 1200 * p.rto ≤ (s.sidereal - p.last).toNat ∧
       (s.job msg0.job).active = true ∧ (s.job msg0.job).kstat = 0 ∧ (s.job msg0.job).lossRoom = l)) ∧
    (let q := { liveJob with links := [(1, 2, true)] }
     let s : State := { about evS { none0 with m := 1, k := 2, data := [7] } with port := { evS.port with up := true }, jobs := [(0, q)] }
     s.job s.arg.n = q ∧ s.port.up = true ∧ s.arg.n < 64 ∧ q.active = true ∧ q.kstat = 0 ∧ q.links.contains (s.arg.m, s.arg.k, true) = true ∧
     q.stream.get (0, 0) 18 = (0, 0) ∧ 0 + s.arg.data.length ≤ 65536 ∧
     ({ q with stream := [(18, 65535, 65536)] } : Job).stream.get (0, 0) 18 = (65535, 65536) ∧ 65536 < 65536 + s.arg.data.length) := by decide +kernel

def xw0 : XWave := ⟨0, 7, false, 3, 0, 0, some (1, 1, false), [], none, [], false⟩
def sweepState (f : Fabric → Fabric) (q : Job) (now : Word) : State :=
  { about evS none0 with fabric := f evS.fabric, jobs := [(0, q)], sidereal := now, pkg := { evS.pkg with sweepEn := true } }
def nonRoot : Job := { liveJob with xqctl := 2 ^ 32 + 1 }

/-- A wave that starts, passes and ends quiet or not; a root's wave; a child's request, reply, time-out and verdict. -/
theorem witness_SweepsReachTheirVerdicts :
    (let s := sweepState id liveJob 1024
     s.fabric.wave = none ∧ s.pkg.sweepEn = true ∧ s.sidereal ≠ 0 ∧ s.fabric.lastWave = none) ∧
    (let s := sweepState (fun f => { f with lastWave := some 0 }) liveJob 0x5000
     max 1024 s.fabric.period ≤ (s.sidereal - 0).toNat) ∧
    (∀ second ∈ [true, false],
      (let w : Wave := ⟨3, [0], second, [], [(0, 0, false)], [(0, 0, false)]⟩
       let s : State := { sweepState (fun f => { f with wave := some w }) liveJob 9 with arg := { none0 with n := 49 } }
       s.fabric.wave = some w ∧ s.arg.m = 0 ∧ w.jobs = [0] ∧ waveNext w.read s.arg.n = true ∧ w.read.length < 50 ∧ w.second = second ∧
       (s.job 0).active = true ∧ (s.job 0).nm1 = 0)) ∧
    (∀ second ∈ [true, false],
      (let x := { xw0 with second := second }
       let s : State := { sweepState (fun f => { f with xwaves := [x] }) nonRoot 9 with arg := { none0 with n := 49, m := 1 } }
       s.xwave 0 = some x ∧ x.own = some (1, 1, false) ∧ s.arg.m = 0 + 1 ∧ waveNext x.read s.arg.n = true)) := by decide +kernel

/-- A job that spans packages by now. -/
theorem witness_WavesDropJobs :
    let w : Wave := ⟨3, [0], false, [], [(0, 0, false)], [(0, 0, false)]⟩
    let s : State := { sweepState (fun f => { f with wave := some w }) twoChips 9 with arg := { none0 with n := 49 } }
    s.fabric.wave = some w ∧ s.arg.m = 0 ∧ w.second = false ∧ w.jobs = [0] ∧ waveNext w.read s.arg.n = true ∧ (s.job 0).nm1 ≠ 0 := by decide +kernel

/-- Verdicts quiet and not; a root's first wave. -/
theorem witness_SweepVerdictsAndRoots :
    (∀ q ∈ [true, false],
      (let w : Wave := ⟨3, [0], true, List.range 50, [(1, 1, false)], [(1, if q then 1 else 2, false)]⟩
       let s := sweepState (fun f => { f with wave := some w }) liveJob 9
       s.fabric.wave = some w ∧ w.read.length = 50 ∧ w.jobs = [0] ∧ (s.job 0).active = true ∧ (s.job 0).nm1 = 0)) ∧
    (let s := sweepState id twoChips 9
     (s.job 0).active = true ∧ (s.job 0).kstat = 0 ∧ (s.job 0).nm1 ≠ 0 ∧ s.pkg.sweepEn = true ∧ s.isRoot 0 = true ∧ s.xwave 0 = none ∧
     (s.job 0).xlast = none) := by decide +kernel

/-- A child's request, verdict, reply and time-out. -/
theorem witness_CrossPackageWaves :
    (let s : State := { sweepState (fun f => { f with xwaves := [xw0] }) nonRoot 9 with arg := { none0 with m := 7, flag := true } }
     (s.job 0).nm1 ≠ 0 ∧ s.isRoot 0 = false ∧ s.olderWave 0 s.arg.m = false ∧ s.arg.flag = true ∧ s.xwave 0 = some xw0 ∧ xw0.wave = s.arg.m ∧
     xw0.second = false) ∧
    (let s : State := { sweepState id nonRoot 9 with arg := { none0 with m := 7 } }
     (s.job 0).nm1 ≠ 0 ∧ s.isRoot 0 = false ∧ s.olderWave 0 s.arg.m = false ∧ s.arg.flag = false) ∧
    (let s : State := { sweepState id { nonRoot with xwave := some 7 } 9 with arg := { none0 with m := 7 } }
     s.xwave 0 = none ∧ (s.job 0).xwave = some s.arg.m ∧ s.olderWave 0 s.arg.m = false ∧ s.olderWave 0 6 = true) ∧
    (let r : WaveReply := ⟨1, 7, false, false, 1, 1, false⟩
     let s : State := { sweepState (fun f => { f with xwaves := [xw0] }) twoChips 0x10000000 with arg := { none0 with m := 1, reply := some r } }
     s.arg.reply = some r ∧ s.xwave s.arg.n = some xw0 ∧ xw0.own ≠ none ∧ r.wave = xw0.wave ∧ r.second = xw0.second ∧
     r.child ∈ s.children s.arg.n ∧ (∀ o ∈ xw0.replies, o.child ≠ r.child) ∧ s.arg.m ∈ s.children s.arg.n ∧
     1200 * (2 * s.port.retry * s.port.rto) ≤ (s.sidereal - xw0.asked).toNat) ∧
    xw0.total = (1, 1, false) ∧ xw0.failed = false ∧ xw0.pass1 = none := by decide +kernel

/-- A record with room and without; a refused and an accepted tail; an orphan that waits; a parked bank. -/
def rec0 : FaultRec := ⟨0, 0x20, 0, 0, 0, 0, false, true, 0, 0, 0, 0, 0, 0, 0, 0, true⟩

theorem witness_RecordsRingsAndOrphans :
    (∀ b ∈ [true, false], ∀ n ∈ [0, 2],
      (let s : State := { about evS none0 with faults := [rec0], jobs := [(0, { liveJob with kstat := n, fqbase := if b then 0x1000 else 0 })] }
       s.faults.find? (fun r => r.job = s.arg.n) = some rec0 ∧ (s.job s.arg.n).fqRoom = b ∧ (s.job s.arg.n).kstat = n)) ∧
    (∀ b ∈ [true, false],
      (let s : State := { about evS { none0 with v := if b then 2 else 3 } with jobs := [(0, { liveJob with losshead := 2 })] }
       s.arg.n < 64 ∧ ((s.arg.v.setWidth 32 - (s.job s.arg.n).losstail).toNat ≤ ((s.job s.arg.n).losshead - (s.job s.arg.n).losstail).toNat ↔ b = true))) := by decide +kernel

/-- A reduction to a page that no table maps. -/
def absentReduction : Reduction := { reduction0 with va := page0 }

/-- What the reduction's translation does, when it faults and leaves the fabric alone. -/
def orphans (s : State) (r : Reduction) (b : Bool) : Bool :=
  match s.resolve r.agent { write := true, atomic := true } (pieces r.va r.width) with
  | (.error x, t) => decide (t.fabric = s.fabric ∧ x.cause ≠ 0 ∧ (t.job r.job).orRoom = b)
  | _ => false

/-- An orphan that waits; a reduction whose page is not there, with room in the log and without. -/
theorem witness_OrphansAreLogged :
    (let r := { reduction0 with stage := 2 }
     let s : State := { about evS { none0 with v := 1 } with fabric := { evS.fabric with reductions := [r] }, jobs := [(0, { liveJob with orhead := 1 })] }
     s.fabric.reductions = [r] ∧ r.job = s.arg.n ∧ r.stage = 2 ∧ s.arg.v.setWidth 16 = (s.job s.arg.n).ortail + 1 ∧
     (s.job s.arg.n).orhead = (s.job s.arg.n).ortail + 1) ∧
    (∀ b ∈ [true, false],
      (let s : State := { about evS { none0 with n := 3 } with fabric := { evS.fabric with reductions := [absentReduction] }
                                                               jobs := [(0, { liveJob with orlog := if b then 0x1000 else 0 })] }
       s.fabric.reductions = [absentReduction] ∧ absentReduction.n = s.arg.n ∧ absentReduction.stage = 0 ∧ absentReduction.fault = none ∧
       s.bankOf absentReduction.ctx = none ∧ orphans s absentReduction b = true)) := by decide +kernel

/-! Jobs, translation units, the host, start-up and power. -/

/-- A bank that runs or rests under a job that lives; an overdue request; kills; jobs that may and may not be created; tear-downs. -/
def bankState (k : Ctx) : State := { about evS none0 with cores := [(0, { Core.idle with b0 := k })], jobs := [(0, liveJob)] }

theorem witness_PreemptionsAndJobs :
    (let s := bankState (bankX [])
     (s.ctx 0 0).occupied = true ∧ (s.ctx 0 0).held = false ∧ (s.ctx 0 0).preq = none ∧ (s.core 0).coreTest = false ∧
     (s.job (s.ctx 0 0).job).active = true ∧ (s.job (s.ctx 0 0).job).kstat = 0 ∧ (s.ctx 0 0).atRest = false ∧ (s.ctx 0 0).status ≠ .idle ∧
     (s.ctx 0 0).job = s.arg.n ∧ (s.ctx 0 1).status = .idle ∧ (s.job s.arg.n).tearing = false ∧ s.jobIdle 0 = false ∧ s.asidTaken 1 0 = true) ∧
    (let s := bankState { bankX [] with status := .parked .event }
     (s.ctx 0 0).occupied = true ∧ (s.ctx 0 0).atRest = true) ∧
    (let s : State := { bankState { bankX [] with preq := some 0 } with sidereal := 2 ^ 22 + 1 }
     (theCtx s).preq = some 0 ∧ 2 ^ 22 * ((theCtx s).overdue + 1) < (s.sidereal - 0).toNat) ∧
    (let s : State := { about evS none0 with jobs := [(0, { liveJob with kstat := 1 })] }
     (s.job s.arg.n).kstat = 1 ∧ s.copiesOf s.arg.n = false) := by decide +kernel

theorem witness_JobsComeAndGo :
    (let s : State := { about evS { none0 with n := 1, v := 0x50001 } with pkg := { evS.pkg with stage := 2 }, jobs := [(0, liveJob)] }
     s.arg.n < 64 ∧ s.arg.v.getLsbD 0 = true ∧ (s.job 1).active = false ∧ s.pkg.stage = 2 ∧ s.pkg.err = 0 ∧ s.asidTaken 1 (bits s.arg.v 16 16) = false ∧
     (s.job 0).active = true) ∧
    (let s : State := { about evS none0 with jobs := [(0, liveJob)] }
     s.arg.n < 64 ∧ s.arg.v.getLsbD 0 = false ∧ (s.job 0).active = true ∧ (s.job 0).tearing = false ∧ s.jobIdle 0 = true) ∧
    (let s : State := { about evS none0 with jobs := [(0, { liveJob with kstat := 2, tearing := true })] }
     (s.job s.arg.n).tearing = true ∧ (s.job s.arg.n).kstat = 2) := by decide +kernel

/-- A core's unit idle and busy, a job's unit busy; windows bound, in use, unbound and written back; a cluster without pinned pages. -/
def unitState (i : Tlbi) (r : Region) (v : Word) : State :=
  { about evS { none0 with v := v, tlbi := .core 0 } with cores := [(0, { Core.idle with tlbi := i, region := [(0, r)] })] }

theorem witness_TranslationUnitsWork :
    (let s := unitState .idle .none 1
     s.arg.tlbi = .core 0 ∧ (s.core 0).tlbi.busy = false ∧ s.arg.v.getLsbD 0 = true ∧ s.arg.core < 256 ∧ s.arg.n < 16 ∧
     ((s.core 0).region.get .none 0).valid = false ∧ ((s.core 0).region.get .none 0).busy = false ∧ bits s.arg.v 20 7 + bits s.arg.v 32 7 < 128 ∧
     (∀ e ∈ (s.core 0).region, e.1 = 0)) ∧
    (let s := unitState { Tlbi.idle with busy := true } { Region.none with valid := true } 1
     (s.core 0).tlbi.busy = true ∧ s.anyStuck = false ∧ ((s.core 0).region.get .none 0).valid = true) ∧
    (let s := unitState .idle { Region.none with valid := true } 0
     s.arg.v.getLsbD 0 = false ∧ ((s.core 0).region.get .none 0).valid = true) ∧
    (let s := unitState .idle { Region.none with busy := true } 0
     ((s.core 0).region.get .none 0).busy = true ∧ ((s.core 0).region.get .none 0).dirty = []) ∧
    (let s := unitState .idle { Region.none with busy := true, dirty := [(3, true)] } 0
     ((s.core 0).region.get .none 0).busy = true ∧ ((s.core 0).region.get .none 0).dirty = [(3, true)]) ∧
    (let s : State := { about evS { none0 with v := 1, tlbi := .job 0 } with jobs := [(0, { liveJob with tlbi := { Tlbi.idle with busy := true } })] }
     s.arg.tlbi = .job 0 ∧ (s.job 0).tlbi.busy = true ∧ s.arg.v.getLsbD 0 = true) ∧
    evS.arg.n < 32 ∧ (evS.cluster 0).pinned = [] := by decide +kernel

/-- A region of page 0x401003, mapped with the core's LDM as its home, or of one that no table maps; what the walk to its first sector finds. -/
def mapped (page : Nat) (dirty : Sparse Bool) : State :=
  { launchState [] with cores := [(0, { Core.idle with region := [(0, { Region.none with rva := word (16384 * page), valid := true, dirty := dirty })] })]
                        mem := Sparse.set 0 (launchState []).mem 16408 0xAB }
def walks (s : State) (write : Bool) (page : Nat) : Bool :=
  match s.translate ⟨0, 0, 0, true, false⟩ { write := write, homed := true } (word (16384 * page % 2 ^ 56 + (if page / 2 ^ 41 = 1 then 255 * 2 ^ 56 else 0))) 1024 with
  | (.ok _, t) => !t.deadLdm (ldmKey 0 0)
  | _ => false

/-- Fills and write-backs that find their page and that do not; sectors already filled. -/
theorem witness_RegionsFillAndWriteBack :
    (∀ write ∈ [true, false], walks (mapped 0x401003 []) write 0x401003 = true ∧ walks (mapped 16 []) write 16 = false) ∧
    (∀ page ∈ [16, 0x401003],
      (let s := mapped page [(0, true)]
       ((s.core 0).region.get .none 0).page = page ∧ ((s.core 0).region.get .none 0).dirty.get false 0 = true ∧ (s.job 0).active = true ∧
       (s.job 0).asid = ((s.core 0).region.get .none 0).asid)) ∧
    (let s : State := { evS with cores := [(0, { Core.idle with region := [(1, { Region.none with filled := [(2, true)] })] })] }
     ((s.core 0).region.get .none 1).filled.get false 2 = true) := by decide +kernel

/-- Frames below, at and beyond the threshold, pinned or proposed already; a ring with room and without; pages held, with and without room. -/
theorem witness_TrackerAndPins :
    (let cl : Cluster := { Cluster.idle with hptThresh := 1, hptCount := [(5, 15), (6, 3), (7, 15)], hptProposed := [7] }
     let s : State := { evS with clusters := [(0, cl)] }
     s.cluster 0 = cl ∧ cl.hptCount.get 0 5 + 1 = 16 * max 1 cl.hptThresh ∧ 5 ∉ cl.hptProposed ∧ cl.hptCount.get 0 6 + 1 ≠ 16 * max 1 cl.hptThresh ∧
     7 ∈ cl.hptProposed ∧ (cl.hptHead + 1) % 256 ≠ cl.hptTail % 256 ∧
     ({ cl with hptTail := 1 }.hptHead + 1) % 256 = { cl with hptTail := 1 }.hptTail % 256) ∧
    (let t : TlbEntry := ⟨0, 0, 0, 0, 0⟩
     t.holds 100 = true ∧ (∃ x ∈ ({ Cluster.idle with pinned := [t] } : Cluster).pinned, x.holds 100 = true) ∧
     (∀ x ∈ Cluster.idle.pinned, x.holds 100 = false) ∧
     pinFrames ({ Cluster.idle with hptPinmib := 1 } : Cluster).pinned + t.frames ≤ 64 * min 8 ({ Cluster.idle with hptPinmib := 1 } : Cluster).hptPinmib ∧
     64 * min 8 ({ Cluster.idle with hptPinmib := 0 } : Cluster).hptPinmib < pinFrames Cluster.idle.pinned + t.frames) := by decide +kernel

/-- A good and a bad injection; a stack no copy packs; slots alone and overlapping; grants before and in stage 2; the register writes;
window bytes that exist and that do not. -/
def writeState (n : Nat) (v : Word) (stage : Nat) (slots : Sparse (Nat × Nat)) : State :=
  { about evS { none0 with n := n, v := v } with pkg := { evS.pkg with stage := stage, vfslots := slots } }

theorem witness_HostWritesRegistersAndMemory :
    (let s := writeState 0 (2 ^ 63 + 8) 2 []
     s.arg.n < 8 ∧ s.arg.v.getLsbD 63 = true ∧ bits s.arg.v 0 29 % 8 = s.arg.n ∧ bits s.arg.v 0 29 < 488281248 ∧ s.packing s.arg.n = false ∧
     (∀ e ∈ s.pkg.vfslots, e.1 = s.arg.n) ∧ s.arg.n < 64 ∧ s.arg.m < 16 ∧ s.pkg.stage = 2 ∧ s.arg.flag = false) ∧
    (let s := writeState 0 (2 ^ 63 + 0x109) 7 [(1, (0, 16))]
     s.arg.v.getLsbD 63 = true ∧ bits s.arg.v 0 29 % 8 ≠ s.arg.n ∧ s.pkg.stage ≠ 2 ∧
     ∃ e ∈ s.pkg.vfslots, e.1 ≠ s.arg.n ∧ bits s.arg.v 8 6 ≠ 0 ∧ e.2.2 ≠ 0 ∧ bits s.arg.v 0 6 < e.2.1 + e.2.2 ∧ e.2.1 < bits s.arg.v 0 6 + bits s.arg.v 8 6) := by
  refine ⟨by decide +kernel, by decide +kernel, by decide +kernel, by decide +kernel, (1, (0, 16)), List.mem_singleton.2 rfl, ?_⟩
  decide +kernel

/-- Register writes to a package that serves and to a halted one; a write of BAR2; a byte for the window. -/
theorem witness_RegisterWrites :
    (∀ n ∈ [0x011, 0x010, 0x118, 0x100028, 0x1000B8, 0x280018, 0x300010], (writeState n 5 2 []).arg.n = n ∧ (writeState n 5 2 []).pkg.halted = false) ∧
    (let s : State := { evS with pkg := { evS.pkg with err := 4 } }
     let a : HostAccess := ⟨none, 2, 0, some (leBytes 8 5), []⟩
     s.pkg.halted = true ∧ s.arg.n < 0x400000 ∧ a.data ≠ none ∧ a.bar = 2) ∧
    (about evS { none0 with data := [7] }).arg.data = [7] := by decide +kernel

theorem witness_WindowBytes :
    (∃ k, (writeState 0 0 2 []).bar4Key 0 = some k) ∧ (writeState 0 0 7 []).bar4Key 0 = none ∧
    (writeState 0 0 2 []).pkg.stage = 2 ∧ (0 : Nat) < 0x20000000 ∧ ([] : List Byte).length = (writeState 0 0 2 []).arg.m ∧
    (0x100028 : Nat) = 0x100000 + 0x1000 * 0 + 0x028 ∧ 0x1000B8 = 0x100000 + 0x1000 * 0 + 0x0B8 ∧ 0x280018 = 0x280000 + 0x100 * 0 + 0x18 := by
  refine ⟨⟨_, rfl⟩, by decide +kernel, rfl, by decide, rfl, rfl, rfl, rfl⟩

/-- Stages that may complete, with and without an error; power at, over and under the cap; trips, cool and hot restarts; a unit
under test. -/
def stageState (stage : Nat) (busy : Bool) (a : EventArg) : State := { evS with pkg := { evS.pkg with stage := stage, busy := busy }, arg := a }
def sample (mw t : Nat) : PowerSample := ⟨mw, [t, t, t, t]⟩

theorem witness_MailboxStartupAndPower :
    evS.mbox.busy = false ∧ ({ evS with mbox := { evS.mbox with busy := true } } : State).mbox.busy = true ∧
    evS.pkg.stage = 7 ∧ evS.pkg.busy = true ∧
    (let r : StageReport := ⟨0, [], [], []⟩
     let s := stageState 0 true { none0 with report := some r }
     s.pkg.stage = 0 ∧ s.pkg.busy = true ∧ s.arg.report = some r ∧ r.err = 0 ∧ r.coreBad = [] ∧ r.vuBad = [] ∧
     (stageState 1 true { none0 with report := some r }).pkg.stage = 1) ∧
    (let s := stageState 2 false { none0 with power := some (sample 3300001 90) }
     s.arg.power = some (sample 3300001 90) ∧ s.pkg.stage = 2 ∧ s.pkg.tripped = false ∧ 3300000 < (sample 3300001 90).mw ∧
     10 ≤ ({ s.pkg with hot := 10 } : Pkg).hot ∧ (∃ t ∈ (sample 5 90).temps, 85 ≤ t) ∧
     (∃ t ∈ (sample 5 116).temps, 115 < t) ∧ (∀ t ∈ (sample 5 84).temps, t < 85)) ∧
    (({ evS.pkg with tripped := true } : Pkg).tripped = true ∧ ({ evS.pkg with tripped := true } : Pkg).halted = false) ∧
    (let s := stageState 2 false { none0 with unit := .vector 0 1 }
     s.arg.unit = .vector 0 1 ∧ s.offline 0 = false ∧ (s.core 0).test = none ∧ s.arg.flag = false) ∧
    (let s : State := { stageState 2 false { none0 with unit := .vector 0 1 } with cores := [(0, { Core.idle with test := some (.vector 0 1) })] }
     (s.core 0).test = some (.vector 0 1) ∧ (s.core 0).vuok ≠ 0 ∧ HwUnit.vector 0 1 ≠ .vector 0 0 ∧ HwUnit.vector 0 0 ∉ (s.core 0).errors) ∧
    (let a : AgeSample := ⟨1, 2, 3, 0, []⟩
     (about evS { none0 with age := some a }).arg.age = some a ∧ (about evS { none0 with age := some a }).arg.n < 4 ∧ 3 < 8 ∧
     (about evS { none0 with age := some a, n := 4 + 3 }).arg.n = 4 + 3) := by decide +kernel

/-- An image that the ROM may check; it trusts it or not. -/
theorem witness_BootImage : evS.mbox.image = some (Config.firmwareDigest, Config.firmwareVersion, Config.firmwareSignature.extractLsb' 256 256,
    Config.firmwareSignature.setWidth 256) ∧ evS.pkg.stage = 7 ∧ evS.pkg.busy = true ∧ (evS.mbox.trusted = true ∨ evS.mbox.trusted = false) :=
  ⟨rfl, rfl, rfl, (Bool.eq_false_or_eq_true _)⟩

/-- A core whose banks may be saved, under test; reports of each outcome. -/
theorem witness_CoreTests :
    (let s : State := { stageState 2 false { none0 with unit := .core 0 } with cores := [(0, { Core.idle with test := some (.core 0) })] }
     s.arg.unit = .core 0 ∧ s.arg.flag = false ∧ (s.core 0).test = some (.core 0) ∧ (s.core 0).testable = true ∧ (s.core 0).vuok ≠ 0) ∧
    (∀ e ∈ [2, 3], (stageState 0 true { none0 with report := some ⟨e, [], [], []⟩ }).arg.report = some ⟨e, [], [], []⟩) ∧
    (let r : StageReport := ⟨0, [], [], [(1536, 0, 0, 0)]⟩
     r.health[0]? = some (1536, 0, 0, 0) ∧ r.health[1]? = none ∧ r.err = 0) := by decide +kernel

/-- Reads of the physical function and of a virtual one, at its own page and elsewhere; a halted package. -/
def hostRead (vf : Option Nat) (bar off : Nat) : HostAccess := ⟨vf, bar, off, none, []⟩
theorem witness_HostAccesses :
    (∀ a ∈ [hostRead none 0 0x008, hostRead none 2 0, hostRead (some 3) 0 0x200000, hostRead (some 3) 0 0x140000, hostRead (some 3) 0 0x101018],
      a.data = none ∧ (a.bar = 0 ∨ a.bar = 2)) ∧
    (let s : State := { evS with pkg := { evS.pkg with vfslots := [(3, (62, 2))] } }
     s.pkg.vfslots.get (0, 0) 3 = (62, 2) ∧ (1 < 2 ∧ 62 + 1 < 64 ∧ 1 < 64 ∧ 0x018 < 0x1000 ∧ 0x101018 = 0x100000 + 0x1000 * 1 + 0x018)) ∧
    ({ evS.pkg with err := 4 } : Pkg).halted = true ∧ ({ evS.pkg with err := 5 } : Pkg).halted = false ∧ evS.pkg.halted = false ∧
    (let s : State := { evS with cores := [(0, { Core.idle with b0 := bankX [] })] }
     evS.banksOf 0 = [] ∧ s.banksOf 0 = [(0, 0)]) := by decide +kernel

/-! Decoding and the step. -/

/-- Every slot has a well-formed instruction; words that decode, that have a body under NOP, and whose code is unassigned. -/
theorem witness_DecodeUndoesEncode :
    (Instr.addi { si0 with d := 5, a := 5, imm := 64 }).wf = true ∧ (Instr.addi { si0 with d := 5, a := 5, imm := 64 }).slot = some .s ∧
    (Instr.vadd .v1 sr0).wf = true ∧ (Instr.vadd .v1 sr0).slot = some .v1 ∧ (Instr.mma mx0).wf = true ∧ (Instr.mma mx0).slot = some .m ∧
    (Instr.ldd mem0).wf = true ∧ (Instr.std mem0).wf = true ∧ (Instr.loopi { si0 with imm := 1 }).wf = true ∧ (Instr.msend sr0).wf = true := by decide

theorem witness_DecodedWordsEncodeBack : decodeSlot .s 0x060028A000000800 = .ok (⟨false, 0⟩, .addi ⟨5, 5, 64, 0⟩) ∧
    ((1 : BitVec 64).extractLsb' 57 7).toNat = 0 ∧ (1 : BitVec 64).extractLsb' 0 49 ≠ 0 ∧
    ((0x1400000000000000 : BitVec 64).extractLsb' 57 7).toNat ≠ 0 ∧ ∀ b, decodeOp .s 0x0A b = none :=
  ⟨by decide, by decide, by decide, by decide, fun _ => rfl⟩

/-- The state of one bundle that runs LI x5, 7. -/
def liState : State := State.reset.withFetchWord 512 (2 ^ 64 * ((encode ⟨false, 0⟩ (.li { si0 with d := 5, imm := 7 })).getD 0).toNat)

/-- The conditions of a step that issues a bundle. -/
def steps (s : State) : Bool :=
  match s.nextAction with
  | (some (.issue c), s1) =>
    let b := (s1.core c).active
    let s2 := s1.noteTimer c b
    s1.canIssue c && (s2.ctx c b).status = .running && (s2.ctx c b).leaving = none && !(s2.ctx c b).timerDue && !(s2.ctx c b).skewed &&
      (match s2.fetchNext c b with
        | (.ok w, s3) =>
          let q : Fetched := ⟨w, decodeBundle w, []⟩
          (match bundleY w with
            | .rep _ => false
            | _ => true) && !(s3.openIssue c b).issue.pre.overfillOpen q && (s3.openIssue c b).issue.pre.decodeTrap c q = none &&
          (match (s3.openIssue c b).runSlots (q.work ((s3.openIssue c b).issue.pre.repeating (s3.openIssue c b).here)) with
            | .next t => t.issue.verdict = .commit && t.cur.sc = none && !t.issue.risky
            | _ => false)
        | _ => false)
  | _ => false

theorem witness_StepRunsWhatIsDecoded : steps liState = true ∧ (⟨false, 0⟩ : Pred).reg = 0 ∧
    liState.agenda = [] ∧ liState.others = false ∧ liState.nextCore = some 0 ∧
    (let s : State := { evS with agenda := [.event .huncRead none0] }
     s.agenda = [.event .huncRead none0] ∧ Instr.huncRead.parts = none ∧ s.pkg.halted = false ∧
     (match exec .huncRead { s with agenda := [], arg := none0 } with
      | .next _ => true
      | _ => false) = true) := by decide +kernel

/-- A bundle with an unassigned code in slot S, and one with ERET. -/
def badBundle : Fetched := ⟨2 ^ 64 * 0x1400000000000000, decodeBundle (2 ^ 64 * 0x1400000000000000), []⟩
def eretBundle : Fetched := ⟨encodeAlone ⟨false, 0⟩ .eret, decodeBundle (encodeAlone ⟨false, 0⟩ .eret), []⟩

theorem witness_IllegalBundlesTrap : (1 : Nat) ∈ slotErrors badBundle.ops ∧ (bankX []).decodeTrap 0 badBundle = some (0x0A, 1, 0) ∧
    (bankX []).illegalSlot 0 eretBundle = none ∧ (bankX []).inRepeat = none ∧ (bankX []).mode = .user ∧ privileged (bundleY eretBundle.word) = true ∧
    (runner (bankX []) 0).issue.pre.decodeTrap (runner (bankX []) 0).issue.core eretBundle = some (0x0B, 0, 0) ∧
    (runner (bankX []) 0).issue.pre.overfillOpen eretBundle = false ∧ slotErrors eretBundle.ops = [] ∧ clashes eretBundle.ops = [] ∧
    (bankX []).loopRefused eretBundle = false ∧ (bankX []).repBreach eretBundle.word = none ∧ finderOnly (bundleY eretBundle.word) = false ∧
    ({ bankX [] with mode := .supervisor } : Ctx).decodeTrap 0 eretBundle = none ∧
    privileged (.csave sr0) = true := by decide +kernel

/-- The state after reset meets the invariant, and the step from the state that runs one bundle answers. -/
theorem witness_StepKeepsMemoryCanonical : State.reset.MemOk ∧ liState.MemOk := ⟨⟨rfl, rfl⟩, ⟨by decide +kernel, by decide +kernel⟩⟩

/-! An image that CLOAD accepts: magic word, accumulator tags, check word; every other byte is zero. -/

def imageHead : List Byte :=
  [0x43, 0x54, 0x58, 0, 0, 1, 0, 0] ++ (List.replicate 536 0 ++ (List.replicate 8 0x3F ++ (List.replicate 1488 0 ++
    [0x7C, 0x6B, 0x67, 0x3F, 0x3F, 0x3E, 0x3F, 0x3F])))
def imageCells : List Host.Cell :=
  [(0x10000000000000, 0x43), (0x10000000000001, 0x54), (0x10000000000002, 0x58), (0x10000000000005, 0x1), (0x10000000000220, 0x3f), (0x10000000000221, 0x3f),
   (0x10000000000222, 0x3f), (0x10000000000223, 0x3f), (0x10000000000224, 0x3f), (0x10000000000225, 0x3f), (0x10000000000226, 0x3f), (0x10000000000227, 0x3f), (0x100000000007F8, 0x7c),
   (0x100000000007F9, 0x6b), (0x100000000007FA, 0x67), (0x100000000007FB, 0x3f), (0x100000000007FC, 0x3f), (0x100000000007FD, 0x3e), (0x100000000007FE, 0x3f), (0x100000000007FF, 0x3f)]
def image0 (n : Nat) : List Byte := imageHead ++ List.replicate n 0
def cloadState : State :=
  let s : State := { otherBank .idle with mem := imageCells, jobs := [(0, liveJob)] }
  { s with issue := { s.issue with mem0 := imageCells } }

theorem ofLeBytes_zeros (m : Nat) : ofLeBytes (List.replicate m (0 : Byte)) = 0 := by
  induction m with
  | zero => rfl
  | succ m im => rw [List.replicate_succ, ofLeBytes, im]; rfl

theorem xorWords_zeros (f n : Nat) : xorWords f (List.replicate n (0 : Byte)) = 0 := by
  induction f generalizing n with
  | zero => rfl
  | succ f ih =>
    unfold xorWords
    split
    · rfl
    · rw [List.drop_replicate, ih, List.take_replicate, ofLeBytes_zeros]; rfl

theorem imageHead_length : imageHead.length = 2048 := by
  unfold imageHead
  simp only [List.length_append, List.length_replicate, List.length_cons, List.length_nil]

theorem image0_check (n : Nat) : xorWords 180224 ((image0 n).take 0x7F8) ^^^ xorWords 180224 ((image0 n).drop 0x800) =
    xorWords 180224 (imageHead.take 0x7F8) := by
  have h := imageHead_length
  unfold image0
  rw [List.take_append_of_le_length (by omega), List.drop_append, List.drop_of_length_le (by omega), List.nil_append, List.drop_replicate,
    xorWords_zeros, Nat.xor_zero]

theorem cutBytes_high (n off k : Nat) (h : 2048 ≤ off) (h2 : off + k ≤ 2048 + n) : cutBytes (image0 n) off k = List.replicate k 0 := by
  have hl := imageHead_length
  unfold cutBytes image0
  rw [List.drop_append, List.drop_of_length_le (by omega), List.nil_append, List.drop_replicate, List.take_replicate]
  congr 1
  omega

theorem latch_zeros : (Latch.ofBytes (List.replicate 320 0)).bytes = List.replicate 320 0 := by decide +kernel

theorem cutBytes_low (n off k : Nat) (h : off + k ≤ 2048) : cutBytes (image0 n) off k = cutBytes imageHead off k := by
  have hl := imageHead_length
  unfold cutBytes image0
  rw [List.drop_append, List.take_append, List.length_drop, hl]
  have : k - (2048 - off) = 0 := by omega
  simp [this]

theorem runs_split : ∀ z ∈ zeroRuns, z.1 + z.2 ≤ 2048 ∨ 2048 ≤ z.1 ∧ z.1 + z.2 ≤ 2048 + 1439744 := by decide +kernel
theorem runs_low : ∀ z ∈ zeroRuns, z.1 + z.2 ≤ 2048 → (cutBytes imageHead z.1 z.2).all (· = 0) = true := by decide +kernel

/-- The image passes CLOAD's check. -/
theorem image0_ok : imageOk (image0 1439744) = true := by
  unfold imageOk
  simp only [Bool.and_eq_true]
  refine ⟨⟨⟨⟨⟨⟨⟨⟨⟨by decide +kernel, ?_⟩, ?_⟩, ?_⟩, by decide +kernel⟩, by decide +kernel⟩, by decide +kernel⟩, by decide +kernel⟩,
    by decide +kernel⟩, by decide +kernel⟩
  · rw [image0_check]
    decide +kernel
  · rw [List.all_eq_true]
    intro z hz
    rcases runs_split z hz with h | ⟨h, h2⟩
    · rw [cutBytes_low _ _ _ h]
      exact runs_low z hz h
    · rw [cutBytes_high _ _ _ h h2, List.all_eq_true]
      intro b hb
      simp [List.eq_of_mem_replicate hb]
  · rw [List.all_eq_true]
    intro i hi
    have hn := List.mem_range.1 hi
    rw [cutBytes_high _ _ _ (by omega) (by omega), Bool.and_eq_true]
    exact ⟨decide_eq_true latch_zeros, by decide +kernel⟩

theorem slice_gets (m : Sparse Byte) (k n : Nat) : Sparse.slice 0 m k n = (List.range n).map fun i => Sparse.get 0 m (k + i) := by
  unfold Sparse.slice
  apply List.map_congr_left
  intro i hi
  have hn := List.mem_range.1 hi
  exact Sparse.get_filter 0 m (fun j => decide (k ≤ j ∧ j < k + n)) (k + i) (by simp; omega)

theorem gets_zeros (m : Sparse Byte) (k n : Nat) (h : ∀ e ∈ m, e.1 < k) :
    ((List.range n).map fun i => Sparse.get 0 m (k + i)) = List.replicate n 0 := by
  rw [List.eq_replicate_iff]
  refine ⟨by simp, fun b hb => ?_⟩
  obtain ⟨i, -, rfl⟩ := List.mem_map.1 hb
  exact Sparse.get_eq_of_lt 0 m (k + i) fun e he => by have := h e he; omega

theorem imageCells_low : ∀ e ∈ imageCells, e.1 < ldmKey 0 0 + 2048 := by decide +kernel
theorem imageCells_head : ((List.range 2048).map fun i => Sparse.get 0 imageCells (ldmKey 0 0 + i)) = imageHead := by decide +kernel

theorem page_split (m : Sparse Byte) (k a b : Nat) (h : ∀ e ∈ m, e.1 < k + a) :
    Sparse.slice 0 m k (a + b) = ((List.range a).map fun i => Sparse.get 0 m (k + i)) ++ List.replicate b 0 := by
  rw [slice_gets, List.range_add, List.map_append, List.map_map, ← gets_zeros m (k + a) b h]
  congr 1
  apply List.map_congr_left
  intro i _
  simp [Nat.add_assoc]

theorem later_page (m : Sparse Byte) (k a b n : Nat) (h : ∀ e ∈ m, e.1 < k + a) (hb : a ≤ b) :
    Sparse.slice 0 m (k + b) n = List.replicate n 0 := by
  rw [slice_gets]
  exact gets_zeros _ _ _ fun e he => by have := h e he; omega

theorem pages_join (m : Sparse Byte) (k a n : Nat) (h : ∀ e ∈ m, e.1 < k + a) (hn : a ≤ n) (c : Nat) :
    (((List.range (c + 1)).map fun i => (k + n * i, n)).flatMap fun p => Sparse.slice 0 m p.1 p.2) =
      ((List.range a).map fun i => Sparse.get 0 m (k + i)) ++ List.replicate (n - a + n * c) 0 := by
  induction c with
  | zero =>
    have := page_split m k a (n - a) h
    rw [Nat.add_sub_cancel' hn] at this
    simpa using this
  | succ c ih =>
    rw [List.range_succ, List.map_append, List.flatMap_append, ih]
    have := later_page m k a (n * (c + 1)) n h (by rw [Nat.mul_succ]; omega)
    simp only [List.map_cons, List.map_nil, List.flatMap_cons, List.flatMap_nil, List.append_nil, List.append_assoc]
    rw [this, List.replicate_append_replicate, Nat.mul_succ, Nat.add_assoc]

def imageParts : List (Nat × Nat) := (List.range 88).map fun i => (ldmKey 0 0 + 16384 * i, 16384)

/-- Where the image lies, and what the load of it finds there. -/
theorem image_resolves : (match (cloadState.latchAll [opA .x { sr0 with a := 1 }]).resolveIn {}
      (pieces (cloadState.srcX (opA .x { sr0 with a := 1 })) ctxImageLen) with
    | (.ok parts, t) => parts = imageParts && !t.badRead parts && t.issue.mem0 = imageCells && t.issue.pre.stores = [] &&
        parts.all (fun p => !isReg p.1 && !t.deadLdm p.1) && t.imageLives (Ctx.ofImage (image0 1439744)) && !t.readWaits parts
    | _ => false) = true := by decide +kernel

theorem image_view (s : State) : (∀ p ∈ imageParts, isReg p.1 = false ∧ s.deadLdm p.1 = false) →
    s.view imageCells imageParts = image0 1439744 := by
  intro h
  have h1 : s.view imageCells imageParts = imageParts.flatMap fun p => Sparse.slice 0 imageCells p.1 p.2 := by
    unfold State.view
    apply List.flatMap_congr
    intro p hp
    simp [State.bytesIn, h p hp]
  rw [h1]
  have h2 := pages_join imageCells (ldmKey 0 0) 2048 16384 imageCells_low (by decide) 87
  rw [imageCells_head] at h2
  exact h2

/-- The other bank is idle, the image at address 0 of the own LDM passes, and its job lives. -/
theorem witness_CloadTakesAnImage : (∀ os wr, Ready cloadState os wr) ∧ cloadState.issue.pre.mode = .supervisor ∧
    (cloadState.srcX (opA .x { sr0 with a := 1 })).toNat % 4096 = 0 ∧ (cloadState.ctx 0 1).occupied = false ∧
    ∃ parts t, (cloadState.latchAll [opA .x { sr0 with a := 1 }]).resolveIn {}
        (pieces (cloadState.srcX (opA .x { sr0 with a := 1 })) ctxImageLen) = (.ok parts, t) ∧
      t.badRead parts = false ∧ t.readWaits parts = false ∧ imageOk (t.bytesRead parts) = true ∧ t.imageLives (Ctx.ofImage (t.bytesRead parts)) = true := by
  refine ⟨fun os wr => ⟨(supState_ready os wr).active, (supState_ready os wr).free, (supState_ready os wr).unread, (supState_ready os wr).clean⟩, rfl, by decide, by decide, ?_⟩
  have h := image_resolves
  split at h
  · rename_i parts t hr
    simp only [Bool.and_eq_true, decide_eq_true_eq, Bool.not_eq_true', List.all_eq_true] at h
    obtain ⟨⟨⟨⟨⟨⟨hp, hb⟩, hm⟩, hs⟩, ha⟩, hl⟩, hw⟩ := h
    have hv : t.bytesRead parts = image0 1439744 := by
      unfold State.bytesRead
      rw [hm, hs, hp]
      exact image_view t (hp ▸ ha)
    exact ⟨parts, t, hr, hb, hw, by rw [hv]; exact image0_ok, by rw [hv]; exact hl⟩
  · exact absurd h (by simp)

end Sys2Proof.Tests
end

section
/-! SUPPORT. The host's side of the package: where an offset of BAR0 leads for a
read and for a write, and the reads that clear (R7, R46, R65, R251, R304, R421, R427, R430, R431). -/
namespace Sys2Proof.Machine

/-! The bytes of a register -/

/-- The first n bytes of a number do not see what lies beyond them. -/
theorem leBytes_mod (n v : Nat) : leBytes n (v % 256 ^ n) = leBytes n v := by
  induction n generalizing v with
  | zero => rfl
  | succ n ih =>
    have head : BitVec.ofNat 8 (v % 256 ^ (n + 1)) = BitVec.ofNat 8 v := by
      apply BitVec.eq_of_toNat_eq
      rw [BitVec.toNat_ofNat, BitVec.toNat_ofNat]
      exact Nat.mod_mod_of_dvd v (Dvd.intro_left (256 ^ n) rfl : 256 ∣ 256 ^ (n + 1))
    have tail : v % 256 ^ (n + 1) / 256 = v / 256 % 256 ^ n := by
      rw [Nat.pow_succ', Nat.mod_mul_right_div_self]
    rw [leBytes, leBytes, head, tail, ih]

/-- A register's eight bytes are those of the number that it was made from. -/
theorem leBytes_word (n : Nat) : leBytes 8 (word n).toNat = leBytes 8 n := by
  rw [word, BitVec.toNat_ofNat]; exact leBytes_mod 8 n

/-! Pages of BAR0 -/

/-- The model's test for an offset in a range. -/
theorem within_iff {a b n : Nat} : (decide (a ≤ n) && decide (n < b)) = true ↔ a ≤ n ∧ n < b := by
  simp only [Bool.and_eq_true, decide_eq_true_eq]

/-- The slot of an offset in a job slot's page, and the offset in the page. -/
theorem jobPage_slot {j o : Nat} (ho : o < 0x1000) : (0x100000 + 0x1000 * j + o - 0x100000) / 0x1000 = j := by omega
theorem jobPage_offset {j o : Nat} (ho : o < 0x1000) : (0x100000 + 0x1000 * j + o) % 0x1000 = o := by omega

/-- The number of an HBM stack or a flash stack, by the base of their registers, and the offset among the stack's own. -/
theorem stackRegs_number {base n o : Nat} (ho : o < 0x100) : (base + 0x100 * n + o - base) / 0x100 = n := by omega
theorem stackRegs_offset {base n o : Nat} (hb : base % 0x100 = 0) (ho : o < 0x100) : (base + 0x100 * n + o) % 0x100 = o := by omega

theorem State.bar0_unaligned (s : State) {off : Nat} (h : off % 8 ≠ 0) : s.bar0 off = 0 := if_pos h

theorem State.bar0_jobReg (s : State) {j o : Nat} (hj : j < 64) (ho : o < 0x1000) (h8 : o % 8 = 0) :
    s.bar0 (0x100000 + 0x1000 * j + o) = s.readJobReg j o := by
  rw [State.bar0, if_neg (by omega), if_neg (by omega), if_pos (within_iff.2 (by omega)), jobPage_slot ho, jobPage_offset ho]

theorem State.bar0_unitReg (s : State) {off : Nat} (h : 0x200000 ≤ off) (h8 : off % 8 = 0) : s.bar0 off = s.readUnitReg off := by
  rw [State.bar0, if_neg (by omega), if_neg (by omega), if_neg (mt within_iff.1 (by omega)), if_pos h]

theorem State.readUnitReg_hbm (s : State) {off : Nat} (h : off < 0x200800) :
    s.readUnitReg off = (s.hbmStack ((off - 0x200000) / 0x100)).reg (off % 0x100) := if_pos h

theorem State.readUnitReg_flash (s : State) {off : Nat} (h : 0x280000 ≤ off) (h2 : off < 0x280800) :
    s.readUnitReg off = (s.flashStack ((off - 0x280000) / 0x100)).reg (off % 0x100) :=
  (if_neg (by omega)).trans (if_pos (within_iff.2 ⟨h, h2⟩))

theorem State.bar0_hbmReg (s : State) {n o : Nat} (hn : n < 8) (ho : o < 0x100) (h8 : o % 8 = 0) :
    s.bar0 (0x200000 + 0x100 * n + o) = (s.hbmStack n).reg o := by
  rw [s.bar0_unitReg (by omega) (by omega), s.readUnitReg_hbm (by omega), stackRegs_number ho, stackRegs_offset rfl ho]

theorem State.bar0_flashReg (s : State) {n o : Nat} (hn : n < 8) (ho : o < 0x100) (h8 : o % 8 = 0) :
    s.bar0 (0x280000 + 0x100 * n + o) = (s.flashStack n).reg o := by
  rw [s.bar0_unitReg (by omega) (by omega), s.readUnitReg_flash (by omega) (by omega), stackRegs_number ho, stackRegs_offset rfl ho]

/-! A host's access, and what its function reaches (R421, R431) -/

theorem State.hostAccess_read (s : State) {a : HostAccess} (h : a.data = none) : s.hostAccess a = .next (s.hostRead a).settle := by
  rw [State.hostAccess, State.event, h]

theorem State.hostAccess_write (s : State) {a : HostAccess} {bs : List Byte} (h : a.data = some bs) :
    s.hostAccess a = .next (s.hostWrite a bs).settle := by
  rw [State.hostAccess, State.event, h]

/-- A read of BAR0 at an offset that the function reaches. -/
theorem State.hostRead_of_reached (s : State) {a : HostAccess} {off : Nat} (hb : a.bar = 0) (h : s.pkg.bar0Of a.vf a.off = some off) :
    s.hostRead a = (s.afterBar0 off).hostReads (leBytes 8 (s.bar0 off).toNat) := by
  rw [State.hostRead, if_pos hb, h]

/-- A read of BAR0 at an offset that the function does not reach. -/
theorem State.hostRead_of_unreached (s : State) {a : HostAccess} (hb : a.bar = 0) (h : s.pkg.bar0Of a.vf a.off = none) :
    s.hostRead a = s.hostReads (leBytes 8 0) := by
  rw [State.hostRead, if_pos hb, h]

theorem State.hostRead_otherBar (s : State) {a : HostAccess} (hb : a.bar ≠ 0) : s.hostRead a = s.hostReads (leBytes 8 0) := by
  rw [State.hostRead, if_neg hb]

/-- A virtual function reaches nothing outside the pages of job slots. -/
theorem Pkg.bar0Of_outside (p : Pkg) (v : Nat) {off : Nat} (h : off < 0x100000 ∨ 0x140000 ≤ off) : p.bar0Of (some v) off = none := by
  simp [Pkg.bar0Of, h]

theorem Pkg.slotOf_own (p : Pkg) {v first count n : Nat} (hv : p.vfslots.get (0, 0) v = (first, count)) (hc : n < count)
    (hn : first + n < 64) : p.slotOf (some v) n = some (first + n) := by
  simp [Pkg.slotOf, hv, hc, hn]

/-- A virtual function reaches the pages of its own slots, renumbered from 0. -/
theorem Pkg.bar0Of_own (p : Pkg) {v first count n o : Nat} (hv : p.vfslots.get (0, 0) v = (first, count)) (hc : n < count)
    (hf : first + n < 64) (ho : o < 0x1000) :
    p.bar0Of (some v) (0x100000 + 0x1000 * n + o) = some (0x100000 + 0x1000 * (first + n) + o) := by
  have hin : (decide (0x100000 + 0x1000 * n + o < 0x100000) || decide (0x140000 ≤ 0x100000 + 0x1000 * n + o)) = false := by
    simp only [Bool.or_eq_false_iff, decide_eq_false_iff_not]; omega
  rw [Pkg.bar0Of]
  simp only [hin, jobPage_slot ho, jobPage_offset ho, p.slotOf_own hv hc hf, Option.map_some, Bool.false_eq_true, if_false]

/-! Reads that clear (R65, R251, R304, R427, R430) -/

theorem dispcntRead_settles (s : State) :
    Settles .dispcntRead s ((s.modJob s.arg.n Job.dispcntRead).hostReads (leBytes 8 (s.job s.arg.n).dispcnt.toNat)) :=
  rfl

theorem fhealthCRead_settles (s : State) : Settles .fhealthCRead s ((s.modFlash s.arg.n FlashStack.healthRead).hostReads
    (leBytes 8 (2 ^ 32 * (s.flashStack s.arg.n).reloc + (s.flashStack s.arg.n).uncorr))) := by
  rw [← leBytes_word]; rfl

theorem hptCntRead_settles (s : State) :
    Settles .hptCntRead s ((s.clearHptCnt s.arg.n).hostReads (leBytes 8 (s.cluster s.arg.n).hptCnt.toNat)) :=
  rfl

theorem colcntRead_settles (s : State) :
    Settles .colcntRead s ((s.modDie s.arg.n Die.colcntRead).hostReads (leBytes 8 (s.die s.arg.n).colcnt.toNat)) :=
  rfl

theorem huncRead_settles (s : State) :
    Settles .huncRead s ((s.modHbm s.arg.n HbmStack.huncRead).hostReads (leBytes 8 (s.hbmStack s.arg.n).hunc)) :=
  rfl

/-- A host's reads, by the base address and the function (R46, R421, R431). -/
theorem hostAccess_reads (s : State) (a : HostAccess) (hd : a.data = none) :
    (a.bar = 0 → a.vf = none → s.hostAccess a = .next ((s.afterBar0 a.off).hostReads (leBytes 8 (s.bar0 a.off).toNat)).settle) ∧
    (a.bar = 2 → s.hostAccess a = .next (s.hostReads (leBytes 8 0)).settle) ∧
    (∀ v, a.bar = 0 → a.vf = some v → a.off < 0x100000 ∨ 0x140000 ≤ a.off → s.hostAccess a = .next (s.hostReads (leBytes 8 0)).settle) ∧
    (∀ v first count n o, a.bar = 0 → a.vf = some v → s.pkg.vfslots.get (0, 0) v = (first, count) → n < count → first + n < 64 → n < 64 →
      o < 0x1000 → a.off = 0x100000 + 0x1000 * n + o → s.hostAccess a =
        .next ((s.afterBar0 (0x100000 + 0x1000 * (first + n) + o)).hostReads
          (leBytes 8 (s.bar0 (0x100000 + 0x1000 * (first + n) + o)).toNat)).settle) := by
  rw [s.hostAccess_read hd]
  refine ⟨fun hb hv => ?physical, fun hb => ?bar2, fun v hb hv hout => ?outside, fun v first count n o hb hv hs hc hf _ ho hoff => ?own⟩
  case physical => rw [s.hostRead_of_reached hb (by rw [hv]; rfl)]
  case bar2 => rw [s.hostRead_otherBar (by omega)]
  case outside => rw [s.hostRead_of_unreached hb (by rw [hv]; exact s.pkg.bar0Of_outside v hout)]
  case own => rw [s.hostRead_of_reached hb (by rw [hv, hoff]; exact s.pkg.bar0Of_own hs hc hf ho)]

/-- Registers of a job slot's page as they read; REPLAY, PREEMPT and JOBKILL read zero (R7, R422). -/
theorem bar0_jobRegs (s : State) (j : Nat) (hj : j < 64) :
    s.bar0 (0x100000 + 0x1000 * j + 0x010) = (s.job j).launchVA ∧
    s.bar0 (0x100000 + 0x1000 * j + 0x018) = word (2 ^ 56 * (32 - s.hostHeld j) + 256 * (s.job j).ptimeout) ∧
    s.bar0 (0x100000 + 0x1000 * j + 0x060) = (s.job j).qstat ∧ s.bar0 (0x100000 + 0x1000 * j + 0x0D8) = word (s.job j).kstat ∧
    s.bar0 (0x100000 + 0x1000 * j + 0x0C0) = 0 ∧ s.bar0 (0x100000 + 0x1000 * j + 0x0C8) = 0 ∧
    s.bar0 (0x100000 + 0x1000 * j + 0x0D0) = 0 := by
  have at_ {o : Nat} (ho : o < 0x1000) (h8 : o % 8 = 0) := s.bar0_jobReg hj ho h8
  exact ⟨at_ (by decide) rfl, at_ (by decide) rfl, at_ (by decide) rfl, at_ (by decide) rfl, at_ (by decide) rfl,
    at_ (by decide) rfl, at_ (by decide) rfl⟩

/-- Settles O50: each read that clears is its event's own operation, and the rest follows the map of BAR0. -/
theorem readsThatClear : Obligations.ReadsThatClear := by
  unfold Obligations.ReadsThatClear
  refine ⟨?dispcnt, ?health, ?hptCnt, ?colcnt, huncRead_settles, hostAccess_reads, fun s => ⟨fun _ => s.bar0_unaligned, rfl, rfl, ?write, ?job, ?stack⟩⟩
  case dispcnt => rintro s _ rfl; exact dispcntRead_settles s
  case health => rintro s _ rfl; exact fhealthCRead_settles s
  case hptCnt => rintro s _ rfl; exact hptCntRead_settles s
  case colcnt => rintro s _ rfl; exact colcntRead_settles s
  case write => exact s.bar0_unitReg (by decide) rfl
  case job => exact bar0_jobRegs s
  case stack => exact fun n hn => ⟨s.bar0_flashReg (o := 0) hn (by decide) rfl, s.bar0_hbmReg hn (by decide) rfl⟩

end Sys2Proof.Machine
end

section
/-! SUPPORT. The host's writes: single registers, the map of BAR0 as a write finds it, and the memory window BAR4 (R7, R304, R391,
R416, R421 to R423, R425, R428, R430 to R433). -/
namespace Sys2Proof.Machine

/-! Single registers (R416, R422, R430, R431) -/

theorem finjWrite_settles (s : State) (hn : s.arg.n < 8) : Settles .finjWrite s (s.writeFinj s.arg.n s.arg.v) :=
  congrArg (fun t : State => Host.Outcome.next t.settle) (if_pos hn)

theorem zfreePush_settles (s : State) (hn : s.arg.n < 8) : Settles .zfreePush s (s.writeZfree s.arg.n s.arg.v) :=
  congrArg (fun t : State => Host.Outcome.next t.settle) (if_pos hn)

theorem vfslotsWrite_settles (s : State) (hn : s.arg.n < 16) : Settles .vfslotsWrite s (s.writeVfslots s.arg.n s.arg.v) :=
  congrArg (fun t : State => Host.Outcome.next t.settle) (if_pos hn)

theorem fgrantWrite_settles (s : State) (hn : s.arg.n < 64) (hm : s.arg.m < 16) :
    Settles .fgrantWrite s (s.writeFgrant s.arg.n s.arg.m s.arg.flag s.arg.v) :=
  congrArg (fun t : State => Host.Outcome.next t.settle) (if_pos (by simp [hn, hm]))

/-- What refuses a write of FINJ: it arms a page of another stack, or no page (R416). -/
theorem finj_refused_iff (n : Nat) (v : Word) :
    (v.getLsbD 63 && (decide (bits v 0 29 % 8 ≠ n) || decide (flashPages ≤ bits v 0 29))) = true ↔
      v.getLsbD 63 = true ∧ (bits v 0 29 % 8 ≠ n ∨ 488281248 ≤ bits v 0 29) := by
  simp only [Bool.and_eq_true, Bool.or_eq_true, decide_eq_true_eq]; rfl

theorem State.writeFinj_arms (s : State) {n : Nat} {v : Word} (ha : v.getLsbD 63 = true) (hn : bits v 0 29 % 8 = n)
    (hp : bits v 0 29 < 488281248) : s.writeFinj n v = s.modFlash n fun k => { k with arm := true, armPage := bits v 0 29 } := by
  have hok : ¬(bits v 0 29 % 8 ≠ n ∨ 488281248 ≤ bits v 0 29) := by omega
  exact (if_neg fun h => hok ((finj_refused_iff n v).1 h).2).trans (by rw [ha])

theorem State.writeFinj_refused (s : State) {n : Nat} {v : Word} (ha : v.getLsbD 63 = true)
    (h : bits v 0 29 % 8 ≠ n ∨ 488281248 ≤ bits v 0 29) : s.writeFinj n v = s := if_pos ((finj_refused_iff n v).2 ⟨ha, h⟩)

theorem State.writeZfree_pushes (s : State) {n : Nat} {v : Word} (h : s.packing n = false) :
    s.writeZfree n v = s.modHbm n fun k => { k with free := bits v 0 32 :: k.free } := if_neg (by simp [h])

/-- Slots meet when neither is empty and each begins before the other ends. -/
theorem slotsMeet_iff (a b : Nat × Nat) : slotsMeet a b = true ↔ a.2 ≠ 0 ∧ b.2 ≠ 0 ∧ a.1 < b.1 + b.2 ∧ b.1 < a.1 + a.2 := by
  simp [slotsMeet, and_assoc]

/-- What refuses a write of VFSLOTS: slots of another function that meet those written (R431). -/
theorem vfslots_refused_iff (m : Sparse (Nat × Nat)) (vf : Nat) (mine : Nat × Nat) :
    (m.any fun e => e.1 ≠ vf && slotsMeet mine e.2) = true ↔ ∃ e ∈ m, e.1 ≠ vf ∧ mine.2 ≠ 0 ∧ e.2.2 ≠ 0 ∧ mine.1 < e.2.1 + e.2.2 ∧
      e.2.1 < mine.1 + mine.2 := by
  simp only [List.any_eq_true, Bool.and_eq_true, decide_eq_true_eq, slotsMeet_iff]

theorem State.writeVfslots_free (s : State) {vf : Nat} {v : Word} (h : ∀ e ∈ s.pkg.vfslots, e.1 = vf ∨ bits v 8 6 = 0 ∨ e.2.2 = 0 ∨
    e.2.1 + e.2.2 ≤ bits v 0 6 ∨ bits v 0 6 + bits v 8 6 ≤ e.2.1) : s.writeVfslots vf v =
      { s with pkg := { s.pkg with vfslots := s.pkg.vfslots.set (0, 0) vf (bits v 0 6, bits v 8 6) } } := by
  refine if_neg fun ht => ?_
  obtain ⟨e, he, hother, hmine, hcount, hlow, hhigh⟩ := (vfslots_refused_iff _ _ _).1 ht
  have := h e he
  simp only at hmine hlow hhigh
  omega

theorem State.writeVfslots_refused (s : State) {vf : Nat} {v : Word} (h : ∃ e ∈ s.pkg.vfslots, e.1 ≠ vf ∧ bits v 8 6 ≠ 0 ∧ e.2.2 ≠ 0 ∧
    bits v 0 6 < e.2.1 + e.2.2 ∧ e.2.1 < bits v 0 6 + bits v 8 6) : s.writeVfslots vf v = s :=
  if_pos ((vfslots_refused_iff _ _ (bits v 0 6, bits v 8 6)).2 h)

theorem State.writeFgrant_early (s : State) {j g : Nat} {second : Bool} {v : Word} (h : s.pkg.stage ≠ 2) :
    s.writeFgrant j g second v = s := if_pos h

/-- A grant's entry after a write of one of its words. -/
theorem State.writeFgrant_entry (s : State) (j g : Nat) (second : Bool) (v : Word) (h : s.pkg.stage = 2) :
    ((s.writeFgrant j g second v).job j).fgrant.get (0, 0) g =
      if second then (((s.job j).fgrant.get (0, 0) g).1, v &&& 0x1FFFFFFF)
      else (v &&& 0xC00000001FFFFFFF, ((s.job j).fgrant.get (0, 0) g).2) := by
  rw [State.writeFgrant, if_neg (not_not.2 h), State.job_modJob_self, Sparse.get_set_self]

/-! The map of BAR0, as a write finds it -/

theorem registerWrite_settles (s : State) : Settles .registerWrite s (s.writeBar0 s.arg.n s.arg.v s.arg.data) := rfl

theorem State.writeBar0_unaligned (s : State) {off : Nat} (v : Word) (data : List Byte) (h : off % 8 ≠ 0) :
    s.writeBar0 off v data = s := if_pos (by simp [h])

theorem State.writeBar0_halted (s : State) {off : Nat} (v : Word) (data : List Byte) (hs : s.pkg.halted = true) (h : off < 0x400000) :
    s.writeBar0 off v data = s := if_pos (by simp [hs, h])

section
variable (s : State) (v : Word) (data : List Byte) (hs : s.pkg.halted = false)
include hs

/-- Neither of the reasons to ignore a write applies. -/
theorem State.writeBar0_taken {off : Nat} (h8 : off % 8 = 0) :
    ¬(decide (off % 8 ≠ 0) || (s.pkg.halted && decide (off < 0x400000))) = true := by simp [hs, h8]

theorem State.writeBar0_pkgReg {off : Nat} (h : off < 0x1000) (h8 : off % 8 = 0) : s.writeBar0 off v data = s.writePkgReg off v :=
  (if_neg (s.writeBar0_taken hs h8)).trans (if_pos h)

theorem State.writeBar0_jobReg {j o : Nat} (hj : j < 64) (ho : o < 0x1000) (h8 : o % 8 = 0) :
    s.writeBar0 (0x100000 + 0x1000 * j + o) v data = s.writeJobReg j o v data := by
  rw [State.writeBar0, if_neg (s.writeBar0_taken hs (by omega)), if_neg (by omega), if_pos (within_iff.2 (by omega)), jobPage_slot ho,
    jobPage_offset ho]

theorem State.writeBar0_unitReg {off : Nat} (h : 0x200000 ≤ off) (h8 : off % 8 = 0) : s.writeBar0 off v data = s.writeUnitReg off v := by
  rw [State.writeBar0, if_neg (s.writeBar0_taken hs h8), if_neg (by omega), if_neg (mt within_iff.1 (by omega)), if_pos h]

/-- RD_DISTURB_THRESH (R304). -/
theorem State.writeBar0_thresh {n : Nat} (hn : n < 8) : s.writeBar0 (0x280000 + 0x100 * n + 0x18) v data =
    s.modFlash n fun k => { k with thresh := min 1000000 (max 1 (bits v 0 32)) } := by
  have hreg : s.writeUnitReg (0x280000 + 0x100 * n + 0x18) v =
      s.modFlash ((0x280000 + 0x100 * n + 0x18 - 0x280000) / 0x100) fun k => { k with thresh := clampThresh (bits v 0 32) } := by
    rw [State.writeUnitReg.eq_def, if_neg (by omega), if_pos (within_iff.2 (by omega)), stackRegs_offset rfl (by decide)]
    rfl
  rw [s.writeBar0_unitReg v data hs (by omega) (by omega), hreg, stackRegs_number (by decide)]
  rfl
end

/-! TSLICE (R391) -/

theorem State.writeTslice_noBank (s : State) {j : Nat} (v : Word) (h : s.banksOf j = []) :
    s.writeTslice j v = s.modJob j fun q => { q with tslice := bits v 0 32 } := by
  have hb : (s.modJob j fun q => { q with tslice := bits v 0 32 }).banksOf j = [] := h
  rw [State.writeTslice, hb, List.foldl_nil]

theorem State.writeTslice_oneBank (s : State) {j c b : Nat} (v : Word) (h : s.banksOf j = [(c, b)]) :
    s.writeTslice j v = (s.modJob j fun q => { q with tslice := bits v 0 32 }).modCtx c b fun k =>
      { k with slices := if bits v 0 32 = 0 then 0 else k.cycles.toNat / bits v 0 32 } := by
  have hb : (s.modJob j fun q => { q with tslice := bits v 0 32 }).banksOf j = [(c, b)] := h
  rw [State.writeTslice, hb, List.foldl_cons, List.foldl_nil, State.job_modJob_self]
  rfl

/-! The memory window (R425, R432) -/

/-- The byte that a read of the window finds: all ones where nothing answers (R432). -/
def State.windowByte (s : State) (off : Nat) : Byte :=
  match s.bar4Key off with
  | some k => (s.bytesAt k 1).headD 0xFF
  | none => 0xFF

theorem hostBar4Read_settles (s : State) :
    Settles .hostBar4Read s (s.hostReads ((List.range s.arg.m).map fun i => s.windowByte (s.arg.n + i))) := rfl

/-- A list is the map of its entries over its length. -/
theorem eq_map_range_of_getD {α : Type} {d : α} {l : List α} {n : Nat} {f : Nat → α} (hl : l.length = n)
    (h : ∀ i < n, l.getD i d = f i) : l = (List.range n).map f := by
  refine List.ext_getElem (by simp [hl]) fun i hi _ => ?_
  rw [List.getElem_map, List.getElem_range, ← h i (hl ▸ hi), List.getD_eq_getElem l d hi]

/-- One byte written through the window. -/
def State.windowPut (s t : State) (off : Nat) (b : Byte) : State :=
  match s.bar4Key off with
  | some k => t.putBytes hostWriter k [b]
  | none => t

theorem hostBar4Write_settles (s : State) {b : Byte} (h : s.arg.data = [b]) : Settles .hostBar4Write s (s.windowPut s s.arg.n b) := by
  have hrun : exec .hostBar4Write s = .next ((s.arg.data.mapIdx fun i b => (i, b)).foldl
    (fun t e => s.windowPut t (s.arg.n + e.1) e.2) s).settle := rfl
  rw [Settles, hrun, h]
  rfl

/-- At stage 2, without an error, the window's first part is LDM (R425, R432). -/
theorem State.bar4Key_ldm (s : State) {off : Nat} (hs : s.pkg.stage = 2) (he : s.pkg.err = 0) (h : off < 0x20000000) :
    s.bar4Key off = some (ldmKey 0 off) := by
  have hready : s.pkg.ready = true := by simp [Pkg.ready, Pkg.halted, hs, he]
  simp [State.bar4Key, hready, h]

/-! The clauses of the obligation -/

theorem finjAndZfree_write (s : State) (hn : s.arg.n < 8) :
    (s.arg.v.getLsbD 63 = true → bits s.arg.v 0 29 % 8 = s.arg.n → bits s.arg.v 0 29 < 488281248 →
      Settles .finjWrite s (s.modFlash s.arg.n fun k => { k with arm := true, armPage := bits s.arg.v 0 29 })) ∧
    (s.arg.v.getLsbD 63 = true → bits s.arg.v 0 29 % 8 ≠ s.arg.n ∨ 488281248 ≤ bits s.arg.v 0 29 → Settles .finjWrite s s) ∧
    (s.packing s.arg.n = false →
      Settles .zfreePush s (s.modHbm s.arg.n fun k => { k with free := bits s.arg.v 0 32 :: k.free })) := by
  have hf := finjWrite_settles s hn
  refine ⟨fun ha hm hp => ?_, fun ha h => ?_, fun h => ?_⟩
  · rwa [s.writeFinj_arms ha hm hp] at hf
  · rwa [s.writeFinj_refused ha h] at hf
  · rw [← s.writeZfree_pushes h]; exact zfreePush_settles s hn

theorem fgrant_write (s : State) (hn : s.arg.n < 64) (hm : s.arg.m < 16) :
    (s.pkg.stage ≠ 2 → Settles .fgrantWrite s s) ∧
    (s.pkg.stage = 2 → s.arg.flag = false → ∃ u : State, Settles .fgrantWrite s u ∧ (u.job s.arg.n).fgrant.get (0, 0) s.arg.m =
      (s.arg.v &&& 0xC00000001FFFFFFF, ((s.job s.arg.n).fgrant.get (0, 0) s.arg.m).2)) ∧
    (s.pkg.stage = 2 → s.arg.flag = true → ∃ u : State, Settles .fgrantWrite s u ∧ (u.job s.arg.n).fgrant.get (0, 0) s.arg.m =
      (((s.job s.arg.n).fgrant.get (0, 0) s.arg.m).1, s.arg.v &&& 0x1FFFFFFF)) := by
  have hw := fgrantWrite_settles s hn hm
  refine ⟨fun h => ?early, fun h hflag => ⟨_, hw, ?first⟩, fun h hflag => ⟨_, hw, ?second⟩⟩
  case early => rwa [s.writeFgrant_early h] at hw
  case first => rw [s.writeFgrant_entry _ _ _ _ h, hflag]; rfl
  case second => rw [s.writeFgrant_entry _ _ _ _ h, hflag]; rfl

/-- A register write settles what the map of BAR0 makes of it. -/
theorem registerWrite_settles_of {s t : State} {off : Nat} (hn : s.arg.n = off) (h : s.writeBar0 off s.arg.v s.arg.data = t) :
    Settles .registerWrite s t := by
  have hw := registerWrite_settles s
  rwa [hn, h] at hw

theorem tslice_write (s : State) (hs : s.pkg.halted = false) {j : Nat} (hj : j < 64) (hn : s.arg.n = 0x100000 + 0x1000 * j + 0x0B8) :
    (s.banksOf j = [] → Settles .registerWrite s (s.modJob j fun q => { q with tslice := bits s.arg.v 0 32 })) ∧
    (∀ c b, s.banksOf j = [(c, b)] → Settles .registerWrite s ((s.modJob j fun q => { q with tslice := bits s.arg.v 0 32 }).modCtx c b
      fun k => { k with slices := if bits s.arg.v 0 32 = 0 then 0 else k.cycles.toNat / bits s.arg.v 0 32 })) := by
  have hw : Settles .registerWrite s (s.writeTslice j s.arg.v) :=
    registerWrite_settles_of hn (s.writeBar0_jobReg _ _ hs hj (by decide) rfl)
  refine ⟨fun h => ?_, fun c b h => ?_⟩
  · rwa [s.writeTslice_noBank _ h] at hw
  · rwa [s.writeTslice_oneBank _ h] at hw

/-- A package that start-up stopped takes no post (R421, R425). -/
theorem State.hostWrite_post_halted (s : State) {a : HostAccess} (bs : List Byte) (hb : a.bar = 2) (hs : s.pkg.halted = true) :
    s.hostWrite a bs = s := by
  rw [State.hostWrite, if_neg (by omega), if_pos hb, if_pos hs]

/-- Settles O51: each write is looked up in its register's table, and the window byte by byte. -/
theorem hostWritesRegistersAndMemory : Obligations.HostWritesRegistersAndMemory := by
  unfold Obligations.HostWritesRegistersAndMemory
  refine ⟨?single, ?vfslots, ?fgrant, ?stopped, ?posts, ?registers, ?read, ?write, fun s _ => s.bar4Key_ldm⟩
  case single => rintro s _ rfl; exact finjAndZfree_write s
  case vfslots =>
    rintro s _ rfl hn
    have hw := vfslotsWrite_settles s hn
    exact ⟨fun h => s.writeVfslots_free h ▸ hw, fun h => by rwa [s.writeVfslots_refused h] at hw⟩
  case fgrant => rintro s _ rfl; exact fgrant_write s
  case stopped => rintro s _ rfl hs hn; exact registerWrite_settles_of rfl (s.writeBar0_halted _ _ hs hn)
  case posts =>
    intro s a hd hb hs
    obtain ⟨bs, hd⟩ := Option.ne_none_iff_exists'.1 hd
    rw [s.hostAccess_write hd, s.hostWrite_post_halted bs hb hs]
  case registers =>
    rintro s _ rfl hs
    refine ⟨fun h => ?unaligned, fun h => ?fdtbase, fun h => ?pcap, fun j hj h => ?ptbase, fun j hj h => tslice_write s hs hj h,
      fun n hn h => ?thresh, fun h => ?retry⟩
    case unaligned => exact registerWrite_settles_of rfl (s.writeBar0_unaligned _ _ h)
    case fdtbase => exact registerWrite_settles_of h (s.writeBar0_pkgReg _ _ hs (by decide) rfl)
    case pcap => exact registerWrite_settles_of h (s.writeBar0_pkgReg _ _ hs (by decide) rfl)
    case ptbase => exact registerWrite_settles_of h (s.writeBar0_jobReg _ _ hs hj (by decide) rfl)
    case thresh => exact registerWrite_settles_of h (s.writeBar0_thresh _ _ hs hn)
    case retry => exact registerWrite_settles_of h (s.writeBar0_unitReg _ _ hs (by decide) rfl)
  case read =>
    intro s bs hl h
    rw [eq_map_range_of_getD hl h]
    exact hostBar4Read_settles s
  case write =>
    intro s b k hd
    have hw := hostBar4Write_settles s hd
    refine ⟨fun h => ?_, fun h => ?_⟩
    · rwa [State.windowPut, h] at hw
    · rwa [State.windowPut, h] at hw

end Sys2Proof.Machine
end

section
/-! SUPPORT. The state at power-good: what its units read as (R18, R65, R90, R230, R251, R300, R304, R360, R424, R425, R427, R433). -/
namespace Sys2Proof.Machine

/-! Nothing is listed at reset, so every unit reads as its idle one -/

@[simp] theorem State.reset_core (c : Nat) : State.reset.core c = .idle := rfl
@[simp] theorem State.reset_cluster (d : Nat) : State.reset.cluster d = .idle := rfl
@[simp] theorem State.reset_die (e : Nat) : State.reset.die e = .idle := rfl
@[simp] theorem State.reset_flashStack (f : Nat) : State.reset.flashStack f = .idle := rfl
@[simp] theorem State.reset_job (j : Nat) : State.reset.job j = .idle := rfl
@[simp] theorem State.reset_handle (h : Nat) : State.reset.handle h = .free := rfl
theorem State.reset_ctx_status (c b : Nat) : (State.reset.ctx c b).status = .idle := by
  rw [State.ctx, State.reset_core, Core.bank]; split <;> rfl

/-! The words that idle units show -/

/-- SLOTMAP and FINDCTL (R90, R113). -/
theorem Core.idle_words : Core.idle.slotmap = 0xC2 ∧ Core.idle.findctl = 0x200 := ⟨by decide, by decide⟩

/-- MRGCTL, HPT_CTL, HPT_CNT and COLMAP (R230, R251, R427). -/
theorem Cluster.idle_words : Cluster.idle.mrgctl = 0x60 ∧ Cluster.idle.hptCtl = 0x01000240 ∧ Cluster.idle.hptCnt = 0 ∧
    Cluster.idle.colmap = 0x76543210 := ⟨by decide, by decide, by decide, by decide⟩

/-- COLCNT and EPHEM (R427, R429). -/
theorem Die.idle_words : Die.idle.colcnt = 0 ∧ Die.idle.ephem = 0xFFFF000000000000 := ⟨by decide, by decide⟩

/-- BOOTSTAGE and SWEEPCTL (R360, R425). -/
theorem Pkg.reset_words : State.reset.pkg.bootstage = 0x0F ∧ State.reset.pkg.sweepctl = 0x0001001400001000 := ⟨by decide, by decide⟩

/-- Settles O59: the words are those of the idle units, every other register stands in the reset state itself. -/
theorem resetIsPowerGood : Obligations.ResetIsPowerGood := by
  unfold Obligations.ResetIsPowerGood
  obtain ⟨hboot, hsweep⟩ := Pkg.reset_words
  obtain ⟨hslots, hfind⟩ := Core.idle_words
  refine ⟨.reset, hboot, rfl, hsweep, ⟨rfl, rfl, rfl⟩, fun c => ?core, fun d => ?cluster, fun e => ?die, fun f => ?flash, fun j => ?job,
    State.reset_ctx_status, fun j => ?active, fun h => ?handle, rfl, rfl, rfl, rfl, rfl, rfl, fun _ => rfl⟩
  case core => rw [State.reset_core]; exact ⟨hslots, hfind, fun _ => rfl, rfl, rfl⟩
  case cluster => rw [State.reset_cluster]; exact Cluster.idle_words
  case die => rw [State.reset_die]; exact Die.idle_words
  case flash => rw [State.reset_flashStack]; exact ⟨rfl, rfl, rfl, rfl, rfl, rfl⟩
  case job => rw [State.reset_job]; exact ⟨rfl, rfl, rfl, rfl, rfl, rfl, rfl, rfl, rfl, rfl, rfl, rfl, rfl, rfl, rfl⟩
  case active => rw [State.reset_job]; rfl
  case handle => rw [State.reset_handle]; rfl

end Sys2Proof.Machine
end

section
/-! SUPPORT. Finite maps: what a filter by keys leaves out, and a change of every value. -/
namespace Sys2Proof

theorem Sparse.get_filter_out {α : Type} (d : α) (m : Sparse α) {p : Nat → Bool} {j : Nat} (h : p j = false) :
    Sparse.get d (m.filter fun e => p e.1) j = d :=
  Sparse.get_eq_of_lt d _ j fun e he hj => by
    have := (List.mem_filter.mp he).2
    simp [hj, h] at this

/-- A map whose values are all changed, the default with them. -/
theorem Sparse.get_map {α : Type} {d : α} {g : α → α} (hd : g d = d) (m : Sparse α) (j : Nat) :
    Sparse.get d (m.map fun e => (e.1, g e.2)) j = g (Sparse.get d m j) := by
  induction m with
  | nil => exact hd.symm
  | cons e r ih =>
    by_cases h : e.1 = j
    · simp [Sparse.get, h]
    · simp [Sparse.get, h, ih]

end Sys2Proof
end

section
/-! SUPPORT. Mailbox commands, start-up and the events of power, temperature, collimation and ageing (R14, R425 to R429, R431, R434). -/
namespace Sys2Proof.Machine

/-! Events and folds -/

/-- An event settles what its effect makes of the state. -/
theorem settles_of_event {i : Instr} {s t : State} {f : State → State} (o : Out) (hi : exec i s = o) (ho : o = s.event f) (h : f s = t) :
    Settles i s t := by
  rw [Settles, hi, ho, State.event, h]

/-- What every step of a fold keeps, the fold keeps. -/
theorem foldl_keeps {σ α β : Type} (rd : σ → β) {op : σ → α → σ} (h : ∀ s a, rd (op s a) = rd s) (l : List α) (s : σ) :
    rd (l.foldl op s) = rd s := by
  induction l generalizing s with
  | nil => rfl
  | cons a l ih => rw [List.foldl_cons, ih, h]

/-- A unit after each of the units below k has been changed once. -/
theorem foldl_range_read {σ α : Type} {rd : σ → Nat → α} {op : σ → Nat → σ} {g : Nat → α → α}
    (self : ∀ s n, rd (op s n) n = g n (rd s n)) (other : ∀ s n m, m ≠ n → rd (op s n) m = rd s m) (s : σ) {n k : Nat} (h : n < k) :
    rd ((List.range k).foldl op s) n = g n (rd s n) := by
  have above (k : Nat) : ∀ m, k ≤ m → rd ((List.range k).foldl op s) m = rd s m := by
    induction k with
    | zero => exact fun _ _ => rfl
    | succ k ih =>
      intro m hm
      rw [List.range_succ, List.foldl_append, List.foldl_cons, List.foldl_nil, other _ _ _ (by omega), ih m (by omega)]
  induction k with
  | zero => omega
  | succ k ih =>
    rw [List.range_succ, List.foldl_append, List.foldl_cons, List.foldl_nil]
    by_cases hn : n = k
    · rw [hn, self, above k k (Nat.le_refl k)]
    · rw [other _ _ _ hn, ih (by omega)]

/-! Units -/

@[simp] theorem State.core_modCore_self (s : State) (c : Nat) (f : Core → Core) : (s.modCore c f).core c = f (s.core c) :=
  s.core_setCore_self c _

@[simp] theorem State.core_bootChange (s : State) (stage : Nat) (busy : Bool) (err c : Nat) :
    (s.bootChange stage busy err).core c = s.core c := rfl
@[simp] theorem State.cluster_bootChange (s : State) (stage : Nat) (busy : Bool) (err d : Nat) :
    (s.bootChange stage busy err).cluster d = s.cluster d := rfl
@[simp] theorem State.flashStack_bootChange (s : State) (stage : Nat) (busy : Bool) (err n : Nat) :
    (s.bootChange stage busy err).flashStack n = s.flashStack n := rfl
@[simp] theorem State.flashStack_port (s : State) (q : Port) (n : Nat) : ({ s with port := q } : State).flashStack n = s.flashStack n := rfl

theorem State.die_modDie_self (s : State) (e : Nat) (f : Die → Die) : (s.modDie e f).die e = f (s.die e) := by
  simp [State.die, State.modDie]

theorem State.die_modDie_ne (s : State) (e i : Nat) (f : Die → Die) (h : i ≠ e) : (s.modDie e f).die i = s.die i := by
  simp [State.die, State.modDie, Sparse.get_set_ne _ _ _ _ _ h]

theorem State.flashStack_modFlash_self (s : State) (n : Nat) (f : FlashStack → FlashStack) :
    (s.modFlash n f).flashStack n = f (s.flashStack n) := by
  simp [State.flashStack, State.modFlash]

theorem State.flashStack_modFlash_ne (s : State) (n i : Nat) (f : FlashStack → FlashStack) (h : i ≠ n) :
    (s.modFlash n f).flashStack i = s.flashStack i := by
  simp [State.flashStack, State.modFlash, Sparse.get_set_ne _ _ _ _ _ h]

/-! The mailbox (R434) -/

theorem State.command_busy (s : State) (h : s.mbox.busy = true) (cmd : Nat) (run : State → Mailbox → Mailbox) :
    s.command cmd run = { s with mbox := { s.mbox with result := 1 } } := if_pos h

theorem State.command_free (s : State) (h : s.mbox.busy = false) (cmd : Nat) (run : State → Mailbox → Mailbox) :
    s.command cmd run = { s with mbox := run s { s.mbox with busy := true, cmd := cmd, outcome := 0 } } := if_neg (by simp [h])

theorem mbGetid_settles (s : State) : Settles .mbGetid s (s.command 1 getid) := rfl
theorem mbAttest_settles (s : State) : Settles .mbAttest s (s.command 2 attest) := rfl
theorem mbVerify_settles (s : State) : Settles .mbVerify s (s.command 3 verify) := rfl
theorem mbUpdate_settles (s : State) : Settles .mbUpdate s (s.command 4 update) := rfl

/-- UPDATE leaves the command in progress, and the buffer. -/
theorem update_rest (s : State) (m : Mailbox) :
    (update s m).busy = m.busy ∧ (update s m).cmd = m.cmd ∧ (update s m).buffer = m.buffer := by
  unfold update
  dsimp only
  split
  · exact ⟨rfl, rfl, rfl⟩
  · split
    · exact ⟨rfl, rfl, rfl⟩
    · exact ⟨rfl, rfl, rfl⟩

/-- What UPDATE makes of the image with one more part: kept for the next part, staged for the next power-good, or refused. -/
theorem update_image (s : State) (m : Mailbox) (img : List Byte)
    (himg : img = m.update ++ (m.bytes 0 4096).take (Config.imageLength m.update (m.bytes 0 4096))) :
    (Config.parseImage img = none → update s m = { m with update := img }) ∧
    (∀ parts, Config.parseImage img = some parts → imageTrusted parts = true → update s m = { m with update := [], staged := some img }) ∧
    (∀ parts, Config.parseImage img = some parts → imageTrusted parts = false → update s m = { m with update := [], outcome := 3 }) := by
  subst himg
  refine ⟨fun hp => ?_, fun parts hp ht => ?_, fun parts hp ht => ?_⟩
  · simp only [update, hp]
  · simp only [update, hp, ht, if_true]
  · simp only [update, hp, ht, Bool.false_eq_true, if_false]

theorem mailboxDone_settles (s : State) (h : s.mbox.busy = true) :
    Settles .mailboxDone s (State.signal { s with mbox := { s.mbox with busy := false, result := s.mbox.outcome } } 1026) :=
  settles_of_event (execMailboxDone s) rfl rfl (if_pos h)

/-- A trusted image verifies under the fused key, and its version is not below the fused counter. -/
theorem Mailbox.trusted_iff (m : Mailbox) {d r s : BitVec 256} {v : Nat} (h : m.image = some (d, v, r, s)) :
    m.trusted = true ↔ ecdsaVerify d.toNat (Config.kohornKey.toNat / 2 ^ 256) (Config.kohornKey.toNat % 2 ^ 256) r.toNat s.toNat = true ∧
      Config.rollback ≤ v := by
  simp only [Mailbox.trusted, h, imageTrusted, Bool.and_eq_true, decide_eq_true_eq]

theorem mailbox_commands_busy (s : State) (h : s.mbox.busy = true) :
    Settles .mbGetid s { s with mbox := { s.mbox with result := 1 } } ∧ Settles .mbAttest s { s with mbox := { s.mbox with result := 1 } } ∧
    Settles .mbVerify s { s with mbox := { s.mbox with result := 1 } } ∧ Settles .mbUpdate s { s with mbox := { s.mbox with result := 1 } } ∧
    Settles .mailboxDone s (State.signal { s with mbox := { s.mbox with busy := false, result := s.mbox.outcome } } 1026) :=
  have refused := s.command_busy h
  ⟨refused 1 getid ▸ mbGetid_settles s, refused 2 attest ▸ mbAttest_settles s, refused 3 verify ▸ mbVerify_settles s,
    refused 4 update ▸ mbUpdate_settles s, mailboxDone_settles s h⟩

theorem mbUpdate_free (s : State) (h : s.mbox.busy = false) :
    ∃ u : State, Settles .mbUpdate s u ∧ u.mbox.busy = true ∧ u.mbox.cmd = 4 ∧ u.mbox.buffer = s.mbox.buffer ∧
      ∀ img, img = s.mbox.update ++ (s.mbox.bytes 0 4096).take (Config.imageLength s.mbox.update (s.mbox.bytes 0 4096)) →
        (Config.parseImage img = none → u.mbox.update = img ∧ u.mbox.outcome = 0) ∧
        (∀ parts, Config.parseImage img = some parts → imageTrusted parts = true → u.mbox.staged = some img ∧ u.mbox.update = []) ∧
        (∀ parts, Config.parseImage img = some parts → imageTrusted parts = false → u.mbox.outcome = 3 ∧ u.mbox.staged = s.mbox.staged) := by
  have hu := mbUpdate_settles s
  rw [s.command_free h] at hu
  obtain ⟨hbusy, hcmd, hbuffer⟩ := update_rest s { s.mbox with busy := true, cmd := 4, outcome := 0 }
  refine ⟨_, hu, hbusy, hcmd, hbuffer, fun img himg => ?_⟩
  obtain ⟨part, trusted, refused⟩ := update_image s { s.mbox with busy := true, cmd := 4, outcome := 0 } img himg
  exact ⟨fun hp => ⟨congrArg Mailbox.update (part hp), congrArg Mailbox.outcome (part hp)⟩,
    fun parts hp ht => ⟨congrArg Mailbox.staged (trusted parts hp ht), congrArg Mailbox.update (trusted parts hp ht)⟩,
    fun parts hp ht => ⟨congrArg Mailbox.outcome (refused parts hp ht), (congrArg Mailbox.staged (refused parts hp ht) :)⟩⟩

theorem mailbox_commands_free (s : State) (h : s.mbox.busy = false) :
    Settles .mbGetid s { s with mbox := { s.mbox with
      busy := true, cmd := 1, outcome := 0
      buffer := Sparse.splice 0 s.mbox.buffer 0 ((beBytes 64 Config.identityKey.toNat ++ Config.certificates).take 4096) } } ∧
    (∃ u : State, Settles .mbAttest s u ∧ u.mbox.busy = true ∧ u.mbox.cmd = 2 ∧ u.mem = s.mem) ∧
    (∃ u : State, Settles .mbVerify s u ∧ u.mbox.busy = true ∧ u.mbox.cmd = 3 ∧ u.mem = s.mem ∧
      u.mbox.buffer = Sparse.splice 0 s.mbox.buffer 0 (leBytes 8 (bit (ecdsaVerify (ofBeBytes (s.mbox.bytes 0 32)) (ofBeBytes (s.mbox.bytes 32 32))
        (ofBeBytes (s.mbox.bytes 64 32)) (ofBeBytes (s.mbox.bytes 96 32)) (ofBeBytes (s.mbox.bytes 128 32)))))) := by
  have taken := s.command_free h
  have hattest := mbAttest_settles s
  have hverify := mbVerify_settles s
  rw [taken] at hattest hverify
  exact ⟨taken 1 getid ▸ mbGetid_settles s, ⟨_, hattest, rfl, rfl, rfl⟩, ⟨_, hverify, rfl, rfl, rfl, rfl⟩⟩

/-! Start-up (R425, R427) -/

theorem isFlash_iff (a : Nat) : isFlash a = true ↔ 2 ^ 56 ≤ a ∧ a < 2 ^ 57 := by
  simp only [isFlash, Bool.and_eq_true, decide_eq_true_eq]

/-- Of memory, the keys of flash alone outlast power. -/
theorem get_filter_isFlash (m : Sparse Byte) (a : Nat) :
    Sparse.get 0 (m.filter fun e => isFlash e.1) a = if 2 ^ 56 ≤ a ∧ a < 2 ^ 57 then Sparse.get 0 m a else 0 := by
  split
  case isTrue h => exact Sparse.get_filter 0 m isFlash a ((isFlash_iff a).2 h)
  case isFalse h => exact Sparse.get_filter_out 0 m (Bool.eq_false_iff.2 fun hf => h ((isFlash_iff a).1 hf))

theorem powerGood_resets (s : State) : ∃ u : State, Settles .powerGood s u ∧ u.pkg = State.reset.pkg ∧ u.cores = [] ∧ u.jobs = [] ∧
    u.sidereal = 0 ∧ u.flash = s.flash ∧ ∀ a, Sparse.get 0 u.mem a = if 2 ^ 56 ≤ a ∧ a < 2 ^ 57 then Sparse.get 0 s.mem a else 0 :=
  ⟨_, settles_of_event (execPowerGood s) rfl rfl rfl, rfl, rfl, rfl, rfl, rfl, fun a => get_filter_isFlash s.mem a⟩

/-- The two halves of a 128-bit value. -/
theorem halves_append (x : BitVec (64 + 64)) : (x >>> 64).setWidth 64 ++ x.setWidth 64 = x := by
  refine BitVec.eq_of_getLsbD_eq fun i hi => ?_
  rw [BitVec.getLsbD_append]
  by_cases h : i < 64
  · simp [h]
  · simp [h, show i - 64 < 64 by omega, show 64 + (i - 64) = i by omega]

theorem stage0Complete_settles (s : State) (hs : s.pkg.stage = 7) (hb : s.pkg.busy = true) :
    Settles .stage0Complete s (if !s.mbox.trusted then s.bootChange 7 false 1 else
      { s with port := { s.port with addr0 := Config.endpoint.setWidth 64, addr1 := (Config.endpoint >>> 64).setWidth 64 } }.bootChange 0 true 0) :=
  settles_of_event (execStage0Complete s) rfl rfl (if_neg (by simp [hs, hb]))

theorem stage0_completes (s : State) (hs : s.pkg.stage = 7) (hb : s.pkg.busy = true) :
    (s.mbox.trusted = false → Settles .stage0Complete s (s.bootChange 7 false 1)) ∧
    (s.mbox.trusted = true → ∃ u : State, Settles .stage0Complete s u ∧ u.pkg.stage = 0 ∧ u.pkg.busy = true ∧ u.pkg.err = 0 ∧
      u.port.addr1 ++ u.port.addr0 = Config.endpoint) := by
  have hu := stage0Complete_settles s hs hb
  refine ⟨fun h => ?untrusted, fun h => ?trusted⟩
  case untrusted => rwa [h] at hu
  case trusted => rw [h] at hu; exact ⟨_, hu, rfl, rfl, rfl, halves_append _⟩

theorem stage1Complete_settles (s : State) {r : StageReport} (hs : s.pkg.stage = 0) (hb : s.pkg.busy = true) (hr : s.arg.report = some r) :
    Settles .stage1Complete s (if r.err = 2 || r.err = 3 then s.bootChange 0 false r.err else (s.stage1.collimate r).bootChange 1 true 0) := by
  refine settles_of_event (execStage1Complete s) rfl rfl ?_
  simp [hs, hb, hr]

/-- Collimation that finds nothing changes nothing. -/
theorem State.collimate_clean (s : State) {r : StageReport} (hc : r.coreBad = []) (hv : r.vuBad = []) : s.collimate r = s := by
  simp [State.collimate, hc, hv]

/-- Stage 1 resets a core but for its vector units. -/
theorem State.core_stage1 (s : State) (c : Nat) : s.stage1.core c = { Core.idle with vuok := (s.core c).vuok } :=
  Sparse.get_map (d := Core.idle) (g := fun k : Core => { Core.idle with vuok := k.vuok }) rfl s.cores c

/-- Stage 1 resets a cluster but for its map of sites and offline cores. -/
theorem State.cluster_stage1 (s : State) (d : Nat) :
    s.stage1.cluster d = { Cluster.idle with offline := (s.cluster d).offline, site := (s.cluster d).site } :=
  Sparse.get_map (d := Cluster.idle) (g := fun k : Cluster => { Cluster.idle with offline := k.offline, site := k.site }) rfl s.clusters d

theorem stage1_completes (s : State) (r : StageReport) (hs : s.pkg.stage = 0) (hb : s.pkg.busy = true) (hr : s.arg.report = some r) :
    (r.err = 2 ∨ r.err = 3 → Settles .stage1Complete s (s.bootChange 0 false r.err)) ∧
    (r.err = 0 → r.coreBad = [] → r.vuBad = [] → ∃ u : State, Settles .stage1Complete s u ∧ u.pkg.stage = 1 ∧ u.pkg.busy = true ∧
      (∀ c, (u.core c).b0.status = .idle ∧ (u.core c).b1.status = .idle ∧ (u.core c).vuok = (s.core c).vuok) ∧
      (∀ d, (u.cluster d).site = (s.cluster d).site ∧ (u.cluster d).offline = (s.cluster d).offline ∧ (u.cluster d).stk = []) ∧
      u.jobs = [] ∧ u.handles = [] ∧ u.mem = s.mem ∧ u.pkg.sweepEn = true ∧ u.pkg.allow = 16) := by
  have hu := stage1Complete_settles s hs hb hr
  refine ⟨fun he => ?failed, fun he hc hv => ?clean⟩
  case failed => rwa [if_pos (by simpa using he)] at hu
  case clean =>
    rw [if_neg (by simp [he]), State.collimate_clean _ hc hv] at hu
    refine ⟨_, hu, rfl, rfl, fun c => ?core, fun d => ?cluster, rfl, rfl, rfl, rfl, rfl⟩
    case core => rw [State.core_bootChange, State.core_stage1]; exact ⟨rfl, rfl, rfl⟩
    case cluster => rw [State.cluster_bootChange, State.cluster_stage1]; exact ⟨rfl, rfl, rfl⟩

/-- The flash stacks after the health scan of stage 2. -/
def State.scanFlash (s : State) (r : StageReport) : State :=
  (List.range 8).foldl (fun t n => t.modFlash n fun k => k.scanned ((r.health[n]?).getD (shippedHealth (s.free + 4 * n))))
    { s with free := s.free + 32 }

theorem State.flashStack_scanFlash (s : State) (r : StageReport) {n : Nat} (hn : n < 8) :
    (s.scanFlash r).flashStack n = (s.flashStack n).scanned ((r.health[n]?).getD (shippedHealth (s.free + 4 * n))) :=
  foldl_range_read (rd := State.flashStack) (g := fun n k => k.scanned ((r.health[n]?).getD (shippedHealth (s.free + 4 * n))))
    (fun t n => t.flashStack_modFlash_self n _) (fun t n i h => t.flashStack_modFlash_ne n i _ h) _ hn

@[simp] theorem State.mem_scanFlash (s : State) (r : StageReport) : (s.scanFlash r).mem = s.mem := 
  foldl_keeps State.mem (op := fun t n => t.modFlash n _) (fun _ _ => rfl) _ _

theorem shippedHealth_spare (free : Nat) : 1536 ≤ (shippedHealth free).1 := Nat.le_add_right _ _

theorem stage2Complete_settles (s : State) {r : StageReport} (hs : s.pkg.stage = 1) (hb : s.pkg.busy = true) (hr : s.arg.report = some r) :
    Settles .stage2Complete s (if r.err = 4 then s.bootChange 1 false 4 else
      { s.scanFlash r with port := { (s.scanFlash r).port with up := r.err ≠ 5 } }.bootChange 2 false (if r.err = 5 then 5 else 0)) := by
  refine settles_of_event (execStage2Complete s) rfl rfl ?_
  simp [hs, hb, hr, State.scanFlash]

theorem stage2_completes (s : State) (r : StageReport) (hs : s.pkg.stage = 1) (hb : s.pkg.busy = true) (hr : s.arg.report = some r) :
    (r.err = 4 → Settles .stage2Complete s (s.bootChange 1 false 4)) ∧
    (r.err = 0 → ∃ u : State, Settles .stage2Complete s u ∧ u.pkg.stage = 2 ∧ u.pkg.busy = false ∧ u.port.up = true ∧ u.mem = s.mem ∧
      ∀ n < 8, (u.flashStack n).thresh = 1000000 ∧ (u.flashStack n).arm = false ∧
        (∀ h, r.health[n]? = some h → (u.flashStack n).spare = h.1) ∧ (r.health[n]? = none → 1536 ≤ (u.flashStack n).spare)) := by
  have hu := stage2Complete_settles s hs hb hr
  refine ⟨fun he => ?failed, fun he => ?complete⟩
  case failed => rwa [if_pos he] at hu
  case complete =>
    rw [if_neg (by omega)] at hu
    refine ⟨_, hu, rfl, rfl, by simp [State.bootChange, he], s.mem_scanFlash r, fun n hn => ?_⟩
    rw [State.flashStack_bootChange, State.flashStack_port, s.flashStack_scanFlash r hn]
    refine ⟨rfl, rfl, fun h hh => by rw [hh]; rfl, fun hh => ?_⟩
    rw [hh]; exact shippedHealth_spare _

/-! Power and temperature (R426, R428) -/

/-- TEMP takes the temperatures of a reading. -/
def State.senseTemps (s : State) (p : PowerSample) : State :=
  (List.range 4).foldl (fun s e => s.modDie e fun d => { d with temp := p.temps.getD e 0 % 256 }) s

theorem State.temp_senseTemps (s : State) (p : PowerSample) {e : Nat} (he : e < 4) :
    ((s.senseTemps p).die e).temp = p.temps.getD e 0 % 256 := by
  rw [State.senseTemps, foldl_range_read (rd := State.die) (g := fun e d => { d with temp := p.temps.getD e 0 % 256 })
    (fun t e => t.die_modDie_self e _) (fun t e i h => t.die_modDie_ne e i _ h) s he]

theorem State.senseTemps_rest (s : State) (p : PowerSample) : (s.senseTemps p).pkg = s.pkg ∧ (s.senseTemps p).mem = s.mem :=
  ⟨foldl_keeps State.pkg (fun _ _ => State.modDie_pkg _ _ _) _ _, foldl_keeps State.mem (fun _ _ => State.modDie_mem _ _ _) _ _⟩

theorem State.sense_eq (s : State) (p : PowerSample) : s.sense p = { s.senseTemps p with pkg := { s.pkg with
    power := p.mw % 2 ^ 32, energy := s.pkg.energy + word p.mw, hot := if 3300000 < p.mw then s.pkg.hot + 1 else 0 } } := by
  rw [← (s.senseTemps_rest p).1]; rfl

/-- THROTTLE where a core may not issue in every cycle. -/
def State.withheld (s : State) : State :=
  if (List.range 256).any fun c => s.allowance c < 16 then
    { s.useFree.2 with pkg := { s.pkg with throttle := s.pkg.throttle + word (Config.freeNat s.free) } }
  else s

theorem State.withheld_rest (s : State) : ∃ free throttle, s.withheld = { s with free := free, pkg := { s.pkg with throttle := throttle } } := by
  unfold State.withheld
  split
  · exact ⟨_, _, rfl⟩
  · exact ⟨_, _, rfl⟩

/-- The issue allowance after a reading of the power. -/
def Pkg.allowAfter (k : Pkg) (mw : Nat) : Nat :=
  if 1000 * k.pcap < mw then max 4 (k.allow - 1) else if mw < 1000 * k.pcap then min 16 (k.allow + 1) else k.allow

/-- The tick's effect; whether a change of a limit is signalled shows in the vectors alone. -/
theorem powerCapTick_settles (s : State) {p : PowerSample} (hp : s.arg.power = some p) {t : State}
    (ht : t = { (s.sense p).withheld with pkg := { (s.sense p).withheld.pkg with allow := (s.sense p).pkg.allowAfter p.mw } }) :
    ∃ msix, Settles .powerCapTick s { t with pkg := { t.pkg with msix := msix } } := by
  have hu : Settles .powerCapTick s
      (if t.pkg.allow ≠ s.pkg.allow || (List.range 4).any (fun e => s.tooHot e != t.tooHot e) then t.signal 1025 else t) := by
    subst ht
    refine settles_of_event (execPowerCapTick s) rfl rfl ?_
    simp only [hp]
    generalize s.sense p = u
    rfl
  split at hu
  · exact ⟨_, hu⟩
  · exact ⟨_, hu⟩

theorem powerCapTick_senses (s : State) (p : PowerSample) (hp : s.arg.power = some p) : ∃ u : State, Settles .powerCapTick s u ∧
    u.pkg.allow = (if 1000 * s.pkg.pcap < p.mw then max 4 (s.pkg.allow - 1) else if p.mw < 1000 * s.pkg.pcap then min 16 (s.pkg.allow + 1)
      else s.pkg.allow) ∧
    u.pkg.power = p.mw % 2 ^ 32 ∧ u.pkg.energy = s.pkg.energy + word p.mw ∧ (∀ e < 4, (u.die e).temp = p.temps.getD e 0 % 256) ∧
    u.pkg.hot = (if 3300000 < p.mw then s.pkg.hot + 1 else 0) ∧ u.mem = s.mem := by
  obtain ⟨msix, hu⟩ := powerCapTick_settles s hp rfl
  obtain ⟨free, throttle, hheld⟩ := (s.sense p).withheld_rest
  rw [hheld, s.sense_eq] at hu
  have htemp (e : Nat) (he : e < 4) := s.temp_senseTemps p he
  obtain ⟨-, hmem⟩ := s.senseTemps_rest p
  generalize s.senseTemps p = sensed at hu htemp hmem
  exact ⟨_, hu, rfl, rfl, rfl, htemp, rfl, hmem⟩

/-! A trip kills every live job (R407, R426) -/

theorem State.jobs_dropQw (s : State) (c b : Nat) : (s.dropQw c b).jobs = s.jobs := by
  unfold State.dropQw
  dsimp only
  split <;> rfl

/-- What no write of bytes and no change of a bank touches, stores that perform leave. -/
theorem State.flush_keeps {β : Type} (rd : State → β) (hput : ∀ t w key data bad, rd (State.putBytes t w key data bad) = rd t)
    (hctx : ∀ t c b f, rd (State.modCtx t c b f) = rd t) (s : State) (c b : Nat) : rd (s.flush c b) = rd s := by
  rw [State.flush, hctx]
  exact foldl_keeps rd (fun t st => foldl_keeps rd (fun t p => hput t _ _ _ _) _ t) _ s

theorem State.jobs_flush (s : State) (c b : Nat) : (s.flush c b).jobs = s.jobs :=
  State.flush_keeps State.jobs State.putBytes_jobs State.modCtx_jobs s c b

/-- A kill changes the job slots by KSTAT and what waits to be written. -/
theorem State.jobs_startKill (s : State) {j : Nat} (ha : (s.job j).active = true) (hk : (s.job j).kstat = 0) :
    (s.startKill j).jobs = (s.modJob j fun q => { q with kstat := 1, overflow := [] }).jobs := by
  rw [State.startKill, if_neg (by simp [ha, hk])]
  refine congrArg (fun js : Sparse Job => Sparse.set Job.idle js j { Sparse.get Job.idle js j with kstat := 1, overflow := [] }) ?_
  refine (foldl_keeps State.jobs (fun t c => ?_) _ _).trans (foldl_keeps State.jobs (fun t (p : Nat × Nat) => t.jobs_dropQw p.1 p.2) _ _)
  have hflush (t : State) (b : Nat) : (if (t.ctx c b).job = j then t.flush c b else t).jobs = t.jobs := by
    split
    · exact t.jobs_flush c b
    · rfl
  exact (hflush _ 1).trans (hflush t 0)

theorem State.startKill_dead (s : State) {j : Nat} (h : (s.job j).active = false ∨ (s.job j).kstat ≠ 0) : s.startKill j = s :=
  if_pos (by simpa using h)

theorem State.job_startKill_self (s : State) {j : Nat} (h : (s.job j).active = true) : ((s.startKill j).job j).kstat ≠ 0 := by
  by_cases hk : (s.job j).kstat = 0
  · rw [State.job, s.jobs_startKill h hk, ← State.job, State.job_modJob_self]
    exact Nat.one_ne_zero
  · rwa [s.startKill_dead (.inr hk)]

theorem State.job_startKill_ne (s : State) {j i : Nat} (h : i ≠ j) : (s.startKill j).job i = s.job i := by
  by_cases hd : (s.job j).active = false ∨ (s.job j).kstat ≠ 0
  · rw [s.startKill_dead hd]
  · obtain ⟨ha, hk⟩ := not_or.1 hd
    rw [State.job, s.jobs_startKill (by simpa using ha) (not_not.1 hk), ← State.job, s.job_modJob_ne _ _ _ h]

/-- A job under kill stays under kill while others are killed. -/
theorem State.kstat_startKill_ne_zero (s : State) {j : Nat} (i : Nat) (h : (s.job j).kstat ≠ 0) : ((s.startKill i).job j).kstat ≠ 0 := by
  by_cases hi : j = i
  · rwa [s.startKill_dead (.inr (hi ▸ h))]
  · rwa [s.job_startKill_ne hi]

/-- Jobs killed one after another, as a trip kills every slot's (R426). -/
def State.killAll (s : State) (l : List Nat) : State := l.foldl (fun s j => s.startKill j) s

theorem State.killAll_keeps_dead (s : State) (l : List Nat) {j : Nat} (h : (s.job j).kstat ≠ 0) : ((s.killAll l).job j).kstat ≠ 0 := by
  induction l generalizing s with
  | nil => exact h
  | cons i l ih => exact ih _ (s.kstat_startKill_ne_zero i h)

theorem State.killAll_kills (s : State) {l : List Nat} {j : Nat} (hj : j ∈ l) (ha : (s.job j).active = true) :
    ((s.killAll l).job j).kstat ≠ 0 := by
  induction l generalizing s with
  | nil => cases hj
  | cons i l ih =>
    by_cases hi : j = i
    · subst hi; exact (s.startKill j).killAll_keeps_dead l (s.job_startKill_self ha)
    · exact ih (s.startKill i) ((List.mem_cons.1 hj).resolve_left hi) (by rwa [s.job_startKill_ne hi])

/-- The package stopped by a trip. -/
def State.stopped (s : State) : State :=
  (({ s with pkg := { s.pkg with tripped := true, hot := 0 }, port := { s.port with up := false } } : State).bootChange 0 false s.pkg.err).signal 1025

theorem State.stopped_shows (s : State) : s.stopped.pkg.tripped = true ∧ s.stopped.pkg.stage = 0 ∧ s.stopped.pkg.busy = false ∧
    s.stopped.port.up = false ∧ ∀ j, s.stopped.job j = s.job j := ⟨rfl, rfl, rfl, rfl, fun _ => rfl⟩

theorem thermalTrip_settles (s : State) {p : PowerSample} (hp : s.arg.power = some p) (hs : s.pkg.stage ≠ 7) (ht : s.pkg.tripped = false)
    (hot : 10 ≤ s.pkg.hot ∨ ∃ t ∈ p.temps, 115 < t) : Settles .thermalTrip s (s.killAll (List.range 64)).stopped := by
  have hhot : (decide (10 ≤ s.pkg.hot) || p.temps.any fun t => decide (115 < t)) = true := by simpa using hot
  refine settles_of_event (execThermalTrip s) rfl rfl ?_
  simp only [hp]
  rw [if_neg (by simp [hhot, hs, ht]), State.killAll]
  rfl

theorem thermalTrip_stops (s : State) (p : PowerSample) (hp : s.arg.power = some p) (hs : s.pkg.stage ≠ 7) (ht : s.pkg.tripped = false)
    (hot : 10 ≤ s.pkg.hot ∨ ∃ t ∈ p.temps, 115 < t) :
    ∃ u : State, Settles .thermalTrip s u ∧ u.pkg.tripped = true ∧ u.pkg.stage = 0 ∧ u.pkg.busy = false ∧ u.port.up = false ∧
      ∀ j < 64, (s.job j).active = true → (u.job j).kstat ≠ 0 := by
  obtain ⟨htripped, hstage, hbusy, hup, hjob⟩ := (s.killAll (List.range 64)).stopped_shows
  refine ⟨_, thermalTrip_settles s hp hs ht hot, htripped, hstage, hbusy, hup, fun j hj ha => ?_⟩
  rw [hjob]
  exact s.killAll_kills (List.mem_range.2 hj) ha

theorem cooldownRestart_restarts (s : State) (p : PowerSample) (hp : s.arg.power = some p) (ht : s.pkg.tripped = true) (hh : s.pkg.halted = false) :
    ((∀ t ∈ p.temps, t < 85) → Settles .cooldownRestart s (State.bootChange { s with pkg := { s.pkg with tripped := false } } 0 true 0)) ∧
    ((∃ t ∈ p.temps, 85 ≤ t) → Settles .cooldownRestart s s) := by
  refine ⟨fun hcool => settles_of_event (execCooldownRestart s) rfl rfl ?cool, fun hot => settles_of_event (execCooldownRestart s) rfl rfl ?hot⟩
  case cool =>
    have hany : (p.temps.any fun t => decide (85 ≤ t)) = false := by simpa using hcool
    simp [hp, ht, hh, hany]
  case hot =>
    have hany : (p.temps.any fun t => decide (85 ≤ t)) = true := by simpa using hot
    simp [hp, hany]

/-! Collimation (R427) -/

theorem unitError_settles (s : State) : Settles .unitError s (s.startTest s.arg.unit) := rfl
theorem collimationTestDone_settles (s : State) : Settles .collimationTestDone s (s.endTest s.arg.unit s.arg.flag) := rfl

/-- The model's test for an error that counts for nothing does not hold of a core that is online. -/
theorem State.errorGuard_of_online (s : State) {c : Nat} (hc : c < 256) (ho : s.offline c = false) : ¬(decide (256 ≤ c) || s.offline c) = true := by
  simp [ho]; omega

/-- The first error of a vector unit puts the unit under test, and every operation on the other one. -/
theorem State.startTest_vector (s : State) {c n : Nat} (hc : c < 256) (ho : s.offline c = false) (ht : (s.core c).test = none) :
    s.startTest (.vector c n) = (s.modCore c fun k =>
      { k with test := some (.vector c n), kept := (k.v0u, k.v1u), coll := (false, false), errors := k.errors.filter (· ≠ .vector c n) }).modCore c
        fun k => { k with v0u := 1 - n % 2, v1u := 1 - n % 2 } :=
  (if_neg (s.errorGuard_of_online hc ho)).trans (if_neg (by simp [unitCore, ht]))

/-- An error of another unit of a core under test waits. -/
theorem State.startTest_waits (s : State) {c n : Nat} {x : HwUnit} (hc : c < 256) (ho : s.offline c = false) (ht : (s.core c).test = some x)
    (hx : x ≠ .vector c n) (hn : .vector c n ∉ (s.core c).errors) :
    s.startTest (.vector c n) = s.modCore c fun k => { k with errors := k.errors ++ [.vector c n] } := by
  refine (if_neg (s.errorGuard_of_online hc ho)).trans ((if_pos (by simp [unitCore, ht])).trans (congrArg (s.setCore c) ?_))
  simp [unitCore, ht, hx, hn]

theorem unitError_tests (s : State) (c n : Nat) (hu : s.arg.unit = .vector c n) (hc : c < 256) (ho : s.offline c = false)
    (ht : (s.core c).test = none) :
    ∃ u : State, Settles .unitError s u ∧ (u.core c).test = some (.vector c n) ∧ (u.core c).v0u = 1 - n % 2 ∧ (u.core c).v1u = 1 - n % 2 ∧
      (u.core c).kept = ((s.core c).v0u, (s.core c).v1u) ∧ u.mem = s.mem := by
  have hs := unitError_settles s
  rw [hu, s.startTest_vector hc ho ht] at hs
  refine ⟨_, hs, ?_, ?_, ?_, ?_, rfl⟩
  all_goals simp only [State.core_modCore_self]

/-- The hold of a test ends: the core is as before but for its banks and the marks of the hold. -/
theorem State.core_endHold (s : State) (c : Nat) : ∃ x y, (s.endHold c).core c = { s.core c with b0 := x, b1 := y, coll := (false, false) } := by
  have hheld (t : State) (p : Prop) [Decidable p] (b : Nat) :
      ∃ x y, (if p then t.releaseHeld c b else t).core c = { t.core c with b0 := x, b1 := y } := by
    split
    · rw [State.releaseHeld, State.modCtx, State.setCtx, State.core_modCore_self, Core.setBank]
      split
      · exact ⟨_, _, rfl⟩
      · exact ⟨_, _, rfl⟩
    · exact ⟨_, _, rfl⟩
  obtain ⟨x, y, h0⟩ := hheld s ((s.core c).coll.1 = true) 0
  obtain ⟨x', y', h1⟩ := hheld (if (s.core c).coll.1 = true then s.releaseHeld c 0 else s) ((s.core c).coll.2 = true) 1
  refine ⟨x', y', ?_⟩
  rw [State.endHold]
  dsimp only
  rw [State.core_modCore_self, h1, h0]

/-- What no change of a core touches, the end of a hold leaves. -/
theorem State.endHold_keeps {β : Type} (rd : State → β) (hcore : ∀ t c f, rd (State.modCore t c f) = rd t) (s : State) (c : Nat) :
    rd (s.endHold c) = rd s := by
  have hheld (t : State) (p : Prop) [Decidable p] (b : Nat) : rd (if p then t.releaseHeld c b else t) = rd t := by
    split
    · rw [State.releaseHeld, State.modCtx, State.setCtx, hcore]
    · rfl
  rw [State.endHold, hcore, hheld, hheld]

/-- A test that finds nothing lasting: the counter of soft errors rises, the units are as before the test, the hold ends. -/
def State.passTest (s : State) (o : Core) (c : Nat) : State :=
  (((s.modCore c fun k => { k with test := none }).signal 1024).modDie (dieOf c) fun e => { e with soft := min (e.soft + 1) 0xFFFFFFFF }).modCore c
    fun k => { k with v0u := o.kept.1, v1u := o.kept.2 }

theorem State.endTest_passed (s : State) {u : HwUnit} (ht : (s.core (unitCore u)).test = some u)
    (hready : (s.core (unitCore u)).coreTest = true → (s.core (unitCore u)).testable = true) (hv : (s.core (unitCore u)).vuok ≠ 0) :
    s.endTest u false = ((s.saveForTest u).passTest (s.core (unitCore u)) (unitCore u)).endHold (unitCore u) :=
  (if_neg (by simpa [ht] using hready)).trans ((if_neg hv).trans (if_pos rfl))

/-- What the end of a passed test leaves of the package, and of the core. -/
theorem State.endHold_passTest (s : State) (o : Core) (c : Nat) : (((s.passTest o c).endHold c).core c).test = none ∧
    (((s.passTest o c).endHold c).core c).v0u = o.kept.1 ∧ (((s.passTest o c).endHold c).core c).v1u = o.kept.2 ∧
    (((s.passTest o c).endHold c).die (c / 64)).soft = min ((s.die (c / 64)).soft + 1) 0xFFFFFFFF ∧
    1024 ∈ ((s.passTest o c).endHold c).pkg.msix ∧ ((s.passTest o c).endHold c).mem = s.mem ∧
    ((s.passTest o c).endHold c).clusters = s.clusters := by
  obtain ⟨x, y, hcore⟩ := (s.passTest o c).core_endHold c
  have hown : (s.passTest o c).core c = { s.core c with test := none, v0u := o.kept.1, v1u := o.kept.2 } := by
    rw [State.passTest, State.core_modCore_self, State.core_modDie, State.core_signal, State.core_modCore_self]
  have hdies : ((s.passTest o c).endHold c).dies = (s.passTest o c).dies := State.endHold_keeps State.dies State.modCore_dies _ c
  have hpkg : ((s.passTest o c).endHold c).pkg = (s.passTest o c).pkg := State.endHold_keeps State.pkg State.modCore_pkg _ c
  have hmem : ((s.passTest o c).endHold c).mem = s.mem :=
    (State.endHold_keeps State.mem State.modCore_mem _ c).trans (by simp [State.passTest])
  have hclusters : ((s.passTest o c).endHold c).clusters = s.clusters :=
    (State.endHold_keeps State.clusters State.modCore_clusters _ c).trans (by simp [State.passTest])
  have hsoft : ((s.passTest o c).die (c / 64)).soft = min ((s.die (c / 64)).soft + 1) 0xFFFFFFFF := by
    rw [State.passTest, State.die_modCore, dieOf, State.die_modDie_self, State.die_signal, State.die_modCore]
  rw [hcore, hown, State.die, hdies, hpkg]
  exact ⟨rfl, rfl, rfl, hsoft, List.mem_cons_self, hmem, hclusters⟩

theorem collimationTestDone_vector (s : State) (c n : Nat) (hu : s.arg.unit = .vector c n) (hf : s.arg.flag = false)
    (ht : (s.core c).test = some (.vector c n)) (hv : (s.core c).vuok ≠ 0) :
    ∃ u : State, Settles .collimationTestDone s u ∧ (u.core c).test = none ∧ (u.core c).v0u = (s.core c).kept.1 ∧
      (u.core c).v1u = (s.core c).kept.2 ∧ (u.die (c / 64)).soft = min ((s.die (c / 64)).soft + 1) 0xFFFFFFFF ∧ 1024 ∈ u.pkg.msix := by
  have hs := collimationTestDone_settles s
  rw [hu, hf, s.endTest_passed (u := .vector c n) ht (fun h => by simp [unitCore, Core.coreTest, ht] at h) hv] at hs
  obtain ⟨htest, h0, h1, hsoft, hmsix, -, -⟩ := s.endHold_passTest (s.core c) c
  exact ⟨_, hs, htest, h0, h1, hsoft, hmsix⟩

/-! Saving a context leaves the map of sites -/

theorem State.site_putBytes (s : State) (w key : Nat) (data : List Byte) (bad : Bool) (d : Nat) :
    ((s.putBytes w key data bad).cluster d).site = (s.cluster d).site := by
  unfold State.putBytes State.soilPinned
  split
  · rfl
  · split
    · rfl
    · by_cases hd : d = (key - 2 ^ 60) / 2 ^ 52
      · rw [hd, State.cluster_modCluster_self]; rfl
      · rw [State.cluster_modCluster_ne _ _ _ _ hd]; rfl

theorem State.site_flush (s : State) (c b d : Nat) : ((s.flush c b).cluster d).site = (s.cluster d).site :=
  State.flush_keeps (fun t => (t.cluster d).site) (fun t _ _ _ _ => t.site_putBytes _ _ _ _ d) (fun t _ _ _ => by rw [t.cluster_modCtx]) s c b

theorem State.site_collimationSave (s : State) (c b d : Nat) : ((s.collimationSave c b).cluster d).site = (s.cluster d).site := by
  unfold State.collimationSave
  split
  · rfl
  · exact ((s.flush c b).site_putBytes _ _ _ _ d).trans (s.site_flush c b d)

theorem collimationTestDone_core (s : State) (c : Nat) (hu : s.arg.unit = .core c) (hf : s.arg.flag = false)
    (ht : (s.core c).test = some (.core c)) (hready : (s.core c).testable = true) (hv : (s.core c).vuok ≠ 0) :
    ∃ u : State, Settles .collimationTestDone s u ∧ (u.core c).test = none ∧ 1024 ∈ u.pkg.msix ∧
      u.mem = ((s.collimationSave c 0).collimationSave c 1).mem ∧ (∀ d, (u.cluster d).site = (s.cluster d).site) := by
  have hs := collimationTestDone_settles s
  rw [hu, hf, s.endTest_passed (u := .core c) ht (fun _ => hready) hv, State.saveForTest, unitCore] at hs
  have hsite (d : Nat) : (((s.collimationSave c 0).collimationSave c 1).cluster d).site = (s.cluster d).site := by
    rw [State.site_collimationSave, State.site_collimationSave]
  generalize (s.collimationSave c 0).collimationSave c 1 = saved at hs hsite ⊢
  obtain ⟨htest, -, -, -, hmsix, hmem, hclusters⟩ := saved.endHold_passTest (s.core c) c
  refine ⟨_, hs, htest, hmsix, hmem, fun d => ?_⟩
  rw [State.cluster, hclusters]
  exact hsite d

/-! Ageing (R429) -/

theorem ephemUpdate_shows (s : State) (a : AgeSample) (ha : s.arg.age = some a) :
    (s.arg.n < 4 → Settles .ephemUpdate s (s.modDie s.arg.n fun d =>
      { d with eolDays := a.eolDays % 2 ^ 16, rodrift := a.rodrift % 2 ^ 16, hours := a.hours % 2 ^ 16 })) ∧
    ∀ n, n < 8 → s.arg.n = 4 + n → Settles .ephemUpdate s (s.modFlash n fun k => { k with eolDays := a.eolDays % 2 ^ 16 }) := by
  refine ⟨fun hn => settles_of_event (execEphemUpdate s) rfl rfl ?die, fun n hn hs => settles_of_event (execEphemUpdate s) rfl rfl ?flash⟩
  case die => simp only [ha, hn, if_true]
  case flash =>
    simp only [ha]
    rw [if_neg (by omega), if_pos (by omega), hs, Nat.add_sub_cancel_left]

/-- Settles O52: each command, stage and event by its own lemma. -/
theorem mailboxStartupAndPower : Obligations.MailboxStartupAndPower := by
  unfold Obligations.MailboxStartupAndPower
  refine ⟨⟨mailbox_commands_busy, fun s h => ?commands⟩, powerGood_resets, stage0_completes, fun m _ _ _ _ => m.trusted_iff, stage1_completes,
    stage2_completes, powerCapTick_senses, thermalTrip_stops, cooldownRestart_restarts, unitError_tests, ?waits, collimationTestDone_vector,
    collimationTestDone_core, ephemUpdate_shows⟩
  case commands =>
    obtain ⟨getid, attest, verify⟩ := mailbox_commands_free s h
    exact ⟨getid, attest, verify, mbUpdate_free s h⟩
  case waits =>
    intro s c n x hu hc ho ht hx hn
    have hs := unitError_settles s
    rwa [hu, s.startTest_waits hc ho ht hx hn] at hs

end Sys2Proof.Machine
end

section
/-! SUPPORT. What an access leaves alone: translation, reads of memory and of control-window registers change memory with its marks, the cores,
the clusters, the HBM stacks' counts and the count of free values, and nothing else of the package (R235 to R252, R260, R430). -/
namespace Sys2Proof.Machine

/-- The package without all that an access may change. -/
def State.sansAccess (s : State) : State :=
  { s with mem := [], bad := [], origin := [], cores := [], clusters := [], hbm := [], free := 0 }

theorem State.issue_of_sansAccess {s t : State} (h : t.sansAccess = s.sansAccess) : t.issue = s.issue :=
  (congrArg State.issue h :)

/-! Units and bytes -/

@[simp] theorem State.sansAccess_useFree (s : State) : s.useFree.2.sansAccess = s.sansAccess := rfl
@[simp] theorem State.sansAccess_modCore (s : State) (c : Nat) (f : Core → Core) : (s.modCore c f).sansAccess = s.sansAccess := rfl
@[simp] theorem State.sansAccess_modCluster (s : State) (d : Nat) (f : Cluster → Cluster) : (s.modCluster d f).sansAccess = s.sansAccess := rfl
@[simp] theorem State.sansAccess_modHbm (s : State) (n : Nat) (f : HbmStack → HbmStack) : (s.modHbm n f).sansAccess = s.sansAccess := rfl
@[simp] theorem State.sansAccess_modRegion (s : State) (c n : Nat) (f : Region → Region) : (s.modRegion c n f).sansAccess = s.sansAccess := rfl
@[simp] theorem State.sansAccess_moveBytes (s : State) (src dst n : Nat) : (s.moveBytes src dst n).sansAccess = s.sansAccess := rfl
@[simp] theorem State.sansAccess_moveCode (s : State) (f : Sparse Byte → Sparse Byte) : (s.moveCode f).sansAccess = s.sansAccess := rfl

@[simp] theorem State.sansAccess_putBytes (s : State) (w key : Nat) (data : List Byte) (bad : Bool) :
    (s.putBytes w key data bad).sansAccess = s.sansAccess :=
  (congrArg State.sansAccess (s.putBytes_package w key data bad) :)

/-! The hot-page tracker (R249 to R252) -/

@[simp] theorem State.sansAccess_propose (s : State) (d frame : Nat) : (s.propose d frame).sansAccess = s.sansAccess := by
  unfold State.propose
  dsimp only
  split
  · rfl
  · rw [State.sansAccess_modCluster, State.putNum, State.sansAccess_putBytes, State.putNum, State.sansAccess_putBytes]

@[simp] theorem State.sansAccess_hptCountUp (s : State) (d frame : Nat) (p : Bool) : (s.hptCountUp d frame p).sansAccess = s.sansAccess := by
  unfold State.hptCountUp
  dsimp only
  split
  · split
    · rfl
    · rw [State.sansAccess_modCluster, State.sansAccess_propose, State.sansAccess_modCluster]
  · rfl

@[simp] theorem State.sansAccess_track (s : State) (g : Agent) (q : XReq) (l : Leaf) (va : Word) (len : Nat) :
    (s.track g q l va len).sansAccess = s.sansAccess := by
  unfold State.track
  dsimp only
  split
  · induction s.sliceAccesses g q va len with
    | zero => rfl
    | succ n ih => exact (State.sansAccess_hptCountUp _ _ _ _).trans ih
  · rfl

/-! Translation (R235 to R242) -/

@[simp] theorem State.sansAccess_markUsed (s : State) (l : Leaf) (write : Bool) : (s.markUsed l write).sansAccess = s.sansAccess := by
  unfold State.markUsed
  dsimp only
  generalize (if write = true then (0x180 : Word) else 0x80) = m
  split <;> rfl

@[simp] theorem State.sansAccess_cacheLeaf (s : State) (g : Agent) (l : Leaf) : (s.cacheLeaf g l).sansAccess = s.sansAccess := by
  unfold State.cacheLeaf
  split <;> rfl

@[simp] theorem State.sansAccess_pinned (s : State) (d : Nat) (e : TlbEntry) (pa : Nat) : (s.pinned d e pa).2.sansAccess = s.sansAccess := by
  unfold State.pinned
  dsimp only
  (repeat' split) <;> rfl

@[simp] theorem State.sansAccess_through (s : State) (g : Agent) (q : XReq) (l : Leaf) (va : Word) (len : Nat) :
    (s.through g q l va len).2.sansAccess = s.sansAccess := by
  have marked : (((s.markUsed l q.write).cacheLeaf g l).track g q l va len).sansAccess = s.sansAccess := by
    rw [State.sansAccess_track, State.sansAccess_cacheLeaf, State.sansAccess_markUsed]
  unfold State.through
  dsimp only
  split
  · rw [State.sansAccess_pinned, marked]
  · exact marked

@[simp] theorem State.sansAccess_chooseStale (s : State) (ls : List Leaf) : (s.chooseStale ls).2.sansAccess = s.sansAccess := by
  induction ls generalizing s with
  | nil => rfl
  | cons l ls ih =>
    unfold State.chooseStale
    split
    · rfl
    · rw [ih, State.sansAccess_useFree]

@[simp] theorem State.sansAccess_leafDetail (s : State) (g : Agent) (l : Leaf) (va : Word) : (s.leafDetail g l va).2.sansAccess = s.sansAccess := by
  unfold State.leafDetail
  dsimp only
  (repeat' split) <;> rfl

@[simp] theorem State.sansAccess_translate (s : State) (g : Agent) (q : XReq) (va : Word) (len : Nat) :
    (s.translate g q va len).2.sansAccess = s.sansAccess := by
  unfold State.translate
  dsimp only
  have chosen := s.sansAccess_chooseStale (s.stale g va)
  generalize s.chooseStale (s.stale g va) = o at chosen ⊢
  have take (l : Leaf) : (if leafFault g q l va ≠ 0 then
      ((.error ⟨leafFault g q l va, va, (o.2.leafDetail g l va).1, none⟩ : Except XFault Nat), (o.2.leafDetail g l va).2.cacheLeaf g l)
      else (.ok (o.2.through g q l va len).1, (o.2.through g q l va len).2)).2.sansAccess = s.sansAccess := by
    split
    · rw [State.sansAccess_cacheLeaf, State.sansAccess_leafDetail, chosen]
    · rw [State.sansAccess_through, chosen]
  split
  · exact take _
  · split
    · exact take _
    · exact chosen

/-! LDM regions (R247) -/

@[simp] theorem State.sansAccess_fillSector (s : State) (g : Agent) (n : Nat) (r : Region) (sec : Nat) :
    (s.fillSector g n r sec).2.sansAccess = s.sansAccess := by
  unfold State.fillSector
  dsimp only
  generalize word _ = va
  have found := s.sansAccess_translate g { homed := true } va 1024
  split
  next h => rw [h] at found; exact found
  next h =>
    rw [h] at found
    rw [State.sansAccess_modRegion]
    split
    · rw [State.sansAccess_moveCode, State.sansAccess_putBytes]; exact found
    · exact found

@[simp] theorem State.sansAccess_touchSectors (s : State) (g : Agent) (n : Nat) (write : Bool) (secs : List Nat) :
    (s.touchSectors g n write secs).2.sansAccess = s.sansAccess := by
  induction secs generalizing s with
  | nil => rfl
  | cons sec secs ih =>
    have next (t : State) : ((if write then t.modRegion g.core n fun r => { r with dirty := r.dirty.set false sec true }
        else t).touchSectors g n write secs).2.sansAccess = t.sansAccess := by
      rw [ih]; split <;> rfl
    unfold State.touchSectors
    dsimp only
    split
    · exact next s
    · have filled := s.sansAccess_fillSector g n ((s.core g.core).region.get .none n) sec
      split
      next h => rw [h] at filled; exact filled
      next h => rw [h] at filled; exact (next _).trans filled

@[simp] theorem State.sansAccess_inRegion (s : State) (g : Agent) (q : XReq) (va : Word) (len n : Nat) (r : Region) :
    (s.inRegion g q va len n r).2.sansAccess = s.sansAccess := by
  unfold State.inRegion
  dsimp only
  generalize List.filter _ _ = secs
  have touched := s.sansAccess_touchSectors g n q.write secs
  split
  next h => rw [h] at touched; exact touched
  next h => rw [h] at touched; exact touched

/-! Accesses (R231, R242) -/

@[simp] theorem State.sansAccess_place (s : State) (g : Agent) (q : XReq) (va : Word) (len : Nat) :
    (s.place g q va len).2.sansAccess = s.sansAccess := by
  unfold State.place
  dsimp only
  split
  · (repeat' split) <;> rfl
  · (repeat' split) <;> rfl
  · (repeat' split) <;> rfl
  · split
    · rfl
    · split
      · split
        · rfl
        · split
          · have found := s.sansAccess_translate g q va len
            split
            next h => rw [h] at found; exact found
            next h => rw [h] at found; exact (State.sansAccess_inRegion _ _ _ _ _ _ _).trans found
          · exact s.sansAccess_inRegion _ _ _ _ _ _
      · exact s.sansAccess_translate _ _ _ _

@[simp] theorem State.sansAccess_resolveGo (s : State) (g : Agent) (q : XReq) (ps : List (Word × Nat)) (ks : List (Nat × Nat)) (f : Option XFault) :
    (s.resolveGo g q ps ks f).2.sansAccess = s.sansAccess := by
  induction ps generalizing s ks f with
  | nil => rfl
  | cons p ps ih =>
    have placed := s.sansAccess_place g q p.1 p.2
    unfold State.resolveGo
    split
    next h => rw [h] at placed; exact (ih _ _ _).trans placed
    next h => rw [h] at placed; exact (ih _ _ _).trans placed

@[simp] theorem State.sansAccess_resolve (s : State) (g : Agent) (q : XReq) (ps : List (Word × Nat)) :
    (s.resolve g q ps).2.sansAccess = s.sansAccess := by
  have found := s.sansAccess_resolveGo g q ps [] none
  unfold State.resolve
  split
  next h => rw [h] at found; exact found
  next h => rw [h] at found; exact found

/-! What a read leaves behind -/

@[simp] theorem State.sansAccess_countUncorr (s : State) (p : Nat × Nat) : (s.countUncorr p).sansAccess = s.sansAccess := by
  unfold State.countUncorr
  split <;> rfl

@[simp] theorem State.sansAccess_ctlRead (s : State) (key n : Nat) : (s.ctlRead key n).sansAccess = s.sansAccess := by
  unfold State.ctlRead
  dsimp only
  (repeat' split) <;> rfl

@[simp] theorem State.sansAccess_afterRead (s : State) (parts : List (Nat × Nat)) : (s.afterRead parts).sansAccess = s.sansAccess := by
  unfold State.afterRead
  refine foldl_keeps State.sansAccess (fun t p => ?_) parts s
  split
  · exact t.sansAccess_ctlRead _ _
  · exact t.sansAccess_countUncorr p

@[simp] theorem State.issue_afterRead (s : State) (parts : List (Nat × Nat)) : (s.afterRead parts).issue = s.issue :=
  State.issue_of_sansAccess (s.sansAccess_afterRead parts)

/-- An access of the bundle leaves the bank as it stood before the bundle (R108). -/
theorem State.resolveIn_pre (s : State) (q : XReq) (ps : List (Word × Nat)) : (s.resolveIn q ps).2.issue.pre = s.issue.pre := by
  show (s.resolve s.me q ps).2.issue.pre = _
  rw [State.issue_of_sansAccess (s.sansAccess_resolve s.me q ps)]

end Sys2Proof.Machine
end

section
/-! SUPPORT. Posts: a record that a task posts is read, checked, and enters a queue, blocks its bundle or is rejected (R39, R43, R44, R147). -/
namespace Sys2Proof.Machine

/-! The record at x[A] -/

/-- An operation finds the 64 bytes of a task record at x[A] and reads them unmarked: `parts` are its keys, `t` is the state after
its translation (R36, R147, R150). -/
structure ReadsRecord (s : State) (f : SR) (parts : List (Nat × Nat)) (t : State) : Prop where
  ready : Ready s [opA .x f] []
  aligned : (s.srcX (opA .x f)).toNat % 64 = 0
  found : (s.latchAll [opA .x f]).resolveIn {} (pieces (s.srcX (opA .x f)) 64) = (.ok parts, t)
  noWait : t.readWaits parts = false
  clean : t.badRead parts = false

section
variable {s t : State} {f : SR} {parts : List (Nat × Nat)} (h : ReadsRecord s f parts t)
include h

theorem ReadsRecord.not_misaligned :
    misaligned (s.srcX (opA .x f)) 64 = false := by
  simp [misaligned, h.aligned]

theorem ReadsRecord.access (k : List (Nat × Nat) → State → State) :
    (s.latchAll [opA .x f]).access 1 {} (pieces (s.srcX (opA .x f)) 64) k = k parts t := by
  simp only [State.access, h.found, h.noWait, Bool.and_false, Bool.false_eq_true, if_false]

/-- The reading leaves the bank as it stood before the bundle. -/
theorem ReadsRecord.pre : (t.afterRead parts).issue.pre = s.issue.pre := by
  have kept := (s.latchAll [opA .x f]).resolveIn_pre {} (pieces (s.srcX (opA .x f)) 64)
  rw [h.found, State.latchAll_issue] at kept
  rw [State.issue_afterRead]
  exact kept

end

/-! What a post does with its record (R39, R43, R44, R63) -/

/-- A post's record, once it is read, as the bundle `i` posts it. -/
def State.takePost (u : State) (i : Issue) (kind : Nat) (r : RecIn) (va : Word) : State :=
  if !u.recordOk i.pre.job kind r then (u.rejectRec i.pre.job i.core i.bank r va).modCur fun k => { k with blocked := none }
  else if (match i.pre.blocked with
      | some b => !b.admitted
      | none => !u.mayEnter i.pre.job (ctrlPipe r.ctrl) (ctrlStage r.ctrl)) then
    u.blockPost i.pre.job (ctrlPipe r.ctrl) (ctrlStage r.ctrl)
  else if u.imagesOut then u.holdFor none
  else
    u.afterStores false fun u =>
      (u.enterRec r kind i.pre.job va (clusterOf i.core) (clusterOf i.core) none).modCur fun k => { k with blocked := none }

theorem ReadsRecord.post {s t : State} {f : SR} {parts : List (Nat × Nat)} (h : ReadsRecord s f parts t) (kind : Nat) :
    s.post f kind = .next ((t.afterRead parts).takePost s.issue kind (RecIn.ofBytes (t.bytesRead parts)) (s.srcX (opA .x f))) := by
  rw [State.post, State.anchored_ready _ _ _ _ h.ready]
  simp only [h.not_misaligned, h.access, h.clean, Bool.false_eq_true, if_false]
  rfl

theorem exec_posts {mk : SR → Instr} {kind : Nat} (h : (mk, kind) ∈ [(Instr.post, 0), (.postn, 1), (.posti, 2)]) (f : SR) (s : State) :
    exec (mk f) s = s.post f kind := by
  simp only [List.mem_cons, List.not_mem_nil, or_false, Prod.mk.injEq] at h
  obtain ⟨rfl, rfl⟩ | ⟨rfl, rfl⟩ | ⟨rfl, rfl⟩ := h <;> rfl

section
variable {u : State} {i : Issue} {kind : Nat} {r : RecIn}

theorem State.takePost_rejects (h : u.recordOk i.pre.job kind r = false) (va : Word) :
    u.takePost i kind r va = (u.rejectRec i.pre.job i.core i.bank r va).modCur fun k => { k with blocked := none } := by
  simp only [State.takePost, h, Bool.not_false, if_true]

theorem State.takePost_enters (h : u.recordOk i.pre.job kind r = true) (hb : i.pre.blocked = none)
    (room : u.mayEnter i.pre.job (ctrlPipe r.ctrl) (ctrlStage r.ctrl) = true) (himg : u.imagesOut = false)
    (hst : u.storesStuck u.issue.core u.issue.bank = false) (va : Word) :
    u.takePost i kind r va = ((u.flush u.issue.core u.issue.bank).enterRec r kind i.pre.job va (clusterOf i.core) (clusterOf i.core)
      none).modCur fun k => { k with blocked := none } := by
  simp only [State.takePost, h, hb, room, himg, State.afterStores, hst, Bool.not_true, Bool.false_and, Bool.or_false, Bool.false_eq_true, if_false]

theorem State.takePost_blocks (h : u.recordOk i.pre.job kind r = true) (hb : i.pre.blocked = none)
    (room : u.mayEnter i.pre.job (ctrlPipe r.ctrl) (ctrlStage r.ctrl) = false) (va : Word) :
    u.takePost i kind r va = u.blockPost i.pre.job (ctrlPipe r.ctrl) (ctrlStage r.ctrl) := by
  simp only [State.takePost, h, hb, room, Bool.not_true, Bool.not_false, Bool.false_eq_true, if_false, if_true]

end

/-- A bundle that waits commits nothing: its bank stands as before it (R110). -/
@[simp] theorem State.cur_holdFor (s : State) (w : Option Await) : (s.holdFor w).cur = s.issue.pre := State.ctx_setCtx_self _ _ _ _

theorem State.blockPost_holds (u : State) (job pipe stage : Nat) (h : u.issue.pre.blocked = none) :
    (u.blockPost job pipe stage).issue.verdict = .hold none ∧
      (u.blockPost job pipe stage).cur.blocked = some ⟨job, pipe, stage, u.sidereal, none, false, false⟩ := by
  refine ⟨rfl, ?_⟩
  rw [State.blockPost, State.cur_modCur, State.cur_holdFor, h]
  rfl

/-- Settles O29: a record that is read is rejected, enters or blocks, as its check and the room of its stage say. -/
theorem postsEnterOrAreRejected : Obligations.PostsEnterOrAreRejected := by
  unfold Obligations.PostsEnterOrAreRejected
  rintro f s t _ mk kind va parts r hmk hready rfl hal hres hwait hbad rfl rfl
  have h : ReadsRecord s f parts t := ⟨hready, hal, hres, hwait, hbad⟩
  rw [exec_posts hmk, h.post]
  refine ⟨fun hok => ?rejects, fun hok hb room himg hst => ?enters, fun hok hb room => ?blocks⟩
  case rejects => rw [State.takePost_rejects hok]
  case enters => rw [State.takePost_enters hok hb room himg hst]
  case blocks =>
    rw [State.takePost_blocks hok hb room]
    exact ⟨_, rfl, State.blockPost_holds _ _ _ _ (by rw [h.pre, hb])⟩

end Sys2Proof.Machine
end

section
/-! SUPPORT. Joins and retirement: JADD, END, ENDP and the outcome table of the retirement decrement (R32, R51 to R55, R148 to R150). -/
namespace Sys2Proof.Machine

/-! JADD (R148) -/

@[simp] theorem State.disp_putBytes (s : State) (w key : Nat) (data : List Byte) (bad : Bool) : (s.putBytes w key data bad).disp = s.disp :=
  (congrArg State.disp (s.putBytes_package w key data bad) :)

/-- An atomic add on eight clean bytes of memory writes their sum (R148, R272). -/
theorem State.atomicAt_add (t : State) (who key v : Nat) (hreg : isReg key = false) (hbad : anyBad t.bad key 8 = false) :
    (t.atomicAt who 0x18 key 8 v 0).2 = t.putBytes who key (leBytes 8 ((t.numAt key 8 + v) % 2 ^ 64)) := by
  have hread : t.afterRead [(key, 8)] = t := by
    simp [State.afterRead, hreg, State.countUncorr, hbad]
  simp [State.atomicAt, State.atomicOn, hread, viewBad, hbad, newValue, State.writeParts, hreg, State.view, State.numAt, State.bytesAt]

theorem jadd_adds (f : SI) (s t : State) (key : Nat) (h : Ready s [opReg .x f.a.toNat] [])
    (hal : (s.issue.pre.getX f.a.toNat).toNat % 8 = 0)
    (hres : s.resolveIn { write := true, atomic := true } (pieces (s.issue.pre.getX f.a.toNat) 8) = (.ok [(key, 8)], t))
    (hfirst : t.storesFirst [(key, 8)] = false) (hown : t.behindOwn [(key, 8)] = false) (himg : t.imageBefore [(key, 8)] = false)
    (hreg : isReg key = false) (hbad : anyBad t.bad key 8 = false) :
    exec (.jadd f) s = .next (t.putBytes t.asHome key (leBytes 8 ((t.numAt key 8 + f.imm.toNat) % 2 ^ 64))) := by
  have hsrc : s.srcX (opReg .x f.a.toNat) = s.issue.pre.getX f.a.toNat := rfl
  have hplain : s.latchAll [opReg .x f.a.toNat] = s := s.latchAll_plain _ (by simp [opReg])
  have hmis : misaligned (s.issue.pre.getX f.a.toNat) 8 = false := by simp [misaligned, hal]
  show execJadd f s = _
  rw [execJadd, State.anchored_ready _ _ _ _ h, hplain, hsrc]
  simp only [hmis, State.access, hres, Bool.not_true, Bool.false_and, List.headD_cons, hown, himg, hfirst, Bool.or_false, Bool.false_eq_true,
    if_false]
  rw [State.atomicAt_add t _ _ _ hreg hbad]
  rfl

/-! END and ENDP (R149, R150) -/

theorem Ctx.keepsJoin_iff (k : Ctx) : k.keepsJoin = true ↔ k.mode = .supervisor ∧ k.nodec = true := by
  simp [Ctx.keepsJoin]

theorem end_retires (s : State) (h : Ready s [] []) (hs : s.issue.pre.settled = true)
    (hst : s.storesStuck s.issue.core s.issue.bank = false) :
    exec .endTask s = .next ((if s.issue.pre.mode = .supervisor ∧ s.issue.pre.nodec = true then s.flush s.issue.core s.issue.bank
      else (s.flush s.issue.core s.issue.bank).joinDown).thenDo .retire) := by
  show execEndTask s = _
  rw [execEndTask, State.anchored_ready _ _ _ _ h, s.latchAll_plain [] nofun]
  simp only [hs, State.afterStores, hst, Bool.not_true, Bool.false_and, Bool.or_false, Bool.false_eq_true, if_false, Ctx.keepsJoin_iff]
  rfl

theorem ReadsRecord.endp {s t : State} {f : SR} {parts : List (Nat × Nat)} (h : ReadsRecord s f parts t) (hs : s.issue.pre.settled = true)
    {u v : State} {r : RecIn} (hu : u = t.afterRead parts) (hr : r = RecIn.ofBytes (t.bytesRead parts))
    (hst : u.storesStuck u.issue.core u.issue.bank = false)
    (hv : v = (u.flush u.issue.core u.issue.bank).postAlways s.issue.core s.issue.bank s.issue.pre.job r (s.srcX (opA .x f)) none) :
    exec (.endp f) s = .next ((if r.joinp = s.issue.pre.joinp then v else v.joinDown).thenDo .retire) := by
  subst hu hr hv
  show execEndp f s = _
  rw [execEndp, State.anchored_ready _ _ _ _ h.ready]
  simp only [hs, h.not_misaligned, h.access, h.clean, State.afterStores, hst, Bool.not_true, Bool.false_and, Bool.or_false, Bool.false_eq_true,
    if_false]
  rfl

/-! The retirement decrement (R52) -/

/-- The decrement's fault record, and nothing else of the decrement. -/
def State.joinNote (s t : State) (cause : Nat) : State :=
  t.report (faultOf t s.issue.core s.issue.bank cause 3 0 s.issue.pre.joinp 0)

theorem joinNote_joinRecord (s t : State) (cause : Nat) : JoinRecord s t (s.joinNote t cause) cause := ⟨_, rfl, rfl, rfl, rfl, rfl, rfl⟩

theorem counterAt_iff (s : State) : counterAt s = true ↔
    ¬(((s.launchCounter s.issue.pre.job s.issue.pre.joinp).isNone && bits s.issue.pre.joinp 0 6 ≠ 0) || bits s.issue.pre.joinp 0 3 ≠ 0) = true := by
  rw [counterAt]
  cases s.launchCounter s.issue.pre.job s.issue.pre.joinp <;> simp [bits, and_comm]

/-- The decrement of a counter found at `parts`: the outcome table of R52. -/
def State.countDown (s t : State) (parts : List (Nat × Nat)) : State :=
  let n := word (ofLeBytes (t.view t.mem parts))
  let down (t : State) : State := t.writeParts t.asHome (cutData parts (leBytes 8 (n - 1).toNat))
  if viewBad t.bad parts then s.joinNote t 0x26
  else if n.toInt ≤ 0 then s.joinNote t 0x25
  else if n ≠ 1 then down t
  else
    match s.launchCounter s.issue.pre.job s.issue.pre.joinp with
    | some (l, lev, g) => (down t).postContinuation s.issue.core s.issue.bank s.issue.pre.job l lev g
    | none =>
      match t.resolve t.me {} (pieces (s.issue.pre.joinp + 64) 64) with
      | (.error _, u) => s.joinNote u 0x26
      | (.ok ps, u) =>
        if viewBad u.bad ps then s.joinNote u 0x26
        else (down u).postAlways s.issue.core s.issue.bank s.issue.pre.job (RecIn.ofBytes (u.view u.mem ps)) (s.issue.pre.joinp + 64) none

section
variable (s : State)

theorem State.joinDown_none (h : s.issue.pre.joinp = 0) : s.joinDown = s := by
  simp only [State.joinDown, h, if_true]

theorem State.joinDown_noCounter (h : s.issue.pre.joinp ≠ 0) (hc : counterAt s = false) : s.joinDown = s.joinNote s 0x26 := by
  have hc' := (not_congr (counterAt_iff s)).mp (by simp [hc])
  rw [not_not] at hc'
  rw [State.joinDown]
  simp only [h, if_false, hc', if_true]
  rfl

theorem State.joinDown_unread (h : s.issue.pre.joinp ≠ 0) (hc : counterAt s = true) {x : XFault} {t : State}
    (hres : s.resolve s.me { write := true, atomic := true } (pieces s.issue.pre.joinp 8) = (.error x, t)) :
    s.joinDown = s.joinNote t 0x26 := by
  rw [State.joinDown]
  simp only [h, if_false, (counterAt_iff s).mp hc, hres]
  rfl

theorem State.joinDown_found (h : s.issue.pre.joinp ≠ 0) (hc : counterAt s = true) {parts : List (Nat × Nat)} {t : State}
    (hres : s.resolve s.me { write := true, atomic := true } (pieces s.issue.pre.joinp 8) = (.ok parts, t)) :
    s.joinDown = s.countDown t parts := by
  rw [State.joinDown]
  simp only [h, if_false, (counterAt_iff s).mp hc, hres]
  rfl

end

/-! The rows of the table (R52) -/

section
variable {s t : State} {parts : List (Nat × Nat)} {n : Word}

theorem State.countDown_marked (hbad : viewBad t.bad parts = true) : s.countDown t parts = s.joinNote t 0x26 := by
  simp only [State.countDown, hbad, if_true]

variable (hn : n = word (ofLeBytes (t.view t.mem parts))) (hbad : viewBad t.bad parts = false)
include hn hbad

theorem State.countDown_underflows (h : n.toInt ≤ 0) : s.countDown t parts = s.joinNote t 0x25 := by
  simp only [State.countDown, ← hn, hbad, h, Bool.false_eq_true, if_false, if_true]

theorem State.countDown_above (h : 1 < n.toInt) :
    s.countDown t parts = t.writeParts t.asHome (cutData parts (leBytes 8 (n - 1).toNat)) := by
  have h1 : n ≠ 1 := by rintro rfl; exact absurd h (by decide)
  simp only [State.countDown, ← hn, hbad, not_le.mpr (Int.zero_lt_one.trans h), h1, Bool.false_eq_true, if_false, ne_eq, not_false_eq_true, if_true]

/-- A counter at one: it becomes zero where the continuation is found. -/
theorem State.countDown_last (h : n = 1) : s.countDown t parts =
    match s.launchCounter s.issue.pre.job s.issue.pre.joinp with
    | some (l, lev, g) => (t.writeParts t.asHome (cutData parts (leBytes 8 0))).postContinuation s.issue.core s.issue.bank s.issue.pre.job l lev g
    | none =>
      match t.resolve t.me {} (pieces (s.issue.pre.joinp + 64) 64) with
      | (.error _, u) => s.joinNote u 0x26
      | (.ok ps, u) =>
        if viewBad u.bad ps then s.joinNote u 0x26
        else (u.writeParts u.asHome (cutData parts (leBytes 8 0))).postAlways s.issue.core s.issue.bank s.issue.pre.job
          (RecIn.ofBytes (u.view u.mem ps)) (s.issue.pre.joinp + 64) none := by
  subst h
  have h0 : ¬(1 : Word).toInt ≤ 0 := by decide
  simp only [State.countDown, ← hn, hbad, h0, Bool.false_eq_true, if_false, ne_eq, not_true_eq_false, sub_self]
  rfl

end

/-- Settles O30: the three operations, then the decrement by the rows of its table. -/
theorem joinsAndRetirement : Obligations.JoinsAndRetirement := by
  unfold Obligations.JoinsAndRetirement
  refine ⟨fun f s t key h hal hres hfirst hown himg hreg hbad => ?jadd, fun s u h hs hst hu => ?end_, ?endp,
    State.joinDown_none, fun s h0 hc => ?noCounter, fun s t x h0 hc hres => ?unread, ?found⟩
  case jadd => exact ⟨_, jadd_adds f s t key h hal hres hfirst hown himg hreg hbad, t.disp_putBytes _ _ _ _, rfl⟩
  case end_ => rw [hu]; exact end_retires s h hs hst
  case endp =>
    rintro f s t u v _ parts r hready hs rfl hal hres hwait hbad hr hu hst hv
    exact ReadsRecord.endp ⟨hready, hal, hres, hwait, hbad⟩ hs hu hr hst hv
  case noCounter => rw [s.joinDown_noCounter h0 hc]; exact joinNote_joinRecord s s _
  case unread => rw [s.joinDown_unread h0 hc hres]; exact joinNote_joinRecord s t _
  case found =>
    intro s t parts n hit h0 hc hres hn hhit
    rw [s.joinDown_found h0 hc hres]
    refine ⟨fun hbad => ?marked, fun hbad => ⟨fun h => ?underflow, fun h => State.countDown_above hn hbad h, fun l lev g h hl => ?launch,
      fun x u h hl hr => ?lost, fun ps u h hl hr => ⟨fun hm => ?markedRecord, fun hm => ?block⟩⟩⟩
    case marked => rw [State.countDown_marked hbad]; exact joinNote_joinRecord s t _
    case underflow => rw [State.countDown_underflows hn hbad h]; exact joinNote_joinRecord s t _
    all_goals rw [State.countDown_last hn hbad h, ← hhit, hl]
    case lost => rw [hr]; exact joinNote_joinRecord s u _
    case markedRecord => simp only [hr, hm, if_true]; exact joinNote_joinRecord s u _
    case block => simp only [hr, hm, Bool.false_eq_true, if_false]

end Sys2Proof.Machine
end

section
/-! SUPPORT. Host posts, launches and grid tasks (R25 to R32, R46 to R48, R355). -/
namespace Sys2Proof.Machine

/-! Counters of an interface (R354, R355) -/

@[simp] theorem State.counter_inject_self (s : State) (i j : Nat) :
    (s.inject i j).counter i j = { s.counter i j with inj := (s.counter i j).inj + 1, act := true } := by
  simp [State.inject, State.count, State.counter]

@[simp] theorem State.counter_consume_self (s : State) (i j : Nat) :
    (s.consume i j).counter i j = { s.counter i j with con := (s.counter i j).con + 1, act := true } := by
  simp [State.consume, State.count, State.counter]

/-! Host posts (R46 to R48) -/

theorem Job.open_iff (q : Job) : q.open = true ↔ q.active = true ∧ q.kstat = 0 ∧ q.tearing = false := by
  simp [Job.open, and_assoc]

theorem hostPost_settles {s t : State} (h : s.hostPost s.arg.n s.arg.m s.arg.data = t) : Settles .hostPost s t :=
  settles_of_event (execHostPost s) rfl rfl h

theorem State.hostPost_closed (s : State) {j : Nat} (off : Nat) (bs : List Byte) (h : 64 ≤ j ∨ (s.job j).open = false) :
    s.hostPost j off bs = s := by
  rw [State.hostPost, if_pos (by simpa using h)]

section
variable (s : State) {j off : Nat} {bs : List Byte} (hj : j < 64) (ho : (s.job j).open = true) (hl : bs.length = 64) (hoff : off % 64 = 0)
include hj ho hl hoff

/-- A whole record in an open slot's page is taken, or dropped where 32 wait. -/
theorem State.hostPost_whole : s.hostPost j off bs =
    if 32 ≤ s.hostHeld j then
      (s.modJob j fun q => { q with hpostDrop := dispInc q.hpostDrop }).report { faultBare s j 0x24 2 0 with wid := (RecIn.ofBytes bs).wid }
    else
      let s1 := if ctrlCnt (RecIn.ofBytes bs).ctrl then s.inject hostIface j else s
      { s1 with disp := { s1.disp with host := s1.disp.host ++ [(j, bs)] }, pkg := { s1.pkg with hposts := s1.pkg.hposts + 1 } } := by
  rw [State.hostPost, if_neg (by simp [hj, ho]), if_neg (by simp [hl, hoff])]

theorem State.hostPost_uncounted (room : s.hostHeld j < 32) (hc : (RecIn.ofBytes bs).ctrl.getLsbD 5 = false) :
    s.hostPost j off bs =
      { s with disp := { s.disp with host := s.disp.host ++ [(j, bs)] }, pkg := { s.pkg with hposts := s.pkg.hposts + 1 } } := by
  simp only [s.hostPost_whole hj ho hl hoff, not_le.mpr room, ctrlCnt, hc, Bool.false_eq_true, if_false]

theorem State.hostPost_counted (room : s.hostHeld j < 32) (hc : (RecIn.ofBytes bs).ctrl.getLsbD 5 = true) :
    s.hostPost j off bs = { s.inject hostIface j with
      disp := { s.disp with host := s.disp.host ++ [(j, bs)] }, pkg := { s.pkg with hposts := s.pkg.hposts + 1 } } := by
  simp only [s.hostPost_whole hj ho hl hoff, not_le.mpr room, ctrlCnt, hc, if_false, if_true]
  rfl

theorem State.hostPost_full (full : 32 ≤ s.hostHeld j) : s.hostPost j off bs =
    (s.modJob j fun q => { q with hpostDrop := dispInc q.hpostDrop }).report { faultBare s j 0x24 2 0 with wid := (RecIn.ofBytes bs).wid } := by
  rw [s.hostPost_whole hj ho hl hoff, if_pos full]

end

theorem State.hpostDrop_counts (s : State) (j : Nat) (r : FaultRec) :
    (((s.modJob j fun q => { q with hpostDrop := dispInc q.hpostDrop }).report r).job j).hpostDrop = min ((s.job j).hpostDrop + 1) 0xFFFF := by
  rw [State.job_report, State.job_modJob_self]
  rfl

/-! Host posts enter (R39, R47, R48) -/

section
variable {s : State} {bs : List Byte} (hf : s.disp.host.find? (fun e => e.1 = s.arg.n) = some (s.arg.n, bs))
include hf

theorem hostPostEnter_enters (hok : s.recordOk s.arg.n 0 (RecIn.ofBytes bs) = true)
    (room : s.mayEnter s.arg.n (ctrlPipe (RecIn.ofBytes bs).ctrl) (ctrlStage (RecIn.ofBytes bs).ctrl) = true) :
    Settles .hostPostEnter s (State.queueRec { s with disp := { s.disp with host := s.disp.host.erase (s.arg.n, bs) } } (RecIn.ofBytes bs)
      0 s.arg.n 0 hostIface (s.arg.n % 32) none) :=
  settles_of_event (execHostPostEnter s) rfl rfl (by simp only [hf, hok, room, Bool.not_true, Bool.false_eq_true, if_false, if_true])

theorem hostPostEnter_waits (hok : s.recordOk s.arg.n 0 (RecIn.ofBytes bs) = true)
    (room : s.mayEnter s.arg.n (ctrlPipe (RecIn.ofBytes bs).ctrl) (ctrlStage (RecIn.ofBytes bs).ctrl) = false) :
    Settles .hostPostEnter s s :=
  settles_of_event (execHostPostEnter s) rfl rfl (by simp only [hf, hok, room, Bool.not_true, Bool.false_eq_true, if_false])

theorem hostPostEnter_rejects (hok : s.recordOk s.arg.n 0 (RecIn.ofBytes bs) = false) :
    ∃ u : State, Settles .hostPostEnter s u ∧ u.disp.host = s.disp.host.erase (s.arg.n, bs) ∧ u.disp.recs = s.disp.recs ∧
      ((RecIn.ofBytes bs).ctrl.getLsbD 5 = true → (u.counter hostIface s.arg.n).con = (s.counter hostIface s.arg.n).con + 1) ∧
      ∃ x : FaultRec, u.faults = s.faults ++ [x] ∧ x.cause = 0x20 ∧ x.job = s.arg.n := by
  let t : State := { s with disp := { s.disp with host := s.disp.host.erase (s.arg.n, bs) } }
  have settles : Settles .hostPostEnter s ((if ctrlCnt (RecIn.ofBytes bs).ctrl then t.consume hostIface s.arg.n else t).rejectBare s.arg.n
      (RecIn.ofBytes bs) 0) :=
    settles_of_event (execHostPostEnter s) rfl rfl (by simp only [hf, hok, Bool.not_false, if_true]; rfl)
  refine ⟨_, settles, ?_⟩
  cases hc : (RecIn.ofBytes bs).ctrl.getLsbD 5 with
  | false => rw [ctrlCnt, hc]; exact ⟨rfl, rfl, nofun, _, rfl, rfl, rfl⟩
  | true => rw [ctrlCnt, hc]; exact ⟨rfl, rfl, fun _ => congrArg Counter.con (t.counter_consume_self 49 s.arg.n), _, rfl, rfl, rfl⟩

end

/-! LAUNCH (R25, R28) -/

theorem launch_settles {s t : State} (hj : s.arg.n < 64) (h : s.writeLaunch s.arg.n s.arg.v = t) : Settles .launch s t :=
  settles_of_event (execLaunch s) rfl rfl (by rw [if_pos hj, h])

section
variable (s : State) {j : Nat} {va : Word}

/-- A value in the LAUNCH register neither opens nor closes a slot. -/
theorem State.open_launchVA : ((s.modJob j fun q => { q with launchVA := va }).job j).open = (s.job j).open := by
  rw [State.job_modJob_self]
  rfl

theorem State.writeLaunch_closed (ha : (s.job j).open = false) :
    s.writeLaunch j va = (s.modJob j fun q => { q with launchVA := va }).modJob j fun q => { q with err := true } := by
  simp only [State.writeLaunch, State.open_launchVA, ha, Bool.not_false, if_true]
  rfl

theorem State.writeLaunch_read (ho : (s.job j).open = true) (hal : va.toNat % 128 = 0) {t : State} {bs : List Byte}
    (hr : (s.modJob j fun q => { q with launchVA := va }).iodRead j va 128 = (some bs, t)) {h : Header} {l : Launch} (hh : h = Header.ofBytes bs)
    (hl : l = h.launch t.disp.nextLaunch j (t.job j).asid va) :
    s.writeLaunch j va = if t.launchCode h l ≠ 0 then t.putStatus j va (t.launchCode h l) else t.launchTables h l := by
  subst hh hl
  have hmis : misaligned va 128 = false := by simp [misaligned, hal]
  simp only [State.writeLaunch, State.open_launchVA, ho, hmis, hr, Bool.not_true, Bool.false_eq_true, if_false]

end

/-! The first checks of a launch (R28) -/

theorem State.launchCode_reserved (s : State) (h : Header) (l : Launch) (hr : bits h.shape 46 2 ≠ 0 ∨ h.rest ≠ 0) : s.launchCode h l = 0x88 := by
  rw [State.launchCode, if_pos (by simpa using hr)]

theorem State.launchCode_widths (s : State) (h : Header) (l : Launch) (hs : bits h.shape 46 2 = 0) (hr : h.rest = 0) (hw : 64 < l.widths.sum) :
    s.launchCode h l = 0x81 := by
  have hbad : l.badShape = true := by simp [Launch.badShape, hw]
  rw [State.launchCode, if_neg (by simp [hs, hr]), if_pos hbad]

theorem State.launchCode_zero (s : State) (h : Header) (l : Launch) (hc : s.launchCode h l = 0) :
    (s.disp.launches.filter fun x => x.job = l.job).length < 16 := by
  by_contra full
  rw [State.launchCode, if_pos (not_lt.mp full)] at hc
  split_ifs at hc

/-! Tables, counters and the launch entered (R28, R30, R32) -/

theorem State.launchTables_enters (s s1 s2 s3 : State) (h : Header) (l l1 : Launch) (pt : List Byte) (js : List (List Byte))
    (hp : s.iodRead l.job h.pipet (128 * l.npipe) = (some pt, s1))
    (hj : s1.iodReadAll l.job 32 (l.levels.map fun k => l.joint + word (32 * k)) = (some js, s2))
    (hl : l1 = { l with stages := Sparse.run .none 0 ((stageTable pt l.npipe).map (·.1)), joins := l.levels.zip (js.map joinOf)
                        live := l.grid + l.counters })
    (hc : s2.launchCode2 l1 (stageTable pt l.npipe) = 0)
    (hf : s2.iodFill l.job (pieces l.jbase (8 * l.counters)) l1.counterBytes = (true, s3)) :
    s.launchTables h l = State.putStatus { s3 with disp := { s3.disp with
      launches := s3.disp.launches ++ [l1], nextLaunch := s3.disp.nextLaunch + 1 } } l.job l.hdr 1 := by
  subst hl
  simp only [State.launchTables, hp, hj, hc, hf, ne_eq, not_true_eq_false, if_false]

/-! Grid tasks (R30) -/

section
variable {s : State} {l : Launch} (hf : s.disp.launches.find? (fun l => l.id = s.arg.n) = some l) (left : l.posted < l.grid)
  (hok : s.recordOk l.job 0 l.gridTask = true)
include hf left hok

theorem gridTaskPost_enters (room : s.mayEnter l.job (ctrlPipe l.gridTask.ctrl) (ctrlStage l.gridTask.ctrl) = true) :
    Settles .gridTaskPost s (State.enterRec { s with disp := { s.disp with launches := s.disp.launches.map fun (x : Launch) =>
      if x.id = l.id then { x with posted := x.posted + 1 } else x } } l.gridTask 0 l.job l.hdr hostIface (l.job % 32) (some l.id)) :=
  settles_of_event (execGridTaskPost s) rfl rfl
    (by simp only [hf, not_le.mpr left, hok, room, Bool.not_true, Bool.false_eq_true, if_false, if_true])

theorem gridTaskPost_waits (room : s.mayEnter l.job (ctrlPipe l.gridTask.ctrl) (ctrlStage l.gridTask.ctrl) = false) :
    Settles .gridTaskPost s s :=
  settles_of_event (execGridTaskPost s) rfl rfl
    (by simp only [hf, not_le.mpr left, hok, room, Bool.not_true, Bool.false_eq_true, if_false])

end

/-- Settles O42: host posts as they are taken and as they enter, LAUNCH by its checks and tables, grid tasks. -/
theorem hostPostsAndLaunches : Obligations.HostPostsAndLaunches := by
  unfold Obligations.HostPostsAndLaunches
  refine ⟨?closed, ?taken, ?enter, ?launch, fun s h l => ⟨s.launchCode_reserved h l, s.launchCode_widths h l, s.launchCode_zero h l⟩,
    State.launchTables_enters, ?grid⟩
  case closed =>
    rintro s _ rfl h
    exact hostPost_settles (s.hostPost_closed _ _ h)
  case taken =>
    rintro s _ rfl hj ha hk ht hl hoff
    have ho : (s.job s.arg.n).open = true := (Job.open_iff _).mpr ⟨ha, hk, ht⟩
    refine ⟨fun room => ⟨fun hc => ?uncounted, fun hc => ?counted⟩, fun full => ?full⟩
    case uncounted => exact hostPost_settles (s.hostPost_uncounted hj ho hl hoff room hc)
    case counted =>
      have hinj := s.counter_inject_self hostIface s.arg.n
      exact ⟨_, hostPost_settles (s.hostPost_counted hj ho hl hoff room hc), rfl, rfl, congrArg Counter.inj hinj, congrArg Counter.act hinj,
        rfl, rfl⟩
    case full => exact ⟨_, hostPost_settles (s.hostPost_full hj ho hl hoff full), rfl, s.hpostDrop_counts _ _, _, rfl, rfl, rfl⟩
  case enter =>
    rintro s _ bs _ rfl hf rfl
    exact ⟨hostPostEnter_enters hf, hostPostEnter_waits hf, hostPostEnter_rejects hf⟩
  case launch =>
    rintro s _ _ _ rfl rfl hj rfl
    refine ⟨fun ha => ?closed, fun t bs h l ha hk ht hal hr hh hl => ?read⟩
    case closed => exact launch_settles hj (s.writeLaunch_closed (by simp [Job.open, ha]))
    case read =>
      have ho : (s.job s.arg.n).open = true := (Job.open_iff _).mpr ⟨ha, hk, ht⟩
      have settles := launch_settles hj (s.writeLaunch_read ho hal hr hh hl)
      exact ⟨fun hc => by rwa [if_neg (not_not.mpr hc)] at settles, fun hc => by rwa [if_pos hc] at settles⟩
  case grid =>
    rintro s l _ hf left rfl
    exact ⟨gridTaskPost_enters hf left, gridTaskPost_waits hf left⟩

end Sys2Proof.Machine
end

section
/-! SUPPORT. The dispatcher: placement, expansion, gating, ageing, stage allocation, blocked posts and probes (R44, R57 to R65). -/
namespace Sys2Proof.Machine

/-! A bank filled (R59, R60) -/

section
variable (s : State) (c b : Nat) (k : Ctx)

theorem State.core_fill : (s.fill c b k).core c = { (s.core c).setBank b
    { k with token := (s.ctx c b).token, serial := s.disp.nextCtx, code := s.mem } with active := b, bound := (s.core c).stage } := by
  rw [State.fill, State.core_modCore_self]
  rfl

/-- The new task, numbered, with the bank's token and memory as its fetch finds it (R49, R92). -/
theorem State.ctx_fill :
    (s.fill c b k).ctx c b = { k with token := (s.ctx c b).token, serial := s.disp.nextCtx, code := s.mem } := by
  rw [State.ctx, State.core_fill]
  exact (s.core c).bank_setBank_self b _

theorem State.active_fill : ((s.fill c b k).core c).active = b := by rw [State.core_fill]

theorem State.bound_fill : ((s.fill c b k).core c).bound = (s.core c).stage := by rw [State.core_fill]

end

/-! What a core selects is placed (R57) -/

theorem placement_settles {s t : State} (h : s.placeOn s.arg.core = t) : Settles .placement s t :=
  settles_of_event (execPlacement s) rfl rfl h

/-- An online core with an idle bank, which nothing but its selection keeps from placing a task. -/
structure Places (s : State) (c b : Nat) : Prop where
  core : c < 256
  online : s.offline c = false
  idle : (s.core c).idleBank = some b

section
variable {s : State} {c b key tier : Nat} (h : Places s c b)
include h

theorem Places.placeOn : s.placeOn c = s.placeInto c b := by
  rw [State.placeOn, if_neg (by simp [h.core, h.online]), h.idle]

theorem Places.record {id : Nat} (hp : s.pick c = some (key, tier, .record id)) : s.placeOn c = s.placeRecord c b tier id := by
  rw [h.placeOn, State.placeInto, hp]

theorem Places.handler {i : Nat} (hp : s.pick c = some (key, tier, .handler i)) : s.placeOn c = s.placeHandler c b i := by
  rw [h.placeOn, State.placeInto, hp]

end

/-! A record is placed (R57, R59, R65) -/

/-- A record that another cluster of the home die takes is counted (R57, R65). -/
def State.countSteal (s : State) (tier job : Nat) : State :=
  if tier = 3 then s.modJob job fun q => { q with stealDie := dispInc q.stealDie } else s

/-- The count of DISPCNT is all that it changes. -/
theorem State.countSteal_keeps {α : Type} (rd : State → α) (h : ∀ (s : State) (j : Nat) (f : Job → Job), rd (s.modJob j f) = rd s)
    (s : State) (tier job : Nat) : rd (s.countSteal tier job) = rd s := by
  unfold State.countSteal
  split
  · exact h _ _ _
  · rfl

theorem State.stealDie_countSteal (s : State) (tier job : Nat) : ((s.countSteal tier job).job job).stealDie =
    if tier = 3 then min ((s.job job).stealDie + 1) 0xFFFF else (s.job job).stealDie := by
  unfold State.countSteal
  split
  · rw [State.job_modJob_self]
    rfl
  · rfl

theorem State.loadRec_countSteal (s : State) (tier job : Nat) (r : Rec) : (s.countSteal tier job).loadRec r = s.loadRec r :=
  State.countSteal_keeps (fun t => t.loadRec r) (fun _ _ _ => rfl) s tier job

/-- The record taken from its queue, before its task starts. -/
def State.takeRec (s : State) (tier : Nat) (r : Rec) : State := (s.countSteal tier r.job).dropRec r.id

section
variable (s : State) (tier : Nat) (r : Rec)

theorem State.core_takeRec (c : Nat) : (s.takeRec tier r).core c = s.core c :=
  State.countSteal_keeps (fun t => t.core c) (fun _ _ _ => rfl) s tier r.job

theorem State.mem_takeRec : (s.takeRec tier r).mem = s.mem := State.countSteal_keeps State.mem (fun _ _ _ => rfl) s tier r.job

theorem State.nextCtx_takeRec : (s.takeRec tier r).disp.nextCtx = s.disp.nextCtx :=
  State.countSteal_keeps (fun t => t.disp.nextCtx) (fun _ _ _ => rfl) s tier r.job

theorem State.id_takeRec {x : Rec} (hx : x ∈ (s.takeRec tier r).disp.recs) : x.id ≠ r.id :=
  of_decide_eq_true (List.mem_filter.mp hx).2

theorem State.stealDie_takeRec : ((s.takeRec tier r).job r.job).stealDie =
    if tier = 3 then min ((s.job r.job).stealDie + 1) 0xFFFF else (s.job r.job).stealDie := s.stealDie_countSteal tier r.job

end

section
variable {s : State} {id : Nat} {r : Rec} (hf : s.disp.recs.find? (fun r => r.id = id) = some r) (c b tier : Nat)
include hf

theorem State.found_id : r.id = id := of_decide_eq_true (List.find?_some hf :)

theorem State.placeRecord_task (he : r.expand = false) : s.placeRecord c b tier id = (s.takeRec tier r).fill c b (s.loadRec r) := by
  rw [← s.loadRec_countSteal tier r.job r, State.takeRec, State.found_id hf]
  simp only [State.placeRecord, hf, he, Bool.false_eq_true, if_false]
  rfl

theorem State.placeRecord_expansion (he : r.expand = true) : s.placeRecord c b tier id = (s.countSteal tier r.job).placeProduced c b r := by
  simp only [State.placeRecord, hf, he, if_true]
  rfl

end

/-- A task starts with the widths that its launch gives as it is placed, or else those that its record keeps (log entry 136), and
fetches from memory as it stands (log entry 12). -/
theorem placement_task (s : State) (b tier id : Nat) (r : Rec) (key : Nat) (h : Places s s.arg.core b)
    (hp : s.pick s.arg.core = some (key, tier, .record id)) (hf : s.disp.recs.find? (fun r => r.id = id) = some r) (he : r.expand = false) :
    ∃ u : State, Settles .placement s u ∧
      u.ctx s.arg.core b = { s.loadRec r with token := (s.ctx s.arg.core b).token, serial := s.disp.nextCtx, code := s.mem } ∧
      (u.core s.arg.core).active = b ∧ (u.core s.arg.core).bound = (theCore s).stage ∧ u.disp.nextCtx = s.disp.nextCtx + 1 ∧
        (∀ x ∈ u.disp.recs, x.id ≠ id) ∧
      (u.job r.job).stealDie = (if tier = 3 then min ((s.job r.job).stealDie + 1) 0xFFFF else (s.job r.job).stealDie) ∧ u.mem = s.mem := by
  refine ⟨_, placement_settles ((h.record hp).trans (State.placeRecord_task hf s.arg.core b tier he)), ?bank, State.active_fill _ _ _ _,
    ?bound, congrArg (· + 1) (s.nextCtx_takeRec tier r), ?left, s.stealDie_takeRec tier r, s.mem_takeRec tier r⟩
  case bank => rw [State.ctx_fill, State.nextCtx_takeRec, State.mem_takeRec, State.ctx, State.core_takeRec]; rfl
  case bound => rw [State.bound_fill, State.core_takeRec]; rfl
  case left =>
    rw [← State.found_id hf]
    exact fun x => s.id_takeRec tier r

/-! A handler is placed (R317) -/

theorem Arrived.vectorAt_handler {a : Arrived} (h : a.kind = .handler) : a.vectorAt = none := by
  rw [Arrived.vectorAt, h]

/-- An entry that frees in a core's queue leaves the registers of the package alone. -/
theorem State.pkg_refillQueue (s : State) (c : Nat) : (s.refillQueue c).pkg = s.pkg := by
  unfold State.refillQueue
  split
  · rfl
  · split <;> rfl

/-- The core's queue without the entry that it takes, the message counted. -/
def State.takeHandler (s : State) (c i : Nat) : State :=
  let t := (s.modCore c fun k => { k with queue := k.queue.eraseIdx i }).refillQueue c
  { t with pkg := { t.pkg with msgs := t.pkg.msgs + 1 } }

theorem State.msgs_takeHandler (s : State) (c i : Nat) : (s.takeHandler c i).pkg.msgs = s.pkg.msgs + 1 :=
  congrArg (Pkg.msgs · + 1) (State.pkg_refillQueue _ c)

theorem State.placeHandler_handler (s : State) {c b i : Nat} {a : Arrived} (hq : (s.core c).queue[i]? = some a) (hk : a.kind = .handler) :
    s.placeHandler c b i = (s.takeHandler c i).fill c b
      (a.load ((s.takeHandler c i).job a.job).asid ((s.takeHandler c i).core c).tvec) := by
  simp only [State.placeHandler, hq, hk, if_true]
  rfl

theorem Ctx.getX_setV (k : Ctx) (n m : Nat) (r : VReg) : (k.setV n r).getX m = k.getX m := rfl

section
variable {a : Arrived} (hk : a.kind = .handler) (asid : Nat) (tvec : Word)
include hk

/-- A handler starts in user mode at its entry, as the message gives it. -/
theorem Arrived.load_handler : (a.load asid tvec).status = .running ∧ (a.load asid tvec).mode = .user ∧ (a.load asid tvec).pc = a.entry ∧
    (a.load asid tvec).wid = a.wid ∧ (a.load asid tvec).prio = a.prio ∧ (a.load asid tvec).counted = a.holder := by
  rw [Arrived.load, Arrived.vectorAt_handler hk]
  exact ⟨rfl, rfl, rfl, rfl, rfl, rfl⟩

/-- Its payload stands in x3 and x4, what the sender adds in x5. -/
theorem Arrived.load_payload : (a.load asid tvec).getX 3 = payloadWord0 a.payload ∧ (a.load asid tvec).getX 4 = payloadWord1 a.payload ∧
    (a.load asid tvec).getX 5 = a.x5 := by
  simp [Arrived.load, Arrived.vectorAt_handler hk, Ctx.getX_setV, Ctx.getX_setX]

end

theorem placement_handler (s : State) (b i key : Nat) (a : Arrived) (h : Places s s.arg.core b)
    (hp : s.pick s.arg.core = some (key, 0, .handler i)) (hq : (theCore s).queue[i]? = some a) (hk : a.kind = .handler) :
    ∃ u : State, Settles .placement s u ∧ (u.ctx s.arg.core b).status = .running ∧ (u.ctx s.arg.core b).mode = .user ∧
      (u.ctx s.arg.core b).pc = a.entry ∧ (u.ctx s.arg.core b).getX 5 = a.x5 ∧ (u.ctx s.arg.core b).wid = a.wid ∧
      (u.ctx s.arg.core b).prio = a.prio ∧ (u.ctx s.arg.core b).counted = a.holder ∧
      (∀ w0 w1, a.payload = .words w0 w1 → (u.ctx s.arg.core b).getX 3 = w0 ∧ (u.ctx s.arg.core b).getX 4 = w1) ∧
      u.pkg.msgs = s.pkg.msgs + 1 := by
  have settles := placement_settles ((h.handler hp).trans (s.placeHandler_handler hq hk))
  have hmsgs := s.msgs_takeHandler s.arg.core i
  generalize s.takeHandler s.arg.core i = t at settles hmsgs
  obtain ⟨hstatus, hmode, hpc, hwid, hprio, hcounted⟩ := Arrived.load_handler hk (t.job a.job).asid (t.core s.arg.core).tvec
  obtain ⟨hx3, hx4, hx5⟩ := Arrived.load_payload hk (t.job a.job).asid (t.core s.arg.core).tvec
  refine ⟨_, settles, ?_⟩
  rw [State.ctx_fill]
  refine ⟨hstatus, hmode, hpc, hx5, hwid, hprio, hcounted, fun w0 w1 hw => ?_, hmsgs⟩
  rw [hw] at hx3 hx4
  exact ⟨hx3, hx4⟩

/-! An expansion entry is selected (R44) -/

theorem expansionSelect_settles {s t : State} {key tier : Nat} {r : Rec} (hp : s.pick s.arg.core = some (key, tier, .record s.arg.n))
    (hf : s.disp.recs.find? (fun r => r.id = s.arg.n) = some r) (he : r.expand = true) (h : s.placeOn s.arg.core = t) :
    Settles .expansionSelect s t := by
  have hany : (s.disp.recs.any fun r => r.id = s.arg.n && r.expand) = true :=
    List.any_eq_true.mpr ⟨r, List.mem_of_find?_eq_some hf, by simp [State.found_id hf, he]⟩
  exact settles_of_event (execExpansionSelect s) rfl rfl (by simp [hp, hany, h])

/-- A record that names no handle is not GATED (R56, R58). -/
theorem State.regateOne_noHandle (s : State) {r : Rec} (hh : r.handles = 0) : s.regateOne r = { r with gated := none } := by
  have hfree : s.gates r = false := by simp [State.gates, hh, validHandles]
  rw [State.regateOne, hfree]
  rfl

/-- The task that an entry produces as its template and its index give it (R44). -/
def Rec.produced (r : Rec) (id : Nat) : Rec :=
  { r with id := id, wid := r.wid + word r.made, expand := false, total := none, made := 0, gated := none }

/-- An entry with tasks left produces the next one. -/
theorem State.produce_next (s : State) (c : Nat) {r : Rec} {total : Nat} (ht : r.total = some total) (left : r.made < total)
    (hh : r.handles = 0) : (s.produce c r).1 = some (r.produced s.disp.nextRec) := by
  have hcount : s.entryCount c r = (some total, s) := by rw [State.entryCount, ht]
  rw [State.produce, hcount]
  exact (congrArg Prod.fst (if_neg (Nat.ne_of_gt (Nat.zero_lt_of_lt left)))).trans (congrArg some (State.regateOne_noHandle _ hh))

/-- A produced task that is not GATED is placed. -/
theorem State.placeProduced_places (s : State) {c b : Nat} {r t : Rec} (hp : (s.produce c r).1 = some t) (hg : t.gated = none) :
    s.placeProduced c b r = (s.produce c r).2.fill c b ((s.produce c r).2.loadRec t) := by
  rw [State.placeProduced]
  generalize s.produce c r = o at hp ⊢
  obtain ⟨x, u⟩ := o
  simp only at hp
  simp [hp, hg]

theorem expansion_places (s : State) (b tier key total : Nat) (r : Rec) (h : Places s s.arg.core b)
    (hp : s.pick s.arg.core = some (key, tier, .record s.arg.n)) (hf : s.disp.recs.find? (fun r => r.id = s.arg.n) = some r)
    (he : r.expand = true) (ht : r.total = some total) (left : r.made < total) (hh : r.handles = 0) :
    ∃ u : State, Settles .expansionSelect s u ∧ (u.ctx s.arg.core b).status = .running ∧ (u.ctx s.arg.core b).pc = r.entry ∧
      (u.ctx s.arg.core b).wid = r.wid + word r.made ∧ (u.ctx s.arg.core b).job = r.job ∧ (u.ctx s.arg.core b).argp = r.arg := by
  have hplace := ((h.record hp).trans (State.placeRecord_expansion hf s.arg.core b tier he)).trans
    (State.placeProduced_places _ (State.produce_next _ _ ht left hh) rfl)
  refine ⟨_, expansionSelect_settles hp hf he hplace, ?_⟩
  rw [State.ctx_fill]
  exact ⟨rfl, rfl, rfl, rfl, rfl⟩

/-! Gating and ageing (R58, R61, R65) -/

/-- A record GATED for its job's limit, and not less than 1,024 cycles, is through (R58, R65). -/
theorem State.gateOver_of_timeout (s : State) {r : Rec} {t : Word} (hg : r.gated = some t) (hp : (s.job r.job).ptimeout ≠ 0)
    (ht : max 1024 (s.job r.job).ptimeout ≤ (s.sidereal - t).toNat) : s.gateOver r = true := by
  rw [State.gateOver, hg, Job.gateLimit, if_neg hp]
  exact decide_eq_true ht

theorem gatingTimeout_passes (s : State) (r : Rec) (rest : List Rec) (t : Word) (hr : s.disp.recs = r :: rest) (hid : r.id = s.arg.n)
    (hg : r.gated = some t) (hp : (s.job r.job).ptimeout ≠ 0) (ht : max 1024 (s.job r.job).ptimeout ≤ (s.sidereal - t).toNat) :
    Settles .gatingTimeout s (State.modJob { s with disp := { s.disp with
      recs := s.disp.recs.map fun x => if x.id = s.arg.n then { x with gated := none, through := true } else x } } r.job fun q =>
        { q with tmoPlace := min (q.tmoPlace + 1) 0xFFFF }) := by
  have hover := s.gateOver_of_timeout hg hp ht
  have hfind : (s.disp.recs.find? fun r => r.id = s.arg.n && s.gateOver r) = some r := by
    rw [hr]
    exact List.find?_cons_of_pos (by simp [hid, hover])
  refine settles_of_event (execGatingTimeout s) rfl rfl ?_
  simp only [hfind, hid]
  rfl

theorem aging_ages (s : State) (f : Rec → Rec)
    (hf : ∀ r, f r = if r.prio < min (min 3 (s.job r.job).ceil) (r.prio0 + (s.sidereal - r.time).toNat / 2 ^ 20)
      then { r with prio := r.prio + 1, queue := r.queue + 1 } else r) :
    Settles .aging s { s with disp := { s.disp with recs := s.disp.recs.map fun r => if r.id = s.arg.n then f r else r } } := by
  obtain rfl : f = s.age := funext hf
  exact settles_of_event (execAging s) rfl rfl rfl

/-! Stage allocation (R62) -/

/-- A change of one core leaves what it does not touch of any core. -/
theorem State.core_modCore_keeps {α : Type} (rd : Core → α) {f : Core → Core} (h : ∀ k, rd (f k) = rd k) (s : State) (d c : Nat) :
    rd ((s.modCore d f).core c) = rd (s.core c) := by
  by_cases hc : c = d
  · rw [hc, State.core_modCore_self, h]
  · rw [State.modCore, State.core_setCore_ne _ _ _ _ hc]

/-- A core takes the stage that an allocation gives it. -/
def State.bindCore (want : List (Nat × StageRef)) (s : State) (c : Nat) : State :=
  let w := (want.find? fun e => e.1 = c).map fun e => (e.2.launch, e.2.pipe, e.2.stage)
  if (s.core c).stage = w then s else s.modCore c fun k => { k with stage := w }

theorem State.bindCore_keeps {α : Type} (rd : State → α) (h : ∀ (s : State) c w, rd (s.modCore c fun k => { k with stage := w }) = rd s)
    (want : List (Nat × StageRef)) (s : State) (c : Nat) : rd (s.bindCore want c) = rd s := by
  unfold State.bindCore
  dsimp only
  split
  · rfl
  · exact h _ _ _

/-- An allocation writes its shares down and binds the cores, and nothing else. -/
theorem State.allocate_keeps {α : Type} (rd : State → α) (h : ∀ (s : State) c w, rd (s.modCore c fun k => { k with stage := w }) = rd s)
    (s : State) : rd s.allocate = rd { s with disp := { s.disp with allocated :=
      (((s.disp.launches.flatMap Launch.refs).zip (s.shares ((List.range 256).filter fun c => !s.offline c).length
        (s.disp.launches.flatMap Launch.refs))).map fun e => (e.1.launch, e.1.pipe, e.1.stage, e.2)) } } :=
  foldl_keeps rd (op := State.bindCore _) (State.bindCore_keeps rd h _) _ _

theorem State.core_allocate_keeps {α : Type} (rd : Core → α) (h : ∀ (k : Core) w, rd { k with stage := w } = rd k) (s : State) (c : Nat) :
    rd (s.allocate.core c) = rd (s.core c) :=
  s.allocate_keeps (fun t => rd (t.core c)) fun t d w => State.core_modCore_keeps rd (fun k => h k w) t d c

theorem stageAllocation_allocates (s : State) : ∃ u : State, Settles .stageAllocation s u ∧ u.mem = s.mem ∧ u.disp.recs = s.disp.recs ∧
    u.disp.allocated = (((s.disp.launches.flatMap Launch.refs).zip (s.shares ((List.range 256).filter fun c => !s.offline c).length
      (s.disp.launches.flatMap Launch.refs))).map fun e => (e.1.launch, e.1.pipe, e.1.stage, e.2)) ∧
    ∀ c, (u.core c).b0 = (s.core c).b0 ∧ (u.core c).b1 = (s.core c).b1 ∧ (u.core c).active = (s.core c).active := by
  have hdisp := s.allocate_keeps State.disp fun _ _ _ => rfl
  exact ⟨_, settles_of_event (execStageAllocation s) rfl rfl rfl, s.allocate_keeps State.mem fun _ _ _ => rfl,
    (congrArg Dispatcher.recs hdisp :), (congrArg Dispatcher.allocated hdisp :),
    fun c => ⟨s.core_allocate_keeps Core.b0 (fun _ _ => rfl) c, s.core_allocate_keeps Core.b1 (fun _ _ => rfl) c,
      s.core_allocate_keeps Core.active (fun _ _ => rfl) c⟩⟩

/-! Blocked posts and probes (R63, R64) -/

theorem blockedPost_admitted (s : State) (c b : Nat) (q : Blocked) (room : s.stageRoom s.arg.n s.arg.m s.arg.k = true)
    (hl : s.longestBlocked s.arg.n s.arg.m s.arg.k = some (c, b, q)) :
    Settles .blockedPostAdmit s (s.modCtx c b fun k => { k with blocked := some { q with admitted := true } }) :=
  settles_of_event (execBlockedPostAdmit s) rfl rfl (by simp only [room, hl, if_true]; rfl)

theorem State.probeDue_of_waited (s : State) {q : Blocked} (ha : q.admitted = false)
    (first : q.probe = none → 1024 < (s.sidereal - q.since).toNat) (next : ∀ t, q.probe = some t → 1024 ≤ (s.sidereal - t).toNat) :
    s.probeDue q = true := by
  rw [State.probeDue, ha]
  cases hp : q.probe with
  | none => exact decide_eq_true (first hp)
  | some t => exact decide_eq_true (next t hp)

theorem probe_sent (s : State) (q : Blocked) (hq : (theCtx s).blocked = some q) (ha : q.admitted = false)
    (first : q.probe = none → 1024 < (s.sidereal - q.since).toNat) (next : ∀ t, q.probe = some t → 1024 ≤ (s.sidereal - t).toNat) :
    Settles .probeSend s (onCtx s fun k => { k with blocked := some { q with
      probe := some s.sidereal
      returned := s.probeFinds (q.job, q.pipe, q.stage) (s.blockedPosts.length + 1) [(q.job, q.pipe, q.stage)] } }) := by
  have hb : (s.ctx s.arg.core s.arg.bank).blocked = some q := hq
  exact settles_of_event (execProbeSend s) rfl rfl (by simp only [hb, s.probeDue_of_waited ha first next, if_true]; rfl)

theorem probe_granted (s t : State) (q p : Blocked) (c b : Nat) (hq : (theCtx s).blocked = some q) (ha : q.admitted = false)
    (hr : q.returned = true) (hs : (q.job, q.pipe, q.stage) ∉ s.disp.spent)
    (ht : t = onCtx s (fun k => { k with blocked := some { q with returned := false } }))
    (hl : t.longestBlocked q.job q.pipe q.stage = some (c, b, p)) :
    Settles .probeGrant s (((State.modCtx { t with disp := { t.disp with spent := (q.job, q.pipe, q.stage) :: t.disp.spent } } c b
      fun k => { k with blocked := some { p with admitted := true } })).modJob q.job fun j =>
        { j with probeGrant := min (j.probeGrant + 1) 0xFFFF }) := by
  have hb : (s.ctx s.arg.core s.arg.bank).blocked = some q := hq
  subst ht
  refine settles_of_event (execProbeGrant s) rfl rfl ?_
  rw [hb]
  refine (if_neg (by simp [ha, hr])).trans ((if_neg (by simpa using hs)).trans ?_)
  rw [onCtx] at hl
  rw [hl]
  rfl

/-- Settles O41: each event of the dispatcher by its own lemma. -/
theorem dispatcherPlacesAndAdmits : Obligations.DispatcherPlacesAndAdmits := by
  unfold Obligations.DispatcherPlacesAndAdmits
  refine ⟨?record, ?handler, ?expansion, gatingTimeout_passes, aging_ages, stageAllocation_allocates, blockedPost_admitted, probe_sent,
    probe_granted⟩
  case record => exact fun s b tier id r key hc ho hb => placement_task s b tier id r key ⟨hc, ho, hb⟩
  case handler => exact fun s b i key a hc ho hb => placement_handler s b i key a ⟨hc, ho, hb⟩
  case expansion => exact fun s b tier key total r hc ho hb => expansion_places s b tier key total r ⟨hc, ho, hb⟩

end Sys2Proof.Machine
end

section
/-! SUPPORT. The encoder undone by the decoder, and the decoder by the encoder, operation by operation; the bundle that holds one operation alone
(R69 to R82). -/
namespace Sys2Proof
open Machine

/-! The fields that tell two operations of one OP apart (R79, R80) -/

theorem and_not_zero {w : Nat} (x : BitVec w) : x &&& ~~~0 = x := by simp

theorem SR.fn9_of_ok {f : SR} {us : List Fld} (h : f.ok us 0 = true) : f.fn9 = 0 := by
  simp only [SR.ok, SR.okRnd, SR.only, Bool.and_eq_true, beq_iff_eq, and_not_zero] at h
  obtain ⟨⟨⟨⟨-, hfn⟩, -⟩, -⟩, -⟩ := h
  exact hfn

theorem Instr.evt_fn5 {f : SI} (h : (Instr.evt f).wf = true) : f.fn5 = 0 := by
  simp only [Instr.wf, legal, SI.ok, Bool.and_eq_true, beq_iff_eq, and_not_zero] at h
  exact h.2

theorem Instr.evtTr_fn5 {f : SI} (h : (Instr.evtTr f).wf = true) : f.fn5 = 1 := by
  simp only [Instr.wf, legal, Bool.and_eq_true, beq_iff_eq] at h
  exact h.2

theorem Instr.mma_kv {f : MX} (h : (Instr.mma f).wf = true) : f.kv = 0 := by
  simp only [Instr.wf, legal, Bool.and_eq_true, beq_iff_eq] at h
  exact h.1

theorem Instr.mmaAbs_kv {f : MX} (h : (Instr.mmaAbs f).wf = true) : f.kv = 3 := by
  simp only [Instr.wf, legal, Bool.and_eq_true, beq_iff_eq] at h
  exact h.1

theorem Instr.ccanAll_fn9 {f : SR} (h : (Instr.ccanAll f).wf = true) : f.fn9 = 1 := by
  simp only [Instr.wf, legal, Bool.and_eq_true, beq_iff_eq] at h
  exact h.2

theorem Instr.whdmdUp_fn9 {f : SR} (h : (Instr.whdmdUp f).wf = true) : f.fn9 = 1 := by
  simp only [Instr.wf, legal, Bool.and_eq_true, beq_iff_eq] at h
  exact h.2

theorem Fmt.ofCode_lat8 (c : BitVec 6) : Fmt.ofCode c = some .lat8 ↔ c = 0x20 := by decide +revert

theorem SR.fmt_of_fmtIn {f : SR} {g : Fmt} (h : f.fmtIn (· == g) = true) : Fmt.ofCode f.fmt = some g := by
  rw [SR.fmtIn] at h
  split at h
  · rename_i heq; rw [heq, eq_of_beq h]
  · cases h

theorem Instr.tldkLat8_fmt {f : SR} (h : (Instr.tldkLat8 f).wf = true) : f.fmt = 0x20 := by
  simp only [Instr.wf, legal, Bool.and_eq_true] at h
  obtain ⟨⟨⟨-, hfmt⟩, -⟩, -⟩ := h
  exact (Fmt.ofCode_lat8 _).mp (SR.fmt_of_fmtIn hfmt)

theorem Instr.tldkExpand_fmt {f : SR} (h : (Instr.tldkExpand f).wf = true) : f.fmt ≠ 0x20 := by
  simp only [Instr.wf, legal, Bool.and_eq_true] at h
  obtain ⟨⟨-, hfmt⟩, -⟩ := h
  intro hc
  rw [← Fmt.ofCode_lat8, SR.fmt_of_fmtIn hfmt] at hc
  cases hc

/-! Decode of an operation's own OP and body -/

section
variable {sl : Slot} {op : Nat}

theorem decodeOp_SR (f : SR) {mk : SR → Instr} (h : ∀ b, decodeOp sl op b = some (mk (SR.ofBits b))) :
    decodeOp sl op f.toBits = some (mk f) := by rw [h, SR.ofBits_toBits]

theorem decodeOp_SI (f : SI) {mk : SI → Instr} (h : ∀ b, decodeOp sl op b = some (mk (SI.ofBits b))) :
    decodeOp sl op f.toBits = some (mk f) := by rw [h, SI.ofBits_toBits]

theorem decodeOp_MEM (f : MEM) {mk : MEM → Instr} (h : ∀ b, decodeOp sl op b = some (mk (MEM.ofBits b))) :
    decodeOp sl op f.toBits = some (mk f) := by rw [h, MEM.ofBits_toBits]

theorem decodeOp_MX (f : MX) {mk : MX → Instr} (h : ∀ b, decodeOp sl op b = some (mk (MX.ofBits b))) :
    decodeOp sl op f.toBits = some (mk f) := by rw [h, MX.ofBits_toBits]

end

/-- Each operation by the kind of its body; of two under one OP, a field that decode accepts of one only names it. -/
theorem decodeOp_parts {i : Instr} {q : Parts} (hq : i.parts = some q) (hn : i ≠ .nop) (hw : i.wf = true) :
    decodeOp q.slot q.op.toNat q.body = some i := by
  cases i with
  | nop => exact absurd rfl hn
  | evt f =>
    cases hq
    exact decodeOp_SI f (mk := fun f => if f.fn5 = 0 then .evt f else .evtTr f) (fun _ => rfl) |>.trans (by rw [if_pos (Instr.evt_fn5 hw)])
  | evtTr f =>
    cases hq
    exact decodeOp_SI f (mk := fun f => if f.fn5 = 0 then .evt f else .evtTr f) (fun _ => rfl) |>.trans (by rw [Instr.evtTr_fn5 hw]; rfl)
  | mma f =>
    cases hq
    exact decodeOp_MX f (mk := fun f => if f.kv = 3 then .mmaAbs f else .mma f) (fun _ => rfl) |>.trans (by rw [Instr.mma_kv hw]; rfl)
  | mmaAbs f =>
    cases hq
    exact decodeOp_MX f (mk := fun f => if f.kv = 3 then .mmaAbs f else .mma f) (fun _ => rfl) |>.trans (by rw [if_pos (Instr.mmaAbs_kv hw)])
  | tldkLat8 f =>
    cases hq
    exact decodeOp_SR f (mk := fun f => if f.fmt = 0x20 then .tldkLat8 f else .tldkExpand f) (fun _ => rfl) |>.trans
      (by rw [if_pos (Instr.tldkLat8_fmt hw)])
  | tldkExpand f =>
    cases hq
    exact decodeOp_SR f (mk := fun f => if f.fmt = 0x20 then .tldkLat8 f else .tldkExpand f) (fun _ => rfl) |>.trans
      (by rw [if_neg (Instr.tldkExpand_fmt hw)])
  | ccan f =>
    cases hq
    exact decodeOp_SR f (mk := fun f => if f.fn9 = 0 then .ccan f else .ccanAll f) (fun _ => rfl) |>.trans (by rw [if_pos (SR.fn9_of_ok hw)])
  | ccanAll f =>
    cases hq
    exact decodeOp_SR f (mk := fun f => if f.fn9 = 0 then .ccan f else .ccanAll f) (fun _ => rfl) |>.trans (by rw [Instr.ccanAll_fn9 hw]; rfl)
  | whdmd f =>
    cases hq
    exact decodeOp_SR f (mk := fun f => if f.fn9 = 0 then .whdmd f else .whdmdUp f) (fun _ => rfl) |>.trans (by rw [if_pos (SR.fn9_of_ok hw)])
  | whdmdUp f =>
    cases hq
    exact decodeOp_SR f (mk := fun f => if f.fn9 = 0 then .whdmd f else .whdmdUp f) (fun _ => rfl) |>.trans (by rw [Instr.whdmdUp_fn9 hw]; rfl)
  | br f | call f | loop f | loopi f | rep f | jadd f | qinit f | qadvh f | qadvt f | trap f | svc f | mfs f | mts f | addi f | andi f
  | ori f | shli f | shri f | sari f | li f | lih f | bfx f | bfi f | widf f | cmpeqi f | cmplti f | cmpltui f | cmode f =>
    cases hq; exact decodeOp_SI f fun _ => rfl
  | brx f | callx f | ret f | lbrk f | lidx f | post f | postn f | posti f | endp f | whwait f | whtest f | binit f | barv f | bexp f
  | bwait f | btest f | bwany f | waita f | fence f | drain f | qtest f | csave f | cload f | ctxsw f | add f | sub f | mul f | mulh f
  | mulhu f | div f | divu f | rem f | and f | or f | xor f | shl f | shr f | sar f | clz f | ctz f | popc f | min f | max f | minu f
  | maxu f | sel f | addsh f | cmpeq f | cmpne f | cmplt f | cmpltu f | cmple f | cmpleu f | pand f | por f | pxor f | pandn f | pset f
  | pget f | pcnt f | pfirst f | fadd f | fsub f | fmul f | ffma f | fmin f | fmax f | fclt f | fcle f | fcvti f | fcvtf f | rndq f
  | rndf f | vdiv f | vradd f | vrmax f | vrmin f | vscan f | vargmx f | vperm f | vcmpr f | vsortk f | vmrgk f | vgth f | tld f | vsct f
  | tstk f | csrc f | cdst f | cdim f | celt f | cbar f | cflag f | cgo f | cstat f | whreq f | whrel f | msend f | msendv f | lsend f
  | lrecv f | rbkey f =>
    cases hq; exact decodeOp_SR f fun _ => rfl
  | vadd v f | vsub v f | vmul v f | vfma v f | vfms v f | vmin v f | vmax v f | vabs v f | vneg v f | vrcp v f | vrsq v f | vexp2 v f
  | vlog2 v f | vand v f | vor v f | vxor v f | vshl v f | vshr v f | vsar v f | vceq v f | vcne v f | vclt v f | vcle v f | vsel v f
  | vmov v f | vbcst v f | viota v f | vxtr v f | vins v f | vrot v f | vcvt v f | vqnt v f | vdqnt v f | vtag v f | vgtag v f =>
    cases hq; cases v <;> exact decodeOp_SR f fun _ => rfl
  | ldb f | ldbu f | ldh f | ldhu f | ldw f | ldwu f | ldd f | ldq f | vld f | vlds f | pld f | ldblk f | lbwait f | pref f | amadd f
  | amswp f | amcas f | amcas16 f | ammin f | ammax f | amminu f | ammaxu f | amand f | amor f | amxor f | amfadd f | stb f | sth f | stw f
  | std f | stq f | vst f | vsts f | pst f | tst f | rdadd f | rdmin f | rdmax f | rdand f | rdor f | rdxor f | rdfadd f | linv f | lwb f
  | lzero f | blkrel f =>
    cases hq; exact decodeOp_MEM f fun _ => rfl
  | mmam f | ttrn f | tprm f | tred f | azero f | aadd f | ascl f | acvt f | afold f | arow f | awrow f | tzero f | tmov f | trow f
  | twrow f | ttag f | lxld f | lxinv f =>
    cases hq; exact decodeOp_MX f fun _ => rfl
  | _ => cases hq <;> rfl

/-- OP 0 is NOP's alone (R70). -/
theorem decodeOp_zero (sl : Slot) (b : BitVec 49) : decodeOp sl 0 b = none := by cases sl <;> rfl

theorem Parts.op_ne_zero {i : Instr} {q : Parts} (hq : i.parts = some q) (hn : i ≠ .nop) (hw : i.wf = true) : q.op.toNat ≠ 0 := by
  intro h0
  have := decodeOp_parts hq hn hw
  rw [h0, decodeOp_zero] at this
  cases this

/-! Words -/

theorem decodeSlot_nop (sl : Slot) {w : BitVec 64} (hop : (w.extractLsb' 57 7).toNat = 0) (hb : w.extractLsb' 0 49 = 0) :
    decodeSlot sl w = .ok (Pred.ofBits w, .nop) := by
  simp only [decodeSlot, hop, hb, if_true]

theorem decodeSlot_op {sl : Slot} {w : BitVec 64} {i : Instr} (hop : (w.extractLsb' 57 7).toNat ≠ 0)
    (hd : decodeOp sl (w.extractLsb' 57 7).toNat (w.extractLsb' 0 49) = some i) (hw : i.wf = true) :
    decodeSlot sl w = .ok (Pred.ofBits w, i) := by
  simp only [decodeSlot, hop, if_false, hd, hw, if_true]

theorem decodeSlot_word {i : Instr} {q : Parts} (hq : i.parts = some q) (hw : i.wf = true) (p : Pred) :
    decodeSlot q.slot (q.word p) = .ok (p, i) := by
  by_cases hn : i = .nop
  · subst hn
    cases hq
    rw [decodeSlot_nop _ (by rw [Parts.word_op]; rfl) (Parts.word_body _ p), Parts.word_pred]
  · rw [decodeSlot_op (i := i) (by rw [Parts.word_op]; exact Parts.op_ne_zero hq hn hw)
      (by rw [Parts.word_op, Parts.word_body]; exact decodeOp_parts hq hn hw) hw, Parts.word_pred]

/-! The bundle of one operation (R69, R70) -/

theorem word_at (x : BitVec 64) {n m : Nat} (hn : n < 8) :
    (x.setWidth 512 <<< (64 * m)).extractLsb' (64 * n) 64 = if n = m then x else 0 := by
  ext j hj
  rw [BitVec.getElem_extractLsb', BitVec.getLsbD_shiftLeft, BitVec.getLsbD_setWidth]
  have hin : 64 * n + j < 512 := by omega
  rcases Nat.lt_trichotomy n m with h | rfl | h
  · simp [h.ne, show 64 * n + j < 64 * m by omega]
  · simp [hin, show j < 512 by omega, BitVec.getLsbD_eq_getElem hj]
  · simp [h.ne', BitVec.getLsbD_of_ge x (64 * n + j - 64 * m) (by omega)]

theorem Slot.index_lt (sl : Slot) : sl.index < 8 := by cases sl <;> decide

theorem Slot.index_inj {a b : Slot} : a.index = b.index ↔ a = b := by cases a <;> cases b <;> decide

theorem encodeAlone_word {i : Instr} {q : Parts} (hq : i.parts = some q) (p : Pred) (sl : Slot) :
    (encodeAlone p i).word sl = if sl = q.slot then q.word p else 0 := by
  simp only [encodeAlone, hq, Bundle.word, word_at _ sl.index_lt, Slot.index_inj]

/-- What one slot of a bundle brings: its operation, unless it is a NOP. -/
def bringsOf (d : SlotOp) : Option (Slot × Pred × Instr) :=
  match d with
  | (_, .ok (_, .nop)) => none
  | (sl, .ok (p, i)) => some (sl, p, i)
  | (_, .error _) => none

theorem Fetched.work_not_repeating (q : Fetched) : q.work false = q.ops.filterMap bringsOf := by
  refine congrArg (q.ops.filterMap ·) (funext fun d => ?_)
  obtain ⟨sl, r⟩ := d
  match r with
  | .error _ => rfl
  | .ok (p, i) => cases i <;> rfl

theorem bringsOf_ok {sl : Slot} {p : Pred} {i : Instr} (hn : i ≠ .nop) : bringsOf (sl, .ok (p, i)) = some (sl, p, i) := by
  cases i with
  | nop => exact absurd rfl hn
  | _ => rfl

theorem brings_alone {i : Instr} {q : Parts} (hq : i.parts = some q) (hw : i.wf = true) (hn : i ≠ .nop) (p : Pred) (sl : Slot) :
    bringsOf (sl, decodeSlot sl ((encodeAlone p i).word sl)) = if sl = q.slot then some (sl, p, i) else none := by
  rw [encodeAlone_word hq]
  split
  · next h => rw [h, decodeSlot_word hq hw, bringsOf_ok hn]
  · rw [decodeSlot_nop sl (by decide) (by decide)]; rfl

theorem work_alone {i : Instr} {q : Parts} (hq : i.parts = some q) (hw : i.wf = true) (hn : i ≠ .nop) (p : Pred) :
    Fetched.work ⟨encodeAlone p i, decodeBundle (encodeAlone p i), []⟩ false = [(q.slot, p, i)] := by
  rw [Fetched.work_not_repeating, decodeBundle, List.filterMap_map]
  simp only [Function.comp_def, brings_alone hq hw hn]
  cases q.slot <;> rfl

/-- Settles O54: an operation's word keeps its OP, its predicate and its body, from which decode finds the operation again; the other words
of its bundle are NOPs. -/
theorem decodeUndoesEncode : Obligations.DecodeUndoesEncode := by
  unfold Obligations.DecodeUndoesEncode
  intro p i sl hw hs
  obtain ⟨q, hq, rfl⟩ := Option.map_eq_some_iff.mp hs
  exact ⟨⟨q.word p, congrArg (Option.map fun q : Parts => q.word p) hq, decodeSlot_word hq hw p⟩, fun hn => work_alone hq hw hn p⟩

/-! Decode gives back the parts of the word (R78 to R80) -/

/-! Decode gives back the parts of the word (R78 to R80) -/

theorem parts_of_decodeV {v : VSlot} {op : Nat} {b : BitVec 49} {i : Instr} (h : decodeV v op b = some i) :
    i.parts = some ⟨if v0OnlyOp op then .v0 else v.slot, .ofNat 7 op, b⟩ := by
  unfold decodeV at h
  split at h <;> cases h
  all_goals exact (congrArg (some <| Parts.mk _ _ ·) (SR.toBits_ofBits b) :)

/-- Each row of each map; the second split is that of a row with a condition: a zero body, or two operations under one OP. -/
theorem parts_of_decodeOp {sl : Slot} {op : Nat} {b : BitVec 49} {i : Instr} (h : decodeOp sl op b = some i) :
    i.parts = some ⟨sl, .ofNat 7 op, b⟩ := by
  cases sl <;> simp only [decodeOp] at h
  case v0 => rw [parts_of_decodeV h, VSlot.slot, ite_self]
  case v1 =>
    obtain ⟨hv, h⟩ := Option.ite_none_left_eq_some.mp h
    rw [parts_of_decodeV h, if_neg hv, VSlot.slot]
  all_goals
    simp only [decodeY, decodeS, decodeM, decodeL, decodeW, decodeC] at h
    split at h <;> (try split at h) <;> cases h
  all_goals
    refine Eq.trans (b := some (Parts.mk _ _ _)) rfl ?_
    simp only [SR.toBits_ofBits, SI.toBits_ofBits, MEM.toBits_ofBits, MX.toBits_ofBits, *]
    rfl

/-- A word is its OP, its predicate and its body. -/
theorem Parts.word_of_fields (sl : Slot) (w : BitVec 64) :
    Parts.word ⟨sl, w.extractLsb' 57 7, w.extractLsb' 0 49⟩ (Pred.ofBits w) = w := by
  have h := w.isLt
  have hneg : (BitVec.ofBool (w.getLsbD 56)).toNat = w.toNat / 2 ^ 56 % 2 := by
    rw [BitVec.getLsbD, Nat.testBit_eq_decide_div_mod_eq, BitVec.toNat_ofBool]
    rcases Nat.mod_two_eq_zero_or_one (w.toNat / 2 ^ 56) with h | h <;> rw [h] <;> rfl
  apply BitVec.eq_of_toNat_eq
  simp only [Parts.word, Pred.ofBits, extract_toNat, toNat_append_add, hneg]
  omega

theorem decodeSlot_ok {sl : Slot} {w : BitVec 64} {p : Pred} {i : Instr} (h : decodeSlot sl w = .ok (p, i)) :
    p = Pred.ofBits w ∧ i.wf = true ∧
      (i = .nop ∧ w.extractLsb' 57 7 = 0 ∧ w.extractLsb' 0 49 = 0 ∨ i.parts = some ⟨sl, w.extractLsb' 57 7, w.extractLsb' 0 49⟩) := by
  simp only [decodeSlot] at h
  split at h
  · next hop =>
    split at h
    · next hb => cases h; exact ⟨rfl, rfl, .inl ⟨rfl, BitVec.eq_of_toNat_eq hop, hb⟩⟩
    · cases h
  · split at h
    · cases h
    · next hd =>
      split at h
      · next hw => cases h; exact ⟨rfl, hw, .inr (by rw [parts_of_decodeOp hd, BitVec.ofNat_toNat, BitVec.setWidth_eq])⟩
      · cases h

theorem decodeSlot_nopBody (sl : Slot) {w : BitVec 64} (hop : (w.extractLsb' 57 7).toNat = 0) (hb : w.extractLsb' 0 49 ≠ 0) :
    decodeSlot sl w = .error .nopBody := by
  simp only [decodeSlot, hop, hb, if_true, if_false]

theorem decodeSlot_unassigned (sl : Slot) {w : BitVec 64} (hop : (w.extractLsb' 57 7).toNat ≠ 0)
    (h : ∀ b, decodeOp sl (w.extractLsb' 57 7).toNat b = none) : decodeSlot sl w =
      .error (if sl = .v1 && v0OnlyOp (w.extractLsb' 57 7).toNat then .v0Only else .unassigned sl (w.extractLsb' 57 7).toNat) := by
  simp only [decodeSlot, hop, h, if_false, Option.isSome_none, Bool.false_eq_true]

/-- Settles O55: the fields of a word are the parts of what decode finds by them. -/
theorem decodedWordsEncodeBack : Obligations.DecodedWordsEncodeBack := by
  unfold Obligations.DecodedWordsEncodeBack
  refine ⟨fun sl w p i h => ?back, fun sl w => decodeSlot_nopBody sl, fun sl w hop h => ?refused⟩
  case back =>
    obtain ⟨rfl, hw, hnop | hparts⟩ := decodeSlot_ok h
    · obtain ⟨rfl, hop, hb⟩ := hnop
      refine ⟨?_, hw, absurd rfl⟩
      have := Parts.word_of_fields .y w
      rw [hop, hb] at this
      exact congrArg some this
    · refine ⟨?_, hw, fun _ => congrArg (Option.map Parts.slot) hparts⟩
      rw [encode, hparts, Option.map_some, Parts.word_of_fields]
  case refused =>
    rw [decodeSlot_unassigned sl hop h]
    split
    · exact .inl rfl
    · exact .inr rfl

/-- Settles O53: each word by its fields. -/
theorem wordsOfTheTablesDecode : Obligations.WordsOfTheTablesDecode := by
  unfold Obligations.WordsOfTheTablesDecode
  decide

end Sys2Proof
end

section
/-! SUPPORT. O60: every instruction and every step answers a next state. -/
namespace Sys2Proof.Machine

/-- An outcome is a next state. -/
def Out.Answers (o : Out) : Prop := ∃ t, o = .next t

theorem Out.answers_next (t : State) : Out.Answers (.next t) := ⟨t, rfl⟩

theorem Out.answers_ite (c : Prop) {_ : Decidable c} {a b : Out} (ha : a.Answers) (hb : b.Answers) :
    Out.Answers (if c then a else b) := by
  split
  · exact ha
  · exact hb

theorem Out.answers_test {c : Prop} {_ : Decidable c} {t : State} {b : Out} (hb : b.Answers) :
    Out.Answers (if c then .next t else b) := Out.answers_ite c (Out.answers_next t) hb

theorem Out.answers_option (o : Option Reg) (f : Reg → Out) (g : Out) (hf : ∀ r, (f r).Answers) (hg : g.Answers) :
    Out.Answers (match o with | some r => f r | none => g) := by
  cases o with
  | some r => exact hf r
  | none => exact hg

theorem Out.answers_anchored (s : State) (os : List Opd) (wr : List Reg) (body : State → State) :
    (s.anchored os wr body).Answers := s.anchored_next os wr body

theorem Out.answers_slipped (s : State) (act : Bool) (os : List Opd) (wr : List Reg) (body : State → State) :
    (s.slipped act os wr body).Answers := s.slipped_next act os wr body

theorem Out.answers_mOp (s : State) (srcs : List TSrc) (dsts : List (BitVec 6)) (rd : List Opd) (wr : List Reg)
    (body : List Nat → List Nat → State → State) : (s.mOp srcs dsts rd wr body).Answers :=
  Out.answers_ite _ (Out.answers_slipped ..) (Out.answers_test (Out.answers_test (Out.answers_slipped ..)))

theorem Out.answers_mmaImage (s : State) (f : MX) (merge : Bool) : (s.mmaImage f merge).Answers := by
  unfold State.mmaImage
  exact Out.answers_mOp ..

theorem Out.answers_mmaTiles (s : State) (f : MX) : (s.mmaTiles f).Answers := Out.answers_mOp ..

theorem Out.answers_absorb (s : State) (f : MX) : (s.absorb f).Answers := Out.answers_mOp ..

theorem Out.answers_applyScales (s : State) (f : MX) (h : Nat) (ok : Fmt → Bool) : (s.applyScales f h ok).Answers :=
  Out.answers_ite _ (Out.answers_mOp ..) (Out.answers_mOp ..)

/-- The groups are the shapes of the operations: an event, an anchored operation, a vector operation, a matrix operation (R108 to
R111).  A group's term follows the tests that its shape makes; those of `State.anchored` and `State.slipped` come written out where
`exec` reaches them through further definitions. -/
theorem exec_answers (i : Instr) (s : State) : Out.Answers (exec i s) := by
  cases i with
  | nop => exact Out.answers_next _
  | rep _ => exact Out.answers_test (Out.answers_anchored ..)
  | mfs _ | mts _ => exact Out.answers_test (Out.answers_test (Out.answers_anchored ..))
  | whreq _ => exact Out.answers_test (Out.answers_anchored ..)
  | eret | csave _ | cload _ | ctxsw _ => exact Out.answers_test (Out.answers_anchored ..)
  | mwait => exact Out.answers_test (Out.answers_test (Out.answers_slipped ..))
  | mma _ => exact Out.answers_ite _ (Out.answers_mmaImage ..) (Out.answers_mmaTiles ..)
  | mmam _ =>
    exact Out.answers_ite _ (Out.answers_absorb ..) (Out.answers_ite _ (Out.answers_mmaImage ..) (Out.answers_mmaTiles ..))
  | ascl _ | acvt _ => exact Out.answers_applyScales ..
  | ttrn _ | tprm _ | tred _ | azero _ | afold _ | arow _ | awrow _ | tzero _ | tmov _ | trow _ | twrow _ | ttag _
  | mmaAbs _ | aadd _ | lxld _ | lxinv _ =>
    exact Out.answers_ite _ (Out.answers_slipped ..) (Out.answers_test (Out.answers_test (Out.answers_slipped ..)))
  | vadd _ _ | vsub _ _ | vmul _ _ | vfma _ _ | vfms _ _ | vmin _ _ | vmax _ _ | vabs _ _ | vneg _ _ | vdiv _ | vrcp _ _ | vrsq _ _
  | vexp2 _ _ | vlog2 _ _ | vand _ _ | vor _ _ | vxor _ _ | vshl _ _ | vshr _ _ | vsar _ _ | vceq _ _ | vcne _ _ | vclt _ _ | vcle _ _
  | vsel _ _ | vmov _ _ | vbcst _ _ | viota _ _ | vxtr _ _ | vins _ _ | vradd _ | vrmax _ | vrmin _ | vscan _ | vargmx _ | vperm _
  | vrot _ _ | vcmpr _ | vsortk _ | vmrgk _ | vcvt _ _ | vqnt _ _ | vdqnt _ _ | vtag _ _ | vgtag _ _ =>
    exact Out.answers_test (Out.answers_test (Out.answers_test (Out.answers_test (Out.answers_test (Out.answers_test
      (Out.answers_next _))))))
  | brx _ | callx _ | ret _ | loop _ | post _ | postn _ | posti _ | jadd _ | endp _ | whwait _ | whtest _ | binit _ | barv _ | bexp _
  | bwait _ | btest _ | bwany _ | waita _ | evt _ | evtTr _ | add _ | sub _ | addi _ | mul _ | mulh _ | mulhu _ | div _ | divu _ | rem _
  | and _ | or _ | xor _ | andi _ | ori _ | shl _ | shr _ | sar _ | shli _ | shri _ | sari _ | clz _ | ctz _ | popc _ | min _ | max _
  | minu _ | maxu _ | sel _ | lih _ | addsh _ | bfx _ | bfi _ | widf _ | cmpeq _ | cmpne _ | cmplt _ | cmpltu _ | cmple _ | cmpleu _
  | cmpeqi _ | cmplti _ | cmpltui _ | pand _ | por _ | pxor _ | pandn _ | pset _ | pget _ | pcnt _ | pfirst _ | fadd _ | fsub _ | fmul _
  | ffma _ | fmin _ | fmax _ | fclt _ | fcle _ | fcvti _ | fcvtf _ | ldb _ | ldbu _ | ldh _ | ldhu _ | ldw _ | ldwu _ | ldd _ | ldq _
  | vld _ | vlds _ | vgth _ | tld _ | tldkLat8 _ | tldkExpand _ | ldblk _ | lbwait _ | amadd _ | amswp _ | amcas _ | amcas16 _ | ammin _
  | ammax _ | amminu _ | ammaxu _ | amand _ | amor _ | amxor _ | amfadd _ | stb _ | sth _ | stw _ | std _ | stq _ | vst _ | vsts _ | vsct _
  | pst _ | tst _ | tstk _ | rdadd _ | rdmin _ | rdmax _ | rdand _ | rdor _ | rdxor _ | rdfadd _ | linv _ | lwb _ | lzero _ | blkrel _
  | csrc _ | cdst _ | cdim _ | celt _ | cbar _ | cflag _ | ccan _ | ccanAll _ | whdmd _ | whdmdUp _ | whrel _ | msend _ | msendv _
  | lsend _ | lrecv _ | rbkey _ =>
    exact Out.answers_test (Out.answers_test (Out.answers_option _ _ _ (fun _ => Out.answers_next _) (Out.answers_next _)))
  | br _ | call _ | loopi _ | lbrk _ | lidx _ | fence _ | drain _ | qtest _ | qinit _ | qadvh _ | qadvt _ | trap _ | svc _ | li _ | rndq _
  | rndf _ | pld _ | pref _ | cmode _ | cgo _ | cstat _ | endTask | yield | park | slipw | quiet =>
    exact Out.answers_test (Out.answers_test (Out.answers_next _))
  | waitaTimeout | longWaitPark | slotQueueIssue | loadDataReturn | tileLoadComplete | matrixResultWrite | expanderLoadComplete
  | loadBlockFilled | generatorRefill | scStamp | scPerform | reductionPerform | placement | gatingTimeout | aging | stageAllocation
  | blockedPostAdmit | probeSend | probeGrant | expansionSelect | hostPost | hostPostEnter | launch | gridTaskPost | stackDeadlineRelease
  | stackEngineStart | stackSplit | stackDissolve | copyStart | copyElementWrite | dramlocFrame | copyFault | copyComplete | handlePageLand
  | handleReady | handleError | handleReleaseFree | flashPageRead | relocationRemap | blockEraseComplete | messageArrival | messageHandover
  | handoverAck | retirementNotice | reductionAck | remoteMessageReceive | sweepWaveStart | sweepPass2 | sweepVerdict | xwaveStart
  | xwaveRequestReceive | xwaveReplyReceive | xwaveReplyTimeout | xwaveVerdictReceive | ueRetransmit | ueAckReceive | ueAbandon
  | linkArrival | timer | preemptOverdue | faultRecordWrite | fqtailWrite | losstailWrite | ortailReplay | ortailDiscard | replay
  | preemptReq | preemptRel | preqRequest | preqHeldRelease | kill | killComplete | jobCreate | jobTeardown | teardownComplete | tlbiGo
  | tlbiComplete | rctlBind | rctlUnbind | unbindWritebackDone | hptEpoch | zfreePush | mbGetid | mbAttest | mbVerify | mbUpdate
  | mailboxDone | finjWrite | vfslotsWrite | fgrantWrite | dispcntRead | fhealthCRead | hptCntRead | colcntRead | huncRead | registerWrite
  | hostBar4Read | hostBar4Write | powerGood | stage0Complete | stage1Complete | stage2Complete | powerCapTick | thermalTrip
  | cooldownRestart | unitError | collimationTestDone | ephemUpdate | storePerform | handleTableAnswer | eventArrival
  | flashProgramComplete | hptCtlWrite => exact ⟨_, rfl⟩

theorem State.runSlot_answers (s : State) (sl : Slot) (p : Pred) (i : Instr) : (s.runSlot sl p i).Answers := by
  unfold State.runSlot
  dsimp only
  split
  · exact Out.answers_next _
  · generalize hx : exec i _ = o
    obtain ⟨t, rfl⟩ : Out.Answers o := hx ▸ exec_answers i _
    exact Out.answers_next _

theorem State.runSlots_answers (s : State) (l : List (Slot × Pred × Instr)) : (s.runSlots l).Answers := by
  induction l generalizing s with
  | nil => exact Out.answers_next s
  | cons e r ih =>
    obtain ⟨sl, p, i⟩ := e
    obtain ⟨t, ht⟩ := s.runSlot_answers sl p i
    simp only [State.runSlots, ht]
    exact Out.answers_ite _ (ih t) (Out.answers_next t)

theorem State.issueDecoded_answers (s : State) (q : Fetched) : (s.issueDecoded q).Answers := by
  refine Out.answers_ite _ (Out.answers_next _) ?_
  cases s.issue.pre.decodeTrap s.issue.core q with
  | some x => exact Out.answers_next _
  | none =>
    obtain ⟨t, ht⟩ := s.runSlots_answers (q.work (s.issue.pre.repeating s.here))
    simp only [ht]
    exact Out.answers_next _

theorem State.issueBank_answers (s : State) (c b : Nat) : (s.issueBank c b).Answers := by
  unfold State.issueBank
  cases (s.ctx c b).leaving with
  | some after => exact Out.answers_next _
  | none =>
    refine Out.answers_ite _ (Out.answers_next _) (Out.answers_ite _ (Out.answers_next _) ?_)
    obtain ⟨w, s1⟩ := s.fetchNext c b
    cases w with
    | error x => exact Out.answers_next _
    | ok w => exact State.issueDecoded_answers _ _

theorem State.issueCore_answers (s : State) (c : Nat) : (s.issueCore c).Answers := by
  refine Out.answers_ite _ (Out.answers_next _) ?_
  obtain ⟨t, ht⟩ := (s.noteTimer c (s.core c).active).issueBank_answers c (s.core c).active
  simp only [ht]
  exact Out.answers_next _

theorem State.act_answers (s : State) (a : Option Action) : (s.act a).Answers := by
  match a with
  | none => exact Out.answers_next s
  | some (.host _) => exact ⟨_, rfl⟩
  | some (.issue c) => exact Out.answers_ite _ (s.issueCore_answers c) (Out.answers_next s)
  | some (.event i a) =>
    refine Out.answers_ite _ (Out.answers_next s) ?_
    obtain ⟨t, ht⟩ := exec_answers i { s with arg := a }
    simp only [ht]
    exact Out.answers_next _

theorem State.goes (s : State) : s.Goes := by
  unfold State.Goes step
  obtain ⟨t, ht⟩ := s.nextAction.2.act_answers s.nextAction.1
  simp only [ht]
  exact Out.answers_next _

/-- Settles O60: `exec` by the shape of the operation, `step` by what comes next. -/
theorem everyStepAnswersANextState : Obligations.EveryStepAnswersANextState :=
  ⟨exec_answers, State.goes⟩

end Sys2Proof.Machine
end

section
/-! SUPPORT. O56: a step is what comes next, and an issue is fetch, decode, the slots' operations and the close. -/
namespace Sys2Proof.Machine

theorem step_of_act (s s1 t : State) (a : Option Action) (hn : s.nextAction = (a, s1)) (ha : s1.act a = .next t) :
    step s = .next t.tick := by
  unfold step
  rw [hn]
  simp only [ha]

theorem State.decoded_not_rep (s : State) (c b : Nat) (w : Bundle) (h : ∀ f, bundleY w ≠ .rep f) :
    s.decoded c b w = (⟨w, decodeBundle w, []⟩, s) := by
  unfold State.decoded
  split
  · exact absurd ‹_› (h _)
  · rfl

/-- A bundle that no rule of decode holds up or refuses runs its slots and is closed. -/
theorem State.issueDecoded_of_runSlots (s t : State) (q : Fetched) (ho : s.issue.pre.overfillOpen q = false)
    (hd : s.issue.pre.decodeTrap s.issue.core q = none)
    (hr : s.runSlots (q.work (s.issue.pre.repeating s.here)) = .next t) :
    s.issueDecoded q = .next (s.closeIssue t q.body) := by
  unfold State.issueDecoded
  simp [ho, hd, hr]

theorem State.issueBank_of_fetch (s s1 : State) (c b : Nat) (w : Bundle) (hl : (s.ctx c b).leaving = none)
    (ht : (s.ctx c b).timerDue = false) (hs : (s.ctx c b).skewed = false) (hf : s.fetchNext c b = (.ok w, s1))
    (hw : ∀ f, bundleY w ≠ .rep f) :
    s.issueBank c b = (s1.openIssue c b).issueDecoded ⟨w, decodeBundle w, []⟩ := by
  unfold State.issueBank
  simp [hl, ht, hs, hf, s1.decoded_not_rep c b w hw]

theorem State.issueCore_of_issueBank (s t : State) (c : Nat)
    (hr : ((s.noteTimer c (s.core c).active).ctx c (s.core c).active).status = .running)
    (ht : (s.noteTimer c (s.core c).active).issueBank c (s.core c).active = .next t) :
    s.issueCore c = .next ({ t with issue := .none } : State).settle := by
  unfold State.issueCore
  simp [hr, ht]

theorem State.act_issue (s : State) (c : Nat) (h : s.canIssue c = true) : s.act (some (.issue c)) = s.issueCore c :=
  if_pos h

theorem State.act_event (s t : State) (i : Instr) (a : EventArg) (hi : i.parts = none) (hp : s.pkg.halted = false)
    (ht : exec i { s with arg := a } = .next t) : s.act (some (.event i a)) = .next { t with arg := .none } := by
  unfold State.act
  simp [hi, hp, ht]

/-- A slot whose predicate register is neither pending nor poisoned runs `exec` with the predicate's value. -/
theorem State.runSlot_known (s : State) (sl : Slot) (p : Pred) (i : Instr)
    (hp : ∀ e ∈ s.issue.pre.pend, e.reg ≠ .p p.reg.toNat) (hb : s.issue.pre.spoilt (.p p.reg.toNat) = false) :
    s.runSlot sl p i = exec i { s with issue := { s.issue with
      slot := sl.index, instr := i, pred := p, guard := if p.reg = 0 then [] else [.p p.reg.toNat], need := .none, unsure := false
      anchored := s.issue.anchored || !slips sl.index, cond := s.issue.pre.predicate p } } := by
  have hl : s.later (.p p.reg.toNat) = false := s.later_false _ fun e he _ => hp e he
  have hw : ∀ t : State, t.issue.pre = s.issue.pre → t.waits [.p p.reg.toNat] [] = false := fun t ht =>
    t.waits_false _ _ (by simpa [ht] using hp) (by simp)
  unfold State.runSlot State.condition
  simp only [hl, Bool.and_false, Bool.false_eq_true, if_false, hb, hw]
  split <;> simp_all

theorem State.closeIssue_commit (s t : State) (body : List (Word × Bundle)) (hv : t.issue.verdict = .commit)
    (hs : t.cur.sc = none) (hr : t.issue.risky = false ∨ t.issue.anchored = false) :
    s.closeIssue t body = t.commitBundle body := by
  have ho : t.cur.scOpen t.issue.pre.pc = none := by simp [Ctx.scOpen, hs]
  have hn : ¬(t.issue.anchored = true ∧ t.issue.risky = true) := by
    rintro ⟨ha, hr'⟩
    simp_all
  unfold State.closeIssue
  simp [hv, ho, hn]

theorem State.nextAction_agenda (s : State) (a : Action) (r : List Action) (h : s.agenda = a :: r) :
    s.nextAction = (some a, { s with agenda := r }) := by
  unfold State.nextAction
  simp [h]

theorem State.nextAction_issue (s : State) (c : Nat) (ha : s.agenda = []) (ho : s.others = false) (hc : s.nextCore = some c) :
    s.nextAction = (some (.issue c), { s with others := true }) := by
  unfold State.nextAction
  simp [ha, ho, hc]

/-- Settles O56: one lemma for each layer of an issue, and for an event. -/
theorem stepRunsWhatIsDecoded : Obligations.StepRunsWhatIsDecoded := by
  refine ⟨?_, ?_, fun _ _ => rfl, State.closeIssue_commit, ?_, State.nextAction_issue⟩
  · intro s s1 s2 s3 t c b w q hn hc hb h2 hrun hl ht hs hf hw hq ho hd hr
    subst hb h2 hq
    have hbank := (State.issueBank_of_fetch _ _ _ _ w hl ht hs hf hw).trans (State.issueDecoded_of_runSlots _ t _ ho hd hr)
    exact step_of_act s s1 _ _ hn ((s1.act_issue c hc).trans (s1.issueCore_of_issueBank _ c hrun hbank))
  · intro s sl p i hp hb
    have h := s.runSlot_known sl p i hp hb
    obtain ⟨t, ht⟩ := exec_answers i { s with issue := { s.issue with
      slot := sl.index, instr := i, pred := p, guard := if p.reg = 0 then [] else [.p p.reg.toNat], need := .none, unsure := false
      anchored := s.issue.anchored || !slips sl.index, cond := s.issue.pre.predicate p } }
    rw [ht] at h ⊢
    simp only [State.runSlots, h, ite_self]
  · intro s t i a r ha hi hp he
    exact step_of_act s _ _ _ (s.nextAction_agenda _ r ha) (State.act_event _ t i a hi hp he)

end Sys2Proof.Machine
end

section
/-! SUPPORT. O57: the illegal slots of a bundle, its trap of decode, and the privileged operations. -/
namespace Sys2Proof.Machine

/-! The slots that are wrong -/

theorem mem_slotErrors (ops : List SlotOp) (n : Nat) : n ∈ slotErrors ops ↔ ∃ sl e, (sl, .error e) ∈ ops ∧ n = sl.index := by
  unfold slotErrors
  rw [List.mem_filterMap]
  constructor
  · rintro ⟨⟨sl, (e | ok)⟩, hm, hn⟩
    · exact ⟨sl, e, hm, by simpa using hn.symm⟩
    · simp at hn
  · rintro ⟨sl, e, hm, rfl⟩
    exact ⟨(sl, .error e), hm, rfl⟩

/-- Two slots write a register in common. -/
def SlotOp.Clash (d e : SlotOp) : Prop := ∃ r : Target, r ∈ Instr.writes d.instr ∧ r ∈ Instr.writes e.instr

theorem SlotOp.clash_iff (d e : SlotOp) : (Instr.writes d.instr).any (Instr.writes e.instr).contains = true ↔ d.Clash e := by
  simp [SlotOp.Clash, List.any_eq_true]

theorem mem_clashes_cons (d : SlotOp) (r : List SlotOp) (n : Nat) :
    n ∈ clashes (d :: r) ↔ (∃ e ∈ r, d.Clash e ∧ n = e.1.index) ∨ n ∈ clashes r := by
  simp only [clashes, List.mem_append, List.mem_map, List.mem_filter, SlotOp.clash_iff, and_assoc, eq_comm (a := n)]

theorem mem_clashes (ops : List SlotOp) (n : Nat) :
    n ∈ clashes ops ↔ ∃ d e : SlotOp, [d, e].Sublist ops ∧ d.Clash e ∧ n = e.1.index := by
  induction ops with
  | nil => simp [clashes]
  | cons a r ih =>
    rw [mem_clashes_cons, ih]
    constructor
    · rintro (⟨e, he, h⟩ | ⟨d, e, hs, h⟩)
      · exact ⟨a, e, (List.singleton_sublist.mpr he).cons_cons a, h⟩
      · exact ⟨d, e, hs.cons a, h⟩
    · rintro ⟨d, e, hs, h⟩
      rcases List.sublist_cons_iff.mp hs with hs | ⟨t, ht, hs⟩
      · exact .inr ⟨d, e, hs, h⟩
      · obtain ⟨rfl, rfl⟩ := List.cons.inj ht
        exact .inl ⟨e, List.singleton_sublist.mp hs, h⟩

theorem Ctx.repBreach_not_repeating (k : Ctx) (w : Bundle) (h : k.inRepeat = none) : k.repBreach w = none := by
  unfold Ctx.repBreach
  rw [h]

/-! The trap of decode -/

/-- The slots of which the lowest is TSLOT (R82). -/
def Ctx.wrongSlots (k : Ctx) (core : Nat) (q : Fetched) : List Nat :=
  slotErrors q.ops ++ clashes q.ops ++ (if finderOnly (bundleY q.word) && !finderCapable core then [0] else []) ++
    (if k.loopRefused q || (k.repBreach q.word).isSome then [0] else [])

theorem Ctx.illegalSlot_eq (k : Ctx) (core : Nat) (q : Fetched) : k.illegalSlot core q = (k.wrongSlots core q).min? := rfl

theorem Ctx.mem_wrongSlots (k : Ctx) (core : Nat) (q : Fetched) (n : Nat) :
    n ∈ k.wrongSlots core q ↔ n ∈ slotErrors q.ops ∨ n ∈ clashes q.ops ∨
      n = 0 ∧ ((finderOnly (bundleY q.word) = true ∧ finderCapable core = false) ∨ k.loopRefused q = true ∨
        k.repBreach q.word ≠ none) := by
  have slot0 (c : Bool) : n ∈ (if c = true then [0] else []) ↔ n = 0 ∧ c = true := by cases c <;> simp
  simp only [Ctx.wrongSlots, List.mem_append, slot0]
  simp only [Bool.and_eq_true, Bool.or_eq_true, Bool.not_eq_true', Option.isSome_iff_ne_none]
  tauto

theorem Ctx.decodeTrap_illegal (k : Ctx) (core : Nat) (q : Fetched) (m : Nat) (hm : m ∈ k.wrongSlots core q)
    (hl : ∀ n ∈ k.wrongSlots core q, m ≤ n) : k.decodeTrap core q = some (0x0A, m, (k.repBreach q.word).getD k.pc) := by
  have h : k.illegalSlot core q = some m := by
    rw [k.illegalSlot_eq]
    exact List.min?_eq_some_iff.mpr ⟨hm, hl⟩
  simp [Ctx.decodeTrap, h]

theorem Ctx.decodeTrap_legal (k : Ctx) (core : Nat) (q : Fetched) (h : ∀ n, n ∉ k.wrongSlots core q) :
    k.decodeTrap core q = if privileged (bundleY q.word) && k.mode = .user then some (0x0B, 0, k.pc) else none := by
  have hi : k.illegalSlot core q = none := by
    rw [k.illegalSlot_eq, List.eq_nil_iff_forall_not_mem.mpr h]
    rfl
  simp [Ctx.decodeTrap, hi]

theorem State.issueDecoded_trap (s : State) (q : Fetched) (cause sl : Nat) (epc : Word) (ho : s.issue.pre.overfillOpen q = false)
    (hd : s.issue.pre.decodeTrap s.issue.core q = some (cause, sl, epc)) :
    s.issueDecoded q = .next (s.closeIssue (s.refuseBundle cause sl epc) q.body) := by
  unfold State.issueDecoded
  simp [ho, hd]

/-! The privileged operations -/

theorem readNeedsSup_iff (n : Nat) : readNeedsSup n = true ↔ n ∈ [0x10, 0x11, 0x12, 0x13, 0x14, 0x15] := by
  simp only [readNeedsSup, Bool.and_eq_true, decide_eq_true_eq, List.mem_cons, List.not_mem_nil, or_false]
  omega

theorem writeNeedsSup_iff (n : Nat) : writeNeedsSup n = true ↔ n ≠ 0x1B := by
  simp [writeNeedsSup]

/-- The supervisor-only operations are those of R81. -/
theorem privileged_iff (i : Instr) :
    privileged i = true ↔ i = .eret ∨ (∃ f, i = .csave f) ∨ (∃ f, i = .cload f) ∨ (∃ f, i = .ctxsw f) ∨
      (∃ f, i = .mfs f ∧ readNeedsSup (selOf f) = true) ∨ ∃ f, i = .mts f ∧ writeNeedsSup (selOf f) = true := by
  unfold privileged
  split <;> simp_all

/-- Settles O57: the wrong slots as a list with its least member, and the privileged operations. -/
theorem illegalBundlesTrap : Obligations.IllegalBundlesTrap := by
  refine ⟨?_, mem_slotErrors, ?_, fun _ => rfl, State.issueDecoded_trap, Ctx.repBreach_not_repeating, ?_⟩
  · intro k core q wrong hw
    have hmem : ∀ n, wrong n ↔ n ∈ k.wrongSlots core q := fun n => (hw n).trans (k.mem_wrongSlots core q n).symm
    simp only [hmem]
    refine ⟨fun m hm hl => k.decodeTrap_illegal core q m hm hl, fun h hu hp => ?_, fun h hp => ?_⟩
    · rw [k.decodeTrap_legal core q h, hu, hp]
      rfl
    · rw [k.decodeTrap_legal core q h]
      rcases hp with hp | hp <;> simp [hp]
  · intro ops n
    rw [mem_clashes]
    constructor
    · rintro ⟨d, e, hs, ⟨r, hd, he⟩, hn⟩
      exact ⟨d, e, r, hs, hd, he, hn⟩
    · rintro ⟨d, e, r, hs, hd, he, hn⟩
      exact ⟨d, e, hs, ⟨r, hd, he⟩, hn⟩
  · intro i
    simp only [privileged_iff, readNeedsSup_iff, writeNeedsSup_iff]
    rfl

end Sys2Proof.Machine
end

section
/-! SUPPORT. O5: hold actions one by one, the forms of the S slot as anchored operations, what a write of x n or p n leaves. -/
namespace Sys2Proof.Machine

/-! Hold actions -/

theorem Ctx.getLatch_setLatch (k : Ctx) (l : Latch) {slot src slot' src' : Nat} (h : src < 3) (h' : src' < 3) :
    (k.setLatch slot src l).getLatch slot' src' = if slot' = slot ∧ src' = src then l else k.getLatch slot' src' := by
  unfold Ctx.getLatch Ctx.setLatch
  by_cases he : slot' = slot ∧ src' = src
  · obtain ⟨rfl, rfl⟩ := he
    simp
  · have hn : 3 * slot' + src' ≠ 3 * slot + src := by omega
    rw [if_neg he]
    exact Sparse.get_set_ne _ _ _ _ _ hn

theorem State.latchOne_getLatch (s : State) (o : Opd) (slot i : Nat) (ho : o.i < 3) (hi : i < 3) :
    (s.latchOne o).cur.getLatch slot i =
      if slot = s.issue.slot ∧ i = o.i then
        if o.h = 1 then s.latchCopy o else if o.h = 3 then .empty else s.cur.getLatch slot i
      else s.cur.getLatch slot i := by
  unfold State.latchOne
  split
  · rw [State.cur_modCur, Ctx.getLatch_setLatch _ _ ho hi]
  · split
    · rw [State.cur_modCur, Ctx.getLatch_setLatch _ _ ho hi]
    · simp

/-! The forms of the S slot -/

/-- A form with its sources and destinations is an anchored operation; `u` is what it leaves when it is active. -/
def AnchoredForm (s : State) (e : Instr × List Opd × List Reg) : Prop := ∃ u, exec e.1 s = s.anchored e.2.1 e.2.2 fun _ => u

theorem scalarForms_anchored (f : SR) (s : State) : ∀ e ∈ scalarForms f, AnchoredForm s e := by
  unfold AnchoredForm State.anchored
  simp only [scalarForms, List.forall_mem_append, List.forall_mem_map, List.forall_mem_cons, List.not_mem_nil,
    false_implies, implies_true, and_true]
  and_intros <;> exact ⟨_, rfl⟩

theorem scalarImmForms_anchored (f : SI) (s : State) : ∀ e ∈ scalarImmForms f, AnchoredForm s e := by
  unfold AnchoredForm State.anchored
  simp only [scalarImmForms, List.forall_mem_append, List.forall_mem_map, List.forall_mem_cons, List.not_mem_nil,
    false_implies, implies_true, and_true]
  and_intros <;> exact ⟨_, rfl⟩

theorem scalarImmForms_unlatched (f : SI) : ∀ e ∈ scalarImmForms f, ∀ o ∈ e.2.1, o.h = 0 := by
  simp [scalarImmForms, opReg, or_imp, forall_and]

theorem Skips.of_unlatched {s : State} {os : List Opd} (ha : s.active = false) (h : ∀ o ∈ os, o.h = 0) : Skips s os := by
  have hn : os.filter (·.h = 1) = [] := by
    rw [List.filter_eq_nil_iff]
    intro o ho
    simp [h o ho]
  refine ⟨ha, fun e _ _ => ?_⟩
  simp [hn, regsOf]

/-- A poisoned source of an active anchored operation raises the poison trap (R111, R260). -/
theorem State.anchored_poisoned (s : State) (os : List Opd) (wr : List Reg) (body : State → State) (h : Poisoned s os wr) :
    s.anchored os wr body = .next (s.raise 0x10 0) := by
  have hw : s.waits (os.flatMap (·.regs)) wr = false := State.waits_false s _ _ h.free h.unread
  obtain ⟨r, hr, hs⟩ := h.source
  obtain ⟨x, hx⟩ := Option.isSome_iff_exists.mp (List.find?_isSome.mpr ⟨r, hr, hs⟩)
  unfold regsOf at hx
  unfold State.anchored
  simp only [h.active, if_true, hw, Bool.not_true, Bool.false_eq_true, if_false, hx]

theorem AnchoredForm.inactive {s : State} {e : Instr × List Opd × List Reg} (he : AnchoredForm s e) (h : Skips s e.2.1) :
    exec e.1 s = .next (s.latchAll e.2.1) := by
  obtain ⟨u, hu⟩ := he
  rw [hu, s.anchored_inactive _ _ _ h]

theorem AnchoredForm.poisoned {s : State} {e : Instr × List Opd × List Reg} (he : AnchoredForm s e)
    (h : Poisoned s e.2.1 e.2.2) : exec e.1 s = .next (s.raise 0x10 0) := by
  obtain ⟨u, hu⟩ := he
  rw [hu, s.anchored_poisoned _ _ _ h]

theorem scalarImmForms_inactive (f : SI) (s : State) (e : Instr × List Opd × List Reg) (he : e ∈ scalarImmForms f)
    (h : s.active = false) : exec e.1 s = .next s := by
  have hl := scalarImmForms_unlatched f e he
  rw [(scalarImmForms_anchored f s e he).inactive (.of_unlatched h hl), s.latchAll_plain _ hl]

/-! Poison marks -/

theorem Ctx.spoilt_setX (k : Ctx) (n m : Nat) (v : Word) (hm : m < 64) :
    (k.setX n v).spoilt (.x m) = (k.spoilt (.x m) && !(m == n && n != 0)) := by
  unfold Ctx.setX
  split
  next h => simp [h]
  next h =>
    have hd : (decide (m < n) || !decide (m - n = 0)) = !(m == n) := by grind
    have hz : (n != 0) = true := by simpa using h
    simp [Ctx.spoilt, hm, hz, hd]

/-- Settles O5: the latches one by one, and every form of the S slot as an anchored operation. -/
theorem holdActionsWritesAndPoison : Obligations.HoldActionsWritesAndPoison :=
  ⟨State.latchOne_getLatch,
   ⟨fun f s e he h => (scalarForms_anchored f s e he).inactive h, scalarImmForms_inactive,
    fun s os => ⟨s.latchAll_rest os, Elsewhere.latchAll s os⟩⟩,
   ⟨fun f s e he h => (scalarForms_anchored f s e he).poisoned h,
    fun f s e he h => (scalarImmForms_anchored f s e he).poisoned h⟩,
   Ctx.getX_setX, Ctx.getP_setP, fun _ => ⟨rfl, rfl⟩, Ctx.setX_rest, Ctx.setP_rest, fun k n m v _ hm => k.spoilt_setX n m v hm⟩

end Sys2Proof.Machine
end

section
/-! SUPPORT. O27 and O28: branches, loops, repeats, and the back-edges at the end of a bundle. -/
namespace Sys2Proof.Machine

/-- A signed displacement counts bundles of 64 bytes (R142). -/
theorem State.label_eq (s : State) (f : SI) : s.label f = s.issue.pre.pc + f.imm.signExtend 64 * 64 := by
  have h (x : Word) : x <<< 6 = x * 64 := by
    apply BitVec.eq_of_toNat_eq
    simp [Nat.shiftLeft_eq]
  exact congrArg (s.issue.pre.pc + ·) (h _)

theorem misaligned_64 (a : Word) : misaligned a 64 = true ↔ a.toNat % 64 ≠ 0 := by simp [misaligned]

theorem State.jump_aligned (t : State) (a : Word) (k : State → State) (h : a.toNat % 64 = 0) : t.jump a k = k (transfers t a) :=
  if_neg (by simp [misaligned_64, h])

theorem State.jump_misaligned (t : State) (a : Word) (k : State → State) (h : a.toNat % 64 ≠ 0) : t.jump a k = t.raise 0x0E a :=
  if_pos ((misaligned_64 a).mpr h)

/-- BRX and RET jump to x[A]. -/
theorem exec_brx_ret (mk : SR → Instr) (hm : mk ∈ [Instr.brx, .ret]) (f : SR) (s : State) :
    exec (mk f) s = s.anchored [opA .x f] [] fun t => t.jump (s.srcX (opA .x f)) id := by
  simp only [List.mem_cons, List.not_mem_nil, or_false] at hm
  rcases hm with rfl | rfl <;> rfl

/-- Settles O27: a displacement counts bundles, and a register target is aligned or traps. -/
theorem branchesAndCalls : Obligations.BranchesAndCalls := by
  refine ⟨fun f s h => ?_, fun f s h => ?_, fun mk hm f s h => ⟨fun ha => ?_, fun ha => ?_⟩, fun f s h ha => ?_⟩
  · show execBr f s = _
    rw [execBr, s.anchored_ready _ _ _ h, s.label_eq f]
    rfl
  · show execCall f s = _
    rw [execCall, s.anchored_ready _ _ _ h, s.label_eq f]
    rfl
  · rw [exec_brx_ret mk hm, s.anchored_ready _ _ _ h, State.jump_aligned _ _ _ ha]
    rfl
  · rw [exec_brx_ret mk hm, s.anchored_ready _ _ _ h, State.jump_misaligned _ _ _ ha]
  · show execCallx f s = _
    rw [execCallx, s.anchored_ready _ _ _ h, State.jump_aligned _ _ _ ha]
    rfl

/-! Loops that open (R84, R86, R144 to R146) -/

theorem State.latchAll_opReg (s : State) (fl : File) (n : Nat) : s.latchAll [opReg fl n] = s :=
  s.latchAll_plain _ (by simp [opReg])

theorem State.pushLoop_room (t : State) (e : LoopEntry) (h : t.issue.pre.loop.length < 6) : t.pushLoop e = pushes t e :=
  if_neg (by omega)

theorem State.pushLoop_full (t : State) (e : LoopEntry) (h : t.issue.pre.loop.length = 6) : t.pushLoop e = t.raise 0x0A 0 :=
  if_pos (by omega)

theorem State.openLoop_zero (t : State) (len : Nat) :
    t.openLoop 0 len = transfers t (t.issue.pre.pc + BitVec.ofNat 64 (64 * (len + 1))) := rfl

theorem State.openLoop_nonzero (t : State) (count : BitVec 32) (len : Nat) (h : count ≠ 0) :
    t.openLoop count len = t.pushLoop ⟨false, bundleOf t.issue.pre.pc + 1,
      bundleOf t.issue.pre.pc + 1 + BitVec.ofNat 58 (len - 1), count, 0⟩ := if_neg h

/-- The count in the immediate of LOOPI and REP (R143, R146). -/
theorem SI.count_eq (f : SI) : BitVec.ofNat 32 (f.u / 65536) = (f.imm.extractLsb' 16 16).setWidth 32 := by
  apply BitVec.eq_of_toNat_eq
  have := f.imm.isLt
  simp [SI.u, Nat.shiftRight_eq_div_pow]
  omega

/-- LOOP and LOOPI open a loop with the count of x[A] or of the immediate. -/
theorem exec_loop_loopi (f : SI) (s : State) (i : Instr) (count : BitVec 32)
    (h : (i = .loop f ∧ Ready s [opReg .x f.a.toNat] [] ∧ count = (s.issue.pre.getX f.a.toNat).setWidth 32) ∨
      (i = .loopi f ∧ Ready s [] [] ∧ count = (f.imm.extractLsb' 16 16).setWidth 32)) :
    exec i s = .next (s.openLoop count (f.imm.extractLsb' 0 16).toNat) := by
  have hlen : (f.imm.extractLsb' 0 16).toNat = f.u % 65536 := by simp [SI.u]
  rw [hlen]
  rcases h with ⟨rfl, hr, rfl⟩ | ⟨rfl, hr, rfl⟩
  · show execLoop f s = _
    rw [execLoop, s.anchored_ready _ _ _ hr, s.latchAll_opReg]
    rfl
  · show execLoopi f s = _
    rw [execLoopi, s.anchored_ready _ _ _ hr, SI.count_eq f]
    rfl

theorem exec_rep_under_way (f : SI) (s : State) (h : s.issue.pre.repeating s.issue.pre.pc = true) : exec (.rep f) s = .next s :=
  if_pos h

theorem exec_rep_start (f : SI) (s : State) (hr : Ready s [opReg .x f.d.toNat, opReg .x f.a.toNat] [])
    (h : s.issue.pre.repeating s.issue.pre.pc = false) (hf : finderCapable s.issue.core = true) :
    exec (.rep f) s = .next (s.pushLoop ⟨true, bundleOf s.issue.pre.pc, bundleOf s.issue.pre.pc + BitVec.ofNat 58 (repBody f - 1),
      BitVec.ofNat 32 (f.u / 65536), 0⟩) := by
  have hl : s.latchAll [opReg .x f.d.toNat, opReg .x f.a.toNat] = s := s.latchAll_plain _ (by simp [opReg])
  have hn : ¬s.issue.pre.repeating s.here = true := by simp [State.here, h]
  show execRep f s = _
  unfold execRep
  rw [if_neg hn, s.anchored_ready _ _ _ hr, hl]
  simp [hf, State.here]

/-! Back-edges (R84, R85, R87) -/

theorem Ctx.advance_transfer (k : Ctx) (i : Issue) (a : Word) (hn : i.npc = some a) : (k.advance i []).1.pc = a := by
  simp [Ctx.advance, hn]

/-- Without a transfer and without a new entry, the back-edges of the loop stack give the next PC and the stack. -/
theorem Ctx.advance_backEdges (k : Ctx) (i : Issue) (hn : i.npc = none) (hp : i.push = none) :
    (k.advance i []).1.pc = (Ctx.backEdges (bundleOf i.pre.pc) (k.loopBuf ++ i.pre.loopBuf) k.loop k (i.pre.pc + 64) false).2.1 ∧
    (k.advance i []).1.loop = (Ctx.backEdges (bundleOf i.pre.pc) (k.loopBuf ++ i.pre.loopBuf) k.loop k (i.pre.pc + 64) false).1.loop := by
  simp [Ctx.advance, Ctx.pushed, hn, hp]

/-- The innermost entry does not end here: the stack stays. -/
theorem Ctx.backEdges_elsewhere (here : BitVec 58) (buf : List (Word × Bundle)) (l : List LoopEntry) (k : Ctx) (pc : Word) (hit : Bool)
    (h : ∀ e ∈ l.head?, e.last ≠ here) : Ctx.backEdges here buf l k pc hit = ({ k with loop := l }, pc, hit) := by
  cases l with
  | nil => rfl
  | cons e r => simp [Ctx.backEdges, h e rfl]

/-- The innermost entry ends here and its count lasts: it goes back. -/
theorem Ctx.backEdges_again (buf : List (Word × Bundle)) (e : LoopEntry) (r : List LoopEntry) (k : Ctx) (pc : Word) (hit : Bool)
    (he : e.repf = false) (h : e.rem ≠ 1) :
    Ctx.backEdges e.last buf (e :: r) k pc hit =
      ({ k with loop := { e with rem := e.rem - 1, idx := e.idx + 1 } :: r }, bundleVA e.start, true) := by
  have hz : ¬e.rem - 1 = 0 := fun hz => h (by bv_omega)
  unfold Ctx.backEdges
  rw [if_neg (by simp), if_neg hz]
  simp [he]

/-- The innermost entry ends here with its count: the next outer one is looked at. -/
theorem Ctx.backEdges_over (buf : List (Word × Bundle)) (e : LoopEntry) (r : List LoopEntry) (k : Ctx) (pc : Word) (hit : Bool)
    (he : e.repf = false) (h : e.rem = 1) :
    Ctx.backEdges e.last buf (e :: r) k pc hit = Ctx.backEdges e.last buf r k (bundleVA (e.last + 1)) true := by
  simp [Ctx.backEdges, he, h]

/-- Settles O28: what opens or leaves a loop, then the back-edges by the innermost entry. -/
theorem loopsRepeatsAndBackEdges : Obligations.LoopsRepeatsAndBackEdges := by
  refine ⟨⟨?_, ?_, ?_, ?_, exec_rep_under_way⟩, fun k i a hn _ => k.advance_transfer i a hn, ?_, ?_, ?_, ?_⟩
  · intro f s i count len hlen h
    rw [hlen, exec_loop_loopi f s i count h]
    refine ⟨fun hc => ?_, fun hc hl => ?_, fun hc hl => ?_⟩
    · rw [hc, s.openLoop_zero]
    · rw [s.openLoop_nonzero _ _ hc, s.pushLoop_room _ hl]
    · rw [s.openLoop_nonzero _ _ hc, s.pushLoop_full _ hl]
  · intro f s n e hn h he
    subst hn
    show execLbrk f s = _
    rw [execLbrk, s.anchored_ready _ _ _ h]
    simp only [he]
    rfl
  · intro f s h
    refine runs_of_anchored _ s [] _ _ ?_ h
    show execLidx f s = _
    unfold execLidx
    dsimp only
    congr 1
    funext t
    unfold State.putX
    cases s.issue.pre.loop[f.fn9.toNat % 8]? with
    | none => rfl
    | some e => cases f.fn9.getLsbD 3 <;> rfl
  · intro f s hr h hf hl
    rw [exec_rep_start f s hr h hf, s.pushLoop_room _ hl]
    have hb : repBody f - 1 = (f.imm.extractLsb' 12 4).toNat := by
      simp [repBody, SI.u, Nat.shiftRight_eq_div_pow]
    rw [SI.count_eq f, hb]
  · intro k i hn hp h
    obtain ⟨hpc, hloop⟩ := k.advance_backEdges i hn hp
    rw [hpc, hloop, Ctx.backEdges_elsewhere _ _ _ _ _ _ h]
    exact ⟨rfl, rfl⟩
  · intro k i e r hn hp hk he hlast hrem
    obtain ⟨hpc, hloop⟩ := k.advance_backEdges i hn hp
    rw [hpc, hloop, hk, ← hlast, Ctx.backEdges_again _ _ _ _ _ _ he hrem]
    exact ⟨rfl, rfl⟩
  · intro k i e r hn hp hk he hlast hrem ho
    obtain ⟨hpc, hloop⟩ := k.advance_backEdges i hn hp
    rw [hpc, hloop, hk, ← hlast, Ctx.backEdges_over _ _ _ _ _ _ he hrem, Ctx.backEdges_elsewhere _ _ _ _ _ _ ho]
    exact ⟨rfl, rfl⟩
  · intro k i e o r hn hp hk he ho hlast hol hrem hor
    obtain ⟨hpc, hloop⟩ := k.advance_backEdges i hn hp
    rw [hpc, hloop, hk, ← hlast, Ctx.backEdges_over _ _ _ _ _ _ he hrem, ← hol, Ctx.backEdges_again _ _ _ _ _ _ ho hor]
    exact ⟨rfl, rfl⟩

end Sys2Proof.Machine
end

section
/-! SUPPORT. O33 and O35: TRAP, SVC, ERET, MFS and MTS, and what user mode may not do. -/
namespace Sys2Proof.Machine

/-! Traps and returns (R83, R162, R163) -/

theorem State.supervised_user (s : State) (o : Out) (h : s.issue.pre.mode = .user) : s.supervised o = .next (s.raise 0x0B 0) :=
  if_pos h

theorem State.supervised_supervisor (s : State) (o : Out) (h : s.issue.pre.mode = .supervisor) : s.supervised o = o :=
  if_neg (by simp [h])

/-- An inactive operation without sources leaves the state. -/
theorem State.anchored_inactive_plain (s : State) (wr : List Reg) (body : State → State) (h : s.active = false) :
    s.anchored [] wr body = .next s :=
  s.anchored_inactive [] wr body (.of_unlatched h (by simp))

theorem exec_trap (f : SI) (s : State) : exec (.trap f) s = s.anchored [] [] fun t => t.raise 0x13 0 f.imm := rfl

theorem exec_svc (f : SI) (s : State) : exec (.svc f) s = s.anchored [] [] fun t => t.raise 0x14 0 f.imm := rfl

theorem exec_eret_supervisor (s : State) (h : Ready s [] []) (hm : s.issue.pre.mode = .supervisor) :
    exec .eret s = .next (if s.issue.pre.nores then s.raise 0x0B 0 else (transfers s s.issue.pre.epc).modCur Ctx.returned) := by
  show execEret s = _
  rw [execEret, s.supervised_supervisor _ hm, s.anchored_ready _ _ _ h]
  rfl

/-- Settles O33: ready, inactive, and in user mode. -/
theorem trapInstructionsAndReturn : Obligations.TrapInstructionsAndReturn := by
  refine ⟨fun f s h => ?_, fun f s h => ?_, ?_, ?_, ?_, ?_⟩
  · rw [exec_trap, exec_svc]
    exact ⟨s.anchored_ready _ _ _ h, s.anchored_ready _ _ _ h⟩
  · rw [exec_trap, exec_svc]
    exact ⟨s.anchored_inactive_plain _ _ h, s.anchored_inactive_plain _ _ h⟩
  · intro s h hm hn
    rw [exec_eret_supervisor s h hm, hn]
    rfl
  · exact fun k => ⟨rfl, rfl, rfl, fun d hd => by simp [Ctx.returned, hd], rfl, rfl⟩
  · intro s h hm hn
    rw [exec_eret_supervisor s h hm, hn]
    rfl
  · intro s i hu hi
    rcases hi with rfl | ⟨f, rfl | rfl | rfl⟩ <;> exact s.supervised_user _ hu

/-! System registers (R113, R164) -/

theorem sysRegs_sysReg (s : State) : ∀ e ∈ sysRegs s, s.sysReg e.1 = e.2 := by
  simp only [sysRegs, List.forall_mem_cons, List.not_mem_nil, false_implies, implies_true, and_true]
  and_intros <;> rfl

theorem bits_low (v : Word) (w : Nat) : bits v 0 w = v.toNat % 2 ^ w := by simp [bits]

/-- A field without its low n bits (R113, R388). -/
theorem shiftRight_shiftLeft_eq_and (v : Word) (n : Nat) : v >>> n <<< n = v &&& BitVec.allOnes 64 <<< n := by
  refine BitVec.eq_of_getLsbD_eq fun i hi => ?_
  by_cases h : i < n
  · simp [h]
  · have hs : n + (i - n) = i := by omega
    simp [h, hi, hs, -BitVec.reduceAllOnes]

/-- The masks of TVEC and EPC stand for two shifts, and a field at bit 0 for a remainder. -/
theorem sysWrites_setSysReg (s : State) (v : Word) : ∀ e ∈ sysWrites s v, s.setSysReg e.1 v = e.2 := by
  simp only [sysWrites, List.forall_mem_cons, List.not_mem_nil, false_implies, implies_true, and_true]
  refine ⟨rfl, rfl, rfl, ?prio, rfl, ?tvec, rfl, rfl, ?tslot, ?epc, rfl, rfl, rfl, rfl⟩
  case prio => exact congrArg (fun n => s.modCur fun k => { k with prio := n }) (bits_low v 2)
  case tvec => exact congrArg (fun a => s.modCore s.issue.core fun k => { k with tvec := a }) (shiftRight_shiftLeft_eq_and v 12)
  case tslot => exact congrArg (fun n => s.modCur fun k => { k with tslot := n }) (bits_low v 3)
  case epc => exact congrArg (fun a => s.modCur fun k => { k with epc := a }) (shiftRight_shiftLeft_eq_and v 6)

theorem State.findRefused_of_capable (s : State) (sel : Nat) (h : sel = 0x1B → finderCapable s.issue.core = true) :
    s.findRefused sel = false := by
  by_cases hs : sel = 0x1B <;> simp [State.findRefused, hs, h]

/-- In user mode a register that needs supervisor mode is not read. -/
theorem exec_mfs_refused (f : SI) (s : State) (hf : s.findRefused (selOf f) = false) (hn : readNeedsSup (selOf f) = true)
    (hu : s.issue.pre.mode = .user) : exec (.mfs f) s = .next (s.raise 0x0B 0) := by
  show execMfs f s = _
  simp [execMfs, hf, hn, hu]

theorem exec_mts_refused (f : SI) (s : State) (hf : s.findRefused (selOf f) = false) (hn : writeNeedsSup (selOf f) = true)
    (hu : s.issue.pre.mode = .user) : exec (.mts f) s = .next (s.raise 0x0B 0) := by
  show execMts f s = _
  simp [execMts, hf, hn, hu]

theorem exec_mfs_allowed (f : SI) (s : State) (hf : s.findRefused (selOf f) = false)
    (hn : readNeedsSup (selOf f) = true → s.issue.pre.mode = .supervisor) :
    exec (.mfs f) s = s.anchored [] [.x f.d.toNat] fun t => t.putX f.d.toNat (s.sysReg (selOf f)) := by
  have ha : ¬(readNeedsSup (selOf f) = true ∧ s.issue.pre.mode = .user) := fun h => by simp [hn h.1] at h
  show execMfs f s = _
  simp [execMfs, hf, ha]

theorem exec_mts_allowed (f : SI) (s : State) (hf : s.findRefused (selOf f) = false)
    (hn : writeNeedsSup (selOf f) = true → s.issue.pre.mode = .supervisor) :
    exec (.mts f) s = s.anchored [opReg .x f.a.toNat] [] fun t => t.setSysReg (selOf f) (s.issue.pre.getX f.a.toNat) := by
  have ha : ¬(writeNeedsSup (selOf f) = true ∧ s.issue.pre.mode = .user) := fun h => by simp [hn h.1] at h
  show execMts f s = _
  simp only [execMts, hf, Bool.false_eq_true, if_false, Bool.and_eq_true, decide_eq_true_eq, ha]
  rfl

/-- Settles O35: the two tables agree with the model by selector, and the two checks of the mode. -/
theorem systemRegisterMoves : Obligations.SystemRegisterMoves := by
  refine ⟨?_, ?_, ?_, ?_⟩
  · intro f s sel v hv hsel h hm hf
    subst hsel
    have hn : readNeedsSup (selOf f) = true → s.issue.pre.mode = .supervisor := fun hn => by
      simp only [readNeedsSup, Bool.and_eq_true, decide_eq_true_eq] at hn
      exact hm hn.1 hn.2
    refine runs_of_anchored _ s [] _ _ ?_ h
    have hreg : s.sysReg (selOf f) = v := sysRegs_sysReg s _ hv
    rw [exec_mfs_allowed f s (s.findRefused_of_capable _ hf) hn, hreg]
    rfl
  · intro f s t sel ht hsel h hm hf
    subst hsel
    have hn : writeNeedsSup (selOf f) = true → s.issue.pre.mode = .supervisor := fun hn =>
      hm ((writeNeedsSup_iff _).mp hn)
    rw [exec_mts_allowed f s (s.findRefused_of_capable _ hf) hn, s.anchored_ready _ _ _ h, s.latchAll_opReg]
    exact congrArg _ (sysWrites_setSysReg s _ _ ht)
  · intro f s hs hu
    have hn : readNeedsSup (selOf f) = true := (readNeedsSup_iff _).mpr hs
    have hne : selOf f ≠ 0x1B := fun he => by simp [he, readNeedsSup] at hn
    exact exec_mfs_refused f s (s.findRefused_of_capable _ fun he => absurd he hne) hn hu
  · intro f s hs hu
    exact exec_mts_refused f s (s.findRefused_of_capable _ fun he => absurd he hs) ((writeNeedsSup_iff _).mpr hs) hu

end Sys2Proof.Machine
end

section
/-! SUPPORT. Maps merged: no key in common means that each key reads as in the map that may list it. -/
namespace Sys2Proof

section
variable {α : Type} (d : α) {j : Nat}

theorem Sparse.get_cons (e : Nat × α) (m : Sparse α) : Sparse.get d (e :: m) j = if e.1 = j then e.2 else Sparse.get d m j := rfl

/-- A list of entries cut in two reads as it did. -/
theorem Sparse.get_takeWhile_append (p : Nat × α → Bool) (m : Sparse α) :
    Sparse.get d (m.takeWhile p ++ m.dropWhile p) j = Sparse.get d m j := by
  rw [List.takeWhile_append_dropWhile]

theorem Sparse.get_merge_right (xs ys : Sparse α) (h : ∀ e ∈ xs, e.1 ≠ j) :
    Sparse.get d (Sparse.merge xs ys) j = Sparse.get d ys j := by
  induction xs generalizing ys with
  | nil => rfl
  | cons x xs ih =>
    rw [Sparse.merge, Sparse.get_append, Sparse.get_cons, if_neg (h x (by simp)), ih _ fun e he => h e (by simp [he]),
      ← Sparse.get_append, Sparse.get_takeWhile_append]

theorem Sparse.get_merge_left (xs ys : Sparse α) (h : ∀ e ∈ ys, e.1 ≠ j) :
    Sparse.get d (Sparse.merge xs ys) j = Sparse.get d xs j := by
  induction xs generalizing ys with
  | nil => exact Sparse.get_eq_of_lt d ys j h
  | cons x xs ih =>
    have ht : ¬∃ e ∈ ys.takeWhile (·.1 < x.1), e.1 = j := fun ⟨e, he, hj⟩ => h e (List.takeWhile_subset _ he) hj
    rw [Sparse.merge, Sparse.get_append, if_neg ht, Sparse.get_cons, Sparse.get_cons,
      ih _ fun e he => h e (List.dropWhile_subset _ he)]

/-- The entries of two maps, those of the first whose keys satisfy a test and those of the second whose keys do not. -/
theorem Sparse.get_merge_filter (m n : Sparse α) (p : Nat → Bool) :
    Sparse.get d (Sparse.merge (m.filter fun e => p e.1) (n.filter fun e => !p e.1)) j =
      if p j then Sparse.get d m j else Sparse.get d n j := by
  cases hp : p j with
  | true =>
    rw [Sparse.get_merge_left d _ _ fun e he hj => by simp [List.mem_filter, hj, hp] at he, Sparse.get_filter d m p j hp]
    rfl
  | false =>
    rw [Sparse.get_merge_right d _ _ fun e he hj => by simp [List.mem_filter, hj, hp] at he,
      Sparse.get_filter d n (fun k => !p k) j (by simp [hp])]
    rfl

end

end Sys2Proof
end

section
/-! SUPPORT. O31: handle tests, a wait on an address, fences and drains, slip waits, quiet detection, rings. -/
namespace Sys2Proof.Machine

/-! Handles (R153) -/

/-- What WHWAIT does on a handle in a state. -/
def State.waitHandle (t : State) (h : Nat) : HState → State
  | .free => t.raise 0x11 (word h)
  | .error => t.raise 0x11 (word h)
  | .pending => t.parkFor (.handle h)
  | .ready => t

theorem exec_whwait (f : SR) (s : State) (h : Ready s [opA .x f] []) :
    exec (.whwait f) s = .next ((s.latchAll [opA .x f]).waitHandle ((s.srcX (opA .x f)).toNat % 4096)
      (s.handleState s.issue.pre.job ((s.srcX (opA .x f)).toNat % 4096))) := by
  show execWhwait f s = _
  simp only [execWhwait, State.handleOf]
  refine (s.anchored_ready _ _ _ h).trans ?_
  cases s.handleState s.issue.pre.job ((s.srcX (opA .x f)).toNat % 4096) <;> rfl

theorem exec_whtest (f : SR) (s : State) :
    exec (.whtest f) s = s.anchored [opA .x f] [.x f.d.toNat] fun t => t.modCur fun k => k.setX f.d.toNat
      (match s.handleState s.issue.pre.job ((s.srcX (opA .x f)).toNat % 4096) with
      | .free => 0 | .pending => 1 | .ready => 2 | .error => 3) := by
  show execWhtest f s = _
  unfold execWhtest State.putX State.handleOf
  dsimp only
  cases s.handleState s.issue.pre.job ((s.srcX (opA .x f)).toNat % 4096) <;> rfl

/-! Waiting on an address (R157) -/

/-- WAITA finds the eight bytes at x[A] and reads them unmarked: `parts` are their keys, `t` is the state after their translation. -/
structure ReadsWord (s : State) (f : SR) (parts : List (Nat × Nat)) (t : State) : Prop where
  ready : Ready s [opA .x f, opB .x f, opC .x f] [.x f.d.toNat]
  aligned : (s.srcX (opA .x f)).toNat % 8 = 0
  found : (s.latchAll [opA .x f, opB .x f, opC .x f]).resolveIn {} (pieces (s.srcX (opA .x f)) 8) = (.ok parts, t)
  noWait : t.readWaits parts = false
  clean : t.badRead parts = false

/-- The word read is the one waited for, or differs from it, as EQ says. -/
def waitaMet (f : SR) (s : State) (v : Word) : Prop := f.fn9.getLsbD 0 = true ↔ v = s.srcX (opB .x f)

theorem decide_eq_iff_waitaMet (f : SR) (s : State) (v : Word) :
    decide (v = s.srcX (opB .x f)) = f.fn9.getLsbD 0 ↔ waitaMet f s v := by
  rw [Bool.eq_iff_iff, decide_eq_true_eq]
  exact Iff.comm

section
variable {s t : State} {f : SR} {parts : List (Nat × Nat)} (h : ReadsWord s f parts t)
include h

theorem ReadsWord.exec_waita_ends
    (hm : waitaMet f s (word (ofLeBytes (t.bytesRead parts))) ∨ s.issue.pre.expired = true) :
    exec (.waita f) s = .next ((t.afterRead parts).modCur fun k => k.setX f.d.toNat (word (ofLeBytes (t.bytesRead parts)))) := by
  have hal : misaligned (s.srcX (opA .x f)) 8 = false := by simp [misaligned, h.aligned]
  rw [← decide_eq_iff_waitaMet] at hm
  show execWaita f s = _
  rw [execWaita, s.anchored_ready _ _ _ h.ready]
  simp only [hal, State.access, h.found, h.noWait, h.clean, Bool.and_false, Bool.false_or, Bool.or_eq_true, decide_eq_true_eq, hm,
    State.putRead, Bool.false_eq_true, if_false, if_true]

theorem ReadsWord.exec_waita_waits (hm : ¬waitaMet f s (word (ofLeBytes (t.bytesRead parts)))) (hx : s.issue.pre.expired = false) :
    exec (.waita f) s = .next ((t.holdFor (some (.word (parts.headD (0, 0)).1 (f.fn9.getLsbD 0) (s.srcX (opB .x f))))).modCur
      fun k => { k with timeout := (s.srcX (opC .x f)).toNat }) := by
  have hal : misaligned (s.srcX (opA .x f)) 8 = false := by simp [misaligned, h.aligned]
  rw [← decide_eq_iff_waitaMet] at hm
  show execWaita f s = _
  rw [execWaita, s.anchored_ready _ _ _ h.ready]
  simp only [hal, State.access, h.found, h.noWait, h.clean, Bool.and_false, Bool.false_or, Bool.or_eq_true, decide_eq_true_eq, hm,
    hx, Bool.false_eq_true, or_self, if_false]

end

/-! Fences and drains (R92, R159, R352) -/

theorem exec_fence (f : SR) (s : State) (h : Ready s [] []) :
    exec (.fence f) s = .next (if s.imagesOut then s.holdFor none
      else s.afterStores (s.orderedOut s.issue.core s.issue.bank) (·.refetch (f.fn9.toNat % 8))) := by
  show execFence f s = _
  rw [execFence, s.anchored_ready _ _ _ h]
  rfl

theorem exec_drain (f : SR) (s : State) (h : Ready s [] []) :
    exec (.drain f) s = .next (if s.copiesOut || s.imagesOut || s.reductionsOut s.issue.core s.issue.bank then s.holdFor none
      else s.afterStores false (·.refetch (f.fn9.toNat % 8))) := by
  show execDrain f s = _
  rw [execDrain, s.anchored_ready _ _ _ h]
  rfl

theorem State.afterStores_unstuck (t : State) (k : State → State) (h : t.storesStuck t.issue.core t.issue.bank = false) :
    t.afterStores false k = k (t.flush t.issue.core t.issue.bank) := by
  simp [State.afterStores, h]

theorem State.refetch_code (t : State) (scope : Nat) :
    ((t.refetch scope).core t.issue.core).b0.code = t.seenCode t.issue.core scope (t.core t.issue.core).b0.code ∧
    ((t.refetch scope).core t.issue.core).b1.code = t.seenCode t.issue.core scope (t.core t.issue.core).b1.code := by
  unfold State.refetch
  rw [State.core_modCore_self]
  exact ⟨rfl, rfl⟩

theorem State.seenCode_package (t : State) (c scope : Nat) (code : Sparse Byte) (h : 4 ≤ scope) : t.seenCode c scope code = t.mem :=
  if_pos h

theorem State.get_seenCode (t : State) (c scope key : Nat) (code : Sparse Byte) (h : scope < 4) :
    Sparse.get 0 (t.seenCode c scope code) key =
      if inScope c scope (t.origin.get 0 key) then Sparse.get 0 t.mem key else Sparse.get 0 code key := by
  unfold State.seenCode
  rw [if_neg (by omega)]
  exact Sparse.get_merge_filter 0 t.mem code fun key => inScope c scope (t.origin.get 0 key)

/-! Slip waits and quiet detection (R159, R160) -/

theorem exec_slipw (s : State) (h : Ready s [] []) :
    exec .slipw s = .next (if s.issue.pre.queue.isEmpty then s else s.holdFor none) := by
  show execSlipw s = _
  rw [execSlipw, s.anchored_ready _ _ _ h]
  rfl

theorem exec_quiet (s : State) (h : Ready s [] []) :
    exec .quiet s = .next (match s.issue.pre.since with
      | some w => if (s.job s.issue.pre.job).quietSince w then s else s.holdFor (some .quiet)
      | none => s.holdFor (some .quiet)) := by
  show execQuiet s = _
  rw [execQuiet, s.anchored_ready _ _ _ h]
  rfl

/-! Rings (R106, R161) -/

theorem SI.ring_eq (f : SI) : f.u % 8 = (f.imm.extractLsb' 0 3).toNat := by simp [SI.u]

theorem SI.advance_eq (f : SI) : f.u / 65536 % 64 = (f.imm.extractLsb' 16 6).toNat := by
  simp [SI.u, Nat.shiftRight_eq_div_pow]

theorem SI.first_eq (f : SI) : f.u / 256 % 32 = (f.imm.extractLsb' 8 5).toNat := by
  simp [SI.u, Nat.shiftRight_eq_div_pow]

theorem exec_qinit (f : SI) (s : State) (h : Ready s [] [])
    (he : (s.issue.pre.getRing (f.u % 8)).fill = (s.issue.pre.getRing (f.u % 8)).rsv) :
    Runs (.qinit f) s [] fun k => k.setRing (f.u % 8) ⟨f.u / 256 % 32, f.u / 65536 % 64, 0, 0, 0⟩ := by
  refine runs_of_anchored _ s [] [] _ ?_ h
  show execQinit f s = _
  simp [execQinit, he]

theorem exec_qadvh (f : SI) (s : State) (r : Ring) (h : Ready s [] []) (hr : r = s.issue.pre.getRing (f.u % 8)) (hl : r.len ≠ 0)
    (hn : f.u / 65536 % 64 ≤ r.len) (hv : f.u / 65536 % 64 ≤ r.rsv) (hf : f.u / 65536 % 64 ≤ r.fill) :
    Runs (.qadvh f) s [] fun k => k.setRing (f.u % 8)
      { r with head := (r.head + f.u / 65536 % 64) % r.len, fill := r.fill - f.u / 65536 % 64, rsv := r.rsv - f.u / 65536 % 64 } := by
  refine runs_of_anchored _ s [] [] _ ?_ h
  subst hr
  show execQadvh f s = _
  simp [execQadvh, hl, Nat.not_lt.mpr hn, Nat.not_lt.mpr hv, Nat.not_lt.mpr hf]

theorem exec_qadvt (f : SI) (s : State) (r : Ring) (h : Ready s [] []) (hr : r = s.issue.pre.getRing (f.u % 8)) (hl : r.len ≠ 0)
    (hn : f.u / 65536 % 64 ≤ r.len) (hv : r.rsv + f.u / 65536 % 64 ≤ r.len) (hf : r.fill = r.rsv) :
    Runs (.qadvt f) s [] fun k => k.setRing (f.u % 8)
      { r with fill := r.fill + f.u / 65536 % 64, rsv := r.rsv + f.u / 65536 % 64 } := by
  refine runs_of_anchored _ s [] [] _ ?_ h
  subst hr
  show execQadvt f s = _
  simp [execQadvt, hl, Nat.not_lt.mpr hn, Nat.not_lt.mpr hv, hf]

/-- Settles O31: one lemma for each operation; a fence shows memory by a merge of two maps. -/
theorem waitsFencesAndRings : Obligations.WaitsFencesAndRings := by
  refine ⟨?_, ?_, ?_, ?_, ?_, ?_, ?_, ?_, ?_, ?_, ?_⟩
  · rintro f s _ h rfl
    rw [exec_whwait f s h]
    refine ⟨fun hst => by rw [hst]; rfl, fun hst => by rw [hst]; rfl, ?_⟩
    rintro (hst | hst) <;> rw [hst] <;> rfl
  · intro f s h
    exact runs_of_anchored _ s _ _ _ (exec_whtest f s) h
  · rintro f s t parts _ h hal hres hwait rfl hbad
    have hr : ReadsWord s f parts t := ⟨h, hal, hres, hwait, hbad⟩
    exact ⟨hr.exec_waita_ends, fun hm hx => ⟨_, hr.exec_waita_waits hm hx, rfl⟩⟩
  · rintro f s _ h hst himg rfl
    refine ⟨fun ho => ?_, fun hcp hrd => ?_, fun hs => ?_, fun hs key => ?_⟩
    · rw [exec_fence f s h, himg, ho, s.afterStores_unstuck _ hst]
      rfl
    · rw [exec_drain f s h, hcp, himg, hrd, s.afterStores_unstuck _ hst]
      rfl
    · obtain ⟨h0, h1⟩ := (s.flush s.issue.core s.issue.bank).refetch_code (f.fn9.toNat % 8)
      rw [h0, h1, State.seenCode_package _ _ _ _ hs, State.seenCode_package _ _ _ _ hs]
      exact ⟨rfl, rfl⟩
    · rw [(State.refetch_code _ _).1, State.get_seenCode _ _ _ _ _ hs]
  · intro f s h himg
    rw [exec_fence f s h, exec_drain f s h, himg]
    simp
  · intro s h
    rw [exec_slipw s h]
    exact ⟨fun hq => by simp [hq], fun hq => by simp [hq]⟩
  · intro s h
    rw [exec_quiet s h]
    exact ⟨fun w hw hq => by simp [hw, hq], fun hn => by simp [hn]⟩
  · exact fun f s h => runs_of_anchored _ s _ _ _ rfl h
  · rintro f s _ h rfl he
    rw [← SI.ring_eq] at he
    simpa only [SI.ring_eq, SI.advance_eq, SI.first_eq] using exec_qinit f s h he
  · rintro f s _ _ r h rfl rfl hr hl hn hv hf
    rw [← SI.ring_eq] at hr
    rw [← SI.advance_eq] at hn hv hf
    simpa only [SI.ring_eq, SI.advance_eq] using exec_qadvh f s r h hr hl hn hv hf
  · rintro f s _ _ r h rfl rfl hr hl hn hv hf
    rw [← SI.ring_eq] at hr
    rw [← SI.advance_eq] at hn hv
    simpa only [SI.ring_eq, SI.advance_eq] using exec_qadvt f s r h hr hl hn hv hf

end Sys2Proof.Machine
end

section
/-! SUPPORT. O13: an operation of a slot that slips stops at a check, and its bundle does nothing. -/
namespace Sys2Proof.Machine

/-- No operation of the same bundle has yet to take the value of a register that the operation writes. -/
theorem AtHand.unwanted_own {s : State} {os : List Opd} {wr : List Reg} (h : AtHand s os wr) :
    (s.cur.queue.any fun e => e.bundle = s.issue.pre.bundle && e.wantsAny wr) = false := by
  rw [List.any_eq_false]
  intro q hq
  simp [h.unwanted q (List.mem_append_right _ hq)]

/-- A ready operation whose check stops the bundle leaves what the check leaves, as its bundle issues or as it leaves its queue
(R109, R111). -/
theorem State.slipped_stops (s bad : State) (os : List Opd) (wr : List Reg) (body : State → State) (h : ReadySlip s os wr)
    (hb : ∀ t, body t = bad) (hv : bad.issue.verdict ≠ .commit) : s.slipped true os wr body = .next bad := by
  rcases h.at_ with hl | ha
  · rw [State.slipped_late s os wr body h hl, hb]
  · unfold State.slipped
    simp only [ha.first, Option.isSome_none, Bool.false_eq_true, if_false, ha.decided, ha.unwanted_own, Bool.or_false, Bool.and_false,
      h.unspoilt, if_true, hb, ne_eq, hv, not_false_eq_true]

theorem State.raise_stops (s : State) (cause : Nat) (addr : Word) (detail : BitVec 32) (bte : Word) :
    (s.raise cause addr detail bte).issue.verdict ≠ .commit := Verdict.noConfusion

/-- A lane operation of two sources whose check fails leaves what the check leaves. -/
theorem State.v2_stops (s bad : State) (f : SR) (ok : Fmt → Bool) (op : Fmt → Nat → Nat → Nat)
    (h : ReadySlip s [opA .v f, opB .v f] [.v f.d.toNat]) (hb : s.badTag (opA .v f) (fmtOf f) ok = some bad)
    (hv : bad.issue.verdict ≠ .commit) : s.v2 f ok op = .next bad := by
  have hc : s.badTags [opA .v f, opB .v f] (fmtOf f) ok = some bad := by simp [State.badTags, hb]
  unfold State.v2 State.vOp
  simp only [hc]
  exact s.slipped_stops bad _ _ _ h (fun _ => rfl) hv

/-- The lane operations of two sources that the obligation names. -/
theorem exec_lanePair (v : VSlot) (f : SR) (s : State) (mk : VSlot → SR → Instr)
    (hm : mk ∈ [Instr.vadd, .vsub, .vmul, .vmin, .vmax, .vand, .vor, .vxor, .vshl, .vshr, .vsar]) :
    ∃ ok op, exec (mk v f) s = s.v2 f ok op := by
  simp only [List.mem_cons, List.not_mem_nil, or_false] at hm
  rcases hm with rfl | rfl | rfl | rfl | rfl | rfl | rfl | rfl | rfl | rfl | rfl <;> exact ⟨_, _, by unfold exec; rfl⟩

/-- Settles O13: the first source's check stops the operation, whatever class of tags it accepts. -/
theorem tagFaultsOfLaneOperations : Obligations.TagFaultsOfLaneOperations := by
  rintro v f s _ q mk hm h rfl
  obtain ⟨ok, op, he⟩ := exec_lanePair v f s mk hm
  rw [he]
  refine ⟨fun hp hq hr hne => ?_, fun hp => ?_⟩
  · have hf : fmtOf f = q := by rw [fmtOf, hq, Option.getD_some]
    refine s.v2_stops _ f ok op h ?_ (s.raise_stops _ _ _ _)
    simp [State.badTag, hp, hf, hr, hne, State.formatFault]
  · exact s.v2_stops _ f ok op h (by simp [State.badTag, hp]) (s.raise_stops _ _ _ _)

end Sys2Proof.Machine
end

section
/-! SUPPORT. O19: an access whose bytes are found goes on; scalar loads land their register, scalar stores commit. -/
namespace Sys2Proof.Machine

/-- An access whose bytes are found, and that waits for no write of the context, goes on (R242, R340). -/
theorem State.access_found {t u : State} {q : XReq} {ps : List (Word × Nat)} {parts : List (Nat × Nat)} (kind : Nat)
    (k : List (Nat × Nat) → State → State) (h : t.resolveIn q ps = (.ok parts, u)) (hw : q.write = true ∨ u.readWaits parts = false) :
    t.access kind q ps k = k parts u := by
  unfold State.access
  rw [h]
  rcases hw with hw | hw <;> simp [hw]

theorem State.roomForLoad_room (t : State) (body : State → State) (h : t.issue.pre.loadsOut < 64) : t.roomForLoad body = body t :=
  if_neg (Nat.not_le.mpr h)

/-- No access of the width traps for its alignment (R259). -/
theorem ordered_aligned {f : MEM} {va : Word} {w : Nat} (h : f.ord = 0 ∨ va.toNat % w = 0) :
    (decide (f.ord ≠ 0) && misaligned va w) = false := by
  rcases h with h | h <;> simp [misaligned, h]

/-- A ready operation whose sources have no latch has its effect on the state as it is. -/
theorem State.anchored_unlatched (s : State) (os : List Opd) (wr : List Reg) (body : State → State) (h : Ready s os wr)
    (hu : ∀ o ∈ os, o.h = 0) : s.anchored os wr body = .next (body s) := by
  rw [s.anchored_ready os wr body h, s.latchAll_plain os hu]

theorem State.seqCst_performed {t : State} {v : Nat} {bad : Bool} (h : t.scResult = some (v, bad)) (kind : ScKind) (key w operand compare : Nat)
    (k : Nat → Bool → State → State) : t.seqCst kind key w operand compare k = k v bad t := by
  unfold State.seqCst
  rw [h]

theorem State.cur_fabric (s : State) (x : Fabric) : ({ s with fabric := x } : State).cur = s.cur := rfl

/-- A seq_cst store whose stamp has come joins the committed stores with it (R348, R349). -/
theorem State.seqCstStore_stamped {t : State} {stamp : Word} {key : Nat} (w v scope : Nat) (h : t.storeStamp = some stamp)
    (hk : isReg key = false) : (t.seqCstStore key w v scope).mem = t.mem ∧
    (t.seqCstStore key w v scope).cur.stores = t.cur.stores ++ [⟨t.fabric.nextItem, [(key, leBytes w v)], false, true, scope, 0, some stamp⟩] := by
  unfold State.seqCstStore
  rw [h]
  simp only [hk, Bool.false_eq_true, if_false]
  refine ⟨by rw [State.modCur_mem, State.modCur_mem], ?_⟩
  rw [State.cur_modCur, State.cur_fabric, State.cur_modCur, State.modCur_fabric]
  rfl

/-- A scalar load lands in x[D] (R261, R348). -/
theorem State.load_lands (mk : MEM → Instr) (w : Nat) (sgn : Bool) (he : ∀ f s, exec (mk f) s = State.load s f w sgn) :
    ScalarLoad mk w sgn := by
  intro f s t parts h hroom hal hres hwait
  rw [he, State.load, s.anchored_unlatched _ _ _ h (by simp [baseOf, idxOf, opReg]), s.roomForLoad_room _ hroom, ordered_aligned hal,
    if_neg Bool.false_ne_true, State.access_found _ _ hres (.inr hwait)]
  refine ⟨fun ho => by rw [if_neg ho]; rfl, fun v bad ho hv => ?_⟩
  rw [if_pos ho, State.seqCst_performed hv]
  rfl

/-- A scalar store commits (R261, R341, R348). -/
theorem State.store_commits (mk : MEM → Instr) (w : Nat) (he : ∀ f s, exec (mk f) s = State.store s f w) : ScalarStore mk w := by
  intro f s t parts h hal hres
  rw [he, State.store, s.anchored_unlatched _ _ _ h (by simp [baseOf, idxOf, opReg]), ordered_aligned hal, if_neg Bool.false_ne_true,
    State.access_found _ _ hres (.inl rfl)]
  refine ⟨fun ho => by rw [if_neg ho], fun r ho hs hv => ?_, fun stamp key ho hs hp hk => ?_⟩
  · rw [if_pos ho]
    unfold State.seqCstStore
    rw [hs]
    exact congrArg _ (State.seqCst_performed hv ..)
  · subst hp
    rw [if_pos ho]
    exact ⟨_, rfl, State.seqCstStore_stamped w _ _ hs hk⟩

theorem exec_ldq_lands (f : MEM) (s t : State) (parts : List (Nat × Nat)) (h : Ready s [baseOf f, idxOf f] [.x f.d.toNat, .x (f.d.toNat + 1)])
    (hroom : s.issue.pre.loadsOut < 64) (hal : f.ord = 0 ∨ (s.ea f).toNat % 16 = 0)
    (hres : s.resolveIn {} (pieces (s.ea f) 16) = (.ok parts, t)) (hwait : t.readWaits parts = false) :
    exec (.ldq f) s = .next ((t.modCur fun k =>
      ((k.landX f.d.toNat (word (ofLeBytes ((t.bytesRead parts).take 8))) (t.badRead parts) k.token).landX (f.d.toNat + 1)
        (word (ofLeBytes ((t.bytesRead parts).drop 8))) (t.badRead parts) k.token).useToken).afterRead parts) := by
  show execLdq f s = _
  rw [execLdq, s.anchored_unlatched _ _ _ h (by simp [baseOf, idxOf, opReg]), s.roomForLoad_room _ hroom, ordered_aligned hal,
    if_neg Bool.false_ne_true, State.access_found _ _ hres (.inr hwait)]

theorem exec_stq_commits (f : MEM) (s t : State) (parts : List (Nat × Nat))
    (h : Ready s [baseOf f, idxOf f, opReg .x f.d.toNat, opReg .x (f.d.toNat + 1)] []) (hal : f.ord = 0 ∨ (s.ea f).toNat % 16 = 0)
    (hres : s.resolveIn { write := true } (pieces (s.ea f) 16) = (.ok parts, t)) :
    exec (.stq f) s = .next (t.commitStore f (cutData parts
      (leBytes 8 (s.issue.pre.getX f.d.toNat).toNat ++ leBytes 8 (s.issue.pre.getX (f.d.toNat + 1)).toNat))
      (if misaligned (s.ea f) 16 then 1 else 0)) := by
  show execStq f s = _
  rw [execStq, s.anchored_unlatched _ _ _ h (by simp [baseOf, idxOf, opReg]), ordered_aligned hal,
    if_neg Bool.false_ne_true, State.access_found _ _ hres (.inl rfl)]

theorem exec_lzero_commits (f : MEM) (s t : State) (parts : List (Nat × Nat)) (h : Ready s [baseOf f, idxOf f] [])
    (hal : (s.ea f).toNat % 128 = 0) (hres : s.resolveIn { write := true } (pieces (s.ea f) 128) = (.ok parts, t)) :
    exec (.lzero f) s = .next (t.commitStore plainMem (cutData parts (List.replicate 128 0))) := by
  have ha : misaligned (s.ea f) 128 = false := by simp [misaligned, hal]
  show execLzero f s = _
  rw [execLzero, s.anchored_unlatched _ _ _ h (by simp [baseOf, idxOf, opReg]), ha, if_neg Bool.false_ne_true, State.access_found _ _ hres (.inl rfl)]

/-- Settles O19: the loads and the stores of one register by their widths, the pair and the line by themselves. -/
theorem scalarLoadsAndStores : Obligations.ScalarLoadsAndStores :=
  ⟨⟨State.load_lands _ 1 true fun _ _ => rfl, State.load_lands _ 1 false fun _ _ => rfl, State.load_lands _ 2 true fun _ _ => rfl,
    State.load_lands _ 2 false fun _ _ => rfl, State.load_lands _ 4 true fun _ _ => rfl, State.load_lands _ 4 false fun _ _ => rfl,
    State.load_lands _ 8 true fun _ _ => rfl, exec_ldq_lands⟩,
   State.store_commits _ 1 fun _ _ => rfl, State.store_commits _ 2 fun _ _ => rfl, State.store_commits _ 4 fun _ _ => rfl,
   State.store_commits _ 8 fun _ _ => rfl, exec_stq_commits, exec_lzero_commits⟩

end Sys2Proof.Machine
end

section
/-! SUPPORT. What an access keeps of the cores: a reading of the state that no elementary change of an access touches, no access touches (R235 to R252). -/
namespace Sys2Proof

/-- A map whose values are changed, each as its key says, as a reading that the change does not touch finds it. -/
theorem Sparse.get_map_keeps {α β : Type} {rd : α → β} {g : Nat → α → α} (hg : ∀ j a, rd (g j a) = rd a) (d : α) (m : Sparse α) (j : Nat) :
    rd (Sparse.get d (m.map fun e => (e.1, g e.1 e.2)) j) = rd (Sparse.get d m j) := by
  induction m with
  | nil => rfl
  | cons e r ih =>
    by_cases h : e.1 = j
    · simp [Sparse.get, h, hg]
    · simpa [Sparse.get, h] using ih

end Sys2Proof

namespace Sys2Proof.Machine

/-- A reading of the state that none of the changes that an access is made of touches. -/
structure AccessKeeps {β : Type} (rd : State → β) : Prop where
  memory : ∀ (s : State) (m : List Host.Cell) (b : Sparse Bool) (o : Sparse Nat), rd { s with mem := m, bad := b, origin := o } = rd s
  free : ∀ s : State, rd s.useFree.2 = rd s
  cluster : ∀ (s : State) (d : Nat) (f : Cluster → Cluster), rd (s.modCluster d f) = rd s
  tlb : ∀ (s : State) (c : Nat) (f : List TlbEntry → List TlbEntry), rd (s.modCore c fun k => { k with tlb := f k.tlb }) = rd s
  region : ∀ (s : State) (c n : Nat) (f : Region → Region), rd (s.modRegion c n f) = rd s
  code : ∀ (s : State) (f : Sparse Byte → Sparse Byte), rd (s.moveCode f) = rd s
  strike : ∀ (s : State) (w key n : Nat), rd (s.strike w key n) = rd s

namespace AccessKeeps

variable {β : Type} {rd : State → β} (h : AccessKeeps rd)
include h

/-! Units and bytes -/

theorem moveBytes (s : State) (src dst n : Nat) : rd (s.moveBytes src dst n) = rd s := h.memory s _ _ _

theorem putBytes (s : State) (w key : Nat) (data : List Byte) (bad : Bool) : rd (s.putBytes w key data bad) = rd s := by
  unfold State.putBytes State.soilPinned
  split
  · rfl
  · split
    · rw [h.strike, h.memory]
    · rw [h.cluster, h.strike, h.memory]

/-! The hot-page tracker (R249 to R252) -/

theorem propose (s : State) (d frame : Nat) : rd (s.propose d frame) = rd s := by
  unfold State.propose
  dsimp only
  split
  · exact h.cluster s d _
  · rw [h.cluster, State.putNum, h.putBytes, State.putNum, h.putBytes]

theorem hptCountUp (s : State) (d frame : Nat) (p : Bool) : rd (s.hptCountUp d frame p) = rd s := by
  unfold State.hptCountUp
  dsimp only
  split
  · split
    · rw [h.cluster, h.cluster]
    · rw [h.cluster, h.propose, h.cluster]
  · exact h.cluster s d _

theorem track (s : State) (g : Agent) (q : XReq) (l : Leaf) (va : Word) (len : Nat) : rd (s.track g q l va len) = rd s := by
  unfold State.track
  dsimp only
  split
  · induction s.sliceAccesses g q va len with
    | zero => exact h.free s
    | succ n ih => exact (h.hptCountUp _ _ _ _).trans ih
  · rfl

/-! Translation (R235 to R242) -/

theorem markUsed (s : State) (l : Leaf) (write : Bool) : rd (s.markUsed l write) = rd s := by
  unfold State.markUsed
  dsimp only
  generalize (if write = true then (0x180 : Word) else 0x80) = m
  split
  · rfl
  · exact h.memory s _ _ _

theorem cacheLeaf (s : State) (g : Agent) (l : Leaf) : rd (s.cacheLeaf g l) = rd s := by
  unfold State.cacheLeaf
  split
  · rfl
  · rw [h.cluster, h.tlb _ _ (tlbAdd 64 s.free (l.cached g.asid)), h.free, h.free]

theorem pinned (s : State) (d : Nat) (e : TlbEntry) (pa : Nat) : rd (s.pinned d e pa).2 = rd s := by
  unfold State.pinned
  dsimp only
  split
  · rfl
  · split
    · rfl
    · split
      · rw [h.cluster, h.code, h.moveBytes]
      · rw [h.cluster]

theorem through (s : State) (g : Agent) (q : XReq) (l : Leaf) (va : Word) (len : Nat) : rd (s.through g q l va len).2 = rd s := by
  have marked : rd (((s.markUsed l q.write).cacheLeaf g l).track g q l va len) = rd s := by rw [h.track, h.cacheLeaf, h.markUsed]
  unfold State.through
  dsimp only
  split
  · rw [h.pinned, marked]
  · exact marked

theorem chooseStale (s : State) (ls : List Leaf) : rd (s.chooseStale ls).2 = rd s := by
  induction ls generalizing s with
  | nil => rfl
  | cons l ls ih =>
    unfold State.chooseStale
    split
    · exact h.free s
    · rw [ih, h.free]

theorem leafDetail (s : State) (g : Agent) (l : Leaf) (va : Word) : rd (s.leafDetail g l va).2 = rd s := by
  unfold State.leafDetail
  dsimp only
  split
  · rfl
  · split
    · exact h.free s
    · rfl

theorem translate (s : State) (g : Agent) (q : XReq) (va : Word) (len : Nat) : rd (s.translate g q va len).2 = rd s := by
  have chosen := h.chooseStale s (s.stale g va)
  have take (l : Leaf) (t : State) (ht : rd t = rd s) : rd (if leafFault g q l va ≠ 0 then
      ((.error ⟨leafFault g q l va, va, (t.leafDetail g l va).1, none⟩ : Except XFault Nat), (t.leafDetail g l va).2.cacheLeaf g l)
      else (.ok (t.through g q l va len).1, (t.through g q l va len).2)).2 = rd s := by
    split
    · rw [h.cacheLeaf, h.leafDetail, ht]
    · rw [h.through, ht]
  unfold State.translate
  dsimp only
  split
  · exact take _ _ chosen
  · split
    · exact take _ _ chosen
    · exact chosen

/-! LDM regions (R247) -/

theorem fillSector (s : State) (g : Agent) (n : Nat) (r : Region) (sec : Nat) : rd (s.fillSector g n r sec).2 = rd s := by
  unfold State.fillSector
  dsimp only
  generalize word _ = va
  have found := h.translate s g { homed := true } va 1024
  split
  next hx => rw [hx] at found; exact found
  next hx =>
    rw [hx] at found
    rw [h.region]
    split
    · rw [h.code, h.putBytes]; exact found
    · rw [h.code, h.moveBytes]; exact found

theorem touchSectors (s : State) (g : Agent) (n : Nat) (write : Bool) (secs : List Nat) : rd (s.touchSectors g n write secs).2 = rd s := by
  induction secs generalizing s with
  | nil => rfl
  | cons sec secs ih =>
    have next (t : State) : rd ((if write then t.modRegion g.core n fun r => { r with dirty := r.dirty.set false sec true }
        else t).touchSectors g n write secs).2 = rd t := by
      rw [ih]
      split
      · exact h.region t _ _ _
      · rfl
    unfold State.touchSectors
    dsimp only
    split
    · exact next s
    · have filled := h.fillSector s g n ((s.core g.core).region.get .none n) sec
      split
      next hx => rw [hx] at filled; exact filled
      next hx => rw [hx] at filled; exact (next _).trans filled

theorem inRegion (s : State) (g : Agent) (q : XReq) (va : Word) (len n : Nat) (r : Region) : rd (s.inRegion g q va len n r).2 = rd s := by
  unfold State.inRegion
  dsimp only
  generalize List.filter _ _ = secs
  have touched := h.touchSectors s g n q.write secs
  split
  next hx => rw [hx] at touched; exact touched
  next hx => rw [hx] at touched; exact touched

/-! Accesses (R231, R242) -/

theorem place (s : State) (g : Agent) (q : XReq) (va : Word) (len : Nat) : rd (s.place g q va len).2 = rd s := by
  unfold State.place
  dsimp only
  split
  · (repeat' split) <;> rfl
  · (repeat' split) <;> rfl
  · (repeat' split) <;> rfl
  · split
    · rfl
    · split
      · split
        · rfl
        · split
          · have found := h.translate s g q va len
            split
            next hx => rw [hx] at found; exact found
            next hx => rw [hx] at found; exact (h.inRegion _ _ _ _ _ _ _).trans found
          · exact h.inRegion s _ _ _ _ _ _
      · exact h.translate s _ _ _ _

theorem resolveGo (s : State) (g : Agent) (q : XReq) (ps : List (Word × Nat)) (ks : List (Nat × Nat)) (f : Option XFault) :
    rd (s.resolveGo g q ps ks f).2 = rd s := by
  induction ps generalizing s ks f with
  | nil => rfl
  | cons p ps ih =>
    have placed := h.place s g q p.1 p.2
    unfold State.resolveGo
    split
    next hx => rw [hx] at placed; exact (ih _ _ _).trans placed
    next hx => rw [hx] at placed; exact (ih _ _ _).trans placed

theorem resolve (s : State) (g : Agent) (q : XReq) (ps : List (Word × Nat)) : rd (s.resolve g q ps).2 = rd s := by
  have found := h.resolveGo s g q ps [] none
  unfold State.resolve
  split
  next hx => rw [hx] at found; exact found
  next hx => rw [hx] at found; exact found

end AccessKeeps

/-! Readings of a core -/

/-- What no translation, no region, no change of the code seen and no strike touches of a core, an access keeps. -/
theorem AccessKeeps.of_core {β : Type} (rd : Core → β) (c : Nat) (htlb : ∀ k l, rd { k with tlb := l } = rd k)
    (hreg : ∀ k r, rd { k with region := r } = rd k) (hcode : ∀ k f, rd (Core.moveCode f k) = rd k)
    (hstrike : ∀ k w d key n, rd (Core.struckBy w d key n k) = rd k) : AccessKeeps fun s => rd (s.core c) where
  memory _ _ _ _ := rfl
  free _ := rfl
  cluster _ _ _ := rfl
  tlb s d _ := State.core_modCore_keeps rd (fun k => htlb k _) s d c
  region s d _ _ := State.core_modCore_keeps rd (fun k => hreg k _) s d c
  code s f := Sparse.get_map_keeps (fun _ k => hcode k f) .idle s.cores c
  strike s w key n := Sparse.get_map_keeps (fun d k => hstrike k w d key n) .idle s.cores c

/-- An access leaves the committed stores of every bank. -/
theorem AccessKeeps.stores (c b : Nat) : AccessKeeps fun s => (s.ctx c b).stores :=
  AccessKeeps.of_core (fun k => (k.bank b).stores) c (fun _ _ => rfl) (fun _ _ => rfl)
    (fun k f => by unfold Core.bank; split <;> rfl)
    fun k w d key n => by unfold Core.struckBy Core.bank; (repeat' split) <;> rfl

theorem State.stores_resolve (s : State) (g : Agent) (q : XReq) (ps : List (Word × Nat)) (c b : Nat) :
    ((s.resolve g q ps).2.ctx c b).stores = (s.ctx c b).stores :=
  (AccessKeeps.stores c b).resolve s g q ps

end Sys2Proof.Machine
end

section
/-! SUPPORT. O15: an operation of the M slot with its tiles resolved; an operand image checked at the issue, its rows read as the operation
leaves its queue; the accumulator that a multiply adds into. -/
namespace Sys2Proof.Machine

/-! Operations of the M slot (R105, R109, R110, R207) -/

section
variable {s : State} {srcs : List (TSrc × Nat)} {dsts : List (BitVec 6 × Nat)} {rd : List Opd} {wr : List Reg}

/-- What the operation needs to leave its queue is none of the conditions for going ahead. -/
theorem ReadyM.slips (h : ReadyM s srcs dsts rd wr) : ReadySlip { s with issue := { s.issue with need := needM s srcs } }
    (srcs.map (fun p => p.1.opd p.2) ++ rd) (wr ++ dsts.map fun p => .t p.2) :=
  ⟨h.ready.at_.imp_right fun ha => ⟨ha.first, ha.commit, ha.plain, ha.sure, ha.free, ha.unwanted⟩, h.ready.clean⟩

@[simp] theorem latchedM_issue (s : State) (srcs : List (TSrc × Nat)) (rd : List Opd) :
    (latchedM s srcs rd).issue = { s.issue with need := needM s srcs } := State.latchAll_issue _ _

/-- With its fields resolved to tiles that are at least reserved, an operation of the M slot slips (R105). -/
theorem State.mOp_ready (h : ReadyM s srcs dsts rd wr) (body : List Nat → List Nat → State → State) :
    s.mOp (srcs.map (·.1)) (dsts.map (·.1)) rd wr body = State.slipped { s with issue := { s.issue with need := needM s srcs } } true
      (srcs.map (fun p => p.1.opd p.2) ++ rd) (wr ++ dsts.map fun p => .t p.2) (body (srcs.map (·.2)) (dsts.map (·.2))) := by
  have hns : (srcs.map (·.1)).map s.tileOf = srcs.map fun p => some p.2 := by
    rw [List.map_map]
    exact List.map_congr_left fun p hp => (h.sources p hp).1
  have hds : (dsts.map (·.1)).map (fun d => (s.issue.pre.tileField d).map (·.1)) = dsts.map fun p => some p.2 := by
    rw [List.map_map]
    exact List.map_congr_left fun p hp => h.places p hp
  have hos : ((srcs.map (·.1)).zip (srcs.map fun p => some p.2)).filterMap (fun p => p.2.map p.1.opd) = srcs.map fun p => p.1.opd p.2 := by
    rw [List.zip_map', List.filterMap_map]
    exact congrFun (List.filterMap_eq_map (f := fun p : TSrc × Nat => p.1.opd p.2)) srcs
  have hnamed : (srcs.map (·.1)).filter (fun o => decide (o.h < 2)) = (srcs.filter fun p => p.1.h < 2).map (·.1) := List.filter_map
  have hres : (((srcs.filter fun p => p.1.h < 2).map (·.1)).any fun o => !s.issue.pre.tileReserved o.fld) = false := by
    rw [List.any_map, List.any_eq_false]
    intro p hp
    obtain ⟨hm, hh⟩ := List.mem_filter.mp hp
    simp [(h.sources p hm).2 (of_decide_eq_true hh)]
  unfold State.mOp
  simp only [hns, hds, hos, hnamed, hres, h.active, Bool.not_true, Bool.false_eq_true, if_false]
  rw [if_neg (by simp)]
  simp only [List.map_map, List.flatMap_map, Function.comp_def, Option.getD_some]
  rfl

end

/-- An operation whose operand image is found enters its queue, and is carried out as it leaves it (R109, R207). -/
theorem State.slipped_image (s : State) (os : List Opd) (wr : List Reg) (body : State → State) (h : ReadySlip s os wr)
    (ha : AtHand s os wr) (hb : (body (s.latchAll os)).issue.verdict = .commit)
    (hi : (body (s.latchAll os)).issue.need.img.isSome = true) :
    s.slipped true os wr body = .next ((body (s.latchAll os)).enqueueLate (s.latchAll os) (regsOf os) wr) := by
  unfold State.slipped State.goesLate
  simp only [ha.first, Option.isSome_none, Bool.false_eq_true, if_false, ha.decided, ha.unwanted_own, hi, ha.latched, Bool.or_false, Bool.and_false,
    Bool.true_or, Bool.and_true, h.unspoilt, if_true, hb, ne_eq, not_true_eq_false, regsOf]

/-! The image at the bundle's issue (R207) -/

/-- An access of the bundle changes the bundle's scratch by memory as it stood before it. -/
theorem State.resolveIn_issue (s : State) (q : XReq) (ps : List (Word × Nat)) :
    { (s.resolveIn q ps).2.issue with mem0 := [], bad0 := [] } = { s.issue with mem0 := [], bad0 := [] } :=
  congrArg (fun i : Issue => { i with mem0 := [], bad0 := [] }) (State.issue_of_sansAccess (s.sansAccess_resolve s.me q ps))

/-- An image that is found leaves the bundle's scratch, but for memory before it, and its place. -/
theorem State.image_found {s t : State} {va : Word} {g : Fmt} (h : s.image va = .ok (g, t)) :
    t.issue.pre = s.issue.pre ∧ t.issue.verdict = s.issue.verdict ∧ t.issue.need.img.isSome = true := by
  have hi := s.resolveIn_issue {} (pieces va imageLen)
  unfold State.image at h
  split at h
  · cases h
  · split at h
    · cases h
    · rename_i parts s1 hr
      rw [hr] at hi
      dsimp only at h
      split at h
      · cases h
      · split at h
        · split at h
          · cases h
            exact ⟨(congrArg Issue.pre hi :), (congrArg Issue.verdict hi :), rfl⟩
          · cases h
        · cases h

/-! The image's rows as the operation leaves its queue (R207, R228) -/

section
variable {t t1 : State} {va : Word} {n : Nat} (k : Tile → State → State)

theorem State.withRows_written {bs : List Byte} (h : t.issue.need.rows = some (bs, false)) :
    t.withRows va n k = k (imageTile t.imageFmt bs) t := by
  unfold State.withRows
  rw [h]
  rfl

theorem State.withRows_read {parts : List (Nat × Nat)} (h : t.issue.need.rows = none)
    (hr : t.resolve t.me {} (pieces va imageLen) = (.ok parts, t1)) (hm : imageDataMarked t1 parts = false) :
    t.withRows va n k = k (imageTile t.imageFmt (imageData t1 parts)) (t1.afterRead parts) := by
  have hi : t1.issue = t.issue := State.issue_of_sansAccess (by rw [← t.sansAccess_resolve t.me {} (pieces va imageLen), hr])
  have hs : t1.cur.stores = t.cur.stores := by
    unfold State.cur
    rw [hi, ← t.stores_resolve t.me {} (pieces va imageLen), hr]
  unfold imageDataMarked at hm
  unfold imageData
  rw [hi, hs] at hm ⊢
  unfold State.withRows
  rw [h, hr]
  exact if_neg (by rw [hm]; exact Bool.false_ne_true)

theorem State.withRows_lost {x : XFault} (h : t.issue.need.rows = none)
    (hr : t.resolve t.me {} (pieces va imageLen) = (.error x, t1)) : t.withRows va n k = t1.lateImage n va x.cause x.detail := by
  unfold State.withRows
  rw [h, hr]

end

/-! The accumulator (R132, R209) -/

theorem AddsInto.tag {s : State} {c : MClass} {n charge : Nat} {za : Bool} {acc : Acc} (h : AddsInto s c n za charge acc) :
    acc.tag = c.accTag := by
  obtain ⟨a, ⟨-, rfl⟩ | ⟨-, -, ht, -⟩, ⟨-, -, rfl⟩ | ⟨-, rfl⟩⟩ := h
  · rfl
  · rfl
  · exact ht
  · exact ht

/-- The checks of a multiply pass in every state of the bundle. -/
theorem State.mmaAcc_adds {s t : State} {f : MX} {fa fb : Fmt} {c : MClass} {acc : Acc} (hpre : t.issue.pre = s.issue.pre)
    (hc : pairClass fa fb = some c) (h : AddsInto s c f.acc.toNat (f.za = 1) (residueCharge fa) acc) :
    t.mmaAcc f fa fb = .ok (c, acc) := by
  obtain ⟨a, ha, hch⟩ := h
  have hacc : t.accFor c f.acc.toNat (f.za = 1) = .ok a := by
    unfold State.accFor State.badAcc
    rcases ha with ⟨hz, rfl⟩ | ⟨hz, rfl, ht, hp⟩
    · rw [hz]; rfl
    · rw [ht] at hp
      simp only [hz, Bool.false_eq_true, if_false, hpre, hp, ht, beq_self_eq_true, if_true]
  have hcharged : t.charged c (residueCharge fa) a = .ok acc := by
    unfold State.charged
    rcases hch with ⟨rfl, hle, rfl⟩ | ⟨hne, rfl⟩
    · simp [Nat.not_lt.mpr hle]
    · exact if_pos hne
  unfold State.mmaAcc
  rw [hc]
  dsimp only
  rw [hacc]
  dsimp only
  rw [hcharged]

/-! Multiplies with an image (R207, R209, R223) -/

/-- The checks of a multiply of tile na by an image of a format, with the accumulator to come. -/
def State.imageChecks (s : State) (f : MX) (na : Nat) (g : Fmt) (t : State) : Except State Acc :=
  match t.badTile na with
  | some bad => .error bad
  | none => (t.mmaAcc f (s.tileIn na).tag g).map fun p => { p.2 with tag := p.1.accTag }

/-- The multiply of tile na by the image's rows. -/
def State.multiplyRows (s : State) (f : MX) (na : Nat) (g : Fmt) (acc : Acc) (rows : Tile) (t : State) : State :=
  match pairClass (s.tileIn na).tag g with
  | some c => t.putA f.acc.toNat (accumulate c (s.tileIn na).tag g (rowsOf f.hr) (s.tileIn na) rows acc)
  | none => t

/-- A multiply that leaves its queue joins the merge buffer, where it may, and runs alone otherwise. -/
def State.joinOrMultiply (s : State) (f : MX) (merge : Bool) (na : Nat) (g : Fmt) (acc : Acc) (t : State) : State :=
  let keys := match t.issue.need.img with
    | some p => p.2
    | none => []
  match (if merge && t.issue.need.rows.isNone && t.mergeable t.issue.core f then
      t.joinBuffer f (s.tileIn na) g keys (s.imageVA f) acc.bound else none) with
  | some t2 => t2
  | none => t.withRows (s.imageVA f) f.acc.toNat (s.multiplyRows f na g acc)

theorem State.mmaImage_eq (s : State) (f : MX) (merge : Bool) : s.mmaImage f merge =
    s.mOp [tA f] [] [opReg .x f.b.toNat] [.a f.acc.toNat] fun ns _ t =>
      t.withImage (s.imageVA f) f.acc.toNat (s.imageChecks f (ns.getD 0 32)) (s.joinOrMultiply f merge (ns.getD 0 32)) := rfl

/-- A multiply of a tile by an image, with all it needs: the format of the image and the accumulator that it adds into. -/
structure MultipliesImage (f : MX) (s : State) (na : Nat) (g : Fmt) (c : MClass) (acc : Acc) : Prop where
  ready : ReadyM s [(tA f, na)] [] [opReg .x f.b.toNat] [.a f.acc.toNat]
  clean : (s.tileIn na).tag ≠ .poison
  pair : pairClass (s.tileIn na).tag g = some c
  adds : AddsInto s c f.acc.toNat (f.za = 1) (residueCharge (s.tileIn na).tag) acc

section
variable {f : MX} {s : State} {na : Nat} {g : Fmt} {c : MClass} {acc : Acc} (h : MultipliesImage f s na g c acc)
include h

theorem MultipliesImage.checked {t : State} (hpre : t.issue.pre = s.issue.pre) : s.imageChecks f na g t = .ok acc := by
  have hb : t.badTile na = none := by
    unfold State.badTile State.tileIn
    rw [hpre]
    exact if_neg h.clean
  unfold State.imageChecks
  rw [hb]
  dsimp only
  rw [State.mmaAcc_adds hpre h.pair h.adds]
  show Except.ok { acc with tag := c.accTag } = _
  rw [← h.adds.tag]

/-- As its bundle issues, the multiply is checked and enters its queue. -/
theorem MultipliesImage.enters (merge : Bool) {t1 : State} (hl : s.issue.late = none)
    (him : (latchedM s [(tA f, na)] [opReg .x f.b.toNat]).image (s.imageVA f) = .ok (g, t1)) :
    s.mmaImage f merge = .next ((t1.putA f.acc.toNat acc).enqueueLate (latchedM s [(tA f, na)] [opReg .x f.b.toNat])
      (regsOf [(tA f).opd na, opReg .x f.b.toNat]) [.a f.acc.toNat]) := by
  obtain ⟨hpre, hv, himg⟩ := State.image_found him
  have hs := h.ready.slips
  have ha : AtHand _ _ _ := hs.at_.resolve_left (by simp [hl])
  have hbody : (latchedM s [(tA f, na)] [opReg .x f.b.toNat]).withImage (s.imageVA f) f.acc.toNat (s.imageChecks f na)
      (s.joinOrMultiply f merge na) = t1.putA f.acc.toNat acc := by
    unfold State.withImage
    rw [if_neg (by simp [hl]), him]
    dsimp only
    rw [h.checked (hpre.trans (by rw [latchedM_issue]))]
  rw [State.mmaImage_eq]
  refine (State.mOp_ready h.ready _).trans ((State.slipped_image _ _ _ _ hs ha ?_ ?_).trans ?_)
  · exact (congrArg (·.issue.verdict) hbody).trans (hv.trans ((congrArg Issue.verdict (latchedM_issue ..)).trans ha.commit))
  · exact (congrArg (·.issue.need.img.isSome) hbody).trans himg
  · exact congrArg (fun u : State => Host.Outcome.next (u.enqueueLate _ _ _)) hbody

/-- As it leaves its queue, the multiply joins the merge buffer or runs alone. -/
theorem MultipliesImage.leaves (merge : Bool) {ks : List (Nat × Nat)} (hl : s.issue.late.isSome = true)
    (him : s.issue.need.img = some (g, ks)) :
    s.mmaImage f merge = .next (s.joinOrMultiply f merge na g acc (latchedM s [(tA f, na)] [opReg .x f.b.toNat])) := by
  have hg : (latchedM s [(tA f, na)] [opReg .x f.b.toNat]).imageFmt = g := by simp [State.imageFmt, needM, him]
  rw [State.mmaImage_eq]
  refine (State.mOp_ready h.ready _).trans ((State.slipped_late _ _ _ _ h.ready.slips hl).trans (congrArg _ ?_))
  show (latchedM s [(tA f, na)] [opReg .x f.b.toNat]).withImage (s.imageVA f) f.acc.toNat (s.imageChecks f na)
    (s.joinOrMultiply f merge na) = _
  unfold State.withImage
  rw [if_pos (by simpa using hl), hg, h.checked (by simp)]

end

theorem State.joinOrMultiply_alone (s : State) (f : MX) (na : Nat) (g : Fmt) (acc : Acc) (t : State) :
    s.joinOrMultiply f false na g acc t = t.withRows (s.imageVA f) f.acc.toNat (s.multiplyRows f na g acc) := by
  simp [State.joinOrMultiply]

/-- With no stack to join, the multiply runs alone (R223). -/
theorem State.joinOrMultiply_unmerged {s : State} {f : MX} {na : Nat} {g : Fmt} {acc : Acc} {t : State} {ks : List (Nat × Nat)}
    (him : t.issue.need.img = some (g, ks)) (h : t.mergeable t.issue.core f = false ∨
      t.joinBuffer f (s.tileIn na) g ks (s.imageVA f) acc.bound = none) :
    s.joinOrMultiply f true na g acc t = s.joinOrMultiply f false na g acc t := by
  unfold State.joinOrMultiply
  rw [him]
  rcases h with h | h <;> simp [h]

/-- A multiply that finds a stack is taken by the merge buffer (R223, R224). -/
theorem State.joinOrMultiply_merged {s : State} {f : MX} {na : Nat} {g : Fmt} {acc : Acc} {t t2 : State} {ks : List (Nat × Nat)}
    (him : t.issue.need.img = some (g, ks)) (hrows : t.issue.need.rows = none) (hm : t.mergeable t.issue.core f = true)
    (hj : t.joinBuffer f (s.tileIn na) g ks (s.imageVA f) acc.bound = some t2) : s.joinOrMultiply f true na g acc t = t2 := by
  unfold State.joinOrMultiply
  rw [him]
  simp [hrows, hm, hj]

theorem State.multiplyRows_pair {s : State} {f : MX} {na : Nat} {g : Fmt} {c : MClass} (acc : Acc) (rows : Tile) (t : State)
    (h : pairClass (s.tileIn na).tag g = some c) : s.multiplyRows f na g acc rows t =
      t.putA f.acc.toNat (accumulate c (s.tileIn na).tag g (rowsOf f.hr) (s.tileIn na) rows acc) := by
  unfold State.multiplyRows
  rw [h]

theorem exec_mma_image (f : MX) (s : State) (h : f.bm = 1) : exec (.mma f) s = s.mmaImage f false := if_pos h

theorem exec_mmam_image (f : MX) (s : State) (h : f.bm = 1) (hk : f.kv ≠ 3) : exec (.mmam f) s = s.mmaImage f true :=
  (if_neg hk).trans (if_pos h)

/-- Settles O15: the issue by the image's check, the way out of the queue by what becomes of the rows. -/
theorem multiplyWithAnImage : Obligations.MultiplyWithAnImage := by
  intro f s na g c acc hbm hkv hready hclean hpair hadds
  have h : MultipliesImage f s na g c acc := ⟨hready, hclean, hpair, hadds⟩
  refine ⟨fun mk hm t1 hl him => ?_, fun ks t hl him ht => ?_⟩
  · simp only [List.mem_cons, List.not_mem_nil, or_false] at hm
    rcases hm with rfl | rfl
    · exact (exec_mma_image f s hbm).trans (h.enters false hl him)
    · exact (exec_mmam_image f s hbm hkv).trans (h.enters true hl him)
  · subst ht
    have hti : (latchedM s [(tA f, na)] [opReg .x f.b.toNat]).issue = { s.issue with need := needM s [(tA f, na)] } :=
      latchedM_issue ..
    have hmma := (exec_mma_image f s hbm).trans (h.leaves false hl him)
    have hmmam := (exec_mmam_image f s hbm hkv).trans (h.leaves true hl him)
    generalize latchedM s [(tA f, na)] [opReg .x f.b.toNat] = t at hti hmma hmmam ⊢
    have himg : t.issue.need.img = some (g, ks) := by rw [hti]; exact him
    have hrows : t.issue.need.rows = s.issue.need.rows := by rw [hti]; rfl
    have hcore : t.issue.core = s.issue.core := by rw [hti]
    have hfmt : t.imageFmt = g := by simp [State.imageFmt, himg]
    rw [State.joinOrMultiply_alone] at hmma
    refine ⟨fun bs hr => ?_, fun parts t1 hr hres hbad => ?_, fun x t1 hr hres => ?_, fun hno => ?_, fun t2 hr hm hj => ?_⟩
    · rw [hmma, State.withRows_written _ (hrows.trans hr), State.multiplyRows_pair _ _ _ hpair, hfmt]
    · rw [hmma, State.withRows_read _ (hrows.trans hr) hres hbad, State.multiplyRows_pair _ _ _ hpair, hfmt]
    · rw [hmma, State.withRows_lost _ (hrows.trans hr) hres]
    · rw [hmma, hmmam, State.joinOrMultiply_unmerged himg (by rwa [hcore]), State.joinOrMultiply_alone]
    · rw [hmmam, State.joinOrMultiply_merged himg (hrows.trans hr) (by rwa [hcore]) hj]

end Sys2Proof.Machine
end

section
/-! SUPPORT. O39: the events of one bank: waits that end, operations that leave their queues, data that arrives (R106, R109 to R111, R128,
R152, R157, R158, R212, R221, R222, R246). -/
namespace Sys2Proof.Machine

/-- A change of the event's bank matters by what it makes of that bank. -/
theorem onCtx_congr {s : State} {f g : Ctx → Ctx} (h : f (theCtx s) = g (theCtx s)) : onCtx s f = onCtx s g :=
  congrArg (s.setCtx s.arg.core s.arg.bank) h

theorem theCtx_onCtx (s : State) (f : Ctx → Ctx) : theCtx (onCtx s f) = f (theCtx s) := s.ctx_modCtx_self _ _ f

/-! Waits that end (R157, R158) -/

theorem State.waited_since (s : State) {k : Ctx} {t : Word} (h : k.since = some t) : s.waited k = (s.sidereal - t).toNat := by
  unfold State.waited
  rw [h]

theorem waitaTimeout_settles (s : State) (key : Nat) (eq : Bool) (v t : Word) (hst : (theCtx s).status = .running)
    (haw : (theCtx s).await = some (.word key eq v)) (hto : (theCtx s).timeout ≠ 0) (hsi : (theCtx s).since = some t)
    (hle : (theCtx s).timeout ≤ (s.sidereal - t).toNat) :
    Settles .waitaTimeout s (onCtx s fun k => { k with expired := true }) := by
  refine settles_of_event (execWaitaTimeout s) rfl rfl ?_
  have hw := s.waited_since hsi
  unfold theCtx at *
  unfold State.expire
  simp only [hst, haw, hsi, hw, hle, hto, ne_eq, not_false_eq_true, decide_true, Option.isSome_some, Bool.and_self, if_true]
  -- What the event leaves names the status, the wait and its start by their values.
  rw [← hst, ← haw, ← hsi]
  rfl

/-- A wait of 512 cycles in a bank that may be left parks its task (R158). -/
theorem State.parkLong_parks (s : State) {c b : Nat} {w : Await} {t : Word} (hst : (s.ctx c b).status = .running)
    (haw : (s.ctx c b).await = some w) (hsi : (s.ctx c b).since = some t) (hle : 512 ≤ (s.sidereal - t).toNat)
    (hleave : (s.ctx c b).mayLeave = true) : s.parkLong c b =
      let u := s.modCtx c b fun k => k.suspend (.parked w)
      let u := if w = .swap then u.modEngine c fun e => { e with claims := e.claims ++ [((s.ctx c b).serial, (s.ctx c b).pc)] } else u
      if (s.ctx c b).preq.isSome && (s.ctx c b).mode = .user then u.landPreempt c b else u := by
  have hw := s.waited_since hsi
  unfold State.parkLong
  simp only [hst, haw, hsi, hw, hle, hleave, decide_true, Option.isSome_some, Bool.and_self, if_true]
  rfl

theorem State.parkLong_early (s : State) {c b : Nat} {t : Word} (hsi : (s.ctx c b).since = some t) (hlt : (s.sidereal - t).toNat < 512) :
    s.parkLong c b = s := by
  have hw := s.waited_since hsi
  unfold State.parkLong
  dsimp only
  split
  · exact if_neg (by rw [hw, decide_eq_false (Nat.not_le.mpr hlt)]; simp)
  · rfl

theorem longWaitPark_settles (s u : State) (w : Await) (t : Word) (hst : (theCtx s).status = .running)
    (haw : (theCtx s).await = some w) (hsi : (theCtx s).since = some t) (hu : u = onCtx s fun k => k.suspend (.parked w)) :
    (512 ≤ (s.sidereal - t).toNat → (theCtx s).queue = [] → (∀ e ∈ (theCtx s).pend, e.why ≠ .handle) →
      ((theCtx s).preq = none ∨ (theCtx s).mode = .supervisor →
        (w ≠ .swap → Settles .longWaitPark s u) ∧
        (w = .swap → Settles .longWaitPark s
          (u.modEngine s.arg.core fun e => { e with claims := e.claims ++ [((theCtx s).serial, (theCtx s).pc)] }))) ∧
      ((theCtx s).preq ≠ none → (theCtx s).mode = .user → w ≠ .swap →
        Settles .longWaitPark s (u.landPreempt s.arg.core s.arg.bank))) ∧
    ((s.sidereal - t).toNat < 512 → Settles .longWaitPark s s) := by
  subst hu
  unfold theCtx at *
  refine ⟨fun hle hq hp => ?_, fun hlt => settles_of_event (execLongWaitPark s) rfl rfl (s.parkLong_early hsi hlt)⟩
  have hleave : (s.ctx s.arg.core s.arg.bank).mayLeave = true := by simpa [Ctx.mayLeave, hq] using hp
  have hpark := s.parkLong_parks hst haw hsi hle hleave
  refine ⟨fun hno => ⟨fun hw => settles_of_event (execLongWaitPark s) rfl rfl (hpark.trans ?_), fun hw => settles_of_event (execLongWaitPark s) rfl rfl (hpark.trans ?_)⟩,
    fun hpq hm hw => settles_of_event (execLongWaitPark s) rfl rfl (hpark.trans ?_)⟩
  · rcases hno with hno | hno <;> simp [hno, hw, onCtx]
  · rcases hno with hno | hno <;> simp [hno, hw, onCtx]
  · simp [Option.isSome_iff_ne_none.mpr hpq, hm, hw, onCtx]

/-! Operations that leave their queues (R109 to R111) -/

/-- What an operation that leaves its queue no longer holds pending. -/
theorem Ctx.leaveQueue_pend (k : Ctx) (e : QEntry) (joined : Bool) :
    ∀ p ∈ (k.leaveQueue e joined).pend, p.why = .slip e.slot → p.n ≠ e.bundle := by
  intro p hp hw hn
  obtain ⟨q, -, hq⟩ := List.mem_flatMap.mp hp
  unfold Pend.issued at hq
  split at hq
  · split at hq
    · split at hq
      · rw [List.mem_singleton.mp hq] at hw; cases hw
      · rw [List.mem_singleton.mp hq] at hw
        split at hw <;> cases hw
      · cases hq
    · cases hq
  · next hne =>
    rw [List.mem_singleton.mp hq] at hw hn
    exact hne (by simp [hw, hn])

/-- A context without its registers. -/
def Ctx.sansRegs (k : Ctx) : Ctx := { k with x := [], p := [], xbad := 0, pbad := 0, v := [], t := [], a := [], latch := [] }

theorem Ctx.sansRegs_copyReg (src k : Ctx) (r : Reg) : (k.copyReg src r).sansRegs = k.sansRegs := by
  cases r
  case x n => simp only [Ctx.copyReg, Ctx.setX, Ctx.spoilX]; (repeat' split) <;> rfl
  case p n => simp only [Ctx.copyReg, Ctx.setP, Ctx.spoilP]; (repeat' split) <;> rfl
  all_goals rfl

/-- Registers copied from another context leave the rest of the bank. -/
theorem Ctx.sansRegs_copyRegs (src k : Ctx) (rs : List Reg) : (rs.foldl (fun q r => q.copyReg src r) k).sansRegs = k.sansRegs :=
  foldl_keeps Ctx.sansRegs (fun q r => Ctx.sansRegs_copyReg src q r) rs k

/-- An operation that is computed as it leaves its queue gives its registers, leaves the queue, and is done (R109). -/
def State.doneLate (s t : State) (c b : Nat) (e : QEntry) : State :=
  { t with issue := .none }.setCtx c b
    ((e.writes.foldl (fun (q : Ctx) r => q.copyReg (t.ctx c b) r) (s.ctx c b)).leaveQueue e t.issue.joined)

section
variable {s t : State} {c b : Nat} {e : QEntry} {o : LateOp} (hrun : s.carryOut c b e o = .next t)
include hrun

theorem State.runLate_behind (hv : t.issue.verdict = .commit) (ha : s.engineAhead c e = true) (hj : t.issue.joined = false) :
    s.runLate c b e o = s := by
  simp [State.runLate, hrun, hv, ha, hj]

theorem State.runLate_done (hv : t.issue.verdict = .commit) (ha : s.engineAhead c e = false ∨ t.issue.joined = true) :
    s.runLate c b e o = s.doneLate t c b e := by
  unfold State.runLate
  rw [hrun]
  dsimp only
  rw [hv]
  exact if_neg (by rcases ha with ha | ha <;> simp [ha])

theorem State.runLate_traps {i : TrapInfo} {r : Option FaultRec} (hv : t.issue.verdict = .trap i r) :
    s.runLate c b e o = s.trapLate c b e o := by
  simp [State.runLate, hrun, hv]

end

/-- The last operation of a bundle that meets poison traps, once the earlier bundles' operations have left (R111). -/
theorem State.trapLate_takes {s : State} {c b : Nat} {e : QEntry} {o : LateOp} (hs : s.splitOut c b = false)
    (hq : ∀ q ∈ (s.ctx c b).queue, e.bundle ≤ q.bundle) (hh : (s.ctx c b).siblingsHave e = true)
    (hd : ∀ q ∈ (s.ctx c b).siblings e, q.slot < e.slot → s.doomed c b q = false) : s.trapLate c b e o =
      ((s.setCtx c b ((s.ctx c b).unqueue o e.bundle)).takeTrap c b ⟨0x10, e.slot, 0, 0, 0, false, true, o.pc⟩).service 1 (s.ctx c b).job
        s.pkg.svctl (contextWord c b (s.ctx c b).job) ((s.job (s.ctx c b).job).fqhead.setWidth 64) := by
  refine if_neg ?_
  have h1 : ((s.ctx c b).queue.any fun q => decide (q.bundle < e.bundle)) = false := by
    rw [List.any_eq_false]
    intro q hm
    simp [hq q hm]
  have h2 : (((s.ctx c b).siblings e).any fun q => decide (q.slot < e.slot) && s.doomed c b q) = false := by
    rw [List.any_eq_false]
    intro q hm hx
    obtain ⟨hlt, hdoom⟩ := Bool.and_eq_true_iff.mp hx
    rw [hd q hm (of_decide_eq_true hlt)] at hdoom
    cases hdoom
  rw [hs, h1, hh, h2]
  simp

/-! The head of a slot queue (R110) -/

section
variable {s : State} {c b slot : Nat} {e : QEntry} (he : (s.ctx c b).queue.find? (fun q => q.slot = slot) = some e)
include he

theorem State.issueHead_waits (hm : e.mwait = false) (hr : s.headReady c b e = false) : s.issueHead c b slot = s := by
  simp [State.issueHead, he, hm, hr]

theorem State.issueHead_known (hm : e.mwait = false) (hr : s.headReady c b e = true) (hl : e.late = none) :
    s.issueHead c b slot = s.modCtx c b (·.leaveQueue e) := by
  simp [State.issueHead, he, hm, hr, hl]

theorem State.issueHead_late {o : LateOp} (hm : e.mwait = false) (hr : s.headReady c b e = true) (hl : e.late = some o) :
    s.issueHead c b slot = s.runLate c b e o := by
  simp [State.issueHead, he, hm, hr, hl]

/-- MWAIT releases its context's stacks, and leaves the queue when nothing is under way (R222). -/
theorem State.issueHead_mwait (hm : e.mwait = true) (hl : e.late = none) : s.issueHead c b slot =
    if (s.releaseStacksOf c b).mwaitOver c b e.bundle && (s.releaseStacksOf c b).siblingsReady c b e then
      (s.releaseStacksOf c b).modCtx c b (·.leaveQueue e) else s.releaseStacksOf c b := by
  unfold State.issueHead
  rw [he]
  simp only [hm, hl, if_true]
  cases (s.releaseStacksOf c b).mwaitOver c b e.bundle && (s.releaseStacksOf c b).siblingsReady c b e <;> rfl

end

theorem Stack.released_release (now : Word) (st : Stack) : (st.release now).released.isSome = true := by
  unfold Stack.release; split
  · assumption
  · rfl

/-- Every stack with a member of the context is released (R222). -/
theorem State.released_releaseStacksOf (s : State) (c b : Nat) : ∀ st ∈ ((s.releaseStacksOf c b).cluster (clusterOf c)).stk,
    st.members.any (·.of c b) = true → st.released.isSome = true := by
  intro st hst hm
  rw [State.releaseStacksOf, State.cluster_modCluster_self] at hst
  obtain ⟨old, -, rfl⟩ := List.mem_map.mp hst
  split at hm
  · next h => rw [if_pos h]; exact Stack.released_release _ _
  · next h => exact absurd hm h

/-- A tile or an accumulator that the matrix engine has yet to write keeps MWAIT waiting (R222). -/
theorem State.mwaitOver_busy {s : State} {c b bundle : Nat} {p : Pend} (hp : p ∈ (s.ctx c b).pend) (hb : p.bundle < bundle)
    (hw : p.why = .matrix) (hr : ∃ n, p.reg = .t n ∨ p.reg = .a n) : s.mwaitOver c b bundle = false := by
  unfold State.mwaitOver
  rw [Bool.and_eq_false_iff, Bool.not_eq_false', List.any_eq_true]
  refine .inl ⟨p, hp, ?_⟩
  obtain ⟨n, hr | hr⟩ := hr <;> simp [hb, hw, hr]

theorem State.mwaitOver_idle {s : State} {c b : Nat} (bundle : Nat) (hp : (s.ctx c b).pend = [])
    (hx : ∀ x ∈ (s.core c).exp, x.2.busy = false) : s.mwaitOver c b bundle = true := by
  have : ((s.core c).exp.any fun e => e.2.busy && decide (e.2.loader = b)) = false := by
    rw [List.any_eq_false]
    intro x hm
    simp [hx x hm]
  simp [State.mwaitOver, hp, this]

/-! The event of a slot queue (R110, R111, R222) -/

theorem slotQueueIssue_settles {s t : State} (h : s.issueHead s.arg.core s.arg.bank s.arg.n = t) : Settles .slotQueueIssue s t :=
  settles_of_event (execSlotQueueIssue s) rfl rfl h

section
variable {s : State} {e : QEntry} (he : (theCtx s).queue.find? (fun q => q.slot = s.arg.n) = some e)
include he

theorem slotQueueIssue_known (hl : e.late = none) (hm : e.mwait = false) (hr : s.headReady s.arg.core s.arg.bank e = true) :
    ∃ u : State, Settles .slotQueueIssue s u ∧ (theCtx u).queue = (theCtx s).queue.erase e ∧
      (theCtx u).x = (theCtx s).x ∧ (theCtx u).v = (theCtx s).v ∧ (theCtx u).t = (theCtx s).t ∧ (theCtx u).a = (theCtx s).a ∧
      u.mem = s.mem ∧ u.arg = s.arg ∧ ∀ p ∈ (theCtx u).pend, p.why = .slip s.arg.n → p.n ≠ e.bundle := by
  have hslot : e.slot = s.arg.n := of_decide_eq_true (List.find?_some he :)
  have hu : theCtx (onCtx s (·.leaveQueue e)) = (theCtx s).leaveQueue e := theCtx_onCtx s _
  refine ⟨onCtx s (·.leaveQueue e), slotQueueIssue_settles (State.issueHead_known he hm hr hl), ?_⟩
  rw [hu, ← hslot]
  exact ⟨rfl, rfl, rfl, rfl, rfl, rfl, rfl, (theCtx s).leaveQueue_pend e false⟩

theorem slotQueueIssue_mwait (hl : e.late = none) (hm : e.mwait = true) (hp : (theCtx s).pend = [])
    (hx : ∀ x ∈ (theCore s).exp, x.2.busy = false)
    (hs : (s.releaseStacksOf s.arg.core s.arg.bank).siblingsReady s.arg.core s.arg.bank e = true) :
    ∃ u : State, Settles .slotQueueIssue s u ∧ (theCtx u).queue = (theCtx s).queue.erase e ∧ u.mem = s.mem ∧
      (∀ st ∈ (u.cluster (clusterOf s.arg.core)).stk, st.members.any (·.of s.arg.core s.arg.bank) = true → st.released.isSome = true) := by
  have hover : (s.releaseStacksOf s.arg.core s.arg.bank).mwaitOver s.arg.core s.arg.bank e.bundle = true :=
    State.mwaitOver_idle e.bundle hp hx
  refine ⟨onCtx (s.releaseStacksOf s.arg.core s.arg.bank) (·.leaveQueue e), slotQueueIssue_settles ?_, ?_, rfl,
    s.released_releaseStacksOf _ _⟩
  · rw [State.issueHead_mwait he hm hl, hover, hs]
    rfl
  · rw [theCtx_onCtx]
    rfl

/-- A register that the operation writes comes from what it computed. -/
theorem slotQueueIssue_computed {t : State} {o : LateOp} (hm : e.mwait = false) (hl : e.late = some o)
    (hr : s.headReady s.arg.core s.arg.bank e = true) (hrun : s.carryOut s.arg.core s.arg.bank e o = .next t) (harg : t.arg = s.arg)
    (hv : t.issue.verdict = .commit) (ha : s.engineAhead s.arg.core e = false ∨ t.issue.joined = true) :
    ∃ u : State, Settles .slotQueueIssue s u ∧ (theCtx u).queue = (theCtx s).queue.erase e ∧ u.mem = t.mem ∧
      u.issue = .none ∧ (theCtx u).pc = (theCtx s).pc ∧
      (∀ n, e.writes = [.v n] → (theCtx u).v = (theCtx s).v.set .zero n ((t.ctx s.arg.core s.arg.bank).getV n) ∧
        (theCtx u).x = (theCtx s).x ∧ (theCtx u).t = (theCtx s).t ∧ (theCtx u).a = (theCtx s).a) ∧
      (∀ n, e.writes = [.a n] → (theCtx u).a = (theCtx s).a.set .zero n ((t.ctx s.arg.core s.arg.bank).getA n) ∧
        (theCtx u).x = (theCtx s).x ∧ (theCtx u).t = (theCtx s).t ∧ (theCtx u).v = (theCtx s).v) := by
  have hu : theCtx (s.doneLate t s.arg.core s.arg.bank e) =
      (e.writes.foldl (fun (q : Ctx) r => q.copyReg (t.ctx s.arg.core s.arg.bank) r) (theCtx s)).leaveQueue e t.issue.joined := by
    unfold theCtx
    rw [show (s.doneLate t s.arg.core s.arg.bank e).arg = s.arg from harg]
    exact State.ctx_setCtx_self _ _ _ _
  have hrest := Ctx.sansRegs_copyRegs (t.ctx s.arg.core s.arg.bank) (theCtx s) e.writes
  refine ⟨s.doneLate t s.arg.core s.arg.bank e,
    slotQueueIssue_settles ((State.issueHead_late he hm hr hl).trans (State.runLate_done hrun hv ha)), ?_⟩
  rw [hu]
  refine ⟨?_, rfl, rfl, (congrArg Ctx.pc hrest :), fun n hw => ?_, fun n hw => ?_⟩
  · exact congrArg (fun q : List QEntry => q.erase e) (congrArg Ctx.queue hrest :)
  · rw [hw]
    exact ⟨rfl, rfl, rfl, rfl⟩
  · rw [hw]
    exact ⟨rfl, rfl, rfl, rfl⟩

end

/-! Data that arrives (R109, R111, R260) -/

theorem Ctx.pend_spoil (k : Ctx) (r : Reg) : (k.spoil r).pend = k.pend := by
  cases r
  case x n => simp only [Ctx.spoil, Ctx.spoilX]; split <;> rfl
  case p n => simp only [Ctx.spoil, Ctx.spoilP]; split <;> rfl
  all_goals rfl

/-- A mark of an x register stays as other poison arrives. -/
theorem Ctx.xbad_spoil (k : Ctx) (r : Reg) {m : Nat} (h : k.xbad.getLsbD m = true) : (k.spoil r).xbad.getLsbD m = true := by
  cases r
  case x n =>
    simp only [Ctx.spoil, Ctx.spoilX]
    split
    · exact h
    · simp [h]
  case p n => simp only [Ctx.spoil, Ctx.spoilP]; split <;> exact h
  all_goals exact h

theorem Ctx.xbad_spoil_self (k : Ctx) {m : Nat} (h0 : m ≠ 0) (h : m < 64) : (k.spoil (.x m)).xbad.getLsbD m = true := by
  simp [Ctx.spoil, Ctx.spoilX, h0, h]

/-- Poison that arrives for an x register marks it, whatever else arrives with it. -/
theorem Ctx.xbad_spoils {m : Nat} (h0 : m ≠ 0) (h : m < 64) (l : List Pend) (k : Ctx)
    (hm : k.xbad.getLsbD m = true ∨ ∃ e ∈ l, e.reg = .x m) : (l.foldl (fun k e => k.spoil e.reg) k).xbad.getLsbD m = true := by
  induction l generalizing k with
  | nil => simpa using hm
  | cons e l ih =>
    refine ih _ ?_
    rcases hm with hm | ⟨p, hp, hr⟩
    · exact .inl (k.xbad_spoil _ hm)
    · rcases List.mem_cons.mp hp with rfl | hp
      · have hk : (k.spoil p.reg).xbad.getLsbD m = true := by rw [hr]; exact k.xbad_spoil_self h0 h
        exact .inl hk
      · exact .inr ⟨p, hp, hr⟩

theorem Ctx.pend_arrive (k : Ctx) (hit : Pend → Bool) : (k.arrive hit).pend = k.pend.filter fun e => !hit e :=
  foldl_keeps Ctx.pend (op := fun (k : Ctx) (e : Pend) => k.spoil e.reg) (fun k e => k.pend_spoil e.reg) _ _

/-- Data without poison: its register is pending no longer, and nothing else changes. -/
theorem Ctx.arrive_clean {k : Ctx} {hit : Pend → Bool} (h : ∀ e ∈ k.pend, hit e = true → e.bad = false) :
    k.arrive hit = { k with pend := k.pend.filter fun e => !hit e } := by
  have hno : k.pend.filter (fun e => hit e && e.bad) = [] := by
    rw [List.filter_eq_nil_iff]
    intro e he hb
    obtain ⟨hh, hb⟩ := Bool.and_eq_true_iff.mp hb
    rw [h e he hh] at hb
    cases hb
  unfold Ctx.arrive
  rw [hno]
  rfl

theorem Ctx.xbad_arrive {k : Ctx} {hit : Pend → Bool} {e : Pend} {m : Nat} (he : e ∈ k.pend) (hh : hit e = true) (hb : e.bad = true)
    (hr : e.reg = .x m) (h0 : m ≠ 0) (h : m < 64) : (k.arrive hit).xbad.getLsbD m = true :=
  Ctx.xbad_spoils h0 h _ _ (.inr ⟨e, List.mem_filter.mpr ⟨he, by simp [hh, hb]⟩, hr⟩)

theorem loadDataReturn_clean (s : State) (h : ∀ e ∈ (theCtx s).pend, e.why = .load → e.n = s.arg.n → e.bad = false) :
    Settles .loadDataReturn s (onCtx s fun k => { k with pend := k.pend.filter fun e => !(e.why = .load && e.n = s.arg.n) }) := by
  refine settles_of_event (execLoadDataReturn s) rfl rfl (onCtx_congr (Ctx.arrive_clean fun e he hh => ?_))
  obtain ⟨hw, hn⟩ := Bool.and_eq_true_iff.mp hh
  exact h e he (of_decide_eq_true hw) (of_decide_eq_true hn)

theorem matrixResultWrite_clean (s : State) (h : ∀ e ∈ (theCtx s).pend, e.why = .matrix → e.n = s.arg.n → e.bad = false) :
    Settles .matrixResultWrite s (onCtx s fun k => { k with pend := k.pend.filter fun e => !(e.why = .matrix && e.n = s.arg.n) }) := by
  refine settles_of_event (execMatrixResultWrite s) rfl rfl (onCtx_congr (Ctx.arrive_clean fun e he hh => ?_))
  obtain ⟨hw, hn⟩ := Bool.and_eq_true_iff.mp hh
  exact h e he (of_decide_eq_true hw) (of_decide_eq_true hn)

theorem loadDataReturn_poisoned (s : State) (e : Pend) (m : Nat) (he : e ∈ (theCtx s).pend) (hw : e.why = .load) (hn : e.n = s.arg.n)
    (hb : e.bad = true) (hr : e.reg = .x m) (h0 : m ≠ 0) (h : m < 64) :
    ∃ u : State, Settles .loadDataReturn s u ∧ (theCtx u).xbad.getLsbD m = true ∧ ∀ p ∈ (theCtx u).pend, p.why = .load → p.n ≠ s.arg.n := by
  refine ⟨onCtx s fun k => k.arrive fun e => e.why = .load && e.n = s.arg.n, settles_of_event (execLoadDataReturn s) rfl rfl rfl, ?_⟩
  rw [theCtx_onCtx]
  refine ⟨Ctx.xbad_arrive he (by simp [hw, hn]) hb hr h0 h, fun p hp hpw hpn => ?_⟩
  rw [Ctx.pend_arrive] at hp
  simpa [hpw, hpn] using (List.mem_filter.mp hp).2

/-! Tile loads (R106, R221) -/

/-- The data of a tile is on its way. -/
def Pend.loadsTile (e : Pend) : Bool := match e.why with
  | .tile _ => true
  | _ => false

/-- The tile load that the event names completes, unless the projection that it expands by is still under way. -/
theorem exec_tileLoadComplete {s : State} {e : Pend} (he : (theCtx s).pend.find? (fun e => e.n = s.arg.n && e.loadsTile) = some e) :
    exec .tileLoadComplete s = .next (if s.xsBusy s.arg.core e.xs then s else onCtx s (·.tileDone e)).settle := by
  show execTileLoadComplete s = _
  unfold execTileLoadComplete State.event
  dsimp only
  split
  · next hn => cases hn.symm.trans he
  · next p hs =>
    obtain rfl : p = e := Option.some.inj (hs.symm.trans he)
    rfl

theorem tileLoadComplete_done {s : State} {e : Pend} {r : List Pend} {q : Option Nat} {f : Ctx → Ctx} (hp : (theCtx s).pend = e :: r)
    (hn : e.n = s.arg.n) (hx : s.xsBusy s.arg.core e.xs = false) (hw : e.why = .tile q) (hf : (theCtx s).tileDone e = f (theCtx s)) :
    Settles .tileLoadComplete s (onCtx s f) := by
  have he : (theCtx s).pend.find? (fun e => e.n = s.arg.n && e.loadsTile) = some e := by
    rw [hp]
    exact List.find?_cons_of_pos (by simp [hn, Pend.loadsTile, hw])
  rw [Settles, exec_tileLoadComplete he, hx, ← onCtx_congr (f := (·.tileDone e)) hf]
  rfl

/-- A list without one of its entries, which stands first and nowhere else. -/
theorem filter_arrived {e : Pend} {r : List Pend} (h : e ∉ r) : (e :: r).filter (fun p => !decide (p = e)) = r := by
  rw [List.filter_cons_of_neg (by simp), List.filter_eq_self]
  intro p hp
  have : p ≠ e := fun hpe => h (hpe ▸ hp)
  simpa using this

theorem passMarks_unmarked (q : Nat) (l : List Pend) (h : ∀ p ∈ l, p.why ≠ .mark q) : passMarks q l = (0, l) := by
  induction l with
  | nil => rfl
  | cons p l ih =>
    have hl := ih fun p hp => h p (List.mem_cons_of_mem _ hp)
    unfold passMarks
    rw [if_neg (h p List.mem_cons_self), hl]
    split <;> rfl

section
variable {k : Ctx} {e : Pend} {r : List Pend} (hp : k.pend = e :: r) (hr : e ∉ r)
include hp hr

theorem Ctx.arrive_first (hb : e.bad = false) : k.arrive (· = e) = { k with pend := r } := by
  rw [Ctx.arrive_clean (fun p _ hpe => by rw [of_decide_eq_true hpe, hb]), hp, filter_arrived hr]

theorem Ctx.tileDone_tile (hw : e.why = .tile none) (hb : e.bad = false) : k.tileDone e = { k with pend := r } := by
  unfold Ctx.tileDone
  rw [hw]
  exact Ctx.arrive_first hp hr hb

theorem Ctx.tileDone_poison {n : Nat} (hw : e.why = .tile none) (hb : e.bad = true) (hreg : e.reg = .t n) :
    k.tileDone e = { k with pend := r }.setT n { k.getT n with tag := .poison } := by
  have hbad : k.pend.filter (fun p => decide (p = e) && p.bad) = [e] := by
    rw [hp, List.filter_cons_of_pos (by simp [hb]), List.filter_eq_nil_iff.mpr fun p hm hx => ?_]
    exact hr (of_decide_eq_true (Bool.and_eq_true_iff.mp hx).1 ▸ hm)
  unfold Ctx.tileDone Ctx.arrive
  rw [hw]
  dsimp only
  rw [hbad, hp, filter_arrived hr, List.foldl_cons, List.foldl_nil, hreg]
  rfl

/-- The oldest load of a ring fills one slot more (R106). -/
theorem Ctx.tileDone_ring {q : Nat} (hw : e.why = .tile (some q)) (hb : e.bad = false) (hm : ∀ p ∈ r, p.why ≠ .mark q) :
    k.tileDone e = { k.setRing q { k.getRing q with fill := (k.getRing q).fill + 1 } with pend := r } := by
  have hfind : k.pend.find? (fun p => p.why = .tile (some q) || p.why = .mark q) = some e := by
    rw [hp]
    exact List.find?_cons_of_pos (by simp [hw])
  unfold Ctx.tileDone
  rw [hw]
  dsimp only
  rw [hfind]
  dsimp only
  rw [if_neg (by simp), Ctx.arrive_first hp hr hb, passMarks_unmarked q r hm]
  rfl

end

theorem tileLoadComplete_held {s : State} {e : Pend} {x : Nat}
    (he : (theCtx s).pend.find? (fun e => e.n = s.arg.n && e.loadsTile) = some e) (hx : e.xs = some x)
    (hb : ((theCore s).exp.get .none x).busy = true) : Settles .tileLoadComplete s s := by
  have hbusy : s.xsBusy s.arg.core e.xs = true := by rw [hx]; exact hb
  rw [Settles, exec_tileLoadComplete he, if_pos hbusy]

/-! Other data and events (R128, R152, R221, R246) -/

theorem loadBlockFilled_settles (s : State) (b : LoadBlock) (hb : b = (theCtx s).blocks.get .none s.arg.n) (hu : b.used = true)
    (hk : b.broken = false) :
    Settles .loadBlockFilled s (onCtx s fun k => { k with blocks := k.blocks.set .none s.arg.n { b with filled := true } }) := by
  subst hb
  exact settles_of_event (execLoadBlockFilled s) rfl rfl (onCtx_congr (if_pos (by simp [hu, hk])))

theorem generatorRefill_settles (s : State) (ho : (theCtx s).status ≠ .idle) (hl : (theCtx s).rbq.length < 8) :
    Settles .generatorRefill s (onCtx s fun k =>
      { k with rbq := k.rbq ++ [genWord k.rngKey k.rngCtr], rngCtr := k.rngCtr + 16 }) := by
  refine settles_of_event (execGeneratorRefill s) rfl rfl (onCtx_congr ?_)
  have hocc : (theCtx s).occupied = true := decide_eq_true ho
  rw [if_pos hocc]
  exact if_neg (Nat.not_le.mpr hl)

theorem eventArrival_settles (s u : State) (n c b job : Nat) (any : Bool)
    (he : s.fabric.events.find? (fun e => e.1 = s.arg.n) = some (n, c, b, job, any))
    (hu : u = { s with fabric := { s.fabric with events := s.fabric.events.filter fun e => e.1 ≠ n } }) :
    ((s.ctx c b).status ≠ .idle → (any = true ∨ (s.ctx c b).job = job) →
      Settles .eventArrival s (u.modCtx c b fun k => { k with event := true })) ∧
    ((s.ctx c b).status = .idle ∨ (any = false ∧ (s.ctx c b).job ≠ job) → Settles .eventArrival s u) := by
  have hexec : exec .eventArrival s = .next (if (s.ctx c b).occupied && (any || decide ((s.ctx c b).job = job)) then
      u.modCtx c b fun k => { k with event := true } else u).settle := by
    show execEventArrival s = _
    unfold execEventArrival State.event
    dsimp only
    rw [he, hu]
    rfl
  refine ⟨fun ho hj => hexec.trans ?_, fun hno => hexec.trans ?_⟩
  · rw [if_pos (by rcases hj with hj | hj <;> simp [Ctx.occupied, ho, hj])]
  · rw [if_neg (by rcases hno with hi | ⟨ha, hj⟩ <;> simp [Ctx.occupied, *])]

/-- Settles O39: one lemma for each event, and for a slot queue by what its head waits for. -/
theorem bankEventsTakePlace : Obligations.BankEventsTakePlace := by
  refine ⟨waitaTimeout_settles, longWaitPark_settles, ?head, ?mwaitBusy, ?mwaitOver, ?late, loadDataReturn_clean, loadDataReturn_poisoned,
    matrixResultWrite_clean, ?tile,
    fun _ _ _ he hx hb => tileLoadComplete_held he hx hb, fun _ => settles_of_event (execExpanderLoadComplete _) rfl rfl rfl,
    loadBlockFilled_settles, generatorRefill_settles, eventArrival_settles⟩
  case head =>
    exact fun s e he hl hm => ⟨slotQueueIssue_known he hl hm, fun hr => slotQueueIssue_settles (State.issueHead_waits he hm hr)⟩
  case mwaitBusy =>
    rintro s e he hl hm ⟨p, hp, hb, hw, hr⟩
    have hbusy : (s.releaseStacksOf s.arg.core s.arg.bank).mwaitOver s.arg.core s.arg.bank e.bundle = false :=
      State.mwaitOver_busy hp hb hw hr
    refine slotQueueIssue_settles ((State.issueHead_mwait he hm hl).trans ?_)
    rw [hbusy]
    rfl
  case mwaitOver => exact fun s e he hl hm hp hx hs => slotQueueIssue_mwait he hl hm hp hx hs
  case late =>
    intro s t e o he hm hl hr hrun harg
    refine ⟨fun hv ha hj => ?_, fun hv ha => slotQueueIssue_computed he hm hl hr hrun harg hv ha, fun i r hv hs hq hh hd => ?_⟩
    · exact slotQueueIssue_settles ((State.issueHead_late he hm hr hl).trans (State.runLate_behind hrun hv ha hj))
    · exact slotQueueIssue_settles ((State.issueHead_late he hm hr hl).trans
        ((State.runLate_traps hrun hv).trans (State.trapLate_takes hs hq hh hd)))
  case tile =>
    intro s e r hp her hn hx
    refine ⟨fun hw hb => ?_, fun n hw hb hreg => ?_, fun q hw hb hm => ?_⟩
    · exact tileLoadComplete_done hp hn hx hw (Ctx.tileDone_tile hp her hw hb)
    · exact tileLoadComplete_done hp hn hx hw (Ctx.tileDone_poison hp her hw hb hreg)
    · exact tileLoadComplete_done hp hn hx hw (Ctx.tileDone_ring hp her hw hb hm)

end Sys2Proof.Machine
end

section
/-! SUPPORT. Operations that change their bank only, in the S, V and M slots: what the bank becomes is all there is to say. -/
namespace Sys2Proof.Machine

/-- A state that differs from another in what the running context is, and in nothing else. -/
structure State.Becomes (t u : State) (g : Ctx → Ctx) : Prop where
  elsewhere : Elsewhere t u
  issue : u.issue = t.issue
  cur : u.cur = g t.cur

theorem State.becomes_modCur (t : State) (g : Ctx → Ctx) : t.Becomes (t.modCur g) g := ⟨.modCur t g, rfl, t.cur_modCur g⟩

theorem State.Becomes.trans {t u v : State} {g h : Ctx → Ctx} (a : t.Becomes u g) (b : u.Becomes v h) :
    t.Becomes v fun k => h (g k) :=
  ⟨a.elsewhere.trans b.elsewhere, b.issue.trans a.issue, b.cur.trans (congrArg h a.cur)⟩

/-- An anchored operation whose body changes its bank only. -/
theorem runs_of_becomes {i : Instr} {s : State} {os : List Opd} {wr : List Reg} {body : State → State} {g : Ctx → Ctx}
    (he : exec i s = s.anchored os wr body) (h : Ready s os wr) (hb : (s.latchAll os).Becomes (body (s.latchAll os)) g) :
    Runs i s os g :=
  ⟨_, he.trans (s.anchored_ready os wr body h), hb.cur, (Elsewhere.latchAll s os).trans hb.elsewhere⟩

/-- Hold actions do not touch what the operation needs to leave its queue. -/
theorem State.latchAll_needing (s : State) (n : Need) (os : List Opd) :
    State.latchAll { s with issue := { s.issue with need := n } } os =
      { s.latchAll os with issue := { s.issue with need := n } } := by
  unfold State.latchAll
  induction os generalizing s with
  | nil => rfl
  | cons o os ih =>
    have h1 : State.latchOne { s with issue := { s.issue with need := n } } o =
        { s.latchOne o with issue := { (s.latchOne o).issue with need := n } } := by
      unfold State.latchOne; split
      · rfl
      · split <;> rfl
    rw [List.foldl_cons, h1, ih, State.latchOne_issue]
    rfl

/-- A slipping operation whose body changes its bank only, whatever it needs to leave its queue. -/
theorem runsSlip_of_becomes {i : Instr} {s : State} {os : List Opd} {wr : List Reg} {body : State → State} {g : Ctx → Ctx} {n : Need}
    (he : exec i s = State.slipped { s with issue := { s.issue with need := n } } true os wr body)
    (h : ReadySlip { s with issue := { s.issue with need := n } } os wr)
    (hb : State.Becomes (State.latchAll { s with issue := { s.issue with need := n } } os)
      (body (State.latchAll { s with issue := { s.issue with need := n } } os)) g) :
    RunsSlip i s os wr g n := by
  have hcur : (State.latchAll { s with issue := { s.issue with need := n } } os).cur = (s.latchAll os).cur := by
    rw [State.latchAll_needing]
    show (s.latchAll os).ctx s.issue.core s.issue.bank = _
    rw [State.cur, State.latchAll_issue]
  generalize hs : ({ s with issue := { s.issue with need := n } } : State) = u at he h hb hcur
  have hi : u.issue = { s.issue with need := n } := by rw [← hs]
  have hbi : (body (u.latchAll os)).issue = u.issue := hb.issue.trans (u.latchAll_issue os)
  have hel : Elsewhere s (body (u.latchAll os)) := by
    refine (Elsewhere.needs s n).trans ?_
    rw [hs]
    exact (Elsewhere.latchAll u os).trans hb.elsewhere
  have hbc : (body (u.latchAll os)).cur = g (s.latchAll os).cur := hb.cur.trans (congrArg g hcur)
  by_cases hl : s.issue.late.isSome = true
  · refine ⟨_, he.trans (u.slipped_late os wr body h (by rw [hi]; exact hl)), hel, ?_⟩
    rw [if_pos hl, hbc]
  · have ha : AtHand u os wr := h.at_.resolve_left (by rw [hi]; exact hl)
    refine ⟨_, he.trans (u.slipped_ready os wr body h ha ?_ ?_ ?_ ?_), hel.trans (Elsewhere.modCur _ _), ?_⟩
    · rw [hbi, ha.commit]
    · rw [hbi, ha.plain]
    · rw [hbi]
    · rw [hbi]
    · rw [if_neg hl, State.enqueue_cur, hbc, hbi, hi]
      rfl

/-- The same of an operation that needs nothing more than it did. -/
theorem runsSlip_of_slipped_becomes {i : Instr} {s : State} {os : List Opd} {wr : List Reg} {body : State → State} {g : Ctx → Ctx}
    (he : exec i s = s.slipped true os wr body) (h : ReadySlip s os wr)
    (hb : (s.latchAll os).Becomes (body (s.latchAll os)) g) : RunsSlip i s os wr g :=
  runsSlip_of_becomes he h hb

/-- An operation of the M slot whose body changes its bank only. -/
theorem runsM_of_becomes {i : Instr} {s : State} {srcs : List (TSrc × Nat)} {dsts : List (BitVec 6 × Nat)} {rd : List Opd} {wr : List Reg}
    {body : List Nat → List Nat → State → State} {g : Ctx → Ctx}
    (he : exec i s = s.mOp (srcs.map (·.1)) (dsts.map (·.1)) rd wr body) (h : ReadyM s srcs dsts rd wr)
    (hb : ∀ t : State, t.issue.pre = s.issue.pre → t.Becomes (body (srcs.map (·.2)) (dsts.map (·.2)) t) g) :
    RunsM i s srcs dsts rd wr g :=
  runsSlip_of_becomes (he.trans (State.mOp_ready h body)) h.slips
    (hb (latchedM s srcs rd) (by rw [latchedM_issue]))

end Sys2Proof.Machine
end

section
/-! SUPPORT. O6: lane operations of one, two and three sources of one tag, lane by lane (R101, R182, R183). -/
namespace Sys2Proof.Machine

/-! Tags (R101, R182) -/

theorem fmtOf_tagged {s : State} {f : SR} {os : List Opd} {ok : Fmt → Bool} {g : Fmt} (h : Tagged s f os ok g) :
    fmtOf f = .raw ∨ fmtOf f = g := by
  obtain ⟨-, -, h0 | hg⟩ := h
  · exact .inl (by rw [fmtOf, h0]; rfl)
  · exact .inr (by rw [fmtOf, hg]; rfl)

/-- A source of an accepted tag, which FMT names if it names any, passes its check. -/
theorem State.badTag_none {s : State} {o : Opd} {fmt g : Fmt} {ok : Fmt → Bool} (ht : (s.srcV o).tag = g) (hg : g ≠ .poison)
    (hok : ok g = true) (hf : fmt = .raw ∨ fmt = g) : s.badTag o fmt ok = none := by
  rcases hf with hf | hf <;> simp [State.badTag, ht, hg, hok, hf]

/-- Sources of one accepted tag pass their checks. -/
theorem State.badTags_none {s : State} {os : List Opd} {fmt g : Fmt} {ok : Fmt → Bool} (ht : ∀ o ∈ os, (s.srcV o).tag = g)
    (hg : g ≠ .poison) (hok : ok g = true) (hf : fmt = .raw ∨ fmt = g) : s.badTags os fmt ok = none := by
  unfold State.badTags
  rw [List.findSome?_eq_none_iff.mpr fun o ho => State.badTag_none (ht o ho) hg hok hf]
  cases os with
  | nil => rfl
  | cons o r =>
    have hr : r.find? (fun q => decide ((s.srcV q).tag ≠ (s.srcV o).tag)) = none := by
      rw [List.find?_eq_none]
      intro q hq
      simp [ht q (List.mem_cons_of_mem _ hq), ht o List.mem_cons_self]
    simp only [hr]

theorem Tagged.passes {s : State} {f : SR} {os : List Opd} {ok : Fmt → Bool} {g : Fmt} (h : Tagged s f os ok g)
    (hp : ok .poison = false) : s.badTags os (fmtOf f) ok = none := by
  have hf := fmtOf_tagged h
  obtain ⟨ht, hok, -⟩ := h
  refine State.badTags_none ht ?_ hok hf
  rintro rfl
  rw [hp] at hok
  cases hok

/-- A lane operation whose check passes slips with its body. -/
theorem State.vOp_passes (s : State) (os : List Opd) (wr : List Reg) {check : Option State} (body : State → State) (h : check = none) :
    s.vOp false os wr check body = s.slipped true os wr body := by
  subst h
  rfl

/-- A whole operation that is active slips with its body. -/
theorem State.vOp_whole_passes (s : State) (os : List Opd) (wr : List Reg) {check : Option State} (body : State → State) (h : check = none)
    (ha : s.active = true) : s.vOp true os wr check body = s.slipped true os wr body := by
  subst h
  unfold State.vOp
  rw [ha]
  rfl

/-! Lanes (R99, R182, R183) -/

/-- The elements of a register are its lanes in order. -/
theorem VReg.elems_eq (r : VReg) (g : Fmt) : r.elems g = (List.range g.lanes).map (laneAt g r) := rfl

theorem VReg.merge_keepsOrWrites (old : VReg) (g : Fmt) (cond : Word) {new : List Nat} {op : Nat → Nat}
    (h : ∀ i < g.lanes, new.getD i 0 = op i) : KeepsOrWrites cond g old (old.merge g cond new) op := by
  refine ⟨rfl, rfl, fun i hi => ?_⟩
  rw [← h i hi]
  exact VReg.merge_lane old g cond new i hi

theorem getD_map_range {α : Type} (d : α) (n : Nat) (op : Nat → α) {i : Nat} (h : i < n) : ((List.range n).map op).getD i d = op i := by
  simp [List.getD, h]

/-- A slipping operation that writes v[D] under the keep rule. -/
theorem runsSlip_vMerge {i : Instr} {s : State} {os : List Opd} {d : Nat} {g : Fmt} {new : List Nat} {op : Nat → Nat}
    (h : ReadySlip s os [.v d]) (he : exec i s = s.slipped true os [.v d] fun t => s.vMerge t d g new)
    (hn : ∀ j < g.lanes, new.getD j 0 = op j) :
    ∃ r, KeepsOrWrites s.issue.cond g (s.issue.pre.getV d) r op ∧ RunsSlip i s os [.v d] fun k => k.setV d r :=
  ⟨_, VReg.merge_keepsOrWrites _ g _ hn, runsSlip_of_slipped i s os _ _ he h⟩

theorem State.v1_lanes {mk : SR → Instr} {ok : Fmt → Bool} {op fn : SR → Fmt → Nat → Nat} (he : ∀ f s, exec (mk f) s = s.v1 f ok (fn f))
    (hp : ok .poison = false) (hop : ∀ f g a, fn f g a = op f g a) : Lanes1 mk ok op := by
  intro f s g h ht
  have hg : (s.srcV (opA .v f)).tag = g := ht.1 _ (by simp)
  refine runsSlip_vMerge h (new := ((s.srcV (opA .v f)).elems g).map (fn f g)) ?_ fun i hi => ?_
  · rw [he, State.v1, State.vOp_passes _ _ _ _ (ht.passes hp), hg]
  · rw [VReg.elems_eq, List.map_map, getD_map_range _ _ _ hi]
    exact hop ..

theorem State.v2_lanes {mk : SR → Instr} {ok : Fmt → Bool} {op fn : SR → Fmt → Nat → Nat → Nat}
    (he : ∀ f s, exec (mk f) s = s.v2 f ok (fn f)) (hp : ok .poison = false) (hop : ∀ f g a b, fn f g a b = op f g a b) :
    Lanes2 mk ok op := by
  intro f s g h ht
  have hg : (s.srcV (opA .v f)).tag = g := ht.1 _ (by simp)
  refine runsSlip_vMerge h (new := List.zipWith (fn f g) ((s.srcV (opA .v f)).elems g) ((s.srcV (opB .v f)).elems g)) ?_ fun i hi => ?_
  · rw [he, State.v2, State.vOp_passes _ _ _ _ (ht.passes hp), hg]
  · rw [VReg.elems_eq, VReg.elems_eq, List.zipWith_map, List.zipWith_self, getD_map_range _ _ _ hi]
    exact hop ..

theorem State.v3_lanes {mk : SR → Instr} {ok : Fmt → Bool} {op fn : SR → Fmt → Nat → Nat → Nat → Nat}
    (he : ∀ f s, exec (mk f) s = s.v3 f ok (fn f)) (hp : ok .poison = false) (hop : ∀ f g a b c, fn f g a b c = op f g a b c) :
    Lanes3 mk ok op := by
  intro f s g h ht
  have hg : (s.srcV (opA .v f)).tag = g := ht.1 _ (by simp)
  refine runsSlip_vMerge h (new := List.zipWith (fun p z => fn f g p.1 p.2 z)
    (((s.srcV (opA .v f)).elems g).zip ((s.srcV (opB .v f)).elems g)) ((s.srcV (opC .v f)).elems g)) ?_ fun i hi => ?_
  · rw [he, State.v3, State.vOp_passes _ _ _ _ (ht.passes hp), hg]
  · rw [VReg.elems_eq, VReg.elems_eq, VReg.elems_eq, List.zip_map', List.zipWith_map, List.zipWith_self, getD_map_range _ _ _ hi]
    exact hop ..

/-! The operations (R184 to R187) -/

/-- A lane's result by its class: rounded, or fitted to the integer format. -/
theorem floatOrInt_eq (f : SR) (g : Fmt) (x : Num) (i : Int) :
    floatOrInt f g x i = if g.isFloat then fitNum g (RM.ofRnd f.rnd) (f.sat = 1) x else fitInt g (f.sat = 1) i := by
  unfold floatOrInt fitInt
  cases g.intBits with
  | none => rfl
  | some p => simp only [fitNum, decide_eq_true_eq]

theorem laneOp2_eq (f : SR) (fl : RM → Num → Num → Num) (it : Int → Int → Int) (g : Fmt) (a b : Nat) :
    laneOp2 f fl it g a b =
      floatOrInt f g (fl (RM.ofRnd f.rnd) (Num.ofElem g a) (Num.ofElem g b)) (it (laneInt g a) (laneInt g b)) :=
  (floatOrInt_eq ..).symm

theorem laneOp3_eq (f : SR) (fl : RM → Num → Num → Num → Num) (it : Int → Int → Int → Int) (g : Fmt) (a b c : Nat) :
    laneOp3 f fl it g a b c = floatOrInt f g (fl (RM.ofRnd f.rnd) (Num.ofElem g a) (Num.ofElem g b) (Num.ofElem g c))
      (it (laneInt g a) (laneInt g b) (laneInt g c)) :=
  (floatOrInt_eq ..).symm

theorem exec_vabs (v : VSlot) (f : SR) (s : State) : exec (.vabs v f) s = s.v1 f Fmt.isArith fun g a =>
    if g.isFloat then fitNum g .rne false (Num.abs (Num.ofElem g a)) else fitInt g (f.sat = 1) (laneInt g a).natAbs := rfl

theorem exec_vneg (v : VSlot) (f : SR) (s : State) : exec (.vneg v f) s = s.v1 f Fmt.isArith fun g a =>
    if g.isFloat then fitNum g .rne false (Num.neg (Num.ofElem g a)) else fitInt g (f.sat = 1) (-(laneInt g a)) := rfl

theorem exec_vdiv (f : SR) (s : State) : exec (.vdiv f) s = s.v2 f Fmt.isFloat fun g a b =>
    divLane g (RM.ofRnd f.rnd) (f.sat = 1) (Num.ofElem g a) (Num.ofElem g b) := rfl

/-- Settles O6: one lemma for each number of sources, and what each operation makes of one lane. -/
theorem laneArithmeticResults : Obligations.LaneArithmeticResults := by
  refine ⟨?add, ?sub, ?mul, ?fma, ?fms, ?min, ?max, ?abs, ?neg, ?div, ?rcp, ?rsq, ?exp2, ?log2⟩
  case add => exact fun v => State.v2_lanes (fun _ _ => rfl) rfl fun f g a b => laneOp2_eq f _ _ g a b
  case sub => exact fun v => State.v2_lanes (fun _ _ => rfl) rfl fun f g a b => laneOp2_eq f _ _ g a b
  case mul => exact fun v => State.v2_lanes (fun _ _ => rfl) rfl fun f g a b => laneOp2_eq f _ _ g a b
  case fma => exact fun v => State.v3_lanes (fun _ _ => rfl) rfl fun f g a b c => laneOp3_eq f _ _ g a b c
  case fms => exact fun v => State.v3_lanes (fun _ _ => rfl) rfl fun f g a b c => laneOp3_eq f _ _ g a b c
  case min => exact fun v => State.v2_lanes (fun _ _ => rfl) rfl fun f g a b => by rw [laneOp2_eq, min_comm, min_def_lt]
  case max => exact fun v => State.v2_lanes (fun _ _ => rfl) rfl fun f g a b => by rw [laneOp2_eq, max_def_lt]
  case abs =>
    refine fun v => State.v1_lanes (fun f s => exec_vabs v f s) rfl fun f g a => ?_
    split
    · rfl
    · rw [floatOrInt_eq, if_neg ‹_›, Int.natCast_natAbs]
  case neg =>
    refine fun v => State.v1_lanes (fun f s => exec_vneg v f s) rfl fun f g a => ?_
    split
    · rfl
    · rw [floatOrInt_eq, if_neg ‹_›]
  case div => exact State.v2_lanes exec_vdiv rfl fun _ _ _ _ => rfl
  case rcp => exact fun v => State.v1_lanes (fun _ _ => rfl) rfl fun _ _ _ => rfl
  case rsq => exact fun v => State.v1_lanes (fun _ _ => rfl) rfl fun _ _ _ => rfl
  case exp2 => exact fun v => State.v1_lanes (fun _ _ => rfl) rfl fun _ _ _ => rfl
  case log2 => exact fun v => State.v1_lanes (fun _ _ => rfl) rfl fun _ _ _ => rfl

end Sys2Proof.Machine
end

section
/-! SUPPORT. The total order of numbers that are no NaN (R125, R197): by value, and −0 below +0. -/
namespace Sys2Proof.Num

/-- The value of a finite number. -/
def finValue (s : Bool) (m : Nat) (e : Int) : ℚ := signed s m * 2 ^ e

/-- The value of a number that is no NaN. -/
def value : Num → WithBot (WithTop ℚ)
  | .nan => 0
  | .inf true => ⊥
  | .inf false => (⊤ : WithTop ℚ)
  | .fin s m e => (finValue s m e : WithTop ℚ)

/-- Where a number stands in the total order. -/
def rank (a : Num) : WithBot (WithTop ℚ) ×ₗ Bool := toLex (a.value, !(a.isZero && a.isNeg))

/-- A mantissa in units of a smaller power of two. -/
theorem signed_mul_zpow (s : Bool) (m : Nat) {e k : Int} (h : k ≤ e) :
    ((signed s (m * 2 ^ (e - k).toNat) : Int) : ℚ) * 2 ^ k = finValue s m e := by
  have hp : (2 : ℚ) ^ (e - k).toNat * 2 ^ k = 2 ^ e := by
    rw [← zpow_natCast, Int.toNat_of_nonneg (Int.sub_nonneg.mpr h), ← zpow_add₀ two_ne_zero, Int.sub_add_cancel]
  cases s <;> simp [finValue, signed, mul_assoc, hp]

theorem lt_fin_iff (a b : Bool) (m n : Nat) (e f : Int) :
    lt (.fin a m e) (.fin b n f) = true ↔ finValue a m e < finValue b n f := by
  rw [← signed_mul_zpow a m (min_le_left e f), ← signed_mul_zpow b n (min_le_right e f), mul_lt_mul_iff_left₀ (by positivity),
    Int.cast_lt]
  exact decide_eq_true_iff

theorem lt_iff_value {a b : Num} (ha : a ≠ .nan) (hb : b ≠ .nan) : lt a b = true ↔ a.value < b.value := by
  match a, b, ha, hb with
  | .inf true, .inf true, _, _ => simp [lt, value]
  | .inf true, .inf false, _, _ => simp [lt, value]
  | .inf false, .inf true, _, _ => simp [lt, value]
  | .inf false, .inf false, _, _ => simp [lt, value]
  | .inf true, .fin _ _ _, _, _ => simp [lt, value, WithBot.bot_lt_coe]
  | .inf false, .fin _ _ _, _, _ => simp [lt, value]
  | .fin _ _ _, .inf true, _, _ => simp [lt, value]
  | .fin _ _ _, .inf false, _, _ => exact iff_of_true rfl (WithBot.coe_lt_coe.mpr (WithTop.coe_lt_top _))
  | .fin a m e, .fin b n f, _, _ => rw [lt_fin_iff, value, value, WithBot.coe_lt_coe, WithTop.coe_lt_coe]

theorem eq_of_ne_nan {a b : Num} (ha : a ≠ .nan) (hb : b ≠ .nan) : eq a b = (!lt a b && !lt b a) := by
  match a, b, ha, hb with
  | .inf _, .inf _, _, _ | .inf _, .fin _ _ _, _, _ | .fin _ _ _, .inf _, _, _ | .fin _ _ _, .fin _ _ _, _, _ => rfl

theorem eq_iff_value {a b : Num} (ha : a ≠ .nan) (hb : b ≠ .nan) : eq a b = true ↔ a.value = b.value := by
  simp only [eq_of_ne_nan ha hb, Bool.and_eq_true, Bool.not_eq_true', ← Bool.not_eq_true, lt_iff_value ha hb, lt_iff_value hb ha, not_lt]
  rw [and_comm, ← le_antisymm_iff]

theorem isZero_fin (s : Bool) (m : Nat) (e : Int) : (Num.fin s m e).isZero = true ↔ m = 0 := by
  cases m <;> simp [isZero]

theorem finValue_eq_zero (s : Bool) (m : Nat) (e : Int) : finValue s m e = 0 ↔ m = 0 := by
  rw [finValue, mul_eq_zero, or_iff_left (zpow_ne_zero _ two_ne_zero)]
  cases s <;> simp [signed]

theorem isZero_iff_value {a : Num} (ha : a ≠ .nan) : a.isZero = true ↔ a.value = ((0 : ℚ) : WithTop ℚ) := by
  match a, ha with
  | .inf true, _ => simp [isZero, value]
  | .inf false, _ => exact iff_of_false Bool.false_ne_true fun h => WithTop.top_ne_coe (WithBot.coe_inj.mp h)
  | .fin s m e, _ => rw [isZero_fin, value, WithBot.coe_inj, WithTop.coe_inj, finValue_eq_zero]

/-- The total order is the order of ranks. -/
theorem ltTotal_iff_rank {a b : Num} (ha : a ≠ .nan) (hb : b ≠ .nan) : ltTotal a b = true ↔ a.rank < b.rank := by
  have hz : a.value = b.value → (a.isZero = b.isZero) := fun h => by
    rw [Bool.eq_iff_iff, isZero_iff_value ha, isZero_iff_value hb, h]
  unfold ltTotal rank
  rw [Prod.Lex.toLex_lt_toLex, Bool.or_eq_true, lt_iff_value ha hb]
  refine or_congr_right ?_
  simp only [Bool.and_eq_true, eq_iff_value ha hb, and_assoc]
  refine and_congr_right fun h => ?_
  rw [hz h]
  cases b.isZero <;> cases a.isNeg <;> cases b.isNeg <;> decide

theorem ltTotal_eq_false_iff_rank {a b : Num} (ha : a ≠ .nan) (hb : b ≠ .nan) : ltTotal a b = false ↔ b.rank ≤ a.rank := by
  rw [← Bool.not_eq_true, ltTotal_iff_rank ha hb, not_lt]

end Sys2Proof.Num
end

section
/-! SUPPORT. O10: reduction trees, the scan, the index of the largest lane, compression (R138, R139, R193 to R196). -/
namespace Sys2Proof.Machine

/-! Reductions, the scan and compression (R138, R139, R193, R194, R196) -/

theorem mapIdx_map_range {α β : Type} (n : Nat) (h : Nat → α) (F : Nat → α → β) :
    ((List.range n).map h).mapIdx F = (List.range n).map fun i => F i (h i) :=
  List.ext_getElem (by simp) fun i _ _ => by simp

/-- The lanes that a reduction takes: identities where the condition is off (R138). -/
theorem maskedLanes_eq (cond : Word) (g : Fmt) (ident : Nat) (r : VReg) :
    maskedLanes cond g ident r = (List.range g.lanes).map fun i => if laneOn cond g.lanes i then laneAt g r i else ident := by
  rw [maskedLanes, VReg.elems_eq, mapIdx_map_range]

theorem State.vReduce_reduces {mk : SR → Instr} {op : SR → Fmt → Nat → Nat → Nat} {ident : Fmt → Nat}
    (he : ∀ f s, exec (mk f) s = s.vReduce f (op f) ident) : LaneReduction mk op ident := by
  intro f s g h ht
  have hg : (s.srcV (opA .v f)).tag = g := ht.1 _ (by simp)
  have hx := he f s
  rw [State.vReduce, State.vOp_passes _ _ _ _ (ht.passes rfl), hg] at hx
  dsimp only at hx
  rw [maskedLanes_eq] at hx
  refine ⟨_, rfl, fun hbc => ?_, fun hbc => ?_⟩
  · simp only [hbc, if_true] at hx h
    exact runsSlip_of_slipped _ s _ _ _ hx h
  · simp only [hbc, Bool.false_eq_true, if_false] at hx h
    exact runsSlip_of_slipped _ s _ _ _ hx h

/-- The active lanes, packed from lane 0 on (R196). -/
theorem execVcmpr_packs (f : SR) (s : State) (g : Fmt) (h : ReadySlip s [opA .v f] [.v f.d.toNat])
    (ht : Tagged s f [opA .v f] (fun t => t.isUnscaled && decide (8 ≤ t.width)) g) :
    RunsSlip (.vcmpr f) s [opA .v f] [.v f.d.toNat] fun k => k.setV f.d.toNat
      ⟨g, packLanes g.width (((List.range g.lanes).filter fun i => laneOn s.issue.cond g.lanes i).map
        fun i => g.clean (laneAt g (s.srcV (opA .v f)) i)), 0⟩ := by
  have hg : (s.srcV (opA .v f)).tag = g := ht.1 _ (by simp)
  refine runsSlip_of_slipped _ s _ _ _ ?_ h
  show execVcmpr f s = _
  rw [execVcmpr, State.vOp_passes _ _ _ _ (ht.passes rfl), hg]
  dsimp only
  rw [VReg.elems_eq, mapIdx_map_range, List.filter_map, List.map_map]
  rfl

/-! The index of the largest lane (R195) -/

/-- One lane more: a NaN is passed over, and the first of equal lanes stays. -/
def argStep (b : Option (Nat × Num)) (x : Nat × Num) : Option (Nat × Num) :=
  if x.2 = .nan then b
  else
    match b with
    | none => some x
    | some y => if Num.ltTotal y.2 x.2 then some x else b

theorem argMax_eq (xs : List (Nat × Num)) : argMax xs = (xs.foldl argStep none).map (·.1) := rfl

/-- The largest of the lanes seen, and the first of those: none while all are NaN. -/
def Largest (seen : List (Nat × Num)) : Option (Nat × Num) → Prop
  | none => ∀ z ∈ seen, z.2 = .nan
  | some y => y ∈ seen ∧ y.2 ≠ .nan ∧ ∀ z ∈ seen, z.2 ≠ .nan → z.2.rank ≤ y.2.rank ∧ (z.1 < y.1 → z.2.rank < y.2.rank)

theorem Largest.step {seen : List (Nat × Num)} {b : Option (Nat × Num)} (h : Largest seen b) (x : Nat × Num)
    (hx : ∀ z ∈ seen, z.1 < x.1) : Largest (seen ++ [x]) (argStep b x) := by
  unfold argStep
  by_cases hn : x.2 = .nan
  · rw [if_pos hn]
    cases b with
    | none => exact List.forall_mem_append.mpr ⟨h, List.forall_mem_singleton.mpr hn⟩
    | some y =>
      obtain ⟨hm, hy, hall⟩ := h
      exact ⟨List.mem_append_left _ hm, hy, List.forall_mem_append.mpr ⟨hall, List.forall_mem_singleton.mpr fun h0 => absurd hn h0⟩⟩
  · rw [if_neg hn]
    have hself : x.2.rank ≤ x.2.rank ∧ (x.1 < x.1 → x.2.rank < x.2.rank) := ⟨le_rfl, fun h0 => absurd h0 (lt_irrefl _)⟩
    cases b with
    | none =>
      refine ⟨List.mem_append_right _ (List.mem_singleton_self x), hn, List.forall_mem_append.mpr ⟨fun z hz h0 => absurd (h z hz) h0, ?_⟩⟩
      exact List.forall_mem_singleton.mpr fun _ => hself
    | some y =>
      obtain ⟨hm, hy, hall⟩ := h
      dsimp only
      split
      next hlt =>
        rw [Num.ltTotal_iff_rank hy hn] at hlt
        refine ⟨List.mem_append_right _ (List.mem_singleton_self x), hn, List.forall_mem_append.mpr ⟨fun z hz h0 => ?_, ?_⟩⟩
        · have hzx : z.2.rank < x.2.rank := (hall z hz h0).1.trans_lt hlt
          exact ⟨hzx.le, fun _ => hzx⟩
        · exact List.forall_mem_singleton.mpr fun _ => hself
      next hge =>
        rw [Num.ltTotal_iff_rank hy hn, not_lt] at hge
        refine ⟨List.mem_append_left _ hm, hy, List.forall_mem_append.mpr ⟨hall, List.forall_mem_singleton.mpr fun _ => ?_⟩⟩
        exact ⟨hge, fun h0 => absurd h0 (hx y hm).asymm⟩

theorem largest_foldl (xs : List (Nat × Num)) (h : xs.Pairwise fun a b => a.1 < b.1) : Largest xs (xs.foldl argStep none) := by
  induction xs using List.reverseRecOn with
  | nil => exact fun z hz => absurd hz List.not_mem_nil
  | append_singleton xs x ih =>
    obtain ⟨hp, -, hx⟩ := List.pairwise_append.mp h
    rw [List.foldl_append]
    exact (ih hp).step x fun z hz => hx z hz x (List.mem_singleton_self x)

/-- What VARGMX writes of an index that it found, or did not find. -/
def argWord : Option Nat → Word
  | some i => word i
  | none => -1

/-- The active lanes with their indexes. -/
def activeLanes (cond : Word) (g : Fmt) (r : VReg) : List (Nat × Num) :=
  ((List.range g.lanes).filter fun i => laneOn cond g.lanes i).map fun i => (i, Num.ofElem g (laneAt g r i))

theorem activeLanes_eq (cond : Word) (g : Fmt) (r : VReg) :
    (((r.elems g).mapIdx fun i e => (i, Num.ofElem g e)).filter fun x => laneOn cond g.lanes x.1) = activeLanes cond g r := by
  rw [VReg.elems_eq, mapIdx_map_range, List.filter_map]
  rfl

theorem activeLanes_pairwise (cond : Word) (g : Fmt) (r : VReg) : (activeLanes cond g r).Pairwise fun a b => a.1 < b.1 :=
  List.pairwise_map.mpr (List.pairwise_lt_range.filter _)

theorem mem_activeLanes {cond : Word} {g : Fmt} {r : VReg} {x : Nat × Num} : x ∈ activeLanes cond g r ↔
    ∃ i < g.lanes, laneOn cond g.lanes i = true ∧ x = (i, Num.ofElem g (laneAt g r i)) := by
  simp only [activeLanes, List.mem_map, List.mem_filter, List.mem_range, and_assoc, eq_comm]

theorem exec_vargmx (f : SR) (s : State) : exec (.vargmx f) s =
    s.vOp false [opA .v f] [.x f.d.toNat] (s.badTags [opA .v f] (fmtOf f) Fmt.isArith) fun t => t.putX f.d.toNat
      (argWord (argMax ((((s.srcV (opA .v f)).elems (s.srcV (opA .v f)).tag).mapIdx fun i e =>
        (i, Num.ofElem (s.srcV (opA .v f)).tag e)).filter fun x => laneOn s.issue.cond (s.srcV (opA .v f)).tag.lanes x.1))) := rfl

/-- Settles O10: the trees and the scan on masked lanes, the largest lane by the order of ranks. -/
theorem reductionsAndScans : Obligations.ReductionsAndScans := by
  refine ⟨State.vReduce_reduces fun _ _ => rfl, State.vReduce_reduces (op := fun _ => maxLane) fun _ _ => rfl,
    State.vReduce_reduces (op := fun _ => minLane) fun _ _ => rfl, fun f s g h ht => ?scan, fun f s g h ht => ?arg, execVcmpr_packs⟩
  case scan =>
    have hg : (s.srcV (opA .v f)).tag = g := ht.1 _ (by simp)
    refine runsSlip_vMerge h ?_ fun _ _ => rfl
    show execVscan f s = _
    rw [execVscan, State.vOp_passes _ _ _ _ (ht.passes rfl), hg]
  case arg =>
    have hg : (s.srcV (opA .v f)).tag = g := ht.1 _ (by simp)
    have hx := exec_vargmx f s
    rw [State.vOp_passes _ _ _ _ (ht.passes rfl), hg, activeLanes_eq, argMax_eq] at hx
    have hl := largest_foldl _ (activeLanes_pairwise s.issue.cond g (s.srcV (opA .v f)))
    refine ⟨_, ?_, ?_, runsSlip_of_slipped _ s _ _ _ hx h⟩
    · intro hnan
      cases hb : (activeLanes s.issue.cond g (s.srcV (opA .v f))).foldl argStep none with
      | none => rfl
      | some y =>
        rw [hb] at hl
        obtain ⟨hm, hy, -⟩ := hl
        obtain ⟨i, hi, hon, rfl⟩ := mem_activeLanes.mp hm
        exact absurd (hnan i hi hon) hy
    · intro j hj hon hnn
      have hjm : (j, Num.ofElem g (laneAt g (s.srcV (opA .v f)) j)) ∈ activeLanes s.issue.cond g (s.srcV (opA .v f)) :=
        mem_activeLanes.mpr ⟨j, hj, hon, rfl⟩
      cases hb : (activeLanes s.issue.cond g (s.srcV (opA .v f))).foldl argStep none with
      | none =>
        rw [hb] at hl
        exact absurd (hl _ hjm) hnn
      | some y =>
        rw [hb] at hl
        obtain ⟨hm, hy, hall⟩ := hl
        obtain ⟨i, hi, hion, rfl⟩ := mem_activeLanes.mp hm
        obtain ⟨hle, hlt⟩ := hall _ hjm hnn
        exact ⟨i, hi, rfl, hion, hy, (Num.ltTotal_eq_false_iff_rank hy hnn).mpr hle,
          fun hji => (Num.ltTotal_iff_rank hnn hy).mpr (hlt hji)⟩

end Sys2Proof.Machine
end

section
/-! SUPPORT. O12: conversions by parts with their draws, tags set and read (R127, R199 to R202). -/
namespace Sys2Proof.Machine

/-- A queue that holds enough words gives them, oldest first (R112, R127). -/
theorem State.popWords_pops (t : State) {n : Nat} (h : n ≤ t.cur.rbq.length) :
    t.popWords n = some (t.cur.rbq.take n, t.modCur fun k => { k with rbq := k.rbq.drop n }) := if_neg (Nat.not_lt.mpr h)

@[simp] theorem State.latchAll_rbq (s : State) (os : List Opd) : (s.latchAll os).cur.rbq = s.cur.rbq := by
  have h := congrArg Ctx.rbq (s.latchAll_rest os)
  exact h

/-- A conversion within its parts, of an accepted tag, with its words at hand (R200). -/
theorem State.vConvert_converts {mk : SR → Instr} {ok : Fmt → Bool} {make : SR → State → CvtPlan → List (BitVec 512) → VReg}
    (he : ∀ f s, exec (mk f) s = s.vConvert f ok (make f s)) : LaneConversion mk ok make := by
  intro f s g p n h hg hp hok hplan hn hle
  have hx := he f s
  have htags : s.badTags [opA .v f] .raw ok = none := State.badTags_none (List.forall_mem_singleton.mpr hg) hp hok (.inl rfl)
  unfold State.vConvert at hx
  simp only [hg, hplan, htags, Option.isNone_some, Bool.false_and, Bool.false_eq_true, if_false, ← hn] at hx
  rw [State.vOp_passes _ _ _ _ rfl] at hx
  refine runsSlip_of_slipped_becomes hx h ?_
  rw [State.popWords_pops _ (by rwa [State.latchAll_rbq]), State.latchAll_rbq]
  exact (State.becomes_modCur _ _).trans (State.becomes_modCur _ _)

/-- A tag set: the body stays, and the sidecar bytes that the format uses (R201). -/
theorem execVtag_tags (v : VSlot) (f : SR) (s : State) (h : ReadySlip s [opA .v f] [.v f.d.toNat]) (ha : s.active = true)
    (hp : (s.srcV (opA .v f)).tag ≠ .poison) : RunsSlip (.vtag v f) s [opA .v f] [.v f.d.toNat] fun k => k.setV f.d.toNat
      ⟨fmtOf f, (s.srcV (opA .v f)).body, trimSide (fmtOf f) (s.srcV (opA .v f)).side⟩ := by
  refine runsSlip_of_slipped _ s _ _ _ ?_ h
  show execVtag v f s = _
  unfold execVtag
  exact s.vOp_whole_passes _ _ _ (State.badTag_none rfl hp rfl (.inl rfl)) ha

/-- A tag read, POISON like any other (R202). -/
theorem execVgtag_reads (v : VSlot) (f : SR) (s : State) (h : ReadySlip s [opA .v f] [.x f.d.toNat]) (ha : s.active = true) :
    RunsSlip (.vgtag v f) s [opA .v f] [.x f.d.toNat] fun k => k.setX f.d.toNat ((s.srcV (opA .v f)).tag.code.setWidth 64) := by
  have hcode : (s.srcV (opA .v f)).tag.code.setWidth 64 = word (s.srcV (opA .v f)).tag.code.toNat := (BitVec.ofNat_toNat ..).symm
  rw [hcode]
  refine runsSlip_of_slipped _ s _ _ _ ?_ h
  show execVgtag v f s = _
  unfold execVgtag
  exact s.vOp_whole_passes _ _ _ rfl ha

/-- Settles O12: one lemma for the three conversions; the two tag operations write what their rules say. -/
theorem conversionsAndTags : Obligations.ConversionsAndTags :=
  ⟨fun _ => State.vConvert_converts fun _ _ => rfl, fun _ => State.vConvert_converts fun _ _ => rfl,
    fun _ => State.vConvert_converts fun _ _ => rfl, execVtag_tags, execVgtag_reads⟩

end Sys2Proof.Machine
end

section
/-! SUPPORT. A packed float stands in the bits of its layout (R116, R124, R126). -/
namespace Sys2Proof.Num

/-- A mantissa moved by a power of two stands in the bits that it then reaches to. -/
theorem shifted_lt {n b : Nat} {sh : Int} (h : (n.log2 : Int) + 1 + sh ≤ b) :
    (if 0 ≤ sh then n * 2 ^ sh.toNat else n / 2 ^ (-sh).toNat) < 2 ^ b := by
  have hn : n < 2 ^ (n.log2 + 1) := Nat.lt_log2_self
  split
  · calc n * 2 ^ sh.toNat < 2 ^ (n.log2 + 1) * 2 ^ sh.toNat := Nat.mul_lt_mul_of_pos_right hn (Nat.two_pow_pos _)
      _ = 2 ^ (n.log2 + 1 + sh.toNat) := (Nat.pow_add ..).symm
      _ ≤ 2 ^ b := Nat.pow_le_pow_right two_pos (by omega)
  · rw [Nat.div_lt_iff_lt_mul (Nat.two_pow_pos _), ← Nat.pow_add]
    exact hn.trans_le (Nat.pow_le_pow_right two_pos (by omega))

/-- A sign bit above the bits of a magnitude. -/
theorem sign_add_lt (neg : Bool) {x k : Nat} (h : x < 2 ^ k) : (if neg then 2 ^ k else 0) + x < 2 ^ (k + 1) := by
  rw [Nat.pow_succ]
  split <;> omega

/-- A finite value whose exponent the layout holds. -/
theorem packFinite_lt (l : Layout) (neg : Bool) {n : Nat} {q : Int} (h : n ≠ 0 → q + n.log2 + l.bias < 2 ^ l.ebits) :
    packFinite l neg n q < 2 ^ (l.ebits + l.mbits + 1) := by
  unfold packFinite
  dsimp only
  split
  · exact sign_add_lt neg (Nat.two_pow_pos _)
  · have he := h ‹_›
    split
    · refine sign_add_lt neg ((shifted_lt (b := l.mbits) ?_).trans_le (Nat.pow_le_pow_right two_pos (by omega)))
      omega
    · have hm := shifted_lt (n := n) (b := l.mbits + 1) (sh := (l.mbits : Int) - n.log2) (by omega)
      have hr : (if 0 ≤ (l.mbits : Int) - n.log2 then n * 2 ^ ((l.mbits : Int) - n.log2).toNat
          else n / 2 ^ (-((l.mbits : Int) - n.log2)).toNat) - 2 ^ l.mbits < 2 ^ l.mbits := by
        have := Nat.two_pow_pos l.mbits
        rw [Nat.pow_succ] at hm
        omega
      have hE : (q + n.log2 + l.bias).toNat + 1 ≤ 2 ^ l.ebits := by
        have hc : ((2 ^ l.ebits : Nat) : Int) = 2 ^ l.ebits := by push_cast; rfl
        have := Nat.two_pow_pos l.ebits
        omega
      rw [Nat.add_assoc]
      refine sign_add_lt neg ?_
      calc _ < (q + n.log2 + l.bias).toNat * 2 ^ l.mbits + 2 ^ l.mbits := Nat.add_lt_add_left hr _
        _ = ((q + n.log2 + l.bias).toNat + 1) * 2 ^ l.mbits := (Nat.succ_mul ..).symm
        _ ≤ 2 ^ l.ebits * 2 ^ l.mbits := Nat.mul_le_mul_right _ hE
        _ = 2 ^ (l.ebits + l.mbits) := (Nat.pow_add ..).symm

theorem log2_add_lt {n a b : Nat} (hn : n ≠ 0) (h : n * 2 ^ a < 2 ^ b) : n.log2 + a < b := by
  refine (Nat.pow_lt_pow_iff_right (a := 2) (by decide)).mp ?_
  rw [Nat.pow_add]
  exact (Nat.mul_le_mul_right _ (Nat.log2_self_le hn)).trans_lt h

theorem packFinite_largest_lt (neg : Bool) : packFinite b32 neg (largest b32).1 (largest b32).2 < 2 ^ 32 :=
  packFinite_lt b32 neg fun _ => by decide

theorem packInf_b32_lt (sat neg : Bool) : packInf b32 sat neg < 2 ^ 32 := by
  cases sat <;> cases neg <;> decide

theorem packOverflow_b32_lt (rm : RM) (sat neg : Bool) : packOverflow b32 rm sat neg < 2 ^ 32 := by
  unfold packOverflow
  dsimp only
  split
  · exact packFinite_largest_lt neg
  · have hif (away : Bool) : (if away then packInf b32 false neg else packFinite b32 neg (largest b32).1 (largest b32).2) < 2 ^ 32 := by
      cases away
      · exact packFinite_largest_lt neg
      · exact packInf_b32_lt false neg
    exact hif _

/-- A rounded result that is not beyond the largest binary32 value has an exponent that binary32 holds. -/
theorem exponent_lt_of_le_largest {n : Nat} {q : Int} (hn : n ≠ 0)
    (h : n * 2 ^ (q - min q (largest b32).2).toNat ≤ (largest b32).1 * 2 ^ ((largest b32).2 - min q (largest b32).2).toNat) :
    q + n.log2 + 127 < 256 := by
  have hl : largest b32 = (2 ^ 24 - 1, 104) := by decide
  rw [hl] at h
  have hlt : n * 2 ^ (q - min q 104).toNat < 2 ^ (24 + (104 - min q 104).toNat) := by
    rw [Nat.pow_add]
    exact h.trans_lt (Nat.mul_lt_mul_of_pos_right (by decide) (Nat.two_pow_pos _))
  have := log2_add_lt hn hlt
  omega

theorem packRat_b32_lt (rm : RM) (sat neg : Bool) (num den : Nat) (e : Int) : packRat b32 rm sat neg num den e < 2 ^ 32 := by
  unfold packRat
  dsimp only
  split
  · exact packFinite_lt b32 neg fun h => absurd rfl h
  · split
    · exact packOverflow_b32_lt rm sat neg
    · next h => exact packFinite_lt b32 neg fun hn => exponent_lt_of_le_largest hn (not_lt.mp h)

/-- A binary32 result has 32 bits. -/
theorem pack_b32_lt (rm : RM) (sat : Bool) (x : Num) : pack b32 rm sat x < 2 ^ 32 := by
  cases x with
  | nan => exact (by decide : packNan b32 < 2 ^ 32)
  | inf s => exact packInf_b32_lt sat s
  | fin s m e => exact packRat_b32_lt rm sat s m 1 e

end Sys2Proof.Num
end

section
/-! SUPPORT. O4: binary32 operations of the S slot, and draws from the random queue (R112, R176 to R178). -/
namespace Sys2Proof.Machine

theorem roundF32_lt (f : SR) (x : Num) : (roundF32 f x).toNat < 2 ^ 32 := by
  rw [roundF32, word, BitVec.toNat_ofNat]
  exact (Nat.mod_le _ _).trans_lt (Num.pack_b32_lt _ _ _)

theorem State.sAB_gives {mk : SR → Instr} {op : SR → Word → Word → Word} (he : ∀ f s, exec (mk f) s = s.sAB f (op f)) : GivesAB mk op :=
  fun f s h => runs_of_anchored _ s _ _ _ (he f s) h

theorem State.sA_gives {mk : SR → Instr} {op : SR → Word → Word} (he : ∀ f s, exec (mk f) s = s.sA f (op f)) :
    GivesA mk fun f a v => v = op f a :=
  fun f s h => ⟨_, rfl, runs_of_anchored _ s _ _ _ (he f s) h⟩

/-- A draw takes the oldest word and gives what its low 32 bits make (R178). -/
theorem State.sDraw_draws {i : Instr} {f : SR} {s : State} {op : Nat → Word} {w : BitVec 512} {r : List (BitVec 512)}
    (he : exec i s = s.sDraw f op) (h : Ready s [] [.x f.d.toNat]) (hq : s.cur.rbq = w :: r) :
    Runs i s [] fun k => ({ k with rbq := r }).setX f.d.toNat (op (w.setWidth 32).toNat) := by
  have hpop := s.popWords_pops (n := 1) (by simp [hq])
  refine runs_of_becomes he h ?_
  show s.Becomes (match s.popWords 1 with
    | none => s.holdFor none
    | some (ws, t1) => t1.putX f.d.toNat (op ((ws.getD 0 0).toNat % 2 ^ 32))) _
  rw [hpop, hq, BitVec.toNat_setWidth]
  refine ⟨((s.becomes_modCur _).trans (State.becomes_modCur _ _)).elsewhere, rfl, (State.cur_modCur _ _).trans ?_⟩
  rw [State.cur_modCur, hq]
  rfl

/-- A draw from an empty queue holds the bundle (R112). -/
theorem State.sDraw_waits {f : SR} {s : State} (op : Nat → Word) (h : Ready s [] [.x f.d.toNat]) (hq : s.cur.rbq = []) :
    s.sDraw f op = .next (s.holdFor none) := by
  have hpop : s.popWords 1 = none := by simp [State.popWords, hq]
  unfold State.sDraw
  rw [State.anchored_ready s _ _ _ h]
  show Host.Outcome.next (match s.popWords 1 with
    | none => s.holdFor none
    | some (ws, t1) => t1.putX f.d.toNat (op ((ws.getD 0 0).toNat % 2 ^ 32))) = _
  rw [hpop]

/-- Settles O4: the shapes of two and of one source, one rounding in 32 bits, and the draws. -/
theorem scalarFloatAndRandomDraws : Obligations.ScalarFloatAndRandomDraws := by
  refine ⟨⟨State.sAB_gives fun _ _ => rfl, State.sAB_gives fun _ _ => rfl, State.sAB_gives fun _ _ => rfl, State.sAB_gives fun _ _ => rfl,
    State.sAB_gives fun _ _ => rfl, fun f s h => runs_of_anchored _ s _ _ _ rfl h, roundF32_lt, State.sA_gives fun _ _ => rfl,
    State.sA_gives fun _ _ => rfl⟩, fun f s h => ⟨fun w r hq => ⟨?_, ?_⟩, fun hq => ⟨?_, ?_⟩⟩⟩
  · exact State.sDraw_draws (op := word) rfl h hq
  · exact State.sDraw_draws (f := f) (op := fun n => word (Num.pack Num.b32 .rne false (.fin false (n / 256) (-24)))) rfl h hq
  · exact State.sDraw_waits word h hq
  · exact State.sDraw_waits (fun n => word (Num.pack Num.b32 .rne false (.fin false (n / 256) (-24)))) h hq

end Sys2Proof.Machine
end

section
/-! SUPPORT. Rows and elements of accumulators: what packing writes and reading reads (R99, R102). -/
namespace Sys2Proof.Machine

/-- A field of a number that is cut to N bits, within those bits. -/
theorem field_of_ofNat (n N a w : Nat) (h : a + w ≤ N) : (BitVec.ofNat N n).toNat / 2 ^ a % 2 ^ w = n / 2 ^ a % 2 ^ w := by
  rw [BitVec.toNat_ofNat]
  exact field_of_cut n N a w h

theorem accElem_packAcc (es : List Nat) {j : Nat} (h : j < 128) : accElem (packAcc es) j = es.getD j 0 % 2 ^ 32 := by
  rw [accElem, packAcc, field_of_ofNat _ _ _ _ (by omega), packed_lane]

/-- The rows below h are made anew, and the others stay. -/
theorem Acc.row_mapRows (a : Acc) (h : Nat) (f : Nat → Nat → Nat → Nat) {i : Nat} (hi : i < 128) :
    (a.mapRows h f).row i = if i < h then packAcc ((List.range 128).map fun j => f i j (accElem (a.row i) j)) else a.row i := by
  unfold Acc.mapRows
  show Sparse.get 0 (Sparse.run 0 0 _) i = _
  rw [Sparse.get_run _ _ _ _ (Nat.zero_le i) (by simpa using hi), Nat.sub_zero, getD_map_range _ _ _ hi]

theorem Acc.elem_mapRows (a : Acc) {h : Nat} (f : Nat → Nat → Nat → Nat) {i j : Nat} (hi : i < 128) (hh : i < h) (hj : j < 128) :
    accElem ((a.mapRows h f).row i) j = f i j (accElem (a.row i) j) % 2 ^ 32 := by
  rw [a.row_mapRows h f hi, if_pos hh, accElem_packAcc _ hj, getD_map_range _ _ _ hj]

end Sys2Proof.Machine
end

section
/-! SUPPORT. O14: multiplies of two tiles; the dot products of INT8 rows (R134, R136, R208, R209). -/
namespace Sys2Proof.Machine

/-! Two tiles (R209) -/

theorem State.badTile_none {s t : State} {n : Nat} (hpre : t.issue.pre = s.issue.pre) (h : (s.tileIn n).tag ≠ .poison) :
    t.badTile n = none := by
  unfold State.badTile State.tileIn
  rw [hpre]
  exact if_neg h

theorem exec_mma_tiles (f : MX) (s : State) (h : f.bm = 0) : exec (.mma f) s = s.mmaTiles f := if_neg (by simp [h])

theorem exec_mmam_tiles (f : MX) (s : State) (h : f.bm = 0) (hk : f.kv ≠ 3) : exec (.mmam f) s = s.mmaTiles f :=
  (if_neg hk).trans (if_neg (by simp [h]))

/-- A multiply of two tiles of an accepted pair, with an accumulator to add into. -/
theorem State.mmaTiles_multiplies {i : Instr} {f : MX} {s : State} {na nb : Nat} {c : MClass} {acc : Acc} (he : exec i s = s.mmaTiles f)
    (h : ReadyM s [(tA f, na), (tB f, nb)] [] [] [.a f.acc.toNat]) (ha : (s.tileIn na).tag ≠ .poison) (hb : (s.tileIn nb).tag ≠ .poison)
    (hc : pairClass (s.tileIn na).tag (s.tileIn nb).tag = some c)
    (hacc : AddsInto s c f.acc.toNat (f.za = 1) (residueCharge (s.tileIn na).tag) acc) :
    RunsM i s [(tA f, na), (tB f, nb)] [] [] [.a f.acc.toNat] fun k =>
      k.setA f.acc.toNat (accumulate c (s.tileIn na).tag (s.tileIn nb).tag (rowsOf f.hr) (s.tileIn na) (s.tileIn nb) acc) := by
  refine runsM_of_becomes he h fun t hpre => ?_
  have hm := State.mmaAcc_adds (t := t) hpre hc hacc
  simp only [List.map_cons, List.map_nil, List.getD_cons_zero, List.getD_cons_succ, State.badTile_none hpre ha, State.badTile_none hpre hb,
    List.findSome?_cons, List.findSome?_nil, id_eq, hm]
  exact t.becomes_modCur _

/-! INT8 rows (R134, R136) -/

theorem intOfBits_int8 (e : Nat) : Num.intOfBits 8 true e = (BitVec.ofNat 8 e).toInt := by
  unfold Num.intOfBits
  rw [BitVec.toInt_eq_toNat_cond, BitVec.toNat_ofNat]
  simp only [Bool.true_and, decide_eq_true_eq]
  split <;> split <;> omega

theorem intRow_int8 (row : BitVec 1728) : intRow .int8 row = (List.range 192).map fun k => (BitVec.ofNat 8 (rowElem .int8 row k)).toInt := by
  show (rowElems .int8 row).map (Num.intOfBits 8 true) = _
  rw [rowElems, List.map_map]
  exact List.map_congr_left fun k _ => intOfBits_int8 _

/-- The dot product of two INT8 rows. -/
theorem intDot_int8 (p q : BitVec 1728) : intDot (intRow .int8 p) (intRow .int8 q) = ((List.range 192).map fun k =>
    (BitVec.ofNat 8 (rowElem .int8 p k)).toInt * (BitVec.ofNat 8 (rowElem .int8 q k)).toInt).sum := by
  rw [intDot, intRow_int8, intRow_int8, List.zipWith_map, List.zipWith_self, List.sum_eq_foldl]

theorem combineInt_cast (a b : List Int) (e : Nat) : ((combineInt a b e : Nat) : Int) = (e + intDot a b) % 2 ^ 32 := by
  unfold combineInt Num.bitsOfInt
  rw [Int.toNat_of_nonneg (Int.emod_nonneg _ (by decide))]
  rfl

/-- An element of an integer multiply: the sum modulo 2^32 (R136). -/
theorem accElem_accumulate_integer (fa fb : Fmt) {h : Nat} (ra rb : Tile) (acc : Acc) {i j : Nat} (hi : i < 128) (hh : i < h) (hj : j < 128) :
    (accElem ((accumulate .integer fa fb h ra rb acc).row i) j : Int) =
      (accElem (acc.row i) j + intDot (intRow fa (ra.row i)) (intRow fb (rb.row j))) % 2 ^ 32 := by
  unfold accumulate
  rw [Acc.elem_mapRows _ _ hi hh hj]
  show ((combineInt ((((List.range h).map ra.row).map (intRow fa)).getD i [])
    ((((List.range 128).map rb.row).map (intRow fb)).getD j []) (accElem (acc.row i) j) % 2 ^ 32 : Nat) : Int) = _
  rw [List.map_map, List.map_map, getD_map_range _ _ _ hh, getD_map_range _ _ _ hj, Int.natCast_mod, combineInt_cast]
  exact Int.emod_emod_of_dvd _ (dvd_refl _)

theorem AddsInto.uncharged {s : State} {c : MClass} {n charge : Nat} {za : Bool} {acc : Acc} (h : AddsInto s c n za charge acc)
    (hc : c ≠ .residue) (charge' : Nat) : AddsInto s c n za charge' acc := by
  obtain ⟨a, ha, ⟨hr, -⟩ | ⟨-, rfl⟩⟩ := h
  · exact absurd hr hc
  · exact ⟨acc, ha, .inr ⟨hc, rfl⟩⟩

/-- Settles O14: both multiplies are the one of two tiles; INT8 rows element by element. -/
theorem multipliesOfTwoTiles : Obligations.MultipliesOfTwoTiles := by
  refine ⟨fun mk hm f s na nb c acc hbm hkv h ha hb hc hacc => ?_, fun f s na nb acc hbm _ h ha hb hacc => ?_⟩
  · simp only [List.mem_cons, List.not_mem_nil, or_false] at hm
    rcases hm with rfl | rfl
    · exact State.mmaTiles_multiplies (exec_mma_tiles f s hbm) h ha hb hc hacc
    · exact State.mmaTiles_multiplies (exec_mmam_tiles f s hbm hkv) h ha hb hc hacc
  · have hrun := State.mmaTiles_multiplies (c := .integer) (exec_mma_tiles f s hbm) h (by rw [ha]; decide) (by rw [hb]; decide)
      (by rw [ha, hb]; decide) (hacc.uncharged (by decide) _)
    refine ⟨_, ?_, fun i hh hi j hj => ?_, fun i hi hh => ?_, hrun⟩
    · exact hacc.tag
    · rw [accElem_accumulate_integer _ _ _ _ _ hi hh hj, ha, hb, intDot_int8]
    · exact (Acc.row_mapRows _ _ _ hi).trans (if_neg (Nat.not_lt.mpr hh))

end Sys2Proof.Machine
end

section
/-! SUPPORT. O18: tags and zeros, sums, folds, rows in and out of tiles and accumulators, and row scales (R216 to R220). -/
namespace Sys2Proof.Machine

/-! Checks that pass (R101, R105) -/

section
variable {s t : State} (hpre : t.issue.pre = s.issue.pre)
include hpre

theorem State.badTileTag_none {n : Nat} {ok : Fmt → Bool} (hp : (s.tileIn n).tag ≠ .poison) (h : ok (s.tileIn n).tag = true) :
    t.badTileTag n ok = none := by
  unfold State.badTileTag
  rw [State.badTile_none hpre hp]
  unfold State.tileIn at h ⊢
  rw [hpre]
  exact if_pos h

theorem State.badAcc_none {n : Nat} {ok : Fmt → Bool} (required : Fmt) (hp : (s.issue.pre.getA n).tag ≠ .poison)
    (h : ok (s.issue.pre.getA n).tag = true) : t.badAcc n ok required = none := by
  unfold State.badAcc
  rw [hpre]
  exact (if_neg hp).trans (if_pos h)

theorem State.badV_none {n : Nat} {ok : Fmt → Bool} (required : Fmt) (hp : (s.issue.pre.getV n).tag ≠ .poison)
    (h : ok (s.issue.pre.getV n).tag = true) : t.badV n ok required = none := by
  unfold State.badV
  rw [hpre]
  exact (if_neg hp).trans (if_pos h)

end

theorem orElse_none {checks : List (Option State)} (body : State) (h : ∀ c ∈ checks, c = none) : orElse checks body = body := by
  have hn : checks.findSome? id = none := List.findSome?_eq_none_iff.mpr h
  unfold orElse
  rw [hn]

/-- A matrix format is not POISON. -/
theorem Fmt.ne_poison_of_inMatrix {g : Fmt} (h : g.inMatrix = true) : g ≠ .poison := by
  rintro rfl
  cases h

/-! Fields of rows (R99, R220) -/

theorem setWidth_extractLsb' {n : Nat} (x : BitVec n) (start len m : Nat) :
    (x.extractLsb' start len).setWidth m = BitVec.ofNat m (x.toNat / 2 ^ start % 2 ^ len) := by
  rw [← BitVec.ofNat_toNat, extract_toNat]

/-- The high part of a bit vector needs no cut. -/
theorem toNat_div_mod_two_pow {a b : Nat} (x : BitVec (a + b)) : x.toNat / 2 ^ a % 2 ^ b = x.toNat / 2 ^ a :=
  Nat.mod_eq_of_lt (Nat.div_lt_of_lt_mul (Nat.pow_add 2 a b ▸ x.isLt))

/-- A tile's row as a vector, elements and sidecar (R220). -/
def rowVector (g : Fmt) (row : BitVec 1728) : VReg :=
  ⟨g, (row.extractLsb' 0 1536).setWidth 2048, (row.extractLsb' 1536 192).setWidth 256⟩

theorem rowVector_eq (g : Fmt) (row : BitVec 1728) :
    (⟨g, BitVec.ofNat 2048 (row.toNat % 2 ^ 1536), BitVec.ofNat 256 (row.toNat / 2 ^ 1536)⟩ : VReg) = rowVector g row := by
  rw [rowVector, setWidth_extractLsb', setWidth_extractLsb', toNat_div_mod_two_pow (a := 1536) (b := 192), pow_zero, Nat.div_one]

/-- The low parts of two bit vectors side by side. -/
theorem append_extractLsb'_low {n m : Nat} (x : BitVec n) (y : BitVec m) (a b : Nat) :
    x.extractLsb' 0 a ++ y.extractLsb' 0 b = BitVec.ofNat (a + b) (y.toNat % 2 ^ b + 2 ^ b * (x.toNat % 2 ^ a)) := by
  rw [← BitVec.setWidth_eq (x.extractLsb' 0 a ++ y.extractLsb' 0 b), ← BitVec.ofNat_toNat, toNat_append_add, extract_toNat, extract_toNat,
    pow_zero, Nat.div_one, Nat.div_one, Nat.add_comm (_ * _), Nat.mul_comm (_ % _)]

/-! Rows of accumulators (R220) -/

/-- Half a row of an accumulator as a vector. -/
theorem laneAt_half (g : Fmt) (row : BitVec 4096) (h : Nat) {j : Nat} (hj : j < 64) :
    laneAt .fp32 ⟨g, BitVec.ofNat 2048 (row.toNat / 2 ^ (2048 * h) % 2 ^ 2048), 0⟩ j = accElem row (64 * h + j) := by
  show (BitVec.ofNat 2048 _).toNat / 2 ^ (32 * j) % 2 ^ 32 = _
  rw [field_of_ofNat _ _ _ _ (by omega), field_of_cut _ _ _ _ (by omega), Nat.div_div_eq_div_mul, ← Nat.pow_add, accElem]
  congr 3
  omega

theorem Acc.row_withBound (acc : Acc) (b i : Nat) : ({ acc with bound := b } : Acc).row i = acc.row i := rfl

/-- An accumulator with one row changed. -/
def Acc.setRow (acc : Acc) (i : Nat) (row : BitVec 4096) : Acc := { acc with rows := acc.rows.set 0 i row }

theorem Acc.row_setRow (acc : Acc) (i i' : Nat) (row : BitVec 4096) : (acc.setRow i row).row i' = if i' = i then row else acc.row i' := by
  unfold Acc.row Acc.setRow
  split
  next h => rw [h, Sparse.get_set_self]
  next h => exact Sparse.get_set_ne _ _ _ _ _ h

/-- Element j of a row of which half h takes the 32-bit lanes of a vector; the residue format keeps 24 bits of each (R131, R220). -/
def Acc.halfElem (acc : Acc) (v : VReg) (i h j : Nat) : Nat :=
  if j / 64 = h then (if acc.tag = .resa then laneAt .fp32 v (j % 64) % 2 ^ 24 else laneAt .fp32 v (j % 64)) else accElem (acc.row i) j

/-- An accumulator with half h of row i from a vector (R220). -/
def Acc.withHalf (acc : Acc) (v : VReg) (i h : Nat) : Acc :=
  { acc.setRow i (packAcc ((List.range 128).map (acc.halfElem v i h))) with bound := if acc.tag = .resa then residueLimit else acc.bound }

theorem Acc.tag_withHalf (acc : Acc) (v : VReg) (i h : Nat) : (acc.withHalf v i h).tag = acc.tag := by
  rw [Acc.withHalf, Acc.setRow]

theorem Acc.bound_withHalf (acc : Acc) (v : VReg) (i h : Nat) :
    (acc.withHalf v i h).bound = if acc.tag = .resa then residueLimit else acc.bound := by
  rw [Acc.withHalf]

theorem laneAt_fp32 (v : VReg) (k : Nat) : laneAt .fp32 v k = v.body.toNat / 2 ^ (32 * k) % 2 ^ 32 := rfl

theorem laneAt_fp32_lt (v : VReg) (k : Nat) : laneAt .fp32 v k < 2 ^ 32 := Nat.mod_lt _ (Nat.two_pow_pos 32)

theorem Acc.halfElem_lt (acc : Acc) (v : VReg) (i h j : Nat) : acc.halfElem v i h j < 2 ^ 32 := by
  have hl := laneAt_fp32_lt v (j % 64)
  unfold Acc.halfElem
  split
  · split <;> omega
  · exact Nat.mod_lt _ (Nat.two_pow_pos 32)

theorem Acc.elem_withHalf (acc : Acc) (v : VReg) (i h : Nat) {i' j : Nat} (hj : j < 128) : accElem ((acc.withHalf v i h).row i') j =
    if i' = i ∧ j / 64 = h then
      (if acc.tag = .resa then laneAt .fp32 v (j % 64) % 2 ^ 24 else laneAt .fp32 v (j % 64))
    else accElem (acc.row i') j := by
  rw [Acc.withHalf, Acc.row_withBound, Acc.row_setRow]
  split
  next hi =>
    rw [accElem_packAcc _ hj, getD_map_range _ _ _ hj, Nat.mod_eq_of_lt (acc.halfElem_lt v i h j), Acc.halfElem]
    simp only [hi, true_and]
  next hi => rw [if_neg fun hc => hi hc.1]

/-! Tags, zeros, sums and folds (R216, R217, R219) -/

theorem execTtag_tags (f : MX) (s : State) (d : Nat) (h : ReadyM s [(⟨0, f.a, 0⟩, d)] [(f.a, d)] [] []) (hp : (s.tileIn d).tag ≠ .poison) :
    RunsM (.ttag f) s [(⟨0, f.a, 0⟩, d)] [(f.a, d)] [] [] fun k =>
      k.setT d (tileOfRows (mxFmt f) ((List.range 128).map fun r => trimRow (mxFmt f) ((s.tileIn d).row r))) := by
  have he : exec (.ttag f) s = execTtag f s := rfl
  unfold execTtag at he
  refine runsM_of_becomes he h fun t hpre => ?_
  simp only [List.map_cons, List.map_nil, List.getD_cons_zero]
  rw [orElse_none _ (by simp [State.badTile_none hpre hp])]
  exact t.becomes_modCur _

/-- A sum of accumulators has room for the bound of the second (R132). -/
theorem State.charged_sum (t : State) (dst : Acc) (n : Nat) (h : dst.tag = .resa → dst.bound + n ≤ residueLimit) :
    t.charged (if dst.tag = .resa then .residue else .float) n dst =
      .ok { dst with bound := if dst.tag = .resa then dst.bound + n else dst.bound } := by
  unfold State.charged
  by_cases hr : dst.tag = .resa
  · simp [hr, Nat.not_lt.mpr (h hr)]
  · simp [hr]

theorem execAadd_adds (f : MX) (s : State) (src dst : Acc) (hs : src = s.issue.pre.getA (f.a.toNat % 8)) (hd : dst = s.issue.pre.getA f.acc.toNat)
    (h : ReadyM s [] [] [opReg .a (f.a.toNat % 8)] [.a f.acc.toNat]) (hp : dst.tag ≠ .poison) (ht : src.tag = dst.tag)
    (hroom : dst.tag = .resa → dst.bound + src.bound ≤ residueLimit) :
    RunsM (.aadd f) s [] [] [opReg .a (f.a.toNat % 8)] [.a f.acc.toNat] fun k => k.setA f.acc.toNat
      (({ dst with bound := if dst.tag = .resa then dst.bound + src.bound else dst.bound } : Acc).mapRows (rowsOf f.hr)
        fun i j e => addAcc dst.tag e (accElem (src.row i) j)) := by
  have he : exec (.aadd f) s = execAadd f s := rfl
  unfold execAadd at he
  refine runsM_of_becomes (srcs := []) (dsts := []) he h fun t hpre => ?_
  dsimp only
  rw [← hs, ← hd, State.badAcc_none hpre _ (hd ▸ hp) rfl, State.badAcc_none hpre _ (by rw [← hs, ht]; exact hp) (by simp [← hs, ht])]
  simp only [List.findSome?_cons, List.findSome?_nil, id_eq, State.charged_sum t dst _ hroom]
  exact t.becomes_modCur _

theorem execAfold_self (f : MX) (s : State) (h : ReadyM s [] [] [] [.a f.acc.toNat, .a (f.a.toNat % 8)])
    (ht : (s.issue.pre.getA (f.a.toNat % 8)).tag = .resa) (hs : f.a.toNat % 8 = f.acc.toNat) :
    RunsM (.afold f) s [] [] [] [.a f.acc.toNat, .a (f.a.toNat % 8)] fun k =>
      k.setA f.acc.toNat (foldAcc (s.issue.pre.getA (f.a.toNat % 8))) := by
  have he : exec (.afold f) s = execAfold f s := rfl
  unfold execAfold at he
  refine runsM_of_becomes (srcs := []) (dsts := []) he h fun t hpre => ?_
  dsimp only
  rw [State.badAcc_none hpre _ (by rw [ht]; decide) (by rw [ht]; decide)]
  dsimp only
  rw [if_pos hs]
  exact t.becomes_modCur _

theorem execAfold_into (f : MX) (s : State) (dst : Acc) (h : ReadyM s [] [] [] [.a f.acc.toNat, .a (f.a.toNat % 8)])
    (ht : (s.issue.pre.getA (f.a.toNat % 8)).tag = .resa) (hs : f.a.toNat % 8 ≠ f.acc.toNat)
    (hd : f.za = 1 ∧ dst = ⟨.acc32i, 0, []⟩ ∨ f.za = 0 ∧ dst = s.issue.pre.getA f.acc.toNat ∧ dst.tag = .acc32i) :
    RunsM (.afold f) s [] [] [] [.a f.acc.toNat, .a (f.a.toNat % 8)] fun k =>
      (k.setA f.acc.toNat (dst.mapRows 128 fun i j e =>
        Num.bitsOfInt 32 (e + resFold (accElem ((s.issue.pre.getA (f.a.toNat % 8)).row i) j)))).setA (f.a.toNat % 8) ⟨.resa, 0, []⟩ := by
  have he : exec (.afold f) s = execAfold f s := rfl
  unfold execAfold at he
  refine runsM_of_becomes (srcs := []) (dsts := []) he h fun t hpre => ?_
  have hcheck : (if f.za = 1 then none else t.badAcc f.acc.toNat (· == .acc32i) .acc32i) = none := by
    rcases hd with ⟨hz, -⟩ | ⟨-, rfl, htag⟩
    · rw [if_pos hz]
    · rw [State.badAcc_none hpre _ (by rw [htag]; decide) (by rw [htag]; decide), ite_self]
  have hdst : (if f.za = 1 then (⟨.acc32i, 0, []⟩ : Acc) else s.issue.pre.getA f.acc.toNat) = dst := by
    rcases hd with ⟨hz, rfl⟩ | ⟨hz, rfl, -⟩
    · rw [if_pos hz]
    · rw [if_neg (by rw [hz]; decide)]
  dsimp only
  rw [State.badAcc_none hpre _ (by rw [ht]; decide) (by rw [ht]; decide)]
  dsimp only
  rw [if_neg hs, hcheck, hdst]
  exact (t.becomes_modCur _).trans (State.becomes_modCur _ _)

/-! Row moves (R220) -/

theorem execTrow_reads (f : MX) (s : State) (n : Nat) (row : BitVec 1728) (h : ReadyM s [(tA f, n)] [] [] [.v f.b.toNat])
    (hp : (s.tileIn n).tag ≠ .poison) (hi : (s.tileIn n).tag ≠ .int2) (hr : row = (s.tileIn n).row (f.disp.toNat % 128)) :
    RunsM (.trow f) s [(tA f, n)] [] [] [.v f.b.toNat] fun k => k.setV f.b.toNat (rowVector (s.tileIn n).tag row) := by
  have he : exec (.trow f) s = execTrow f s := rfl
  unfold execTrow at he
  refine runsM_of_becomes (dsts := []) he h fun t hpre => ?_
  simp only [List.map_cons, List.map_nil, List.getD_cons_zero]
  rw [orElse_none _ (List.forall_mem_singleton.mpr (State.badTileTag_none (ok := (· != .int2)) hpre hp (bne_iff_ne.mpr hi))), rowVector_eq, ← hr]
  exact t.becomes_modCur _

theorem execTwrow_writes (f : MX) (s : State) (n : Nat) (v : VReg) (h : ReadyM s [(⟨0, f.a, 0⟩, n)] [(f.a, n)] [opReg .v f.b.toNat] [])
    (hv : v = s.issue.pre.getV f.b.toNat) (hp : v.tag ≠ .poison) (ht : v.tag = (s.tileIn n).tag) :
    RunsM (.twrow f) s [(⟨0, f.a, 0⟩, n)] [(f.a, n)] [opReg .v f.b.toNat] [] fun k => k.setT n
      ⟨v.tag, (s.tileIn n).rows.set 0 (f.disp.toNat % 128) (v.side.extractLsb' 0 192 ++ v.body.extractLsb' 0 1536)⟩ := by
  have he : exec (.twrow f) s = execTwrow f s := rfl
  unfold execTwrow at he
  subst hv
  refine runsM_of_becomes he h fun t hpre => ?_
  simp only [List.map_cons, List.map_nil, List.getD_cons_zero]
  rw [orElse_none _ (by simp [State.badV_none hpre _ hp, State.badTile_none hpre (ht ▸ hp), ht]), append_extractLsb'_low, ht]
  exact t.becomes_modCur _

theorem execArow_reads (f : MX) (s : State) (acc : Acc) (h : ReadyM s [] [] [opReg .a f.acc.toNat] [.v f.b.toNat])
    (ha : acc = s.issue.pre.getA f.acc.toNat) (hp : acc.tag ≠ .poison) :
    ∃ r : VReg, r.tag = accLaneFmt acc.tag ∧ r.side = 0 ∧
      (∀ j < 64, laneAt .fp32 r j = accElem (acc.row (f.disp.toNat % 128)) (64 * (f.disp.toNat / 128 % 2) + j)) ∧
      RunsM (.arow f) s [] [] [opReg .a f.acc.toNat] [.v f.b.toNat] fun k => k.setV f.b.toNat r := by
  have he : exec (.arow f) s = execArow f s := rfl
  unfold execArow at he
  subst ha
  refine ⟨_, rfl, rfl, fun j hj => laneAt_half _ _ _ hj, runsM_of_becomes (srcs := []) (dsts := []) he h fun t hpre => ?_⟩
  dsimp only
  rw [orElse_none _ (List.forall_mem_singleton.mpr (State.badAcc_none hpre _ hp rfl))]
  exact t.becomes_modCur _

theorem execAwrow_writes (f : MX) (s : State) (acc : Acc) (v : VReg) (h : ReadyM s [] [] [opReg .v f.b.toNat] [.a f.acc.toNat])
    (ha : acc = s.issue.pre.getA f.acc.toNat) (hap : acc.tag ≠ .poison) (hv : v = s.issue.pre.getV f.b.toNat) (hvp : v.tag ≠ .poison)
    (ht : v.tag = accLaneFmt acc.tag) :
    RunsM (.awrow f) s [] [] [opReg .v f.b.toNat] [.a f.acc.toNat] fun k =>
      k.setA f.acc.toNat (acc.withHalf v (f.disp.toNat % 128) (f.disp.toNat / 128 % 2)) := by
  have he : exec (.awrow f) s = execAwrow f s := rfl
  unfold execAwrow at he
  subst ha hv
  refine runsM_of_becomes (srcs := []) (dsts := []) he h fun t hpre => ?_
  dsimp only
  rw [orElse_none _ (by simp [State.badV_none hpre _ hvp, State.badAcc_none hpre _ hap, ht])]
  unfold Acc.withHalf Acc.setRow Acc.halfElem
  simp only [laneAt_fp32]
  exact t.becomes_modCur _

/-! Operations with an operand image (R207) -/

section
variable {i : Instr} {s t1 : State} {f : MX} {na : Nat} {g : Fmt} {acc : Acc} {checks : Nat → Fmt → State → Except State Acc}
  {act : Nat → Fmt → Acc → State → State}
  (he : exec i s = s.mOp [tA f] [] [opReg .x f.b.toNat] [.a f.acc.toNat] fun ns _ t =>
    t.withImage (s.imageVA f) f.acc.toNat (checks (ns.getD 0 32)) (act (ns.getD 0 32)))
  (h : ReadyM s [(tA f, na)] [] [opReg .x f.b.toNat] [.a f.acc.toNat])
include he h

/-- As its bundle issues, an operation whose image is found and whose checks pass enters its queue. -/
theorem withImage_enters (hl : s.issue.late = none)
    (him : (latchedM s [(tA f, na)] [opReg .x f.b.toNat]).image (s.imageVA f) = .ok (g, t1))
    (hc : t1.issue.pre = s.issue.pre → checks na g t1 = .ok acc) :
    exec i s = .next ((t1.putA f.acc.toNat acc).enqueueLate (latchedM s [(tA f, na)] [opReg .x f.b.toNat])
      (regsOf [(tA f).opd na, opReg .x f.b.toNat]) [.a f.acc.toNat]) := by
  obtain ⟨hpre, hv, himg⟩ := State.image_found him
  have hs := h.slips
  have ha : AtHand _ _ _ := hs.at_.resolve_left (by simp [hl])
  have hbody : (latchedM s [(tA f, na)] [opReg .x f.b.toNat]).withImage (s.imageVA f) f.acc.toNat (checks na) (act na) =
      t1.putA f.acc.toNat acc := by
    unfold State.withImage
    rw [if_neg (by simp [hl]), him]
    dsimp only
    rw [hc (hpre.trans (by rw [latchedM_issue]))]
  refine he.trans ((State.mOp_ready h _).trans ((State.slipped_image _ _ _ _ hs ha ?_ ?_).trans ?_))
  · exact (congrArg (·.issue.verdict) hbody).trans (hv.trans ((congrArg Issue.verdict (latchedM_issue ..)).trans ha.commit))
  · exact (congrArg (·.issue.need.img.isSome) hbody).trans himg
  · exact congrArg (fun u : State => Host.Outcome.next (u.enqueueLate _ _ _)) hbody

/-- As it leaves its queue, it acts on the image that its checks found. -/
theorem withImage_leaves {ks : List (Nat × Nat)} (hl : s.issue.late.isSome = true) (him : s.issue.need.img = some (g, ks))
    (hc : ∀ t : State, t.issue.pre = s.issue.pre → checks na g t = .ok acc) :
    exec i s = .next (act na g acc (latchedM s [(tA f, na)] [opReg .x f.b.toNat])) := by
  have hg : (latchedM s [(tA f, na)] [opReg .x f.b.toNat]).imageFmt = g := by simp [State.imageFmt, needM, him]
  refine he.trans ((State.mOp_ready h _).trans ((State.slipped_late _ _ _ _ h.slips hl).trans (congrArg _ ?_)))
  show (latchedM s [(tA f, na)] [opReg .x f.b.toNat]).withImage (s.imageVA f) f.acc.toNat (checks na) (act na) = _
  unfold State.withImage
  rw [if_pos (by simpa using hl), hg, hc _ (by simp)]

end

/-! Row scales (R218) -/

/-- An accumulator with the row scales of two tiles applied to its first h rows. -/
def Acc.scaledBy (acc : Acc) (h : Nat) (ta tb : Tile) : Acc :=
  { acc.mapRows h fun i j e => scaled (acc.tag = .acc32i) (rowScale ta.tag (ta.row i)) (rowScale tb.tag (tb.row j)) e with tag := .acc32f }

/-- The checks of an operation that applies row scales, with the accumulator to come. -/
def State.scaleChecks (s : State) (f : MX) (ok : Fmt → Bool) (na : Nat) (_ : Fmt) (t : State) : Except State Acc :=
  match [t.badTileTag na Fmt.inMatrix, t.badAcc f.acc.toNat ok .acc32f].findSome? id with
  | some bad => .error bad
  | none => .ok { s.issue.pre.getA f.acc.toNat with tag := .acc32f }

/-- The row scales of tile na and of an image's rows applied, as the operation leaves its queue. -/
def State.scaleByRows (s : State) (f : MX) (h na : Nat) (_ : Fmt) (_ : Acc) (t : State) : State :=
  t.withRows (s.imageVA f) f.acc.toNat fun rows t =>
    t.putA f.acc.toNat ((s.issue.pre.getA f.acc.toNat).scaledBy h (s.tileIn na) rows)

theorem State.applyScales_image (s : State) (f : MX) (h : Nat) (ok : Fmt → Bool) (hb : f.bm = 1) : s.applyScales f h ok =
    s.mOp [tA f] [] [opReg .x f.b.toNat] [.a f.acc.toNat] fun ns _ t =>
      t.withImage (s.imageVA f) f.acc.toNat (s.scaleChecks f ok (ns.getD 0 32)) (s.scaleByRows f h (ns.getD 0 32)) := if_pos hb

section
variable {i : Instr} {s : State} {f : MX} {h na : Nat} {ok : Fmt → Bool} (he : exec i s = s.applyScales f h ok)
  (hp : (s.issue.pre.getA f.acc.toNat).tag ≠ .poison) (hok : ok (s.issue.pre.getA f.acc.toNat).tag = true)
  (ha : (s.tileIn na).tag.inMatrix = true)
include hp hok ha

theorem State.scaleChecks_pass (g : Fmt) {t : State} (hpre : t.issue.pre = s.issue.pre) :
    s.scaleChecks f ok na g t = .ok { s.issue.pre.getA f.acc.toNat with tag := .acc32f } := by
  unfold State.scaleChecks
  rw [State.badTileTag_none hpre (Fmt.ne_poison_of_inMatrix ha) ha, State.badAcc_none hpre _ hp hok]
  rfl

include he

theorem State.applyScales_tiles {nb : Nat} (hb : f.bm = 0) (hr : ReadyM s [(tA f, na), (tB f, nb)] [] [] [.a f.acc.toNat])
    (hnb : (s.tileIn nb).tag.inMatrix = true) : RunsM i s [(tA f, na), (tB f, nb)] [] [] [.a f.acc.toNat] fun k =>
      k.setA f.acc.toNat ((s.issue.pre.getA f.acc.toNat).scaledBy h (s.tileIn na) (s.tileIn nb)) := by
  have hx := he
  unfold State.applyScales at hx
  rw [if_neg (by rw [hb]; decide)] at hx
  refine runsM_of_becomes (dsts := []) hx hr fun t hpre => ?_
  simp only [List.map_cons, List.map_nil, List.getD_cons_zero, List.getD_cons_succ]
  rw [orElse_none _ (by simp [State.badTileTag_none hpre (Fmt.ne_poison_of_inMatrix ha) ha,
    State.badTileTag_none hpre (Fmt.ne_poison_of_inMatrix hnb) hnb, State.badAcc_none hpre _ hp hok])]
  exact t.becomes_modCur _

/-- With an image, it enters its queue as its bundle issues. -/
theorem State.applyScales_enters {g : Fmt} {t1 : State} (hb : f.bm = 1) (hr : ReadyM s [(tA f, na)] [] [opReg .x f.b.toNat] [.a f.acc.toNat])
    (hl : s.issue.late = none) (him : (latchedM s [(tA f, na)] [opReg .x f.b.toNat]).image (s.imageVA f) = .ok (g, t1)) :
    exec i s = .next ((t1.putA f.acc.toNat { s.issue.pre.getA f.acc.toNat with tag := .acc32f }).enqueueLate
      (latchedM s [(tA f, na)] [opReg .x f.b.toNat]) (regsOf [(tA f).opd na, opReg .x f.b.toNat]) [.a f.acc.toNat]) :=
  withImage_enters (checks := s.scaleChecks f ok) (act := s.scaleByRows f h) (he.trans (s.applyScales_image f h ok hb)) hr hl him
    (State.scaleChecks_pass hp hok ha g)

/-- As it leaves its queue, it applies the scales of the image's rows. -/
theorem State.applyScales_leaves {g : Fmt} {t t1 : State} {ks parts : List (Nat × Nat)} (hb : f.bm = 1)
    (hr : ReadyM s [(tA f, na)] [] [opReg .x f.b.toNat] [.a f.acc.toNat]) (ht : t = latchedM s [(tA f, na)] [opReg .x f.b.toNat])
    (hl : s.issue.late.isSome = true) (him : s.issue.need.img = some (g, ks)) (hrows : s.issue.need.rows = none)
    (hres : t.resolve t.me {} (pieces (s.imageVA f) imageLen) = (.ok parts, t1)) (hm : imageDataMarked t1 parts = false) :
    exec i s = .next ((t1.afterRead parts).putA f.acc.toNat
      ((s.issue.pre.getA f.acc.toNat).scaledBy h (s.tileIn na) (imageTile g (imageData t1 parts)))) := by
  have hi : t.issue = { s.issue with need := needM s [(tA f, na)] } := by rw [ht, latchedM_issue]
  have hfmt : t.imageFmt = g := by simp [State.imageFmt, hi, needM, him]
  have hx := withImage_leaves (checks := s.scaleChecks f ok) (act := s.scaleByRows f h) (he.trans (s.applyScales_image f h ok hb)) hr hl him
    fun _ => State.scaleChecks_pass hp hok ha g
  rw [hx, ← ht, State.scaleByRows, State.withRows_read _ (by rw [hi]; exact hrows) hres hm, hfmt]

end

/-- Settles O18: each operation's checks pass, and it writes what its rule says. -/
theorem accumulatorAndTileOperations : Obligations.AccumulatorAndTileOperations := by
  refine ⟨⟨fun f s h => ?azero, fun f s d h => ?tzero, execTtag_tags, execAadd_adds,
    fun f s h ht => ⟨execAfold_self f s h ht, fun dst hs => execAfold_into f s dst h ht hs⟩, fun f s n d h => ?tmov, execTrow_reads,
    execTwrow_writes, execArow_reads, fun f s acc v h ha hap hv hvp ht => ?awrow⟩, ?scales⟩
  case azero =>
    have he : exec (.azero f) s = execAzero f s := rfl
    unfold execAzero at he
    exact runsM_of_becomes (srcs := []) (dsts := []) he h fun t _ => t.becomes_modCur _
  case tzero =>
    have he : exec (.tzero f) s = execTzero f s := rfl
    unfold execTzero at he
    exact runsM_of_becomes (srcs := []) he h fun t _ => t.becomes_modCur _
  case tmov =>
    have he : exec (.tmov f) s = execTmov f s := rfl
    unfold execTmov at he
    exact runsM_of_becomes he h fun t _ => t.becomes_modCur _
  case awrow =>
    exact ⟨_, acc.tag_withHalf v _ _, acc.bound_withHalf v _ _, fun i j hj => acc.elem_withHalf v _ _ hj,
      execAwrow_writes f s acc v h ha hap hv hvp ht⟩
  case scales =>
    rintro f s mk h na acc res rfl hmk hna hres
    have hscaled (tb : Tile) : res tb = (s.issue.pre.getA f.acc.toNat).scaledBy h (s.tileIn na) tb := hres tb
    obtain ⟨ok, he, hp, hok⟩ : ∃ ok : Fmt → Bool, exec (mk f) s = s.applyScales f h ok ∧
        (s.issue.pre.getA f.acc.toNat).tag ≠ .poison ∧ ok (s.issue.pre.getA f.acc.toNat).tag = true := by
      rcases hmk with ⟨rfl, rfl, ht⟩ | ⟨rfl, rfl, ht | ht⟩
      · exact ⟨(· == .acc32f), rfl, by rw [ht]; decide, by rw [ht]; decide⟩
      · exact ⟨fun g => g == .acc32f || g == .acc32i, rfl, by rw [ht]; decide, by rw [ht]; decide⟩
      · exact ⟨fun g => g == .acc32f || g == .acc32i, rfl, by rw [ht]; decide, by rw [ht]; decide⟩
    refine ⟨fun nb hb hr hnb => ?_, fun g t hb hr ht => ⟨fun t1 hl him => ?_, fun ks parts t1 hl him hrows hres hm => ?_⟩⟩
    · rw [hscaled]
      exact State.applyScales_tiles he hp hok hna hb hr hnb
    · subst ht
      exact State.applyScales_enters he hp hok hna hb hr hl him
    · rw [hscaled]
      exact State.applyScales_leaves he hp hok hna hb hr ht hl him hrows hres hm

end Sys2Proof.Machine
end

section
/-! SUPPORT. O32: what happens to a barrier, and the instructions that reach one. -/
namespace Sys2Proof.Machine

/-! A barrier (R154, R155) -/

theorem Barrier.flip_waiting {b : Barrier} (h : b.pending ≠ 0) : b.flip = b := if_neg fun hz => h hz.1

theorem Barrier.flip_complete {b : Barrier} (hp : b.pending = 0) (hs : b.sectors = 0) :
    b.flip = { b with phase := (b.phase + 1) % 16, pending := b.init } := if_pos ⟨hp, hs⟩

theorem Barrier.err_flip (b : Barrier) : b.flip.err = b.err := by
  unfold Barrier.flip
  split <;> rfl

theorem Barrier.arrive_extra {b : Barrier} (n : Int) (h : b.pending = 0) :
    b.arrive n = { b with sectors := ((b.sectors + n) % 2 ^ 40).toNat, err := true }.flip := by
  simp [Barrier.arrive, h]

theorem Barrier.arrive_pending {b : Barrier} (n : Int) (h : b.pending ≠ 0) :
    b.arrive n = { b with sectors := ((b.sectors + n) % 2 ^ 40).toNat, pending := b.pending - 1 }.flip := by
  simp [Barrier.arrive, h]

/-- The fields of a barrier stand side by side in its 16 bytes (R154). -/
theorem Barrier.ofNat_toNat {b : Barrier} (hph : b.phase < 16) (hp : b.pending < 2 ^ 20) (hi : b.init < 2 ^ 20)
    (hs : b.sectors < 2 ^ 40) : Barrier.ofNat b.toNat = b := by
  obtain ⟨phase, pending, init, sectors, err⟩ := b
  have he : bit err ≤ 1 ∧ (bit err = 1 ↔ err = true) := by cases err <;> decide
  simp only [Barrier.ofNat, Barrier.toNat, Barrier.mk.injEq] at *
  refine ⟨by omega, by omega, by omega, by omega, ?_⟩
  exact Bool.eq_iff_iff.mpr (decide_eq_true_iff.trans (by rw [← he.2]; omega))

/-! The instructions (R155, R156) -/

theorem misaligned_of_mod {va : Word} {n : Nat} (h : va.toNat % n = 0) : misaligned va n = false := by simp [misaligned, h]

theorem State.putRead_clean (t : State) (n : Nat) (v : Word) : t.putRead n v false = t.modCur fun k => k.setX n v := rfl

/-- A release goes on where no store, reduction or image of the context is out (R343). -/
theorem State.afterStores_released (t : State) (k : State → State) (hst : t.storesStuck t.issue.core t.issue.bank = false)
    (hrd : t.reductionsOut t.issue.core t.issue.bank = false) (himg : t.imagesOut = false) :
    t.afterStores true k = k (t.flush t.issue.core t.issue.bank) := by
  simp [State.afterStores, hst, hrd, himg]

/-- A barrier instruction at its barrier, with its own bounds kept, has its effect there (R154, R259). -/
theorem AtBarrier.anchored {s t : State} {f : SR} {wr : List Reg} {key : Nat} (h : AtBarrier s t f wr key) {ok : Bool} (kind : Nat)
    (k : Nat → State → State) (hok : ok = true) :
    s.anchored [opA .x f, opB .x f] wr (fun t => t.barrierOp kind (s.srcX (opA .x f)) ok k) = .next (k key t) := by
  obtain ⟨hready, rfl, hal, hkey, himg, hred, hst⟩ := h
  rw [s.anchored_ready _ _ _ hready, State.barrierOp, misaligned_of_mod hal, hkey]
  simp [hok, himg, hred, hst]

theorem exec_binit {s t : State} {f : SR} {key : Nat} (h : AtBarrier s t f [] key) (hn : (s.srcX (opB .x f)).toNat % 2 ^ 20 ≠ 0) :
    exec (.binit f) s = .next (t.setBarrier t.issue.core key (.fresh ((s.srcX (opB .x f)).toNat % 2 ^ 20))) :=
  h.anchored 2 _ (decide_eq_true hn)

theorem exec_bexp {s t : State} {f : SR} {key : Nat} (h : AtBarrier s t f [] key) (hn : sectorsOk (s.srcX (opB .x f)) = true) :
    exec (.bexp f) s = .next (t.setBarrier t.issue.core key ((t.barrier key).expect (s.srcX (opB .x f)).toInt)) :=
  h.anchored 2 _ hn

theorem exec_barv {s t : State} {f : SR} {key : Nat} (h : AtBarrier s t f [] key) :
    exec (.barv f) s = .next (t.afterStores true fun u =>
      u.setBarrier u.issue.core key ((u.barrier key).arrive (s.srcX (opB .x f)).toInt)) :=
  h.anchored 2 _ rfl

/-- BWAIT of clean bytes goes on where the phase differs from the one that the task expects (R156). -/
theorem exec_bwait {s t : State} {f : SR} {key : Nat} (h : AtBarrier s t f [.x f.d.toNat] key) (hb : anyBad t.bad key 16 = false) :
    exec (.bwait f) s = .next (if (t.barrier key).phase ≠ (s.srcX (opB .x f)).toNat % 16
      then t.modCur fun k => k.setX f.d.toNat (word (t.barrier key).result)
      else t.holdFor (some (.barrier key ((s.srcX (opB .x f)).toNat % 16)))) := by
  refine (h.anchored 1 _ rfl).trans ?_
  simp only [hb, Bool.or_false, decide_eq_true_eq, State.putRead_clean]

theorem exec_btest {s t : State} {f : SR} {key : Nat} (h : AtBarrier s t f [.x f.d.toNat] key) (hb : anyBad t.bad key 16 = false) :
    exec (.btest f) s = .next (t.modCur fun k => k.setX f.d.toNat (word ((t.barrier key).result +
      256 * bit (decide ((t.barrier key).phase ≠ (s.srcX (opB .x f)).toNat % 16))))) := by
  refine (h.anchored 1 _ rfl).trans ?_
  rw [hb, State.putRead_clean]

/-- BWANY of barriers that no access of the context keeps back takes the first flipped one in rotation (R156). -/
theorem exec_bwany {s t : State} {f : SR} {keys : List Nat} {j key : Nat} (h : Ready s [opA .x f, opB .x f] [.x f.d.toNat])
    (ht : t = s.latchAll [opA .x f, opB .x f]) (hal : (s.srcX (opA .x f)).toNat % 16 = 0)
    (hkeys : t.barrierKeys (s.srcX (opA .x f)) (f.fn9.toNat % 32) 0 [] = .ok keys) (hred : t.behindOwn (keys.map (·, 16)) = false)
    (hst : t.storesFirst (keys.map (·, 16)) = false) (hfl : t.flipped keys (s.srcX (opB .x f)) s.issue.pre.rot = some (j, key))
    (hb : anyBad t.bad key 16 = false) :
    exec (.bwany f) s = .next ((t.modCur fun k =>
      k.setX f.d.toNat (word (j + 16 * bit (t.barrier key).err + 256 * (t.barrier key).phase))).modCur fun k =>
        { k with rot := (j + 1) % (f.fn9.toNat % 32) }) := by
  show execBwany f s = _
  rw [execBwany, s.anchored_ready _ _ _ h, ← ht]
  simp only [misaligned_of_mod hal, hkeys, hred, hst, hfl, hb, State.putRead_clean, Bool.false_eq_true, if_false]

/-- Settles O32: each instruction at its barrier, and what an arrival, a flip and the 16 bytes do with the fields. -/
theorem barrierOperations : Obligations.BarrierOperations := by
  refine ⟨?binit, ?bexp, ?barv, ?waits, ?bwany, fun b => rfl, ?arrive, fun b => Barrier.ofNat_toNat⟩
  case binit =>
    rintro f s t key _ h rfl hn
    exact exec_binit h hn
  case bexp =>
    intro f s t key h hlo hhi
    exact exec_bexp h (by rw [sectorsOk, decide_eq_true hlo, decide_eq_true hhi]; rfl)
  case barv =>
    rintro f s t _ key h hst hrd himg rfl
    rw [exec_barv h, t.afterStores_released _ hst hrd himg]
  case waits =>
    intro f s t key h hb
    rw [exec_bwait h hb]
    exact ⟨fun hph => by rw [if_pos hph, Barrier.result], fun hph => by rw [if_neg (not_not_intro hph)], exec_btest h hb⟩
  case bwany => exact fun f s t keys j key h ht hal hkeys hred hst hfl hb => exec_bwany h ht hal hkeys hred hst hfl hb
  case arrive =>
    refine fun b n => ⟨fun hp => ?_, fun hp => ?_, fun hp hs => ?_⟩
    · rw [Barrier.arrive_extra n hp, Barrier.err_flip]
    · rw [Barrier.arrive_pending n (by omega), Barrier.flip_waiting (Nat.sub_ne_zero_of_lt hp)]
      exact ⟨rfl, rfl⟩
    · rw [Barrier.arrive_pending n (by omega), Barrier.flip_complete (Nat.sub_eq_zero_of_le hp.le) (by rw [hs]; rfl)]
      exact ⟨rfl, rfl⟩

end Sys2Proof.Machine
end

section
/-! SUPPORT. O36: a trace record is a write to memory by an agent that is no core, and breaks the load-blocks that hold its bytes, those of the
tracing bank among them (R152, R246, R429). -/
namespace Sys2Proof

/-- A map whose values are changed, each as its key says, with the default kept at the key read. -/
theorem Sparse.get_map_at {α : Type} {d : α} {g : Nat → α → α} (j : Nat) (hd : g j d = d) (m : Sparse α) :
    Sparse.get d (m.map fun e => (e.1, g e.1 e.2)) j = g j (Sparse.get d m j) := by
  induction m with
  | nil => exact hd.symm
  | cons e r ih =>
    by_cases h : e.1 = j
    · simp [Sparse.get, h]
    · simpa [Sparse.get, h] using ih

end Sys2Proof

namespace Sys2Proof.Machine

theorem leBytes_length (n v : Nat) : (leBytes n v).length = n := by
  induction n generalizing v with
  | zero => rfl
  | succ n ih => simp [leBytes, ih]

theorem Core.bank_strike (k : Core) (key n b : Nat) : (k.strike key n).bank b = (k.bank b).strike key n := by
  unfold Core.strike Core.bank
  split <;> rfl

/-- A write of writer 256, an agent that is no core, breaks the load-blocks of every core that hold a byte of it (R246). -/
theorem State.ctx_strike_agent (s : State) (key n b : Nat) {c : Nat} (hc : c < 256) :
    (s.strike 256 key n).ctx c b = (s.ctx c b).strike key n := by
  have hby (k : Core) : k.struckBy 256 c key n = k.strike key n := by
    unfold Core.struckBy homeWriter
    rw [if_neg (by omega), if_neg (by omega), if_neg (by omega)]
  have hcore : (s.strike 256 key n).core c = (s.core c).strike key n := by
    rw [← hby]
    exact Sparse.get_map_at (g := fun c k => k.struckBy 256 c key n) c (hby .idle) s.cores
  rw [State.ctx, hcore, Core.bank_strike]
  rfl

theorem State.ctx_soilPinned (s : State) (key n c b : Nat) : (s.soilPinned key n).ctx c b = s.ctx c b := by
  unfold State.soilPinned
  split <;> rfl

theorem State.ctx_putNum_agent (s : State) (key n v b : Nat) {c : Nat} (hc : c < 256) (hk : s.deadLdm key = false) :
    (s.putNum 256 key n v).ctx c b = (s.ctx c b).strike key n := by
  unfold State.putNum State.putBytes
  rw [hk, if_neg Bool.false_ne_true, State.ctx_soilPinned, State.ctx_strike_agent _ _ _ _ hc, leBytes_length]
  rfl

/-- The slot of the trace ring that the next record goes to (R429). -/
def Pkg.traceKey (p : Pkg) : Nat := bits p.trcbase 12 40 * 4096 + 32 * (p.trchead.toNat % p.traceSize)

/-- A record that is written strikes its 32 bytes; nothing else of a bank changes. -/
theorem State.ctx_trace (t : State) (d b : Nat) (record : BitVec 256) {c : Nat} (hc : c < 256) (hen : t.pkg.trcEn = true)
    (hidle : (t.core d).tracing = false) (hk : t.deadLdm t.pkg.traceKey = false) :
    (t.trace d record).ctx c b = (t.ctx c b).strike t.pkg.traceKey 32 := by
  have hmark (u : State) : (u.modCore d fun k => { k with tracing := true }).ctx c b = u.ctx c b :=
    State.core_modCore_keeps (f := fun k => { k with tracing := true }) (fun k => k.bank b) (fun _ => rfl) u d c
  unfold State.trace
  simp only [hen, hidle, Bool.not_true, Bool.false_and, Bool.false_eq_true, if_false]
  have hput : (t.putNum 256 t.pkg.traceKey 32 record.toNat).ctx c b = (t.ctx c b).strike t.pkg.traceKey 32 :=
    t.ctx_putNum_agent _ _ _ _ hc hk
  split
  · exact (hmark _).trans hput
  · exact (hmark _).trans hput

theorem exec_evtTr (f : SI) (s : State) (h : Ready s [opReg .x f.a.toNat] []) : exec (.evtTr f) s = .next (s.trace s.issue.core
    (Config.traceRecord (s.siderealOn (dieOf s.issue.core)) s.issue.core s.issue.bank s.issue.pre.job
      (s.issue.pre.wid.setWidth 32) f.imm (s.srcX (opReg .x f.a.toNat)))) := by
  show execEvtTr f s = _
  rw [execEvtTr, s.anchored_ready _ _ _ h, s.latchAll_opReg]

/-- A bank with a load-block of one line at physical address 0x1000. -/
def blockBank : Ctx := { Ctx.idle with status := .running, blocks := [(0, ⟨true, 0x1000, [(0x1000, 128)], 1, true, false⟩)] }

/-- The bank runs while the package traces to a ring at physical address 0x1000. -/
def tracedState : State :=
  { State.reset with
    cores := [(0, { Core.idle with b0 := blockBank })]
    issue := { Issue.none with pre := blockBank }
    pkg := { State.reset.pkg with trcEn := true, trcbase := 0x1000 } }

theorem tracedState_ready (os : List Opd) : Ready tracedState os [] where
  active := rfl
  free := by simp [tracedState, blockBank, Ctx.idle]
  unread := by simp
  clean r _ := by cases r <;> simp [Ctx.spoilt, tracedState, blockBank, Ctx.idle]

/-- Refutes O36: EVT.TR with tracing on does not leave its bank; where the ring's slot lies in a load-block of the bank, the
record breaks the block. -/
theorem not_yieldsEventsAndContextMoves : ¬ Obligations.YieldsEventsAndContextMoves := by
  rintro ⟨-, -, -, -, htrace, -⟩
  obtain ⟨t, he, -, -, hcur⟩ := htrace ⟨0, 0, 0, 0⟩ tracedState (tracedState_ready _) rfl rfl
  rw [exec_evtTr _ _ (tracedState_ready _)] at he
  injection he with he
  have hstruck : t.cur = tracedState.cur.strike 0x1000 32 := by
    rw [← he]
    exact tracedState.ctx_trace 0 0 _ (by decide) rfl rfl (by decide)
  rw [hcur] at hstruck
  exact absurd hstruck (by decide)

end Sys2Proof.Machine
end

section
/-! SUPPORT. The shapes of the S slot, and what its functions of one word compute (R166 to R178). -/
namespace Sys2Proof.Machine

/-! Shapes -/

/-- Sources without a latch take no hold action. -/
theorem Runs.unlatched {i : Instr} {s : State} {os : List Opd} {g : Ctx → Ctx} (h : Runs i s os g) (hu : ∀ o ∈ os, o.h = 0) :
    Runs i s [] g := by
  obtain ⟨t, he, hcur, helse⟩ := h
  rw [s.latchAll_plain os hu] at hcur
  exact ⟨t, he, hcur, helse⟩

/-- x[D] from x[A] and x[B], where the operation's function `fn` computes what its rule says. -/
theorem State.sAB_gives_of_eq {mk : SR → Instr} {op : SR → Word → Word → Word} (fn : SR → Word → Word → Word)
    (he : ∀ f s, exec (mk f) s = s.sAB f (fn f)) (hop : ∀ f a b, fn f a b = op f a b) : GivesAB mk op := by
  obtain rfl : fn = op := funext fun f => funext fun a => funext fun b => hop f a b
  exact State.sAB_gives he

/-- x[D] from x[A], by what the operation's function `op` computes. -/
theorem State.sA_relates {mk : SR → Instr} (op : SR → Word → Word) {rel : SR → Word → Word → Prop}
    (he : ∀ f s, exec (mk f) s = s.sA f (op f)) (hr : ∀ f a, rel f a (op f a)) : GivesA mk rel :=
  fun f s h => ⟨_, hr f _, runs_of_anchored _ s _ _ _ (he f s) h⟩

theorem State.sFromP_relates {mk : SR → Instr} (op : Word → Word) {rel : Word → Word → Prop}
    (he : ∀ f s, exec (mk f) s = s.sFromP f op) (hr : ∀ a, rel a (op a)) : GivesFromP mk rel :=
  fun f s h => ⟨_, hr _, runs_of_anchored _ s _ _ _ (he f s) h⟩

theorem State.sPred_gives {mk : SR → Instr} {op : Word → Word → Word} (he : ∀ f s, exec (mk f) s = s.sPred f op) : GivesPP mk op :=
  fun f s h => runs_of_anchored _ s _ _ _ (he f s) h

/-- x[D] from x[A] of an SI body. -/
theorem State.siA_runs {i : Instr} {f : SI} {s : State} {op : Word → Word} (he : exec i s = s.siA f op)
    (h : Ready s [opReg .x f.a.toNat] [.x f.d.toNat]) : Runs i s [] fun k => k.setX f.d.toNat (op (s.issue.pre.getX f.a.toNat)) :=
  (runs_of_anchored i s _ _ _ he h).unlatched (by simp [opReg])

theorem State.siA_gives {mk : SI → Instr} {op : SI → Word → Word} (he : ∀ f s, exec (mk f) s = s.siA f (op f)) : GivesImm mk op :=
  fun f s h => State.siA_runs (he f s) h

/-- The same where the operation's function `fn` computes what its rule says. -/
theorem State.siA_gives_of_eq {mk : SI → Instr} {op : SI → Word → Word} (fn : SI → Word → Word)
    (he : ∀ f s, exec (mk f) s = s.siA f (fn f)) (hop : ∀ f a, fn f a = op f a) : GivesImm mk op := by
  obtain rfl : fn = op := funext fun f => funext fun a => hop f a
  exact State.siA_gives he

/-- All ones or zero, by a condition (R174). -/
theorem allBits_of_iff {c : Bool} {p : Prop} (h : c = true ↔ p) : (p → allBits c = -1) ∧ (¬p → allBits c = 0) :=
  ⟨fun hp => if_pos (h.2 hp), fun hp => if_neg (mt h.1 hp)⟩

/-- p[D] from a compare, by the test `test` that the operation makes. -/
theorem State.sCmp_compares {mk : SR → Instr} (test : Word → Word → Bool) {c : Word → Word → Prop}
    (he : ∀ f s, exec (mk f) s = s.sCmp f test) (hc : ∀ a b, test a b = true ↔ c a b) : ComparesAB mk c := fun f s h =>
  have hv := allBits_of_iff (hc (s.srcX (opA .x f)) (s.srcX (opB .x f)))
  ⟨_, hv.1, hv.2, runs_of_anchored _ s _ _ _ (he f s) h⟩

/-- A compare whose test is the condition itself. -/
theorem State.sCmp_decides {mk : SR → Instr} {c : Word → Word → Prop} [∀ a b, Decidable (c a b)]
    (he : ∀ f s, exec (mk f) s = s.sCmp f fun a b => decide (c a b)) : ComparesAB mk c :=
  State.sCmp_compares _ he fun _ _ => decide_eq_true_iff

theorem State.siCmp_decides {mk : SI → Instr} {c : SI → Word → Prop} [∀ f a, Decidable (c f a)]
    (he : ∀ f s, exec (mk f) s = s.siCmp f fun a => decide (c f a)) : ComparesImm mk c := fun f s h =>
  have hv := allBits_of_iff (decide_eq_true_iff (p := c f (s.issue.pre.getX f.a.toNat)))
  ⟨_, hv.1, hv.2, (runs_of_anchored _ s _ _ _ (he f s) h).unlatched (by simp [opReg])⟩

/-! Bits counted and found (R168, R175) -/

/-- The highest set bit is the one that the word's logarithm names. -/
theorem leadingZeros_isClz (a : Word) : IsClz a (word (leadingZeros a)) := by
  refine ⟨leadingZeros a, rfl, ?_⟩
  unfold leadingZeros
  split
  next h0 => subst h0; simp
  next h0 =>
    have hn : a.toNat ≠ 0 := fun h => h0 (BitVec.eq_of_toNat_eq h)
    have hlog : a.toNat.log2 < 64 := (Nat.log2_lt hn).2 a.isLt
    refine ⟨by omega, fun i hi => ?above, fun _ => ?highest⟩
    case above => exact Nat.testBit_lt_two_pow ((Nat.log2_lt hn).1 (by omega))
    case highest =>
      rw [show 63 - (63 - a.toNat.log2) = a.toNat.log2 by omega]
      exact Nat.testBit_log2 hn

theorem lowestSet_isCtz (a : Word) : IsCtz a (word (lowestSet a)) := by
  refine ⟨lowestSet a, rfl, ?_⟩
  unfold lowestSet
  cases h : (List.range 64).find? fun i => a.getLsbD i with
  | none =>
    rw [List.find?_range_eq_none] at h
    exact ⟨le_rfl, fun i hi => by simpa using h i hi, fun hlt => absurd hlt (lt_irrefl 64)⟩
  | some n =>
    obtain ⟨hset, hn, hbelow⟩ := List.find?_range_eq_some.1 h
    exact ⟨(List.mem_range.1 hn).le, fun i hi => by simpa using hbelow i hi, fun _ => hset⟩

theorem popCount_isPopc (a : Word) : IsPopc a (word (popCount a)) := by
  have h : popCount a = ((Finset.range 64).filter fun i => a.getLsbD i = true).card := by
    simp [popCount, Finset.card, Finset.filter, Finset.range, Multiset.range]
  rw [h]
  rfl

end Sys2Proof.Machine
end

section
/-! SUPPORT. O1: scalar arithmetic and divisions (R168, R169). -/
namespace Sys2Proof.Machine

/-! Products and quotients -/

/-- The upper half of a two-word integer. -/
theorem extractLsb'_ofInt_high (z : Int) : (BitVec.ofInt 128 z).extractLsb' 64 64 = BitVec.ofInt 64 (z / 2 ^ 64) := by
  apply BitVec.eq_of_toNat_eq
  rw [BitVec.extractLsb'_toNat, BitVec.toNat_ofInt, BitVec.toNat_ofInt, Nat.shiftRight_eq_div_pow]
  omega

theorem mulHigh_eq (a b : Word) : mulHigh a b = (a.signExtend 128 * b.signExtend 128).extractLsb' 64 64 := by
  have hprod : a.signExtend 128 * b.signExtend 128 = BitVec.ofInt 128 (a.toInt * b.toInt) := (BitVec.ofInt_mul _ _).symm
  rw [hprod, extractLsb'_ofInt_high, mulHigh]

theorem mulHighU_eq (a b : Word) : mulHighU a b = (a.zeroExtend 128 * b.zeroExtend 128).extractLsb' 64 64 := by
  have hext (x : Word) : (x.zeroExtend 128).toNat = x.toNat := BitVec.toNat_setWidth_of_le (by decide)
  apply BitVec.eq_of_toNat_eq
  rw [BitVec.extractLsb'_toNat, BitVec.toNat_mul, hext, hext, Nat.shiftRight_eq_div_pow, mulHighU, word, BitVec.toNat_ofNat]
  exact (field_of_cut _ 128 64 64 le_rfl).symm

theorem divSigned_eq (a b : Word) : divSigned a b = if b = 0 then -1 else a.sdiv b := by
  have h : BitVec.ofInt 64 (a.toInt.tdiv b.toInt) = a.sdiv b := by
    apply BitVec.eq_of_toInt_eq
    rw [BitVec.toInt_ofInt, BitVec.toInt_sdiv]
  rw [divSigned, h]

theorem divUnsigned_eq (a b : Word) : divUnsigned a b = if b = 0 then -1 else a / b := by
  have h : word (a.toNat / b.toNat) = a / b := by rw [← BitVec.toNat_udiv, word, BitVec.ofNat_toNat, BitVec.setWidth_eq]
  rw [divUnsigned, h]

theorem remSigned_eq (a b : Word) : remSigned a b = if b = 0 then a else a.srem b := by
  have h : BitVec.ofInt 64 (a.toInt.tmod b.toInt) = a.srem b := by rw [← BitVec.toInt_srem, BitVec.ofInt_toInt]
  rw [remSigned, h]

/-! The operations -/

/-- A test replaced by its opposite. -/
theorem ite_eq_ite_swap {α : Type} {p q : Prop} [Decidable p] [Decidable q] (h : p ↔ ¬q) (u v : α) :
    (if p then v else u) = if q then u else v := by
  simp only [h, ite_not]

/-- A test weakened where its outcomes agree: MAX of equal sources is either. -/
theorem ite_eq_ite_weaker {α : Type} {p q : Prop} [Decidable p] [Decidable q] {u v : α} (hpq : p → q) (h : q → ¬p → u = v) :
    (if p then v else u) = if q then v else u := by
  by_cases hp : p
  · rw [if_pos hp, if_pos (hpq hp)]
  · by_cases hq : q
    · rw [if_neg hp, if_pos hq, h hq hp]
    · rw [if_neg hp, if_neg hq]

/-- FN9[2:0] counts ADDSH's places (R168). -/
theorem SR.scale_eq (f : SR) : f.fn9.toNat % 8 = (f.fn9.extractLsb' 0 3).toNat := by simp

/-- Settles O1: the shapes of two sources, of one source and of an immediate, with the value of each operation. -/
theorem scalarArithmeticAndDivision : Obligations.ScalarArithmeticAndDivision := by
  refine ⟨⟨?add, ?sub, ?addi, ?mul, ?mulh, ?mulhu, ?addsh, ?min, ?max, ?minu, ?maxu, ?clz, ?ctz, ?popc, ?sel⟩, ?div, ?divu, ?rem⟩
  case add => exact State.sAB_gives fun _ _ => rfl
  case sub => exact State.sAB_gives fun _ _ => rfl
  case addi => exact State.siA_gives fun _ _ => rfl
  case mul => exact State.sAB_gives fun _ _ => rfl
  case mulh => exact State.sAB_gives_of_eq (fun _ => mulHigh) (fun _ _ => rfl) fun _ => mulHigh_eq
  case mulhu => exact State.sAB_gives_of_eq (fun _ => mulHighU) (fun _ _ => rfl) fun _ => mulHighU_eq
  case addsh =>
    exact State.sAB_gives_of_eq (fun f a b => a + b <<< (f.fn9.toNat % 8)) (fun _ _ => rfl) fun f a b =>
      congrArg (fun n => a + b <<< n) (SR.scale_eq f)
  case min =>
    exact State.sAB_gives_of_eq (fun _ a b => if b.toInt < a.toInt then b else a) (fun _ _ => rfl) fun _ a b =>
      ite_eq_ite_swap Int.not_le.symm a b
  case max =>
    exact State.sAB_gives_of_eq (fun _ a b => if a.toInt < b.toInt then b else a) (fun _ _ => rfl) fun _ a b =>
      ite_eq_ite_weaker Int.le_of_lt fun hle hlt => BitVec.eq_of_toInt_eq (Int.le_antisymm hle (Int.not_lt.1 hlt))
  case minu =>
    exact State.sAB_gives_of_eq (fun _ a b => if b < a then b else a) (fun _ _ => rfl) fun _ a b =>
      ite_eq_ite_swap Nat.not_le.symm a b
  case maxu =>
    exact State.sAB_gives_of_eq (fun _ a b => if a < b then b else a) (fun _ _ => rfl) fun _ a b =>
      ite_eq_ite_weaker Nat.le_of_lt fun hle hlt => BitVec.eq_of_toNat_eq (Nat.le_antisymm hle (Nat.not_lt.1 hlt))
  case clz => exact State.sA_relates (fun _ a => word (leadingZeros a)) (fun _ _ => rfl) fun _ => leadingZeros_isClz
  case ctz => exact State.sA_relates (fun _ a => word (lowestSet a)) (fun _ _ => rfl) fun _ => lowestSet_isCtz
  case popc => exact State.sA_relates (fun _ a => word (popCount a)) (fun _ _ => rfl) fun _ => popCount_isPopc
  case sel => exact fun f s h => runs_of_anchored _ s _ _ _ rfl h
  case div => exact State.sAB_gives_of_eq (fun _ => divSigned) (fun _ _ => rfl) fun _ => divSigned_eq
  case divu => exact State.sAB_gives_of_eq (fun _ => divUnsigned) (fun _ _ => rfl) fun _ => divUnsigned_eq
  case rem => exact State.sAB_gives_of_eq (fun _ => remSigned) (fun _ _ => rfl) fun _ => remSigned_eq

end Sys2Proof.Machine
end

section
/-! SUPPORT. O2: logic, constants, bitfields and work-identifier fields (R29, R170 to R173). -/
namespace Sys2Proof.Machine

/-! Fields of the immediate -/

/-- A shift count is the low six bits of its source (R170). -/
theorem shiftCount_eq {n : Nat} (b : BitVec n) : b.toNat % 64 = (b.extractLsb' 0 6).toNat := by simp

/-- W − 1 stands above LO (R172). -/
theorem fieldWidth_eq (f : SI) : fieldWidth f = (f.imm.extractLsb' 6 6).toNat + 1 := by
  simp [fieldWidth, SI.u, Nat.shiftRight_eq_div_pow]

/-- LIH keeps the low half. -/
theorem highHalf_eq (hi : BitVec 32) (a : Word) : word (hi.toNat * 2 ^ 32) ||| word (a.toNat % 2 ^ 32) = hi ++ a.extractLsb' 0 32 := by
  refine BitVec.eq_of_getLsbD_eq fun i hi64 => ?_
  have hhigh : (word (hi.toNat * 2 ^ 32)).getLsbD i = (decide (32 ≤ i) && hi.getLsbD (i - 32)) := by
    rw [word, BitVec.getLsbD_ofNat, Nat.testBit_mul_two_pow, decide_eq_true hi64, Bool.true_and, BitVec.testBit_toNat]
  have hlow : (word (a.toNat % 2 ^ 32)).getLsbD i = (decide (i < 32) && a.getLsbD i) := by
    rw [word, BitVec.getLsbD_ofNat, Nat.testBit_mod_two_pow, decide_eq_true hi64, Bool.true_and, BitVec.testBit_toNat]
  rw [BitVec.getLsbD_or, hhigh, hlow, BitVec.getLsbD_append, BitVec.getLsbD_extractLsb', Nat.zero_add]
  by_cases h : i < 32
  · simp [h, Nat.not_le.2 h]
  · simp [h, Nat.not_lt.1 h]

/-! Bitfields (R172) -/

theorem intOfBits_signed {w : Nat} (h : 0 < w) (e : Nat) : Num.intOfBits w true e = (BitVec.ofNat w e).toInt := by
  obtain ⟨n, rfl⟩ := Nat.exists_eq_add_of_lt h
  unfold Num.intOfBits
  rw [BitVec.toInt_eq_toNat_cond, BitVec.toNat_ofNat]
  simp only [Bool.true_and, decide_eq_true_eq]
  have hp : 2 ^ (0 + n + 1) = 2 * 2 ^ (0 + n + 1 - 1) := by simp [Nat.pow_succ']
  push_cast
  split <;> split <;> omega

/-- The field of w bits from bit lo up, as a number. -/
theorem ofNat_bits (a : Word) (lo w : Nat) : BitVec.ofNat w (bits a lo w) = a.extractLsb' lo w := by
  apply BitVec.eq_of_toNat_eq
  simp [bits, Nat.shiftRight_eq_div_pow]

theorem sextWord_bits (a : Word) (lo : Nat) {w : Nat} (h : 0 < w) : sextWord w (bits a lo w) = (a.extractLsb' lo w).signExtend 64 := by
  rw [sextWord, intOfBits_signed h, ofNat_bits, BitVec.signExtend]

theorem word_bits (a : Word) (lo w : Nat) : word (bits a lo w) = (a.extractLsb' lo w).setWidth 64 := by
  rw [← ofNat_bits]
  apply BitVec.eq_of_toNat_eq
  simp [word, bits]

/-- A field that ends below bit 64, bit by bit: the rest is zero, or the field's top bit. -/
theorem bitfieldOf_getLsbD (f : SI) (a : Word) {lo top i : Nat} (hlo : f.u % 64 = lo) (hw : fieldWidth f = top + 1) (hi : i < 64) :
    (bitfieldOf f a).getLsbD i = if i ≤ top then a.getLsbD (lo + i) else f.imm.getLsbD 12 && a.getLsbD (lo + top) := by
  have hle : i < top + 1 ↔ i ≤ top := Nat.lt_succ_iff
  unfold bitfieldOf
  rw [hlo, hw]
  dsimp only
  cases hs : f.imm.getLsbD 12 with
  | true =>
    rw [if_pos rfl, sextWord_bits a lo top.succ_pos, BitVec.getLsbD_signExtend, BitVec.msb_eq_getLsbD_last]
    by_cases h : i ≤ top <;> simp [h, hi, hle]
  | false =>
    rw [if_neg Bool.false_ne_true, word_bits]
    by_cases h : i ≤ top <;> simp [h, hi, hle]

/-- The bits of BFI's mask. -/
theorem fieldMask_getLsbD (w lo : Nat) {i : Nat} (hi : i < 64) :
    (word ((2 ^ w - 1) * 2 ^ lo)).getLsbD i = (decide (lo ≤ i) && decide (i - lo < w)) := by
  rw [word, BitVec.getLsbD_ofNat, Nat.testBit_mul_two_pow, Nat.testBit_two_pow_sub_one, decide_eq_true hi, Bool.true_and]

theorem insertField_getLsbD (f : SI) (d a : Word) {lo top i : Nat} (hlo : f.u % 64 = lo) (hw : fieldWidth f = top + 1) (hi : i < 64) :
    (insertField f d a).getLsbD i = if lo ≤ i ∧ i ≤ lo + top then a.getLsbD (i - lo) else d.getLsbD i := by
  have hin : (decide (lo ≤ i) && decide (i - lo < top + 1)) = decide (lo ≤ i ∧ i ≤ lo + top) := by
    rw [Bool.eq_iff_iff]
    simp only [Bool.and_eq_true, decide_eq_true_eq]
    omega
  unfold insertField
  rw [hlo, hw]
  dsimp only
  rw [BitVec.getLsbD_or, BitVec.getLsbD_and, BitVec.getLsbD_and, BitVec.getLsbD_not, fieldMask_getLsbD _ _ hi, hin,
    BitVec.getLsbD_shiftLeft]
  by_cases h : lo ≤ i ∧ i ≤ lo + top
  · rw [if_pos h, decide_eq_true h]
    simp [hi, h.1]
  · rw [if_neg h, decide_eq_false h]
    simp [hi]

/-! Work-identifier fields (R29, R173) -/

theorem word_toNat {n : Nat} (h : n < 2 ^ 64) : (word n).toNat = n := by
  rw [word, BitVec.toNat_ofNat, Nat.mod_eq_of_lt h]

/-- A field and the fields below it stand within the width sum. -/
theorem fieldLow_add_width (ws : List Nat) {k : Nat} (h1 : 1 ≤ k) (h : k ≤ ws.length) :
    fieldLow ws k + ws.getD (k - 1) 0 ≤ ws.sum := by
  obtain ⟨j, rfl⟩ := Nat.exists_eq_add_of_le' h1
  have hj : j < ws.length := h
  calc fieldLow ws (j + 1) + ws.getD j 0 = (ws.drop j).sum := by
        rw [List.drop_eq_getElem_cons hj, List.sum_cons, fieldLow, List.getD_eq_getElem _ _ hj, Nat.add_comm]
    _ ≤ (ws.take j).sum + (ws.drop j).sum := Nat.le_add_left _ _
    _ = ws.sum := by rw [← List.sum_append, List.take_append_drop]

theorem widField_field (ws : List Nat) (w : Word) {k : Nat} (h1 : 1 ≤ k) (h : k ≤ ws.length) :
    (widField ws w false k).toNat = w.toNat / 2 ^ (ws.drop k).sum % 2 ^ ws.getD (k - 1) 0 := by
  have hcut := field_of_cut w.toNat _ _ _ (fieldLow_add_width ws h1 h)
  show (word (w.toNat % 2 ^ ws.sum / 2 ^ fieldLow ws k % 2 ^ ws.getD (k - 1) 0)).toNat = _
  rw [hcut]
  exact word_toNat (((Nat.mod_le _ _).trans (Nat.div_le_self _ _)).trans_lt w.isLt)

theorem widField_noFields (ws : List Nat) (w : Word) : widField ws w true 0 = 0 := rfl

theorem widField_prefix (ws : List Nat) (w : Word) {k : Nat} (h1 : 1 ≤ k) :
    (widField ws w true k).toNat = w.toNat % 2 ^ ws.sum / 2 ^ (ws.drop k).sum := by
  have hk : k ≠ 0 := by omega
  rw [widField, if_pos rfl, if_neg hk]
  exact word_toNat (((Nat.div_le_self _ _).trans (Nat.mod_le _ _)).trans_lt w.isLt)

/-! The operations -/

theorem bfx_runs (f : SI) (s : State) (h : Ready s [opReg .x f.a.toNat] [.x f.d.toNat]) :
    Runs (.bfx f) s [] fun k => k.setX f.d.toNat (bitfieldOf f (s.issue.pre.getX f.a.toNat)) :=
  State.siA_runs (op := bitfieldOf f) rfl h

theorem bfi_runs (f : SI) (s : State) (h : Ready s [opReg .x f.a.toNat, opReg .x f.d.toNat] [.x f.d.toNat]) :
    Runs (.bfi f) s [] fun k => k.setX f.d.toNat (insertField f (s.issue.pre.getX f.d.toNat) (s.issue.pre.getX f.a.toNat)) :=
  (runs_of_anchored _ s _ _ _ rfl h).unlatched (by simp [opReg])

theorem widf_runs (f : SI) (s : State) (h : Ready s [opReg .x f.a.toNat] [.x f.d.toNat]) :
    Runs (.widf f) s [] fun k => k.setX f.d.toNat (widField s.issue.pre.widths
      (if f.a = 0 then s.issue.pre.wid else s.issue.pre.getX f.a.toNat) (f.imm.getLsbD 3) (f.u % 8)) :=
  State.siA_runs (op := fun a => widField s.issue.pre.widths (if f.a = 0 then s.issue.pre.wid else a) (f.imm.getLsbD 3) (f.u % 8)) rfl h

/-- Settles O2: shift counts and fields of the immediate, bitfields bit by bit, fields of the identifier within its width sum. -/
theorem scalarLogicConstantsAndFields : Obligations.ScalarLogicConstantsAndFields := by
  refine ⟨⟨?and, ?or, ?xor, ?andi, ?ori, ?shl, ?shr, ?sar, ?shli, ?shri, ?sari⟩, ?li, ?lih, ?bfx, ?bfi, ?widf⟩
  case and => exact State.sAB_gives fun _ _ => rfl
  case or => exact State.sAB_gives fun _ _ => rfl
  case xor => exact State.sAB_gives fun _ _ => rfl
  case andi => exact State.siA_gives fun _ _ => rfl
  case ori => exact State.siA_gives fun _ _ => rfl
  case shl =>
    exact State.sAB_gives_of_eq (fun _ a b => a <<< (b.toNat % 64)) (fun _ _ => rfl) fun _ a b =>
      congrArg (a <<< ·) (shiftCount_eq b)
  case shr =>
    exact State.sAB_gives_of_eq (fun _ a b => a >>> (b.toNat % 64)) (fun _ _ => rfl) fun _ a b =>
      congrArg (a >>> ·) (shiftCount_eq b)
  case sar =>
    exact State.sAB_gives_of_eq (fun _ a b => a.sshiftRight (b.toNat % 64)) (fun _ _ => rfl) fun _ a b =>
      congrArg a.sshiftRight (shiftCount_eq b)
  case shli =>
    exact State.siA_gives_of_eq (fun f a => a <<< (f.u % 64)) (fun _ _ => rfl) fun f a =>
      congrArg (a <<< ·) (shiftCount_eq f.imm)
  case shri =>
    exact State.siA_gives_of_eq (fun f a => a >>> (f.u % 64)) (fun _ _ => rfl) fun f a =>
      congrArg (a >>> ·) (shiftCount_eq f.imm)
  case sari =>
    exact State.siA_gives_of_eq (fun f a => a.sshiftRight (f.u % 64)) (fun _ _ => rfl) fun f a =>
      congrArg a.sshiftRight (shiftCount_eq f.imm)
  case li => exact fun f s h => runs_of_anchored _ s [] _ _ rfl h
  case lih =>
    exact State.siA_gives_of_eq (fun f a => word (f.u * 2 ^ 32) ||| word (a.toNat % 2 ^ 32)) (fun _ _ => rfl) fun f a =>
      highHalf_eq f.imm a
  case bfx =>
    exact fun f s h _ => ⟨_, fun _ => bitfieldOf_getLsbD f _ (shiftCount_eq f.imm) (fieldWidth_eq f), bfx_runs f s h⟩
  case bfi =>
    exact fun f s h _ => ⟨_, fun _ => insertField_getLsbD f _ _ (shiftCount_eq f.imm) (fieldWidth_eq f), bfi_runs f s h⟩
  case widf =>
    intro f s k w h hk hlen hle hone hw
    have hrun := widf_runs f s h
    rw [← hw, SI.ring_eq, ← hk] at hrun
    refine ⟨_, fun hf => ?_, fun hp h0 => ?_, fun hp h1 => ?_, hrun⟩
    · rw [hf]
      exact widField_field _ w (hone hf) (hlen ▸ hle)
    · rw [hp, h0]
      exact widField_noFields _ w
    · rw [hp]
      exact widField_prefix _ w h1

end Sys2Proof.Machine
end

section
/-! SUPPORT. O3: compares and predicate operations (R98, R174, R175). -/
namespace Sys2Proof.Machine

/-- Settles O3: the shapes of compares, each with its condition, and of predicate operations. -/
theorem comparesAndPredicateOperations : Obligations.ComparesAndPredicateOperations := by
  refine ⟨⟨?eq, ?ne, ?lt, ?le, ?ltu, ?leu, ?eqi, ?lti, ?ltui, ?flt, ?fle⟩, ?and, ?or, ?xor, ?andn, ?set, ?get, ?count, ?first⟩
  case eq => exact State.sCmp_decides fun _ _ => rfl
  case ne => exact State.sCmp_decides fun _ _ => rfl
  case lt => exact State.sCmp_decides fun _ _ => rfl
  case le => exact State.sCmp_decides fun _ _ => rfl
  case ltu => exact State.sCmp_decides fun _ _ => rfl
  case leu => exact State.sCmp_decides fun _ _ => rfl
  case eqi => exact State.siCmp_decides fun _ _ => rfl
  case lti => exact State.siCmp_decides fun _ _ => rfl
  case ltui => exact State.siCmp_decides fun _ _ => rfl
  case flt => exact State.sCmp_compares (fun a b => Num.lt (f32 a) (f32 b)) (fun _ _ => rfl) fun _ _ => Iff.rfl
  case fle =>
    exact State.sCmp_compares (fun a b => Num.lt (f32 a) (f32 b) || Num.eq (f32 a) (f32 b)) (fun _ _ => rfl) fun _ _ => Bool.or_eq_true_iff
  case and => exact State.sPred_gives fun _ _ => rfl
  case or => exact State.sPred_gives fun _ _ => rfl
  case xor => exact State.sPred_gives fun _ _ => rfl
  case andn => exact State.sPred_gives fun _ _ => rfl
  case set => exact fun f s h => runs_of_anchored _ s _ _ _ rfl h
  case get => exact State.sFromP_relates id (fun _ _ => rfl) fun _ => rfl
  case count => exact State.sFromP_relates (fun a => word (popCount a)) (fun _ _ => rfl) popCount_isPopc
  case first => exact State.sFromP_relates (fun a => word (lowestSet a)) (fun _ _ => rfl) lowestSet_isCtz

end Sys2Proof.Machine
end

section
/-! SUPPORT. O7: lanes cut to their width, lanes as bit patterns, integer lanes that wrap (R119, R184, R188). -/
namespace Sys2Proof.Machine

/-! Lanes cut to their width (R119, R182) -/

theorem Fmt.width_pos (g : Fmt) : 0 < g.width := by
  unfold Fmt.width
  split <;> decide

theorem laneAt_lt (g : Fmt) (r : VReg) (i : Nat) : laneAt g r i < 2 ^ g.width := Nat.mod_lt _ (Nat.two_pow_pos _)

/-- Spare bits stand inside the lane: what lies above the lane does not change them (R119). -/
theorem Fmt.clean_mod (g : Fmt) (e : Nat) : g.clean (e % 2 ^ g.width) % 2 ^ g.width = g.clean e % 2 ^ g.width := by
  cases g <;> simp only [Fmt.clean, Fmt.width, Fmt.elem, Nat.mod_mod] <;> omega

/-- A lane holds what its function gives up to the lane's width. -/
theorem KeepsOrWrites.of_mod {cond : Word} {g : Fmt} {old r : VReg} {cut op : Nat → Nat} (h : KeepsOrWrites cond g old r cut)
    (hc : ∀ i, cut i = op i % 2 ^ g.width) : KeepsOrWrites cond g old r op := by
  obtain ⟨htag, hside, hlane⟩ := h
  refine ⟨htag, hside, fun i hi => ?_⟩
  rw [hlane i hi, hc i, Fmt.clean_mod]

theorem Lanes2.of_mod {mk : SR → Instr} {ok : Fmt → Bool} {cut op : SR → Fmt → Nat → Nat → Nat} (h : Lanes2 mk ok cut)
    (hc : ∀ f g a b, cut f g a b = op f g a b % 2 ^ g.width) : Lanes2 mk ok op := by
  intro f s g hs ht
  obtain ⟨r, hr, hrun⟩ := h f s g hs ht
  exact ⟨r, hr.of_mod fun i => hc f g _ _, hrun⟩

/-! Bit patterns (R188) -/

theorem bitsOfInt_eq_toNat (w : Nat) (z : Int) : Num.bitsOfInt w z = (BitVec.ofInt w z).toNat := (BitVec.toNat_ofInt z).symm

/-- VSAR's quotient is the arithmetic shift of the lane. -/
theorem arithmeticShift_eq {w : Nat} (h : 0 < w) (a n : Nat) :
    Num.bitsOfInt w (Num.intOfBits w true a / (2 ^ n : Nat)) = ((BitVec.ofNat w a).sshiftRight n).toNat := by
  rw [bitsOfInt_eq_toNat, intOfBits_signed h, ← Int.shiftRight_eq_div_pow, ← BitVec.toInt_sshiftRight, BitVec.ofInt_toInt]

/-! Integer lanes that wrap (R184) -/

theorem Fmt.intBits_of_isInteger {g : Fmt} (h : g.isInteger = true) : ∃ sgn, g.intBits = some (g.width, sgn) := by
  unfold Fmt.isInteger at h
  split at h
  case h_6 => cases h
  all_goals exact ⟨_, rfl⟩

theorem Fmt.isFloat_of_isInteger {g : Fmt} (h : g.isInteger = true) : g.isFloat = false := by
  unfold Fmt.isInteger at h
  split at h
  case h_6 => cases h
  all_goals rfl

/-- The integer of a lane is the lane's bits, up to a multiple of the lane's range. -/
theorem laneInt_modEq {g : Fmt} (h : g.isInteger = true) (e : Nat) : laneInt g e ≡ e [ZMOD (2 ^ g.width : Nat)] := by
  obtain ⟨sgn, hb⟩ := Fmt.intBits_of_isInteger h
  have hcut : ((e % 2 ^ g.width : Nat) : Int) ≡ e [ZMOD (2 ^ g.width : Nat)] := by
    rw [Int.natCast_mod]
    exact Int.mod_modEq _ _
  unfold laneInt
  rw [hb]
  dsimp only [Num.intOfBits]
  split
  · exact (Int.modEq_iff_dvd.mpr ⟨1, by push_cast; ring⟩ : _ ≡ ((e % 2 ^ g.width : Nat) : Int) [ZMOD (2 ^ g.width : Nat)]).trans hcut
  · exact hcut

/-- Without SAT a lane takes the low bits of the integer (R184). -/
theorem floatOrInt_wraps {f : SR} {g : Fmt} (hg : g.isInteger = true) (hs : f.sat = 0) (x : Num) {z : Int} {n : Nat}
    (h : z ≡ n [ZMOD (2 ^ g.width : Nat)]) : floatOrInt f g x z = n % 2 ^ g.width := by
  obtain ⟨sgn, hb⟩ := Fmt.intBits_of_isInteger hg
  have hsat : ¬f.sat = 1 := by rw [hs]; decide
  unfold floatOrInt
  rw [Fmt.isFloat_of_isInteger hg, hb, if_neg Bool.false_ne_true]
  dsimp only
  rw [if_neg hsat, Num.bitsOfInt, h, ← Int.natCast_mod, Int.toNat_natCast]

theorem Tagged.mono {s : State} {f : SR} {os : List Opd} {ok ok' : Fmt → Bool} {g : Fmt} (h : Tagged s f os ok g)
    (hok : ok g = true → ok' g = true) : Tagged s f os ok' g :=
  ⟨h.1, hok h.2.1, h.2.2⟩

/-- An operation of O6's kind on integer lanes without SAT, by the number that its integer is congruent to. -/
theorem Lanes2.wraps {mk : SR → Instr} {x : SR → Fmt → Nat → Nat → Num} {z : SR → Fmt → Nat → Nat → Int}
    (op : Fmt → Nat → Nat → Nat)
    (h : Lanes2 mk Fmt.isArith fun f g a b => floatOrInt f g (x f g a b) (z f g a b)) {f : SR} {s : State} {g : Fmt}
    (hs : ReadySlip s [opA .v f, opB .v f] [.v f.d.toNat]) (ht : Tagged s f [opA .v f, opB .v f] Fmt.isInteger g) (hsat : f.sat = 0)
    (hz : ∀ a b, b < 2 ^ g.width → z f g a b ≡ op g a b [ZMOD (2 ^ g.width : Nat)]) :
    ∃ r, KeepsOrWrites s.issue.cond g (s.issue.pre.getV f.d.toNat) r
        (fun i => op g (laneAt g (s.srcV (opA .v f)) i) (laneAt g (s.srcV (opB .v f)) i)) ∧
      RunsSlip (mk f) s [opA .v f, opB .v f] [.v f.d.toNat] fun k => k.setV f.d.toNat r := by
  have hg : g.isInteger = true := ht.2.1
  obtain ⟨r, hr, hrun⟩ := h f s g hs (ht.mono fun hi => by rw [Fmt.isArith, hi, Bool.or_true])
  exact ⟨r, hr.of_mod fun i => floatOrInt_wraps hg hsat _ (hz _ _ (laneAt_lt g _ i)), hrun⟩

/-- Settles O7: bit patterns lane by lane; sums, differences and products by the congruence of the integers of O6. -/
theorem laneLogicShiftsAndWrapping : Obligations.LaneLogicShiftsAndWrapping := by
  refine ⟨⟨?and, ?or, ?xor, ?shl, ?shr, ?sar⟩, fun v f s g hs ht hsat => ?wraps⟩
  case and => exact fun v => State.v2_lanes (fn := fun _ _ a b => a &&& b) (fun _ _ => rfl) rfl fun _ _ _ _ => rfl
  case or => exact fun v => State.v2_lanes (fn := fun _ _ a b => a ||| b) (fun _ _ => rfl) rfl fun _ _ _ _ => rfl
  case xor => exact fun v => State.v2_lanes (fn := fun _ _ a b => a ^^^ b) (fun _ _ => rfl) rfl fun _ _ _ _ => rfl
  case shl =>
    refine fun v => Lanes2.of_mod (cut := fun _ g a b => a * 2 ^ (b % g.width) % 2 ^ g.width) ?_ fun _ g a b => by rw [Nat.shiftLeft_eq]
    exact State.v2_lanes (fn := fun _ g a b => a * 2 ^ (b % g.width) % 2 ^ g.width) (fun _ _ => rfl) rfl fun _ _ _ _ => rfl
  case shr =>
    exact fun v => State.v2_lanes (fn := fun _ g a b => a / 2 ^ (b % g.width)) (fun _ _ => rfl) rfl fun _ g a b =>
      (Nat.shiftRight_eq_div_pow a _).symm
  case sar =>
    exact fun v => State.v2_lanes (fn := fun _ g a b =>
      Num.bitsOfInt g.width (Num.intOfBits g.width true a / (2 ^ (b % g.width) : Nat))) (fun _ _ => rfl) rfl fun _ g a b =>
        arithmeticShift_eq (Fmt.width_pos g) a _
  case wraps =>
    have hg : g.isInteger = true := ht.2.1
    obtain ⟨hadd, hsub, hmul, -⟩ := laneArithmeticResults
    obtain ⟨r1, hk1, hrun1⟩ := Lanes2.wraps (fun _ a b => a + b) (hadd v) hs ht hsat fun a b _ => by
      push_cast
      exact (laneInt_modEq hg a).add (laneInt_modEq hg b)
    obtain ⟨r2, hk2, hrun2⟩ := Lanes2.wraps (fun g a b => a + 2 ^ g.width - b) (hsub v) hs ht hsat fun a b hb => by
      rw [Nat.cast_sub (Nat.le_add_left_of_le hb.le)]
      refine ((laneInt_modEq hg a).sub (laneInt_modEq hg b)).trans (Int.modEq_iff_dvd.mpr ⟨1, ?_⟩)
      push_cast
      ring
    obtain ⟨r3, hk3, hrun3⟩ := Lanes2.wraps (fun _ a b => a * b) (hmul v) hs ht hsat fun a b _ => by
      push_cast
      exact (laneInt_modEq hg a).mul (laneInt_modEq hg b)
    exact ⟨r1, r2, r3, hk1, hrun1, hk2, hrun2, hk3, hrun3⟩

end Sys2Proof.Machine
end

section
/-! SUPPORT. O8: compares into predicates, one bit for each lane group (R183, R189). -/
namespace Sys2Proof.Machine

/-! Bits and groups -/

/-- A sum of distinct powers of two has the bits that its condition names, and no bit above them. -/
theorem sumOfBits_testBit (p : Nat → Bool) (n i : Nat) :
    ((List.range n).foldl (fun acc i => if p i then acc + 2 ^ i else acc) 0).testBit i = (decide (i < n) && p i) := by
  induction n generalizing i with
  | zero => simp
  | succ n ih =>
    rw [List.range_succ, List.foldl_concat]
    generalize (List.range n).foldl (fun acc i => if p i then acc + 2 ^ i else acc) 0 = low at ih
    have hlow : low < 2 ^ n := Nat.lt_pow_two_of_testBit _ fun j hj => by rw [ih, decide_eq_false (by omega), Bool.false_and]
    have hor : low + 2 ^ n = 2 ^ n ||| low := by simpa [Nat.add_comm] using Nat.two_pow_add_eq_or_of_lt hlow 1
    have hbit : (if p n then low + 2 ^ n else low).testBit i = (low.testBit i || (decide (n = i) && p n)) := by
      cases p n
      · simp
      · simp [hor, Nat.testBit_two_pow, Bool.or_comm]
    rw [hbit, ih]
    rcases lt_trichotomy i n with h | rfl | h
    · simp [h, h.ne', Nat.lt_succ_of_lt h]
    · simp
    · simp [h.ne, not_lt.mpr h.le, not_lt.mpr (Nat.succ_le_of_lt h)]

/-- The lanes of group i, of g lanes each (R183). -/
theorem mem_laneGroup {hit : Nat → Bool} {n g i : Nat} (hg : 0 < g) {c : Bool} :
    c ∈ (((List.range n).map hit).drop (g * i)).take g ↔ ∃ j < n, j / g = i ∧ hit j = c := by
  rw [← List.map_drop, ← List.map_take, List.mem_map]
  refine exists_congr fun j => ?_
  rw [List.take_drop, List.take_range, List.range_eq_range', List.drop_range', List.mem_range'_1, Nat.div_eq_iff hg, Nat.mul_comm i g,
    ← and_assoc]
  refine and_congr_left fun _ => ?_
  generalize g * i = a
  omega

/-- Bit i of a compare's predicate: the slot's own bit, and the condition of any lane of group i, or of every one (R189). -/
theorem comparePred_getLsbD (cond : Word) (every : Bool) (hit : Nat → Bool) {n g i : Nat} (hn : groupSize n = g) (hi : i < 64) :
    (comparePred cond every ((List.range n).map hit)).getLsbD i = true ↔ cond.getLsbD i = true ∧
      if every then ∀ j < n, j / g = i → hit j = true else ∃ j < n, j / g = i ∧ hit j = true := by
  subst hn
  have hg : 0 < groupSize n := Nat.lt_of_lt_of_le Nat.one_pos (Nat.le_max_left ..)
  unfold comparePred
  rw [List.length_map, List.length_range]
  dsimp only
  rw [word, BitVec.getLsbD_ofNat, sumOfBits_testBit, decide_eq_true hi, Bool.true_and, Bool.true_and, Bool.and_eq_true]
  refine and_congr_right fun _ => ?_
  cases every
  · simp [mem_laneGroup hg]
  · simp [mem_laneGroup hg]

/-- Every format has 64 lanes or a multiple (R182, R183). -/
theorem Fmt.groupSize_lanes (g : Fmt) : groupSize g.lanes = g.lanes / 64 := by cases g <;> rfl

/-- The condition of a compare on lane j: on exact numbers, or on integers. -/
def laneHit (g : Fmt) (fl : Num → Num → Bool) (it : Int → Int → Bool) (a b : VReg) (j : Nat) : Bool :=
  if g.isFloat then fl (Num.ofElem g (laneAt g a j)) (Num.ofElem g (laneAt g b j))
  else it (laneInt g (laneAt g a j)) (laneInt g (laneAt g b j))

theorem State.vCmp_compares {mk : SR → Instr} {fl : Num → Num → Bool} {it : Int → Int → Bool}
    (he : ∀ f s, exec (mk f) s = s.vCmp f fl it) : LaneCompare mk fl it := by
  intro f s g h ht
  have hg : (s.srcV (opA .v f)).tag = g := ht.1 _ (by simp)
  have hx := he f s
  rw [State.vCmp, State.vOp_passes _ _ _ _ (ht.passes rfl), hg] at hx
  dsimp only at hx
  rw [VReg.elems_eq, VReg.elems_eq, List.zipWith_map, List.zipWith_self] at hx
  exact ⟨_, fun i hi => comparePred_getLsbD _ _ (laneHit g fl it _ _) (Fmt.groupSize_lanes g) hi,
    runsSlip_of_slipped _ s _ _ _ hx h⟩

/-- Settles O8: one lemma for the four compares. -/
theorem laneComparesWritePredicateBits : Obligations.LaneComparesWritePredicateBits :=
  ⟨fun _ => State.vCmp_compares fun _ _ => rfl, fun _ => State.vCmp_compares fun _ _ => rfl,
    fun _ => State.vCmp_compares fun _ _ => rfl, fun _ => State.vCmp_compares fun _ _ => rfl⟩

end Sys2Proof.Machine
end

section
/-! SUPPORT. O9: selection, moves, broadcast, indexes, one lane in and out, permutation, rotation (R119, R183, R190 to R192). -/
namespace Sys2Proof.Machine

/-! Selection and moves (R190) -/

theorem execVsel_selects (v : VSlot) (f : SR) (s : State) (g : Fmt) (h : ReadySlip s [opA .v f, opB .v f, opPC f] [.v f.d.toNat])
    (ht : Tagged s f [opA .v f, opB .v f] Fmt.isUnscaled g) :
    ∃ r, KeepsOrWrites s.issue.cond g (s.issue.pre.getV f.d.toNat) r (fun i =>
        if laneOn (s.srcP (opPC f)) g.lanes i then laneAt g (s.srcV (opA .v f)) i else laneAt g (s.srcV (opB .v f)) i) ∧
      RunsSlip (.vsel v f) s [opA .v f, opB .v f, opPC f] [.v f.d.toNat] fun k => k.setV f.d.toNat r := by
  have hg : (s.srcV (opA .v f)).tag = g := ht.1 _ (by simp)
  have hx : exec (.vsel v f) s = execVsel v f s := rfl
  rw [execVsel, State.vOp_passes _ _ _ _ (ht.passes rfl), hg] at hx
  refine runsSlip_vMerge h hx fun i hi => ?_
  rw [VReg.elems_eq, VReg.elems_eq, List.zip_map', mapIdx_map_range, getD_map_range _ _ _ hi]

/-- What a VMOV under a predicate writes: lanes of the source's tag by the keep rule, and the side bytes of blocks that have an active
lane (R190). -/
def movedUnder (cond : Word) (old a : VReg) : VReg :=
  { (if a.tag.scale = .none then old else .zero).merge a.tag cond (a.elems a.tag) with side := movedSide cond a }

theorem movedUnder_lanes (cond : Word) (old a : VReg) : KeepsOrWrites cond a.tag (if a.tag.scale = .none then old else .zero)
    { movedUnder cond old a with side := 0 } fun i => laneAt a.tag a i :=
  VReg.merge_keepsOrWrites _ _ _ fun _ hi => getD_map_range _ _ _ hi

/-- A tag without a scale leaves no side bytes. -/
theorem movedUnder_unscaled {cond : Word} {old a : VReg} (h : a.tag.scale = .none) :
    movedUnder cond old a = { movedUnder cond old a with side := 0 } := by
  have hside : movedSide cond a = 0 := by unfold movedSide; rw [h]
  unfold movedUnder
  rw [hside]

theorem execVmov_copies (v : VSlot) (f : SR) (s : State) (h : ReadySlip s [opA .v f] [.v f.d.toNat]) (hc : s.issue.cond = -1) :
    RunsSlip (.vmov v f) s [opA .v f] [.v f.d.toNat] fun k => k.setV f.d.toNat (s.srcV (opA .v f)) := by
  have hx : exec (.vmov v f) s = execVmov v f s := rfl
  rw [execVmov, State.vOp_passes _ _ _ _ rfl, hc] at hx
  exact runsSlip_of_slipped _ s _ _ _ hx h

theorem execVmov_merges (v : VSlot) (f : SR) (s : State) (h : ReadySlip s [opA .v f] [.v f.d.toNat]) (hc : s.issue.cond ≠ -1) :
    RunsSlip (.vmov v f) s [opA .v f] [.v f.d.toNat] fun k =>
      k.setV f.d.toNat (movedUnder s.issue.cond (s.issue.pre.getV f.d.toNat) (s.srcV (opA .v f))) := by
  have hx : exec (.vmov v f) s = execVmov v f s := rfl
  rw [execVmov, State.vOp_passes _ _ _ _ rfl] at hx
  simp only [hc, if_false] at hx
  exact runsSlip_of_slipped _ s _ _ _ hx h

/-! Broadcast and indexes (R190) -/

/-- Values of an x register cut to lanes of FMT. -/
theorem runsSlip_vMerge_mod {i : Instr} {s : State} {os : List Opd} {d : Nat} {g : Fmt} {new : List Nat} {op : Nat → Nat}
    (h : ReadySlip s os [.v d]) (he : exec i s = s.slipped true os [.v d] fun t => s.vMerge t d g new)
    (hn : ∀ j < g.lanes, new.getD j 0 = op j % 2 ^ g.width) :
    ∃ r, KeepsOrWrites s.issue.cond g (s.issue.pre.getV d) r op ∧ RunsSlip i s os [.v d] fun k => k.setV d r := by
  obtain ⟨r, hr, hrun⟩ := runsSlip_vMerge (op := fun j => op j % 2 ^ g.width) h he hn
  exact ⟨r, hr.of_mod fun _ => rfl, hrun⟩

theorem execVbcst_broadcasts (v : VSlot) (f : SR) (s : State) (h : ReadySlip s [opA .x f] [.v f.d.toNat]) :
    ∃ r, KeepsOrWrites s.issue.cond (fmtOf f) (s.issue.pre.getV f.d.toNat) r (fun _ => (s.srcX (opA .x f)).toNat) ∧
      RunsSlip (.vbcst v f) s [opA .x f] [.v f.d.toNat] fun k => k.setV f.d.toNat r := by
  have hx : exec (.vbcst v f) s = execVbcst v f s := rfl
  rw [execVbcst, State.vOp_passes _ _ _ _ rfl] at hx
  exact runsSlip_vMerge_mod h hx fun i hi => by simp [List.getD, hi]

theorem execViota_counts (v : VSlot) (f : SR) (s : State) (h : ReadySlip s [opA .x f] [.v f.d.toNat]) :
    ∃ r, KeepsOrWrites s.issue.cond (fmtOf f) (s.issue.pre.getV f.d.toNat) r (fun i => (s.srcX (opA .x f)).toNat + i) ∧
      RunsSlip (.viota v f) s [opA .x f] [.v f.d.toNat] fun k => k.setV f.d.toNat r := by
  have hx : exec (.viota v f) s = execViota v f s := rfl
  rw [execViota, State.vOp_passes _ _ _ _ rfl] at hx
  exact runsSlip_vMerge_mod h hx fun i hi => getD_map_range _ _ _ hi

/-! One lane (R191) -/

theorem Fmt.lanes_pos (g : Fmt) : 0 < g.lanes := by cases g <;> decide

theorem Fmt.clean_lt (g : Fmt) {e n : Nat} (h : e < n) : g.clean e < n := by
  refine Nat.lt_of_le_of_lt ?_ h
  unfold Fmt.clean
  split
  case h_1 => exact Nat.div_mul_le_self ..
  case h_6 => exact le_rfl
  all_goals exact Nat.mod_le ..

theorem execVxtr_extracts (v : VSlot) (f : SR) (s : State) (g : Fmt) (h : ReadySlip s [opA .v f, opB .x f] [.x f.d.toNat])
    (ha : s.active = true) (ht : Tagged s f [opA .v f] isIndexable g) :
    RunsSlip (.vxtr v f) s [opA .v f, opB .x f] [.x f.d.toNat] fun k => k.setX f.d.toNat
      (laneWord g (laneAt g (s.srcV (opA .v f)) ((s.srcX (opB .x f)).toNat % g.lanes))) := by
  have hg : (s.srcV (opA .v f)).tag = g := ht.1 _ (by simp)
  have hx : exec (.vxtr v f) s = execVxtr v f s := rfl
  rw [execVxtr, State.vOp_whole_passes _ _ _ _ (ht.passes rfl) ha, hg] at hx
  dsimp only at hx
  rw [VReg.elems_eq, getD_map_range _ _ _ (Nat.mod_lt _ (Fmt.lanes_pos g))] at hx
  exact runsSlip_of_slipped _ s _ _ _ hx h

/-- A lane that is set in a list of lanes. -/
theorem laneAt_packed_set (g : Fmt) (r : VReg) (side : BitVec 256) (k : Nat) {e i : Nat} (he : e < 2 ^ g.width) (hi : i < g.lanes) :
    laneAt g ⟨g, packLanes g.width ((r.elems g).set k e), side⟩ i = if i = k then e else laneAt g r i := by
  rw [laneAt, packLanes_lane _ _ _ (Fmt.lane_inside g i hi), VReg.elems_eq, List.getD_eq_getElem?_getD, List.getElem?_set]
  by_cases hk : i = k
  · subst hk
    simp [hi, Nat.mod_eq_of_lt he]
  · simp [hk, Ne.symm hk, hi, Nat.mod_eq_of_lt (laneAt_lt g r i)]

theorem execVins_inserts (v : VSlot) (f : SR) (s : State) (g : Fmt)
    (h : ReadySlip s [opA .x f, opB .x f, opReg .v f.d.toNat] [.v f.d.toNat]) (ha : s.active = true)
    (ht : Tagged s f [opReg .v f.d.toNat] isIndexable g) :
    ∃ r : VReg, r.tag = g ∧ r.side = (s.issue.pre.getV f.d.toNat).side ∧
      (∀ i < g.lanes, laneAt g r i = if i = (s.srcX (opB .x f)).toNat % g.lanes
        then g.clean ((s.srcX (opA .x f)).toNat % 2 ^ g.width) else laneAt g (s.issue.pre.getV f.d.toNat) i) ∧
      RunsSlip (.vins v f) s [opA .x f, opB .x f, opReg .v f.d.toNat] [.v f.d.toNat] fun k => k.setV f.d.toNat r := by
  have hd : s.srcV (opReg .v f.d.toNat) = s.issue.pre.getV f.d.toNat := rfl
  have hg : (s.issue.pre.getV f.d.toNat).tag = g := ht.1 (opReg .v f.d.toNat) (by simp)
  have hx : exec (.vins v f) s = execVins v f s := rfl
  rw [execVins, State.vOp_whole_passes _ _ _ _ (ht.passes rfl) ha, hd] at hx
  dsimp only at hx
  rw [hg] at hx
  have hlt := Fmt.clean_lt g (Nat.mod_lt (s.srcX (opA .x f)).toNat (Nat.two_pow_pos g.width))
  refine ⟨_, ?tag, ?side, fun i hi => ?lane, runsSlip_of_slipped _ s _ _ _ hx h⟩
  case tag => rfl
  case side => rfl
  case lane => exact laneAt_packed_set g _ _ _ hlt hi

/-! Permutation and rotation (R192) -/

theorem execVperm_permutes (f : SR) (s : State) (g h : Fmt) (hs : ReadySlip s [opA .v f, opB .v f] [.v f.d.toNat])
    (ht : Tagged s f [opA .v f] (fun t => t.isUnscaled && decide (8 ≤ t.width)) g) (hb : (s.srcV (opB .v f)).tag = h)
    (hi : h.isInteger = true) (hw : h.width = g.width) :
    ∃ r, KeepsOrWrites s.issue.cond g (s.issue.pre.getV f.d.toNat) r (fun i =>
        laneAt g (s.srcV (opA .v f)) (laneAt g (s.srcV (opB .v f)) i % g.lanes)) ∧
      RunsSlip (.vperm f) s [opA .v f, opB .v f] [.v f.d.toNat] fun k => k.setV f.d.toNat r := by
  have hg : (s.srcV (opA .v f)).tag = g := ht.1 _ (by simp)
  have hp : h ≠ .poison := by rintro rfl; cases hi
  have hidx : s.badTag (opB .v f) .raw (fun t => t.isInteger && decide (t.width = (s.srcV (opA .v f)).tag.width)) = none :=
    State.badTag_none hb hp (by simp [hi, hw, hg]) (.inl rfl)
  have hx : exec (.vperm f) s = execVperm f s := rfl
  rw [execVperm, State.vOp_passes _ _ _ _ (by rw [ht.passes rfl]; exact hidx), hg] at hx
  refine runsSlip_vMerge hs hx fun i hi => ?_
  have hb : lanesOf g.width (s.srcV (opB .v f)).body = (List.range g.lanes).map (laneAt g (s.srcV (opB .v f))) := rfl
  rw [hb, List.map_map, getD_map_range _ _ _ hi, Function.comp_apply, VReg.elems_eq, getD_map_range _ _ _ (Nat.mod_lt _ (Fmt.lanes_pos g))]

theorem execVrot_rotates (v : VSlot) (f : SR) (s : State) (g : Fmt) (h : ReadySlip s [opA .v f, opB .x f] [.v f.d.toNat])
    (ht : Tagged s f [opA .v f] Fmt.isUnscaled g) :
    ∃ r, KeepsOrWrites s.issue.cond g (s.issue.pre.getV f.d.toNat) r (fun i =>
        laneAt g (s.srcV (opA .v f)) ((i + (s.srcX (opB .x f)).toNat) % g.lanes)) ∧
      RunsSlip (.vrot v f) s [opA .v f, opB .x f] [.v f.d.toNat] fun k => k.setV f.d.toNat r := by
  have hg : (s.srcV (opA .v f)).tag = g := ht.1 _ (by simp)
  have hx : exec (.vrot v f) s = execVrot v f s := rfl
  rw [execVrot, State.vOp_passes _ _ _ _ (ht.passes rfl), hg] at hx
  refine runsSlip_vMerge h hx fun i hi => ?_
  have hlen : ((s.srcV (opA .v f)).elems g).length = g.lanes := by rw [VReg.elems_eq, List.length_map, List.length_range]
  have hrot := List.rotate_eq_drop_append_take_mod (l := (s.srcV (opA .v f)).elems g) (n := (s.srcX (opB .x f)).toNat)
  rw [hlen] at hrot
  rw [← hrot, List.getD_eq_getElem?_getD, List.getElem?_rotate (by rwa [hlen]), hlen, ← List.getD_eq_getElem?_getD, VReg.elems_eq,
    getD_map_range _ _ _ (Nat.mod_lt _ (Fmt.lanes_pos g))]

/-- Settles O9: what each of the moves writes, one lemma for each. -/
theorem laneMovesResults : Obligations.LaneMovesResults := by
  refine ⟨execVsel_selects, execVmov_copies, ?unscaled, ?scaled, execVbcst_broadcasts, execViota_counts,
    execVxtr_extracts, execVins_inserts, execVperm_permutes, execVrot_rotates⟩
  case unscaled =>
    rintro v f s _ h hc rfl hn
    have hk := movedUnder_lanes s.issue.cond (s.issue.pre.getV f.d.toNat) (s.srcV (opA .v f))
    rw [if_pos hn, ← movedUnder_unscaled hn] at hk
    exact ⟨_, hk, execVmov_merges v f s h hc⟩
  case scaled =>
    rintro v f s _ h hc rfl hn
    have hk := movedUnder_lanes s.issue.cond (s.issue.pre.getV f.d.toNat) (s.srcV (opA .v f))
    rw [if_neg hn] at hk
    exact ⟨_, hk, rfl, execVmov_merges v f s h hc⟩

end Sys2Proof.Machine
end

section
/-! SUPPORT. Stable sorting and merging of keyed pairs, followed by the indexes that the pairs came from (R197, R198). -/
namespace Sys2Proof.Machine

/-- A test "goes strictly before" under which "does not go after" is a total preorder. -/
structure StrictWeak (before : Nat → Nat → Bool) : Prop where
  asymm : ∀ {a b}, before a b = true → before b a = false
  trans : ∀ {a b c}, before b a = false → before c b = false → before c a = false

theorem StrictWeak.before_of_before_of_not {before : Nat → Nat → Bool} (hw : StrictWeak before) {a b c : Nat} (hab : before a b = true)
    (hcb : before c b = false) : before a c = true := by
  by_contra hac
  rw [hw.trans hcb (Bool.eq_false_of_not_eq_true hac)] at hab
  cases hab

theorem StrictWeak.before_of_not_of_before {before : Nat → Nat → Bool} (hw : StrictWeak before) {a b c : Nat} (hba : before b a = false)
    (hbc : before b c = true) : before a c = true := by
  by_contra hac
  rw [hw.trans (Bool.eq_false_of_not_eq_true hac) hba] at hbc
  cases hbc

/-! The sort (R197) -/

theorem insertPair_eq (before : Nat → Nat → Bool) (p : Nat × Nat) (l : List (Nat × Nat)) :
    insertPair before p l = l.orderedInsert (fun p q => before p.1 q.1 = true) p := by
  induction l with
  | nil => rfl
  | cons q r ih => simp only [insertPair, List.orderedInsert_cons, ih]

section
variable {before : Nat → Nat → Bool} {key : Nat → Nat}

/-- Index i, later than all of a sorted list, put where its key belongs. -/
theorem keyOrder_orderedInsert (hw : StrictWeak before) {l : List Nat} {i : Nat} (hl : l.Pairwise (KeyOrder before key))
    (hi : ∀ j ∈ l, j < i) : (l.orderedInsert (fun a b => before (key a) (key b) = true) i).Pairwise (KeyOrder before key) := by
  induction l with
  | nil => exact List.pairwise_singleton _ i
  | cons j l ih =>
    obtain ⟨hj, hl'⟩ := List.pairwise_cons.mp hl
    rw [List.orderedInsert_cons]
    by_cases hb : before (key i) (key j) = true
    · rw [if_pos hb]
      refine List.pairwise_cons.mpr ⟨List.forall_mem_cons.mpr ⟨⟨hw.asymm hb, .inl hb⟩, fun c hc => ?_⟩, hl⟩
      have hic : before (key i) (key c) = true := hw.before_of_before_of_not hb (hj c hc).1
      exact ⟨hw.asymm hic, .inl hic⟩
    · rw [if_neg hb]
      refine List.pairwise_cons.mpr ⟨fun c hc => ?_, ih hl' fun c hc => hi c (List.mem_cons_of_mem _ hc)⟩
      rcases (List.mem_orderedInsert _).mp hc with rfl | hc
      · exact ⟨Bool.eq_false_of_not_eq_true hb, .inr (hi j List.mem_cons_self)⟩
      · exact hj c hc

/-- The sort of pairs is a sort of their indexes: by key, equal keys by index. -/
theorem sortPairs_sorts (hw : StrictWeak before) (pay : Nat → Nat) {l : List Nat} (hl : l.Pairwise (· < ·)) :
    ∃ idx : List Nat, idx.Perm l ∧ idx.Pairwise (KeyOrder before key) ∧
      sortPairs before (l.map fun i => (key i, pay i)) = idx.map fun i => (key i, pay i) := by
  induction l using List.reverseRecOn with
  | nil => exact ⟨[], .nil, .nil, rfl⟩
  | append_singleton l i ih =>
    obtain ⟨hl', -, hi⟩ := List.pairwise_append.mp hl
    obtain ⟨idx, hperm, hord, hsort⟩ := ih hl'
    refine ⟨idx.orderedInsert (fun a b => before (key a) (key b) = true) i, ?_, keyOrder_orderedInsert hw hord fun j hj => ?_, ?_⟩
    · exact (List.perm_orderedInsert _ i idx).trans ((hperm.cons i).trans (List.perm_append_singleton i l).symm)
    · exact hi j (hperm.mem_iff.mp hj) i (List.mem_singleton_self i)
    · rw [sortPairs] at hsort ⊢
      rw [List.map_append, List.foldl_append, hsort, List.map_singleton, List.foldl_cons, List.foldl_nil, insertPair_eq]
      exact (List.map_orderedInsert (fun a b => before (key a) (key b) = true) _ (fun i => (key i, pay i)) idx i
        (fun _ _ => Iff.rfl) fun _ _ => Iff.rfl).symm

/-- Active indexes sorted, and the inactive ones after them. -/
theorem sortActive_sorts (hw : StrictWeak before) (pay : Nat → Nat) (on : Nat → Bool) (n : Nat) :
    ∃ idx : List Nat, idx.Perm (List.range n) ∧
      idx.Pairwise (fun a b => (on a = true ∧ on b = false) ∨ (on a = true ∧ on b = true ∧ KeyOrder before key a b) ∨
        (on a = false ∧ on b = false ∧ a < b)) ∧
      sortPairs before (((List.range n).filter on).map fun i => (key i, pay i)) ++
        ((List.range n).filter fun i => !on i).map (fun i => (key i, pay i)) = idx.map fun i => (key i, pay i) := by
  obtain ⟨idx, hperm, hord, hsort⟩ := sortPairs_sorts (key := key) hw pay (List.pairwise_lt_range (n := n).filter on)
  have hon {i : Nat} (h : i ∈ idx) : on i = true := (List.mem_filter.mp (hperm.mem_iff.mp h)).2
  have hoff {i : Nat} (h : i ∈ (List.range n).filter fun i => !on i) : on i = false := by simpa using (List.mem_filter.mp h).2
  refine ⟨idx ++ (List.range n).filter (fun i => !on i), ?_, List.pairwise_append.mpr ⟨?_, ?_, fun a ha b hb => ?_⟩, ?_⟩
  · exact (hperm.append_right _).trans (List.filter_append_perm on _)
  · exact hord.imp_of_mem fun ha hb h => .inr (.inl ⟨hon ha, hon hb, h⟩)
  · exact (List.pairwise_lt_range.filter _).imp_of_mem fun ha hb h => .inr (.inr ⟨hoff ha, hoff hb, h⟩)
  · exact .inl ⟨hon ha, hoff hb⟩
  · rw [hsort, List.map_append]

/-! The merge (R198) -/

theorem mergePairs_eq_merge (before : Nat → Nat → Bool) {n : Nat} {as bs : List (Nat × Nat)} (h : as.length + bs.length ≤ n) :
    mergePairs before n as bs = as.merge bs fun p q => !before q.1 p.1 := by
  induction n generalizing as bs with
  | zero =>
    obtain ⟨ha, hb⟩ : as.length = 0 ∧ bs.length = 0 := by omega
    rw [List.length_eq_zero_iff.mp ha, List.length_eq_zero_iff.mp hb, mergePairs, List.nil_merge]
  | succ n ih =>
    match as, bs with
    | [], bs => simp [mergePairs]
    | a :: as, [] => simp [mergePairs]
    | a :: as, b :: bs =>
      rw [List.length_cons, List.length_cons] at h
      rw [mergePairs, List.cons_merge_cons, ih (by rw [List.length_cons]; omega), ih (by rw [List.length_cons]; omega)]
      cases before b.1 a.1 <;> rfl

/-- The order of a merge on indexes: by key, equal keys by index. -/
def keyLe (before : Nat → Nat → Bool) (key : Nat → Nat) (i j : Nat) : Bool :=
  !before (key j) (key i) && (before (key i) (key j) || decide (i ≤ j))

theorem keyLe_iff {i j : Nat} : keyLe before key i j = true ↔
    before (key j) (key i) = false ∧ (before (key i) (key j) = true ∨ i ≤ j) := by simp [keyLe]

theorem keyLe_of_lt {i j : Nat} (h : i < j) : keyLe before key i j = !before (key j) (key i) := by simp [keyLe, h.le]

theorem keyLe_total (hw : StrictWeak before) (i j : Nat) : (keyLe before key i j || keyLe before key j i) = true := by
  rw [Bool.or_eq_true, keyLe_iff, keyLe_iff]
  cases hij : before (key i) (key j) with
  | true => exact .inl ⟨hw.asymm hij, .inl rfl⟩
  | false =>
    cases hji : before (key j) (key i) with
    | true => exact .inr ⟨rfl, .inl rfl⟩
    | false => exact (le_total i j).imp (fun h => ⟨rfl, .inr h⟩) fun h => ⟨rfl, .inr h⟩

theorem keyLe_trans (hw : StrictWeak before) (i j k : Nat) (hij : keyLe before key i j = true) (hjk : keyLe before key j k = true) :
    keyLe before key i k = true := by
  rw [keyLe_iff] at hij hjk ⊢
  obtain ⟨hij, hij'⟩ := hij
  obtain ⟨hjk, hjk'⟩ := hjk
  refine ⟨hw.trans hij hjk, ?_⟩
  rcases hij' with hb | hle
  · exact .inl (hw.before_of_before_of_not hb hjk)
  · rcases hjk' with hb | hle'
    · exact .inl (hw.before_of_not_of_before hij hb)
    · exact .inr (hle.trans hle')

/-- The merge of two sorted runs of pairs is a merge of their indexes: by key, equal keys by index. -/
theorem merge_sorts (hw : StrictWeak before) (pay : Nat → Nat) {as bs : List Nat} (ha : as.Pairwise (KeyOrder before key))
    (hb : bs.Pairwise (KeyOrder before key)) (hab : ∀ a ∈ as, ∀ b ∈ bs, a < b) (hnd : (as ++ bs).Nodup) :
    ∃ idx : List Nat, idx.Perm (as ++ bs) ∧ idx.Pairwise (KeyOrder before key) ∧
      ((as.map fun i => (key i, pay i)).merge (bs.map fun i => (key i, pay i)) fun p q => !before q.1 p.1) =
        idx.map fun i => (key i, pay i) := by
  have hle {i j : Nat} (h : KeyOrder before key i j) : keyLe before key i j = true := keyLe_iff.mpr ⟨h.1, h.2.imp_right Nat.le_of_lt⟩
  have hperm := List.merge_perm_append (le := keyLe before key) (xs := as) (ys := bs)
  have hord := List.pairwise_merge (keyLe_trans hw) (keyLe_total hw) as bs (ha.imp hle) (hb.imp hle)
  refine ⟨as.merge bs (keyLe before key), hperm, (hord.and (hperm.nodup_iff.mpr hnd)).imp ?_, ?_⟩
  · rintro i j ⟨h, hne⟩
    obtain ⟨hij, hij'⟩ := keyLe_iff.mp h
    exact ⟨hij, hij'.imp_right fun hl => lt_of_le_of_ne hl hne⟩
  · exact (List.map_merge fun a h b h' => keyLe_of_lt (hab a h b h')).symm

end

end Sys2Proof.Machine
end

section
/-! SUPPORT. O11: the order of keys, and what VSORTK and VMRGK write (R197, R198). -/
namespace Sys2Proof.Machine

/-! The order of keys (R197) -/

theorem keyBefore_nan_left {g : Fmt} {asc : Bool} {a b : Nat} (h : Num.ofElem g a = .nan) : keyBefore g asc a b = false := if_pos h

theorem keyBefore_nan_right {g : Fmt} {asc : Bool} {a b : Nat} (ha : Num.ofElem g a ≠ .nan) (hb : Num.ofElem g b = .nan) :
    keyBefore g asc a b = true := (if_neg ha).trans (if_pos hb)

/-- Keys that are no NaN stand by rank, in the direction of .asc. -/
theorem keyBefore_iff_rank {g : Fmt} {asc : Bool} {a b : Nat} (ha : Num.ofElem g a ≠ .nan) (hb : Num.ofElem g b ≠ .nan) :
    keyBefore g asc a b = true ↔
      if asc then (Num.ofElem g a).rank < (Num.ofElem g b).rank else (Num.ofElem g b).rank < (Num.ofElem g a).rank := by
  have h : keyBefore g asc a b =
      if asc then Num.ltTotal (Num.ofElem g a) (Num.ofElem g b) else Num.ltTotal (Num.ofElem g b) (Num.ofElem g a) :=
    (if_neg ha).trans (if_neg hb)
  rw [h]
  cases asc
  · exact Num.ltTotal_iff_rank hb ha
  · exact Num.ltTotal_iff_rank ha hb

theorem keyBefore_strictWeak (g : Fmt) (asc : Bool) : StrictWeak (keyBefore g asc) where
  asymm {a b} h := by
    by_cases hb : Num.ofElem g b = .nan
    · exact keyBefore_nan_left hb
    have ha : Num.ofElem g a ≠ .nan := fun ha => by rw [keyBefore_nan_left ha] at h; cases h
    rw [keyBefore_iff_rank ha hb] at h
    rw [← Bool.not_eq_true, keyBefore_iff_rank hb ha]
    cases asc <;> exact h.asymm
  trans {a b c} hba hcb := by
    by_cases hc : Num.ofElem g c = .nan
    · exact keyBefore_nan_left hc
    have hb : Num.ofElem g b ≠ .nan := fun hb => by rw [keyBefore_nan_right hc hb] at hcb; cases hcb
    have ha : Num.ofElem g a ≠ .nan := fun ha => by rw [keyBefore_nan_right hb ha] at hba; cases hba
    rw [← Bool.not_eq_true, keyBefore_iff_rank hb ha] at hba
    rw [← Bool.not_eq_true, keyBefore_iff_rank hc hb] at hcb
    rw [← Bool.not_eq_true, keyBefore_iff_rank hc ha]
    cases asc
    · exact not_lt.mpr ((not_lt.mp hcb).trans (not_lt.mp hba))
    · exact not_lt.mpr ((not_lt.mp hba).trans (not_lt.mp hcb))

/-! Registers of 32-bit lanes (R197) -/

theorem isKeyFmt_width {g : Fmt} (h : isKeyFmt g = true) : g.width = 32 := by
  simp only [isKeyFmt, Bool.or_eq_true, beq_iff_eq] at h
  rcases h with (rfl | rfl) | rfl <;> rfl

theorem isPayload_width {g : Fmt} (h : isPayload g = true) : g.width = 32 := by
  simp only [isPayload, Bool.and_eq_true, decide_eq_true_eq] at h
  exact h.2

theorem lanesOf_eq {g : Fmt} (h : g.width = 32) (r : VReg) : lanesOf 32 r.body = (List.range 64).map (laneAt g r) :=
  List.map_congr_left fun i _ => by rw [laneAt, h]

theorem laneOn_64 (cond : Word) (i : Nat) : laneOn cond 64 i = cond.getLsbD i := congrArg cond.getLsbD (Nat.div_one i)

theorem State.badTag_of_class {s : State} {o : Opd} {ok : Fmt → Bool} (h : ok (s.srcV o).tag = true) (hp : ok .poison = false) :
    s.badTag o .raw ok = none := by
  refine State.badTag_none rfl (fun h0 => ?_) h (.inl rfl)
  rw [h0, hp] at h
  cases h

theorem State.putPairs_becomes (t : State) (d : Nat) (kt pt : Fmt) (ps : List (Nat × Nat)) : t.Becomes (t.putPairs d kt pt ps) fun k =>
    (k.setV d ⟨kt, packLanes 32 (ps.map (·.1)), 0⟩).setV (d + 1) ⟨pt, packLanes 32 (ps.map fun p => pt.clean p.2), 0⟩ :=
  (t.becomes_modCur fun k => k.setV d _).trans (State.becomes_modCur _ fun k => k.setV (d + 1) _)

/-! The operations -/

/-- Keys and payloads of one lane make a pair. -/
theorem pairsOf_eq {g h : Fmt} (hg : g.width = 32) (hh : h.width = 32) (a b : VReg) :
    (a.elems g).zip (lanesOf 32 b.body) = (List.range 64).map fun i => (laneAt g a i, laneAt h b i) := by
  rw [VReg.elems, hg, lanesOf_eq hg, lanesOf_eq hh, List.zip_map']

theorem execVsortk_sorts (f : SR) (s : State) (g h : Fmt) (hs : ReadySlip s [opA .v f, opB .v f] [.v f.d.toNat, .v (f.d.toNat + 1)])
    (hg : (s.srcV (opA .v f)).tag = g) (hk : isKeyFmt g = true) (hh : (s.srcV (opB .v f)).tag = h) (hp : isPayload h = true) :
    ∃ (idx : List Nat) (ps : List (Nat × Nat)), idx.Perm (List.range 64) ∧
      idx.Pairwise (fun a b =>
        (s.issue.cond.getLsbD a = true ∧ s.issue.cond.getLsbD b = false) ∨
        (s.issue.cond.getLsbD a = true ∧ s.issue.cond.getLsbD b = true ∧
          KeyOrder (keyBefore g (f.fn9.getLsbD 0)) (laneAt g (s.srcV (opA .v f))) a b) ∨
        (s.issue.cond.getLsbD a = false ∧ s.issue.cond.getLsbD b = false ∧ a < b)) ∧
      ps = idx.map (fun i => (laneAt g (s.srcV (opA .v f)) i, laneAt h (s.srcV (opB .v f)) i)) ∧
      RunsSlip (.vsortk f) s [opA .v f, opB .v f] [.v f.d.toNat, .v (f.d.toNat + 1)] fun k =>
        (k.setV f.d.toNat ⟨g, packLanes 32 (ps.map (·.1)), 0⟩).setV (f.d.toNat + 1)
          ⟨h, packLanes 32 (ps.map fun p => h.clean p.2), 0⟩ := by
  have hkey : s.badTag (opA .v f) .raw isKeyFmt = none := State.badTag_of_class (hg ▸ hk) rfl
  have hpay : s.badTag (opB .v f) .raw isPayload = none := State.badTag_of_class (hh ▸ hp) rfl
  have hx : exec (.vsortk f) s = execVsortk f s := rfl
  rw [execVsortk, State.vOp_passes _ _ _ _ (by rw [hkey]; exact hpay), hg, hh] at hx
  dsimp only at hx
  rw [pairsOf_eq (isKeyFmt_width hk) (isPayload_width hp), mapIdx_map_range, List.filter_map, List.filter_map, List.map_map,
    List.map_map] at hx
  simp only [Function.comp_def, laneOn_64] at hx
  obtain ⟨idx, hperm, hord, hsort⟩ := sortActive_sorts (key := laneAt g (s.srcV (opA .v f))) (keyBefore_strictWeak g (f.fn9.getLsbD 0))
    (laneAt h (s.srcV (opB .v f))) s.issue.cond.getLsbD 64
  rw [hsort] at hx
  exact ⟨idx, _, hperm, hord, rfl, runsSlip_of_slipped_becomes hx hs (State.putPairs_becomes _ _ _ _ _)⟩

/-- Two sorted runs of 64 pairs merge into the order of all 128 indexes, the first run's before the second's among equal keys (R198). -/
theorem mergePairs_merges {before : Nat → Nat → Bool} {ka pa kb pb key pay : Nat → Nat} (hw : StrictWeak before)
    (hkey : ∀ i < 64, key i = ka i ∧ pay i = pa i ∧ key (64 + i) = kb i ∧ pay (64 + i) = pb i)
    (hord : ∀ i j, i < j ∧ j < 64 ∨ 64 ≤ i ∧ i < j ∧ j < 128 → before (key j) (key i) = false) :
    ∃ idx : List Nat, idx.Perm (List.range 128) ∧ idx.Pairwise (KeyOrder before key) ∧
      mergePairs before 128 ((List.range 64).map fun i => (ka i, pa i)) ((List.range 64).map fun i => (kb i, pb i)) =
        idx.map fun i => (key i, pay i) := by
  have happ : List.range 64 ++ (List.range 64).map (64 + ·) = List.range 128 := List.range_add.symm
  have hps : (List.range 64).map (fun i => (ka i, pa i)) = (List.range 64).map fun i => (key i, pay i) :=
    List.map_congr_left fun i hi => by
      obtain ⟨hk, hp, -, -⟩ := hkey i (List.mem_range.mp hi)
      rw [hk, hp]
  have hqs : (List.range 64).map (fun i => (kb i, pb i)) = ((List.range 64).map (64 + ·)).map fun i => (key i, pay i) := by
    rw [List.map_map]
    refine List.map_congr_left fun i hi => ?_
    obtain ⟨-, -, hk, hp⟩ := hkey i (List.mem_range.mp hi)
    rw [Function.comp_apply, hk, hp]
  have ha : (List.range 64).Pairwise (KeyOrder before key) :=
    List.pairwise_lt_range.imp_of_mem fun _ hj h => ⟨hord _ _ (.inl ⟨h, List.mem_range.mp hj⟩), .inr h⟩
  have hb : ((List.range 64).map (64 + ·)).Pairwise (KeyOrder before key) :=
    List.pairwise_map.mpr (List.pairwise_lt_range.imp_of_mem fun _ hj h => by
      have hlt := Nat.add_lt_add_left h 64
      exact ⟨hord _ _ (.inr ⟨Nat.le_add_right .., hlt, Nat.add_lt_add_left (List.mem_range.mp hj) 64⟩), .inr hlt⟩)
  have hab : ∀ a ∈ List.range 64, ∀ b ∈ (List.range 64).map (64 + ·), a < b := by
    intro a ha b hb
    obtain ⟨j, -, rfl⟩ := List.mem_map.mp hb
    exact Nat.lt_add_right j (List.mem_range.mp ha)
  obtain ⟨idx, hperm, hpw, hmerge⟩ := merge_sorts hw pay ha hb hab (happ ▸ List.nodup_range)
  refine ⟨idx, happ ▸ hperm, hpw, ?_⟩
  rw [mergePairs_eq_merge before (by simp), hps, hqs, hmerge]

theorem mergePairs_length (before : Nat → Nat → Bool) {n : Nat} {as bs : List (Nat × Nat)} (h : as.length + bs.length ≤ n) :
    (mergePairs before n as bs).length = as.length + bs.length := by
  rw [mergePairs_eq_merge before h]
  exact (List.merge_perm_append _).length_eq.trans List.length_append

theorem execVmrgk_merges (f : SR) (s : State) (g h : Fmt)
    (hs : ReadySlip s [opA .v f, opB .v f, opReg .v (f.a.toNat + 1), opReg .v (f.b.toNat + 1)] [.v f.d.toNat, .v (f.d.toNat + 1)])
    (hact : s.active = true) (hga : (s.srcV (opA .v f)).tag = g) (hgb : (s.srcV (opB .v f)).tag = g) (hk : isKeyFmt g = true)
    (hha : (s.issue.pre.getV (f.a.toNat + 1)).tag = h) (hhb : (s.issue.pre.getV (f.b.toNat + 1)).tag = h) (hp : isPayload h = true) :
    RunsSlip (.vmrgk f) s [opA .v f, opB .v f, opReg .v (f.a.toNat + 1), opReg .v (f.b.toNat + 1)] [.v f.d.toNat, .v (f.d.toNat + 1)]
      fun k =>
        let m := mergePairs (keyBefore g (f.fn9.getLsbD 0)) 128
          ((List.range 64).map fun i => (laneAt g (s.srcV (opA .v f)) i, laneAt h (s.issue.pre.getV (f.a.toNat + 1)) i))
          ((List.range 64).map fun i => (laneAt g (s.srcV (opB .v f)) i, laneAt h (s.issue.pre.getV (f.b.toNat + 1)) i))
        (k.setV f.d.toNat ⟨g, packLanes 32 ((if f.fn9.getLsbD 1 then m.drop 64 else m.take 64).map (·.1)), 0⟩).setV
          (f.d.toNat + 1) ⟨h, packLanes 32 ((if f.fn9.getLsbD 1 then m.drop 64 else m.take 64).map fun p => h.clean p.2), 0⟩ := by
  have ha1 : s.srcV (opReg .v (f.a.toNat + 1)) = s.issue.pre.getV (f.a.toNat + 1) := rfl
  have hb1 : s.srcV (opReg .v (f.b.toNat + 1)) = s.issue.pre.getV (f.b.toNat + 1) := rfl
  have hkey : s.badTags [opA .v f, opB .v f] .raw isKeyFmt = none :=
    State.badTags_none (by simp [hga, hgb]) (fun h0 => by rw [h0] at hk; cases hk) hk (.inl rfl)
  have hpay : s.badTags [opReg .v (f.a.toNat + 1), opReg .v (f.b.toNat + 1)] .raw isPayload = none :=
    State.badTags_none (by simp [ha1, hb1, hha, hhb]) (fun h0 => by rw [h0] at hp; cases hp) hp (.inl rfl)
  have hx : exec (.vmrgk f) s = execVmrgk f s := rfl
  rw [execVmrgk, State.vOp_whole_passes _ _ _ _ (by rw [hkey]; exact hpay) hact, hga, ha1, hb1, hha] at hx
  dsimp only at hx
  rw [pairsOf_eq (isKeyFmt_width hk) (isPayload_width hp), pairsOf_eq (isKeyFmt_width hk) (isPayload_width hp)] at hx
  exact runsSlip_of_slipped_becomes hx hs (State.putPairs_becomes _ _ _ _ _)

/-- Settles O11: both operations write their pairs by index, and sort or merge the indexes. -/
theorem keySortAndMerge : Obligations.KeySortAndMerge := by
  refine ⟨execVsortk_sorts, fun f s g h hs hact hga hgb hk hha hhb hp => ⟨_, rfl, fun key pay hkey hord => ?_, ?_, ?_⟩⟩
  · exact mergePairs_merges (keyBefore_strictWeak g _) hkey hord
  · rw [mergePairs_length] <;> simp
  · exact execVmrgk_merges f s g h hs hact hga hgb hk hha hhb hp

end Sys2Proof.Machine
end

section
/-! SUPPORT. O17: transposes, permutations and row sums of tiles (R213 to R215). -/
namespace Sys2Proof.Machine

/-! Rows of tiles (R99) -/

theorem tag_tileOfRows (g : Fmt) (rows : List (BitVec 1728)) : (tileOfRows g rows).tag = g := rfl

/-- A row of a tile made from its rows. -/
theorem row_tileOfRows (g : Fmt) (op : Nat → BitVec 1728) {r : Nat} (h : r < 128) :
    (tileOfRows g ((List.range 128).map op)).row r = op r := by
  show Sparse.get 0 (Sparse.run 0 0 _) r = _
  rw [Sparse.get_run _ _ _ _ (Nat.zero_le r) (by simpa using h), Nat.sub_zero, getD_map_range _ _ _ h]

/-- An element of a packed row without sidecar bytes. -/
theorem rowElem_packRow (g : Fmt) (es : List Nat) {i : Nat} (h : g.width * i + g.width ≤ 1536) :
    rowElem g (packRow g.width es []) i = es.getD i 0 % 2 ^ g.width := by
  rw [rowElem, packRow, List.foldr_nil, Nat.mul_zero, Nat.add_zero, field_of_ofNat _ _ _ _ (by omega), field_of_cut _ _ _ _ h, packed_lane]

theorem rowElem_lt (g : Fmt) (row : BitVec 1728) (i : Nat) : rowElem g row i < 2 ^ g.width := Nat.mod_lt _ (Nat.two_pow_pos _)

/-- Element i of row r of the transpose, for a format whose elements fill their containers (R213). -/
theorem rowElem_transpose (t : Tile) (c0 : Nat) {r i : Nat} (hw : t.tag.width ≤ 8) (hc : ∀ e, t.tag.clean e = e) (hr : r < 128) (hi : i < 128) :
    rowElem t.tag ((transpose t c0).row r) i = rowElem t.tag (t.row i) (c0 + r) := by
  have hfit : t.tag.width * i + t.tag.width ≤ 1536 := by
    rw [← Nat.mul_succ]
    exact Nat.le_trans (Nat.mul_le_mul hw hi) (by decide)
  rw [transpose, row_tileOfRows _ _ hr, rowElem_packRow _ _ hfit, getD_map_range _ _ _ hi, hc, Nat.mod_eq_of_lt (rowElem_lt _ _ _)]

/-- Formats of 4 or 8 bits without unused bits (R119). -/
theorem fills_container {g : Fmt} (h : g ∈ [Fmt.int8, .e4m3, .uint8, .res8, .int4, .uint4, .e2m1]) :
    g.width ≤ 8 ∧ ∀ e, g.clean e = e := by
  simp only [List.mem_cons, List.not_mem_nil, or_false] at h
  rcases h with rfl | rfl | rfl | rfl | rfl | rfl | rfl <;> exact ⟨by decide, fun _ => rfl⟩

/-! The operations (R213 to R215) -/

theorem ne_poison_of_inTtrn {g : Fmt} (h : inTtrn g = true) : g ≠ .poison := by
  rintro rfl
  cases h

theorem ne_poison_of_isUnscaled {g : Fmt} (h : g.isUnscaled = true) : g ≠ .poison := by
  rintro rfl
  cases h

theorem execTtrn_transposes (f : MX) (s : State) (n d : Nat) (h : ReadyM s [(tA f, n)] [(f.b, d)] [] []) (ht : inTtrn (s.tileIn n).tag = true)
    (hc : (s.tileIn n).tag.width = 8 → f.cm.toNat ≤ 2) :
    RunsM (.ttrn f) s [(tA f, n)] [(f.b, d)] [] [] fun k => k.setT d (transpose (s.tileIn n) (32 * f.cm.toNat)) := by
  have he : exec (.ttrn f) s = execTtrn f s := rfl
  unfold execTtrn at he
  refine runsM_of_becomes he h fun t hpre => ?_
  have hwindow : ((s.tileIn n).tag.width = 8 && 2 < f.cm.toNat) = false := by
    simp only [Bool.and_eq_false_iff, decide_eq_false_iff_not, Nat.not_lt]
    exact not_or_of_imp hc
  simp only [List.map_cons, List.map_nil, List.getD_cons_zero]
  rw [orElse_none _ (by simp [State.badTileTag_none hpre (ne_poison_of_inTtrn ht) ht, hwindow])]
  exact t.becomes_modCur _

theorem execTprm_permutes (f : MX) (s : State) (n d : Nat) (h : ReadyM s [(tA f, n)] [(f.b, d)] [] [])
    (hu : (s.tileIn n).tag.isUnscaled = true) (hw : 8 ≤ (s.tileIn n).tag.width) :
    RunsM (.tprm f) s [(tA f, n)] [(f.b, d)] [] [] fun k => k.setT d (permuted (s.tileIn n) f.cm.toNat) := by
  have he : exec (.tprm f) s = execTprm f s := rfl
  unfold execTprm at he
  refine runsM_of_becomes he h fun t hpre => ?_
  have hok : (fun g : Fmt => g.isUnscaled && 8 ≤ g.width) (s.tileIn n).tag = true := by simp [hu, hw]
  simp only [List.map_cons, List.map_nil, List.getD_cons_zero]
  rw [orElse_none _ (List.forall_mem_singleton.mpr (State.badTileTag_none hpre (ne_poison_of_isUnscaled hu) hok))]
  exact t.becomes_modCur _

/-- The accumulator that a class adds into is found in every state of the bundle, and its bound is charged (R132, R209). -/
theorem AddsInto.found {s t : State} {c : MClass} {n charge : Nat} {za : Bool} {acc : Acc} (hpre : t.issue.pre = s.issue.pre)
    (h : AddsInto s c n za charge acc) : ∃ a, t.accFor c n za = .ok a ∧ t.charged c charge a = .ok acc := by
  obtain ⟨a, ha, hch⟩ := h
  refine ⟨a, ?_, ?_⟩
  · unfold State.accFor
    rcases ha with ⟨rfl, rfl⟩ | ⟨rfl, rfl, ht, hp⟩
    · rfl
    · rw [State.badAcc_none hpre _ hp (by rw [ht]; exact beq_self_eq_true _), hpre]
      rfl
  · unfold State.charged
    rcases hch with ⟨rfl, hle, rfl⟩ | ⟨hne, rfl⟩
    · simp [Nat.not_lt.mpr hle]
    · exact if_pos hne

theorem execTred_adds (f : MX) (s : State) (n : Nat) (c : MClass) (acc : Acc) (h : ReadyM s [(tA f, n)] [] [] [.a f.acc.toNat])
    (hp : (s.tileIn n).tag ≠ .poison) (hc : pairClass (s.tileIn n).tag (s.tileIn n).tag = some c)
    (hacc : AddsInto s c f.acc.toNat (f.za = 1) (if (s.tileIn n).tag = .res8 then 24576 else 3072) acc) :
    RunsM (.tred f) s [(tA f, n)] [] [] [.a f.acc.toNat] fun k =>
      k.setA f.acc.toNat (rowSums c (s.tileIn n).tag (rowsOf f.hr) f.cm.toNat (s.tileIn n) acc) := by
  have he : exec (.tred f) s = execTred f s := rfl
  unfold execTred at he
  refine runsM_of_becomes (dsts := []) he h fun t hpre => ?_
  obtain ⟨a, hfor, hcharged⟩ := hacc.found hpre
  simp only [List.map_cons, List.map_nil, List.getD_cons_zero, State.badTile_none hpre hp, hc, hfor, hcharged]
  exact t.becomes_modCur _

/-- Settles O17: each operation's checks pass, and it writes what its rule says; the transpose element by element. -/
theorem tileTransformsAndRowSums : Obligations.TileTransformsAndRowSums := by
  refine ⟨⟨execTtrn_transposes, execTprm_permutes, execTred_adds⟩, fun t c0 r i ht hr hi => ?_⟩
  obtain ⟨hw, hc⟩ := fills_container ht
  exact ⟨rowElem_transpose t c0 hw hc hr hi, tag_tileOfRows _ _⟩

end Sys2Proof.Machine
end

section
/-! SUPPORT. O16: absorb, expander slots and their descriptors, MWAIT (R210, R221, R222). -/
namespace Sys2Proof.Machine

/-! The bundle's scratch -/

/-- A state of the same bundle: the scratch of its issue differs in what the operation needs and in memory before the bundle at most. -/
def SameBundle (s t : State) : Prop :=
  { t.issue with need := s.issue.need, mem0 := [], bad0 := [] } = { s.issue with mem0 := [], bad0 := [] }

namespace SameBundle

variable {s t u : State} (h : SameBundle s t)
include h

theorem pre : t.issue.pre = s.issue.pre := (congrArg Issue.pre h :)
theorem verdict : t.issue.verdict = s.issue.verdict := (congrArg Issue.verdict h :)
theorem unsure : t.issue.unsure = s.issue.unsure := (congrArg Issue.unsure h :)

theorem trans (g : SameBundle t u) : SameBundle s u :=
  (congrArg (fun i : Issue => { i with need := s.issue.need }) g :).trans h

end SameBundle

theorem SameBundle.of_issue {s t : State} (h : t.issue = s.issue) : SameBundle s t := by
  unfold SameBundle
  rw [h]

theorem SameBundle.modCur (s : State) (f : Ctx → Ctx) : SameBundle s (s.modCur f) := .of_issue rfl

theorem SameBundle.needs (s : State) (f : Need → Need) : SameBundle s (s.needs f) := rfl

/-- An operation of the M slot is its body, run after its hold actions; as its bundle issues, it then stands in its queue. -/
theorem exec_of_mOp {i : Instr} {s t : State} {srcs : List (TSrc × Nat)} {dsts : List (BitVec 6 × Nat)} {rd : List Opd} {wr : List Reg}
    {body : List Nat → List Nat → State → State} (he : exec i s = s.mOp (srcs.map (·.1)) (dsts.map (·.1)) rd wr body)
    (h : ReadyM s srcs dsts rd wr) (hb : body (srcs.map (·.2)) (dsts.map (·.2)) (latchedM s srcs rd) = t)
    (hs : SameBundle (latchedM s srcs rd) t) (hi : t.issue.need.img = s.issue.need.img) :
    exec i s = .next (afterM s t srcs rd (wr ++ dsts.map fun p => .t p.2)) := by
  rw [he, State.mOp_ready h]
  unfold afterM
  have hv := hs.verdict
  have hpre := hs.pre
  have hu := hs.unsure
  rw [latchedM_issue] at hv hpre hu
  by_cases hl : s.issue.late.isSome = true
  · rw [if_pos hl, State.slipped_late _ _ _ _ h.slips hl, ← hb]
    rfl
  · have ha : AtHand _ _ _ := h.slips.at_.resolve_left hl
    rw [if_neg hl, ← hb]
    subst hb
    exact State.slipped_ready _ _ _ _ h.slips ha (hv.trans ha.commit) (hi.trans ha.plain) hpre hu

/-! Expander slots (R210, R221) -/

/-- A load of an expander slot is of the same bundle, and what the operation needs stays. -/
theorem State.loadExpander_keeps {s t : State} {xs : Nat} {va : Word} (h : s.loadExpander xs va = .ok t) :
    SameBundle s t ∧ t.issue.need = s.issue.need := by
  have hi := s.resolveIn_issue {} (pieces va projLen)
  unfold State.loadExpander at h
  split at h
  · cases h
  · split at h
    · cases h
    · rename_i parts s1 hr
      rw [hr] at hi
      split at h
      · cases h
      · cases h
        have hneed : s1.issue.need = s.issue.need := (congrArg Issue.need hi :)
        unfold SameBundle
        rw [State.modCore_issue, State.issue_afterRead]
        exact ⟨(congrArg (fun i : Issue => { i with need := s.issue.need }) hi :), hneed⟩

theorem State.projection_keeps {s t : State} {xs : Nat} {g : Fmt} {w : ExpSlot} (h : s.projection xs g = .ok (w, t)) :
    SameBundle s t ∧ t.issue.need = s.issue.need := by
  unfold State.projection at h
  dsimp only at h
  split at h
  · cases h
  · split at h
    · cases h
      exact ⟨.of_issue rfl, rfl⟩
    · split at h
      · cases h
      · rename_i hload
        cases h
        exact State.loadExpander_keeps hload

/-! Absorb (R210) -/

/-- The rows of a query tile absorbed through a projection slot. -/
def absorbedTile (w : ExpSlot) (f : MX) (ta : Tile) : Tile :=
  tileOfRows .e4m3b32 ((List.range (rowsOf f.hr)).map fun i => absorbedRow w.bytes ta.tag f.kb.toNat (ta.row i))

theorem State.absorb_accumulates {i : Instr} {f : MX} {s t : State} {na nb : Nat} {w : ExpSlot} {acc : Acc} (he : exec i s = s.absorb f)
    (h : ReadyM s [(tA f, na), (tB f, nb)] [] [] [.a f.acc.toNat]) (ha : (s.tileIn na).tag ∈ [Fmt.e4m3, .e4m3row])
    (hb : (s.tileIn nb).tag = .lat8)
    (hw : (latchedM s [(tA f, na), (tB f, nb)] []).projection f.xs.toNat (s.tileIn na).tag = .ok (w, t)) (hbad : w.bad = false)
    (hacc : AddsInto s .float f.acc.toNat (f.za = 1) 0 acc) :
    exec i s = .next (afterM s ((t.needs fun q => { q with xs := some f.xs.toNat }).putA f.acc.toNat
      (accumulate .float .e4m3b32 .lat8 (rowsOf f.hr) (absorbedTile w f (s.tileIn na)) (s.tileIn nb) acc))
      [(tA f, na), (tB f, nb)] [] [.a f.acc.toNat]) := by
  obtain ⟨hs, hneed⟩ := State.projection_keeps hw
  have hpre : (latchedM s [(tA f, na), (tB f, nb)] []).issue.pre = s.issue.pre := by rw [latchedM_issue]
  have hta : (s.tileIn na).tag ≠ .poison ∧ ((s.tileIn na).tag == .e4m3 || (s.tileIn na).tag == .e4m3row) = true := by
    simp only [List.mem_cons, List.not_mem_nil, or_false] at ha
    rcases ha with ha | ha <;> rw [ha] <;> exact ⟨by decide, rfl⟩
  have hchecka := State.badTileTag_none (ok := fun g => g == .e4m3 || g == .e4m3row) hpre hta.1 hta.2
  have hcheckb := State.badTileTag_none (n := nb) (ok := (· == .lat8)) hpre (by rw [hb]; decide) (by rw [hb]; decide)
  obtain ⟨a, hfor, hch⟩ := hacc.found (t := t.needs fun q => { q with xs := some f.xs.toNat }) (hs.pre.trans hpre)
  obtain rfl : a = acc := by
    rw [State.charged, if_pos (by decide)] at hch
    exact Except.ok.inj hch
  have hbundle := (hs.trans (.needs t fun q => { q with xs := some f.xs.toNat })).trans (.modCur _ fun k => k.setA f.acc.toNat
    (accumulate .float .e4m3b32 .lat8 (rowsOf f.hr) (absorbedTile w f (s.tileIn na)) (s.tileIn nb) a))
  unfold State.absorb at he
  refine exec_of_mOp (dsts := []) (wr := [.a f.acc.toNat]) he h ?_ hbundle ?_
  · simp only [List.map_cons, List.map_nil, List.getD_cons_zero, List.getD_cons_succ, hchecka, hcheckb, List.findSome?_cons,
      List.findSome?_nil, id_eq, hw, hfor, hbad, Bool.false_eq_true, if_false]
    rfl
  · exact (congrArg Need.img (hneed.trans (by rw [latchedM_issue])) :)

/-! LXLD and LXINV (R221) -/

theorem execLxld_loads (f : MX) (s t : State) (h : ReadyM s [] [] [opReg .x f.b.toNat] [])
    (hl : (latchedM s [] [opReg .x f.b.toNat]).loadExpander f.xs.toNat (s.imageVA f) = .ok t) :
    exec (.lxld f) s = .next (afterM s (t.modCur fun k => { k with exp := k.exp.set .none f.xs.toNat ⟨true, s.imageVA f⟩ })
      [] [opReg .x f.b.toNat] []) := by
  have he : exec (.lxld f) s = execLxld f s := rfl
  unfold execLxld at he
  obtain ⟨hs, hneed⟩ := State.loadExpander_keeps hl
  refine exec_of_mOp (srcs := []) (dsts := []) (wr := []) he h ?_ (hs.trans (.modCur _ _)) ?_
  · rw [hl]
  · exact (congrArg Need.img (hneed.trans (by rw [latchedM_issue])) :)

/-- The expander slots of a core are none of its banks. -/
theorem State.exp_core_modCur (s : State) (f : Ctx → Ctx) (c : Nat) : ((s.modCur f).core c).exp = (s.core c).exp :=
  State.core_modCore_keeps Core.exp (fun k => by unfold Core.setBank; split <;> rfl) s _ c

/-- An operation that enters its queue leaves the expander slots and their descriptors. -/
theorem exp_afterM (s t : State) (srcs : List (TSrc × Nat)) (rd : List Opd) (c : Nat) :
    (afterM s t srcs rd []).cur.exp = t.cur.exp ∧ ((afterM s t srcs rd []).core c).exp = (t.core c).exp ∧
    (afterM s t srcs rd []).mem = t.mem := by
  unfold afterM State.enqueue
  split
  · exact ⟨rfl, rfl, rfl⟩
  · rw [State.cur_modCur, State.exp_core_modCur]
    exact ⟨rfl, rfl, rfl⟩

/-- A core's slot that holds the load which a descriptor names, made invalid. -/
def ExpSlot.invalidated (asid : Nat) (va : Word) (e : ExpSlot) : ExpSlot :=
  if e.valid ∧ e.asid = asid ∧ e.va = va then { e with valid := false } else e

/-- The same of slot xs of a core. -/
def Core.invalidate (xs asid : Nat) (va : Word) (k : Core) : Core :=
  if (k.exp.get .none xs).valid && (k.exp.get .none xs).asid = asid && (k.exp.get .none xs).va = va then
    { k with exp := k.exp.set .none xs { k.exp.get .none xs with valid := false } }
  else k

theorem Core.exp_invalidate (xs asid : Nat) (va : Word) (k : Core) :
    (k.invalidate xs asid va).exp.get .none xs = (k.exp.get .none xs).invalidated asid va := by
  unfold Core.invalidate ExpSlot.invalidated
  simp only [Bool.and_eq_true, decide_eq_true_eq, and_assoc]
  split
  · exact Sparse.get_set_self _ _ _ _
  · rfl

theorem Core.bank_invalidate (xs asid : Nat) (va : Word) (k : Core) (b : Nat) : (k.invalidate xs asid va).bank b = k.bank b := by
  unfold Core.invalidate
  split <;> rfl

/-- A bank's descriptor of slot xs made invalid. -/
def Ctx.invalidate (xs : Nat) (d : ExpDesc) (k : Ctx) : Ctx := { k with exp := k.exp.set .none xs { d with valid := false } }

theorem execLxinv_invalidates (f : MX) (s : State) (h : ReadyM s [] [] [] []) : ∃ t, exec (.lxinv f) s = .next t ∧
    t.cur.exp.get .none f.xs.toNat = { s.issue.pre.exp.get .none f.xs.toNat with valid := false } ∧
    (t.core s.issue.core).exp.get .none f.xs.toNat =
      ((s.core s.issue.core).exp.get .none f.xs.toNat).invalidated s.issue.pre.asid (s.issue.pre.exp.get .none f.xs.toNat).va ∧
    t.mem = s.mem := by
  have he : exec (.lxinv f) s = execLxinv f s := rfl
  unfold execLxinv at he
  let d := s.issue.pre.exp.get .none f.xs.toNat
  let u := (latchedM s [] []).modCur (Ctx.invalidate f.xs.toNat d)
  have hx : exec (.lxinv f) s = .next (afterM s (u.modCore s.issue.core (Core.invalidate f.xs.toNat s.issue.pre.asid d.va)) [] [] []) :=
    exec_of_mOp (srcs := []) (dsts := []) he h rfl (.of_issue rfl) rfl
  have hcore : (u.core s.issue.core).exp = (s.core s.issue.core).exp := State.exp_core_modCur _ _ _
  obtain ⟨ecur, ecore, emem⟩ := exp_afterM s (u.modCore s.issue.core (Core.invalidate f.xs.toNat s.issue.pre.asid d.va)) [] [] s.issue.core
  refine ⟨_, hx, (congrArg (fun m => Sparse.get _ m _) ecur).trans ?_, (congrArg (fun m => Sparse.get _ m _) ecore).trans ?_, emem⟩
  · have hcur : (u.modCore s.issue.core (Core.invalidate f.xs.toNat s.issue.pre.asid d.va)).cur = u.cur := by
      show ((u.modCore s.issue.core _).core s.issue.core).bank s.issue.bank = (u.core s.issue.core).bank s.issue.bank
      rw [State.core_modCore_self, Core.bank_invalidate]
    rw [hcur, State.cur_modCur]
    exact Sparse.get_set_self _ _ _ _
  · rw [State.core_modCore_self, Core.exp_invalidate, hcore]

theorem execMwait_waits (s : State) (ha : s.active = true) (hu : s.issue.unsure = false) :
    exec .mwait s = .next ((s.releaseStacksOf s.issue.core s.issue.bank).enqueue [] [] true) := by
  show execMwait s = _
  unfold execMwait
  rw [hu, ha]
  rfl

/-- Settles O16: the checks of absorb pass, the slot's load and its invalidation are of the same bundle, and MWAIT is queued at once. -/
theorem absorbAndExpanderSlots : Obligations.AbsorbAndExpanderSlots := by
  refine ⟨fun mk hm f s t na nb w acc hkv h ha hb hw hbad hacc => ?_, execLxld_loads, execLxinv_invalidates, execMwait_waits⟩
  have he : exec (mk f) s = s.absorb f := by
    simp only [List.mem_cons, List.not_mem_nil, or_false] at hm
    rcases hm with rfl | rfl
    · rfl
    · exact if_pos hkv
  exact State.absorb_accumulates he h ha hb hw hbad hacc

end Sys2Proof.Machine
end

section
/-! SUPPORT. O43: merge stacks are released, start, fetch their operand, are split and dissolve (R223 to R229). -/
namespace Sys2Proof.Machine

/-! Release and engines (R225, R226, R229) -/

theorem Stack.releaseDue_eq (now : Word) (st : Stack) :
    st.releaseDue now = if st.deadline ≤ now ∧ st.released = none then { st with released := some st.deadline } else st := by
  unfold Stack.releaseDue Stack.release
  by_cases hd : st.deadline ≤ now
  · cases hr : st.released with
    | some r => simp [hd]
    | none =>
      have hcycle : (if st.deadline < now then st.deadline else now) = st.deadline := by
        split
        · rfl
        · next h => exact (BitVec.le_antisymm hd (BitVec.not_lt.mp h)).symm
      simp [hd, hcycle]
  · simp [hd]

theorem stackDeadlineRelease_releases (s : State) : Settles .stackDeadlineRelease s (s.modCluster s.arg.n fun cl =>
    { cl with stk := cl.stk.map fun st =>
        if st.n = s.arg.m ∧ st.deadline ≤ s.sidereal ∧ st.released = none then { st with released := some st.deadline } else st }) := by
  refine settles_of_event (execStackDeadlineRelease s) rfl rfl ?_
  refine congrArg (fun g => s.modCluster s.arg.n fun cl => { cl with stk := cl.stk.map g }) (funext fun st => ?_)
  by_cases hn : st.n = s.arg.m
  · simp only [hn, if_true, true_and, Stack.releaseDue_eq]
  · simp only [hn, if_false, false_and]

theorem State.engineFree_of_idle {s : State} {d c : Nat} (hc : clusterOf c = d) (ho : s.offline c = false)
    (hs : ∀ x ∈ (s.cluster d).stk, x.core ≠ some c) (hp : ∀ e ∈ (s.core c).b0.pend ++ (s.core c).b1.pend, e.why ≠ .matrix) :
    s.engineFree d c = true := by
  have hstk : ((s.cluster d).stk.any fun st => st.core = some c) = false := List.any_eq_false.mpr fun x hx => by simp [hs x hx]
  have hb0 : (s.core c).b0.onEngine = false := List.any_eq_false.mpr fun e he => by simp [hp e (List.mem_append_left _ he)]
  have hb1 : (s.core c).b1.onEngine = false := List.any_eq_false.mpr fun e he => by simp [hp e (List.mem_append_right _ he)]
  simp [State.engineFree, hc, ho, hstk, hb0, hb1]

theorem stackEngineStart_starts (s t : State) (st : Stack) (m : Member) (hnext : (s.cluster s.arg.n).nextFor s.arg.core = some st)
    (hc : clusterOf s.arg.core = s.arg.n) (ho : s.offline s.arg.core = false) (hs : ∀ x ∈ (s.cluster s.arg.n).stk, x.core ≠ some s.arg.core)
    (hp : ∀ e ∈ (theCore s).b0.pend ++ (theCore s).b1.pend, e.why ≠ .matrix) (hm : st.members.find? (fun m => !m.gone) = some m) :
    (∀ parts, s.memberImage st m = (.ok parts, t) → Settles .stackEngineStart s (t.modStack s.arg.n st.n fun st =>
      { st with core := some s.arg.core, begun := some (parts, t.view t.mem parts) })) ∧
    (∀ x, s.memberImage st m = (.error x, t) → Settles .stackEngineStart s (t.modStack s.arg.n st.n fun st =>
      { st with core := some s.arg.core })) := by
  have hfree : (!s.engineFree s.arg.n s.arg.core) = false := by rw [State.engineFree_of_idle hc ho hs hp]; rfl
  refine ⟨fun parts him => settles_of_event (execStackEngineStart s) rfl rfl ?_, fun x him => settles_of_event (execStackEngineStart s) rfl rfl ?_⟩ <;>
    simp only [hnext, hfree, Bool.false_eq_true, if_false, hm, him]

/-- The better of the best stack so far and another one (R226). -/
def Stack.best (best : Option Stack) (st : Stack) : Option Stack :=
  match best with
  | some x => if st.goesFirst x then some st else some x
  | none => some st

theorem Cluster.nextReleased_eq (cl : Cluster) :
    cl.nextReleased = (cl.stk.filter fun st => st.released.isSome && st.core.isNone && !st.lone).foldl Stack.best none := rfl

/-- The best of two stacks is one of them, and neither has a higher priority. -/
theorem Stack.best_some (x st : Stack) : ∃ y, Stack.best (some x) st = some y ∧ (y = x ∨ y = st) ∧ x.prio ≤ y.prio ∧ st.prio ≤ y.prio := by
  unfold Stack.best
  by_cases h : st.goesFirst x = true
  · refine ⟨st, if_pos h, .inr rfl, ?_, le_rfl⟩
    simp only [Stack.goesFirst, Bool.or_eq_true, Bool.and_eq_true, decide_eq_true_eq] at h
    omega
  · refine ⟨x, if_neg h, .inl rfl, le_rfl, ?_⟩
    simp only [Stack.goesFirst, Bool.or_eq_true, Bool.and_eq_true, decide_eq_true_eq, not_or] at h
    omega

theorem Stack.foldl_best (l : List Stack) (x st : Stack) (h : l.foldl Stack.best (some x) = some st) :
    (st = x ∨ st ∈ l) ∧ x.prio ≤ st.prio ∧ ∀ o ∈ l, o.prio ≤ st.prio := by
  induction l generalizing x with
  | nil => exact ⟨.inl (Option.some.inj h).symm, (Option.some.inj h) ▸ le_rfl, by simp⟩
  | cons a l ih =>
    obtain ⟨y, hy, hmem, hxy, hay⟩ := Stack.best_some x a
    rw [List.foldl_cons, hy] at h
    obtain ⟨hst, hyst, hall⟩ := ih y h
    refine ⟨?_, hxy.trans hyst, List.forall_mem_cons.mpr ⟨hay.trans hyst, hall⟩⟩
    rcases hst with rfl | hst
    · exact hmem.imp_right fun e => List.mem_cons.mpr (.inl e)
    · exact .inr (List.mem_cons_of_mem _ hst)

theorem Cluster.nextReleased_first (cl : Cluster) (c : Nat) (st : Stack) (h : cl.nextReleased = some st) :
    cl.nextFor c = some st ∧ st ∈ cl.stk ∧ st.released.isSome = true ∧
    ∀ o ∈ cl.stk, o.released.isSome = true → o.core = none → o.lone = false → o.prio ≤ st.prio := by
  have hfor : cl.nextFor c = some st := by
    unfold Cluster.nextFor
    rw [h]
  rw [Cluster.nextReleased_eq] at h
  have hmem (o : Stack) : o ∈ (cl.stk.filter fun st => st.released.isSome && st.core.isNone && !st.lone) ↔
      o ∈ cl.stk ∧ o.released.isSome = true ∧ o.core = none ∧ o.lone = false := by
    simp [List.mem_filter, and_assoc]
  generalize (cl.stk.filter fun st => st.released.isSome && st.core.isNone && !st.lone) = l at h hmem
  have hbest : st ∈ l ∧ ∀ o ∈ l, o.prio ≤ st.prio := by
    cases l with
    | nil => cases h
    | cons x l =>
      obtain ⟨hst, hx, hall⟩ := Stack.foldl_best l x st h
      exact ⟨List.mem_cons.mpr hst, List.forall_mem_cons.mpr ⟨hx, hall⟩⟩
  obtain ⟨hin, hr, -⟩ := (hmem st).mp hbest.1
  exact ⟨hfor, hin, hr, fun o ho hor hoc hol => hbest.2 o ((hmem o).mpr ⟨ho, hor, hoc, hol⟩)⟩

/-! The end of the fetch (R227, R341) -/

/-- Chunk i of 8 bytes. -/
def chunkOf (l : List Byte) (i : Nat) : List Byte := (l.drop (8 * i)).take 8

theorem chunkOf_succ (l : List Byte) (i : Nat) : chunkOf l (i + 1) = chunkOf (l.drop 8) i := by
  rw [chunkOf, chunkOf, List.drop_drop, Nat.mul_succ, Nat.add_comm]

/-- The chunks of a first chunk and a rest, of which there is none behind a short one. -/
theorem chunkOf_append {x rest : List Byte} (hx : x.length ≤ 8) (h : x.length = 8 ∨ rest = []) :
    chunkOf (x ++ rest) 0 = x ∧ ∀ i, chunkOf (x ++ rest) (i + 1) = chunkOf rest i := by
  have hdrop : (x ++ rest).drop 8 = rest := by
    rcases h with h | rfl
    · exact List.drop_left' h
    · simp [hx]
  have htake : (x ++ rest).take 8 = x := by
    rcases h with h | rfl
    · exact List.take_left' h
    · simp [hx]
  exact ⟨htake, fun i => by rw [chunkOf_succ, hdrop]⟩

theorem runsOf_nil {α : Type} (n fuel : Nat) : runsOf n fuel ([] : List α) = [] := by
  cases fuel <;> rfl

/-- The chunks of two lists of one length, each taken from the one or the other. -/
theorem chunkOf_picked (fuel : Nat) (old now : List Byte) (pick : Nat → List Byte × List Byte → List Byte) (i : Nat) (hf : old.length ≤ fuel)
    (hl : old.length = now.length) (hp : ∀ j p, pick j p = p.1 ∨ pick j p = p.2) :
    chunkOf (((runsOf 8 fuel old).zip (runsOf 8 fuel now)).mapIdx pick).flatten i = chunkOf old i ∨
    chunkOf (((runsOf 8 fuel old).zip (runsOf 8 fuel now)).mapIdx pick).flatten i = chunkOf now i := by
  induction fuel generalizing old now pick i with
  | zero =>
    obtain rfl := List.eq_nil_of_length_eq_zero (Nat.le_zero.mp hf)
    exact .inl (by simp [runsOf])
  | succ fuel ih =>
    by_cases he : old.length = 0
    · obtain rfl := List.eq_nil_of_length_eq_zero he
      exact .inl (by simp [runsOf])
    · have hold : old.isEmpty = false := by cases old with
        | nil => exact absurd rfl he
        | cons => rfl
      have hnow : now.isEmpty = false := by cases now with
        | nil => exact absurd hl he
        | cons => rfl
      simp only [runsOf, hold, hnow, Bool.false_eq_true, if_false, List.zip_cons_cons, List.mapIdx_cons, List.flatten_cons]
      have hrest := fun i => ih (old.drop 8) (now.drop 8) (fun j => pick (j + 1)) i (by simp only [List.length_drop]; omega)
        (by simp only [List.length_drop, hl]) (fun j => hp (j + 1))
      have hfirst := hp 0 (old.take 8, now.take 8)
      have hlen : (pick 0 (old.take 8, now.take 8)).length = min 8 old.length := by
        rcases hfirst with h | h <;> rw [h, List.length_take]
        rw [hl]
      have hshort : (pick 0 (old.take 8, now.take 8)).length = 8 ∨
          (((runsOf 8 fuel (old.drop 8)).zip (runsOf 8 fuel (now.drop 8))).mapIdx fun j => pick (j + 1)).flatten = [] := by
        by_cases h8 : 8 ≤ old.length
        · exact .inl (hlen.trans (Nat.min_eq_left h8))
        · exact .inr (by rw [List.drop_eq_nil_of_le (by omega), runsOf_nil]; rfl)
      obtain ⟨hzero, hsucc⟩ := chunkOf_append (hlen.trans_le (Nat.min_le_left _ _)) hshort
      cases i with
      | zero => rw [hzero]; exact hfirst
      | succ i => rw [hsucc, chunkOf_succ old, chunkOf_succ now]; exact hrest i

theorem chunkOf_mixChunks (n : Nat) {old now : List Byte} (h : old.length = now.length) (i : Nat) :
    chunkOf (mixChunks n old now) i = chunkOf old i ∨ chunkOf (mixChunks n old now) i = chunkOf now i :=
  chunkOf_picked old.length old now _ i le_rfl h fun j p => by
    split
    · exact .inl rfl
    · exact .inr rfl

/-! The split (R227 to R229) -/

theorem stackSplit_fetched (s : State) (st : Stack) (parts : List (Nat × Nat)) (old : List Byte) (hst : s.stackAt s.arg.n s.arg.m = some st)
    (hb : st.b = none) (hbegun : st.begun = some (parts, old)) :
    (viewBad s.bad parts = true → Settles .stackSplit s (s.modStack s.arg.n st.n fun st => { st with begun := none })) ∧
    (viewBad s.bad parts = false → old = s.view s.mem parts →
      Settles .stackSplit s ((s.afterRead parts).modStack s.arg.n st.n fun st => { st with b := some (imageTile st.bfmt old) })) ∧
    (viewBad s.bad parts = false → old ≠ s.view s.mem parts → old.length = (s.view s.mem parts).length → ∃ bs : List Byte,
      Settles .stackSplit s ((State.afterRead { s with free := s.free + old.length / 8 } parts).modStack s.arg.n st.n fun st =>
        { st with b := some (imageTile st.bfmt bs) }) ∧
      ∀ i, (bs.drop (8 * i)).take 8 = (old.drop (8 * i)).take 8 ∨ (bs.drop (8 * i)).take 8 = ((s.view s.mem parts).drop (8 * i)).take 8) := by
  have hx : Settles .stackSplit s (s.endFetch s.arg.n st parts old) :=
    settles_of_event (execStackSplit s) rfl rfl (by simp only [hst, hb, hbegun])
  unfold State.endFetch at hx
  refine ⟨fun hm => ?_, fun hm he => ?_, fun hm hne hl => ⟨mixChunks s.free old (s.view s.mem parts), ?_, chunkOf_mixChunks s.free hl⟩⟩
  · rwa [if_pos hm] at hx
  · rw [if_neg (by simp [hm])] at hx
    dsimp only at hx
    rwa [if_pos he, ← he] at hx
  · rw [if_neg (by simp [hm])] at hx
    dsimp only at hx
    rwa [if_neg hne] at hx

/-- A member is finished, and the stack goes on with the others or leaves (R227). -/
theorem stackSplit_member (s : State) (st : Stack) (b : Tile) (m : Member) (ms : List Member) (hst : s.stackAt s.arg.n s.arg.m = some st)
    (hb : st.b = some b) (hms : st.members = m :: ms) :
    (ms = [] → Settles .stackSplit s ((s.finishMember st b m).dropStack s.arg.n st.n)) ∧
    (ms ≠ [] → Settles .stackSplit s ((s.finishMember st b m).modStack s.arg.n st.n fun st => { st with members := ms })) := by
  refine ⟨fun h => settles_of_event (execStackSplit s) rfl rfl ?_, fun h => settles_of_event (execStackSplit s) rfl rfl ?_⟩
  · subst h
    simp only [hst, hb, hms]
  · obtain ⟨m', ms', rfl⟩ := List.exists_cons_of_ne_nil h
    simp only [hst, hb, hms]

/-- A member's accumulator with the member's rows added, busy no longer. -/
theorem State.finishMember_writes (s : State) (st : Stack) (b : Tile) (m : Member) (c : MClass) (hg : m.gone = false)
    (hc : pairClass st.afmt st.bfmt = some c) : s.finishMember st b m = s.modCtx m.core m.bank fun k =>
      (k.setA m.acc { accumulate c st.afmt st.bfmt m.h m.rows b
        (if m.za = true then { k.getA m.acc with rows := [] } else k.getA m.acc) with tag := c.accTag, bound := m.bound }).memberDone m := by
  unfold State.finishMember Member.result
  rw [if_neg (by simp [hg]), hc]

theorem State.finishMember_gone (s : State) (st : Stack) (b : Tile) (m : Member) (hg : m.gone = true) : s.finishMember st b m = s :=
  if_pos hg

theorem stackSplit_drops (s : State) (st : Stack) (b : Tile) (hst : s.stackAt s.arg.n s.arg.m = some st) (hb : st.b = some b) :
    (st.members = [] ∨ (∃ m, st.members = [m] ∧ m.gone = true) → Settles .stackSplit s (s.dropStack s.arg.n st.n)) ∧
    (∀ m ms, st.members = m :: ms → ms ≠ [] → m.gone = true →
      Settles .stackSplit s (s.modStack s.arg.n st.n fun st => { st with members := ms })) := by
  refine ⟨fun h => ?_, fun m ms hms hne hg => ?_⟩
  · rcases h with h | ⟨m, hms, hg⟩
    · exact settles_of_event (execStackSplit s) rfl rfl (by simp only [hst, hb, h])
    · have hx := (stackSplit_member s st b m [] hst hb hms).1 rfl
      rwa [s.finishMember_gone st b m hg] at hx
  · have hx := (stackSplit_member s st b m ms hst hb hms).2 hne
    rwa [s.finishMember_gone st b m hg] at hx

/-! Stacks that dissolve (R228) -/

/-- A stack of one live member whose fetch has failed: the member issues again alone. -/
theorem stackDissolve_reissues (s : State) (st : Stack) (m : Member) (hst : s.stackAt s.arg.n s.arg.m = some st) (hcore : st.core.isSome = true)
    (hb : st.b = none) (hbegun : st.begun = none) (hms : st.members = [m]) :
    Settles .stackDissolve s ((s.reissue st m).dropStack s.arg.n s.arg.m) :=
  settles_of_event (execStackDissolve s) rfl rfl (by
    simp only [hst, hcore, hb, hbegun, hms, Option.isNone_none, Bool.and_true, if_true, List.foldl_cons, List.foldl_nil])

theorem State.reissue_ok {s t : State} {st : Stack} {m : Member} {b : Tile} (hg : m.gone = false) (h : s.fetchImage st m = (.ok b, t)) :
    s.reissue st m = t.finishMember st b m := by
  unfold State.reissue
  rw [if_neg (by simp [hg]), h]

theorem State.reissue_error {s t : State} {st : Stack} {m : Member} {x : Nat × Word × Word} (hg : m.gone = false)
    (h : s.fetchImage st m = (.error x, t)) : s.reissue st m = t.poisonMember m x st.va := by
  unfold State.reissue
  rw [if_neg (by simp [hg]), h]

/-- The accumulator of a member whose own fetch fails is POISON, with one record more. -/
theorem State.poisonMember_records (s : State) (m : Member) (x : Nat × Word × Word) (va : Word) :
    (((s.poisonMember m x va).ctx m.core m.bank).getA m.acc).tag = .poison ∧
    ∃ r : FaultRec, (s.poisonMember m x va).faults = s.faults ++ [r] ∧ r.cause = x.1 ∧ r.access = 7 ∧ r.async = true ∧ r.va = va ∧
      r.core = m.core ∧ r.notice = true := by
  refine ⟨?_, _, rfl, rfl, rfl, rfl, rfl, rfl, rfl⟩
  unfold State.poisonMember
  rw [State.ctx_report, State.ctx_modCtx_self]
  show ((Ctx.setA _ m.acc _).getA m.acc).tag = _
  rw [Ctx.getA_setA, if_pos rfl]

theorem stackDissolve_ends (s t : State) (st : Stack) (m : Member) (hst : s.stackAt s.arg.n s.arg.m = some st) (hcore : st.core.isSome = true)
    (hb : st.b = none) (hbegun : st.begun = none) (hms : st.members = [m]) (hg : m.gone = false) :
    (∀ b, s.fetchImage st m = (.ok b, t) → Settles .stackDissolve s ((t.finishMember st b m).dropStack s.arg.n s.arg.m)) ∧
    (∀ x, s.fetchImage st m = (.error x, t) → ∃ u : State, Settles .stackDissolve s u ∧
      ((u.ctx m.core m.bank).getA m.acc).tag = .poison ∧
      ∃ r : FaultRec, u.faults = t.faults ++ [r] ∧ r.cause = x.1 ∧ r.access = 7 ∧ r.async = true ∧ r.va = st.va ∧ r.core = m.core ∧
        r.notice = true) := by
  have hx := stackDissolve_reissues s st m hst hcore hb hbegun hms
  refine ⟨fun b h => ?_, fun x h => ?_⟩
  · rwa [State.reissue_ok hg h] at hx
  · rw [State.reissue_error hg h] at hx
    exact ⟨_, hx, t.poisonMember_records m x st.va⟩

end Sys2Proof.Machine
end

section
/-! SUPPORT. O43: copies start, read and write elements, land their writes, move frames, fault, complete and stop; flash pages are committed
(R278 to R289, R311, R341, R407). -/
namespace Sys2Proof.Machine

theorem State.engine_modEngine (s : State) (c : Nat) (f : Engine → Engine) : ((s.modEngine c f).core c).engine = f (s.core c).engine := by
  unfold State.modEngine
  rw [State.core_modCore_self]

theorem State.engine_dropCopy (s : State) (c : Nat) : ((s.dropCopy c).core c).engine = { (s.core c).engine with current := none } :=
  State.engine_modEngine _ _ _

theorem copyStart_swapsIn (s : State) (q : Copy) (hc : (theCore s).engine.current = none) (hw : (theCore s).engine.waiting = some q) :
    Settles .copyStart s (s.modEngine s.arg.core fun e => { e with current := some { q with started := true }, waiting := none }) := by
  refine settles_of_event (execCopyStart s) rfl rfl ?_
  have hc' : (s.core s.arg.core).engine.current = none := hc
  have hw' : (s.core s.arg.core).engine.waiting = some q := hw
  unfold State.modEngine State.modCore
  simp only [hc', hw']

/-- A copy at work: it is the current one, with no page being programmed and no write under way. -/
theorem State.working_current {s : State} {c : Nat} {q : Copy} (h : s.working c = some q) :
    (s.core c).engine.current = some q ∧ q.program = none ∧ q.land = none := by
  obtain ⟨hq, hp⟩ := Option.filter_eq_some_iff.mp h
  simp only [Bool.and_eq_true, Option.isNone_iff_eq_none] at hp
  exact ⟨hq, hp.1.2, hp.2⟩

/-! Elements (R279, R281, R285) -/

/-- A unit whose writes land with it. -/
theorem copyElementWrite_unit {s u : State} {q : Copy} (h : s.working s.arg.core = some q) (hf : s.arg.flag = false) (hm : q.desc.mode ≠ 5)
    (hu : s.copyUnit s.arg.core q = (.ok (), u)) : Settles .copyElementWrite s u := by
  refine settles_of_event (execCopyElementWrite s) rfl rfl ?_
  simp only [h, hm, if_false, hf, State.runUnit, hu, Bool.false_eq_true]

/-- Between memories, the next unit of a copy that is no stream and no page copy is one element. -/
theorem State.copyUnit_walk {s : State} {c : Nat} {q : Copy} (hm : q.desc.mode ≠ 2 ∧ q.desc.mode ≠ 3 ∧ q.desc.mode ≠ 4)
    (hs : q.desc.srcf = false) (hd : q.desc.dstf = false) : s.copyUnit c q = s.walkUnit c q := by
  obtain ⟨h2, h3, h4⟩ := hm
  have hneeds : q.desc.flashNeeds q.pos = [] := by simp [CopyDesc.flashNeeds, hs]
  have hpaged : q.desc.paged = false := by simp [CopyDesc.paged, h4, hd]
  unfold State.copyUnit
  split
  · next h _ => exact absurd h h2
  · next h _ => exact absurd h h2
  · next h _ => exact absurd h h3
  · next h _ => exact absurd h h3
  · simp [hneeds, hpaged]

/-- One element of a walk without conversion. -/
theorem State.walkUnit_writes {s t u : State} {c : Nat} {q : Copy} {r : Run} (hm : q.desc.mode ≠ 1)
    (hin : s.elementIn c q q.pos = (.ok r, t))
    (hw : t.copyWrite c q (strideSum q.desc.dst (q.desc.index q.pos) q.desc.dstr) r = (.ok (), u)) :
    s.walkUnit c q = (.ok (), (u.modCopy c fun q => { q with pos := q.pos + 1, pages := [] }).countSectors c q
      (sectorsAt (strideSum q.desc.dst (q.desc.index q.pos) q.desc.dstr) q.desc.run) false) := by
  have hrun : q.desc.outRun = q.desc.run := if_neg hm
  unfold State.walkUnit
  simp only [hin, hm, if_false, CopyDesc.dstAt, hw, CopyDesc.sectors, hrun]

/-- Clean bytes of memory leave no record (R287). -/
theorem State.sourceFaults_clean (s : State) (c : Nat) {q : Copy} (e : Nat) (src dst : Word) {r : Run} (hs : q.desc.srcf = false)
    (hb : r.bad = false) : s.sourceFaults c q e src dst r = s := by
  unfold State.sourceFaults
  rw [if_neg (by simp [hs]), if_neg (by simp [hb])]

theorem State.elementIn_reads {s t : State} {c : Nat} {q : Copy} {r : Run} (hm : q.desc.mode = 0) (hs : q.desc.srcf = false)
    (hr : s.copyRead c q (strideSum q.desc.src (q.desc.index q.pos) q.desc.sstr) q.desc.run = (.ok r, t)) (hb : r.bad = false) :
    s.elementIn c q q.pos = (.ok r, t) := by
  have hsrc : s.elementSrc c q q.pos = (.ok (strideSum q.desc.src (q.desc.index q.pos) q.desc.sstr), s) := if_pos (by simp [hm])
  unfold State.elementIn
  rw [if_neg (by simp [hm]), hsrc]
  dsimp only
  rw [if_neg (by simp [hs]), hr]
  dsimp only
  rw [t.sourceFaults_clean c _ _ _ hs hb]

theorem copyElementWrite_copies (s t u : State) (q : Copy) (r : Run) (h : s.working s.arg.core = some q) (hf : s.arg.flag = false)
    (hm : q.desc.mode = 0) (hs : q.desc.srcf = false) (hd : q.desc.dstf = false)
    (hr : s.copyRead s.arg.core q (strideSum q.desc.src (q.desc.index q.pos) q.desc.sstr) q.desc.run = (.ok r, t)) (hb : r.bad = false)
    (hw : t.copyWrite s.arg.core q (strideSum q.desc.dst (q.desc.index q.pos) q.desc.dstr) r = (.ok (), u)) :
    Settles .copyElementWrite s ((u.modCopy s.arg.core fun q => { q with pos := q.pos + 1, pages := [] }).countSectors s.arg.core q
      (sectorsAt (strideSum q.desc.dst (q.desc.index q.pos) q.desc.dstr) q.desc.run) false) :=
  copyElementWrite_unit h hf (by simp [hm]) ((State.copyUnit_walk (by simp [hm]) hs hd).trans
    (State.walkUnit_writes (by simp [hm]) (State.elementIn_reads hm hs hr hb) hw))

theorem copyElementWrite_fills (s u : State) (q : Copy) (h : s.working s.arg.core = some q) (hf : s.arg.flag = false) (hm : q.desc.mode = 7)
    (hs : q.desc.srcf = false) (hd : q.desc.dstf = false)
    (hw : s.copyWrite s.arg.core q (strideSum q.desc.dst (q.desc.index q.pos) q.desc.dstr) (.clean (List.replicate q.desc.run 0)) = (.ok (), u)) :
    Settles .copyElementWrite s ((u.modCopy s.arg.core fun q => { q with pos := q.pos + 1, pages := [] }).countSectors s.arg.core q
      (sectorsAt (strideSum q.desc.dst (q.desc.index q.pos) q.desc.dstr) q.desc.run) false) :=
  copyElementWrite_unit h hf (by simp [hm]) ((State.copyUnit_walk (by simp [hm]) hs hd).trans
    (State.walkUnit_writes (by simp [hm]) (if_pos hm) hw))

/-- What a unit has yet to write lands all at once, and its sectors are counted (R341). -/
theorem copyElementWrite_lands (s : State) (q : Copy) (p : Nat × Run) (l : List (Nat × Run)) (hq : (theCore s).engine.current = some q)
    (hl : q.land = some (p :: l)) (hf : s.arg.flag = false) (hquiet : q.quiet = false) :
    Settles .copyElementWrite s (((s.putRuns (engineWriter s.arg.core) (p :: l)).modCopy s.arg.core fun q =>
      { q with land := none, owed := (0, false) }).countSectors s.arg.core q q.owed.1 q.owed.2) := by
  have hcur : (s.core s.arg.core).engine.current = some q := hq
  have hwork : s.working s.arg.core = none := by simp [State.working, hcur, hl]
  refine settles_of_event (execCopyElementWrite s) rfl rfl ?_
  simp only [hwork, hf, State.landCopy, hcur, hl, Bool.not_false, if_true, List.isEmpty_nil, Bool.not_true, Bool.false_eq_true, if_false, hquiet]

/-! Frames (R287, R289) -/

/-- Finding the place of a frame leaves the engine of every core. -/
theorem State.engine_framePlace (s : State) (c : Nat) (q : Copy) (write : Bool) (va : Word) (k : Nat) :
    ((s.framePlace c q write va).2.core k).engine = (s.core k).engine := by
  have hkeeps : AccessKeeps fun s => (s.core k).engine := AccessKeeps.of_core Core.engine k (fun _ _ => rfl) (fun _ _ => rfl) (fun _ _ => rfl)
    fun k w d key n => by unfold Core.struckBy; (repeat' split) <;> rfl
  have hp := hkeeps.place s (q.agent c) { write := write } va 16384
  unfold State.framePlace
  dsimp only
  generalize (if write = true then 9 else 8) = access
  split
  · next hplace => rwa [hplace] at hp
  · next hplace =>
    rw [hplace] at hp
    split_ifs
    · rfl
    · rfl
    · exact hp

theorem Run.part_whole {r : Run} {n : Nat} (hd : r.data.length ≤ n) (hm : r.marks.length ≤ n) : r.part 0 n = r := by
  unfold Run.part
  rw [List.drop_zero, List.drop_zero, List.take_of_length_le hd, List.take_of_length_le hm]

/-- A run read at one place holds its bytes and a mark for each. -/
theorem State.length_runAt (s : State) (key n : Nat) : (s.runAt [(key, n)]).data.length = n ∧ (s.runAt [(key, n)]).marks.length = n := by
  unfold State.runAt State.view State.bytesIn State.ctlBytes Sparse.slice
  simp only [List.flatMap_cons, List.flatMap_nil, List.append_nil, List.length_map, List.length_range, and_true]
  split
  · simp
  · split <;> simp

theorem State.landAlong_one {s : State} {c : Nat} {q : Copy} (hl : s.landing c q = none) (key n : Nat) {r : Run} (hd : r.data.length = n)
    (hm : r.marks.length = n) : s.landAlong c q [(key, n)] r = s.putRun (engineWriter c) key r := by
  unfold State.landAlong
  rw [hl]
  show (s.putRun (engineWriter c) key (r.part 0 n)) = _
  rw [Run.part_whole hd.le hm.le]

theorem dramlocFrame_moves (s t u : State) (q : Copy) (src dst : Nat) (h : s.working s.arg.core = some q) (hf : s.arg.flag = false)
    (hm : q.desc.mode = 5) (hz : q.desc.mpar = 0)
    (hsrc : s.framePlace s.arg.core q false (q.desc.src + word (16384 * q.pos)) = (.ok src, t))
    (hdst : t.framePlace s.arg.core q true (q.desc.dst + word (16384 * q.pos)) = (.ok dst, u)) (hb : (u.runAt [(src, 16384)]).bad = false) :
    Settles .dramlocFrame s (((u.putRun (engineWriter s.arg.core) dst (u.runAt [(src, 16384)])).modCopy s.arg.core fun q =>
      { q with pos := q.pos + 1 }).countSectors s.arg.core q (if q.pos + 1 = q.desc.pages then 512 * q.desc.pages else 0) false) := by
  obtain ⟨hcur, -, hland⟩ := State.working_current h
  have hl : u.landing s.arg.core q = none := by
    unfold State.landing
    have ht := s.engine_framePlace s.arg.core q false (q.desc.src + word (16384 * q.pos)) s.arg.core
    have hu := t.engine_framePlace s.arg.core q true (q.desc.dst + word (16384 * q.pos)) s.arg.core
    rw [hsrc] at ht
    rw [hdst] at hu
    rw [hu, ht, hcur]
    simp [hland]
  have hmove : u.moveFrame s.arg.core q (some src) dst = u.putRun (engineWriter s.arg.core) dst (u.runAt [(src, 16384)]) := by
    obtain ⟨hd, hmarks⟩ := u.length_runAt src 16384
    unfold State.moveFrame
    dsimp only
    rw [hb, if_neg (by decide), State.landAlong_one hl _ _ hd hmarks]
  have hsource : q.desc.mpar.getLsbD 0 = false := by simp [hz]
  refine settles_of_event (execDramlocFrame s) rfl rfl ?_
  simp only [h, hm, ne_eq, not_true_eq_false, if_false, hf, State.runUnit, Bool.false_eq_true, State.frameUnit, hsource, hsrc, hdst, hmove]

/-! Faults, completion and stops (R286, R287, R311, R407) -/

theorem copyFault_stops (s t : State) (q : Copy) (x : CopyFault) (h : s.working s.arg.core = some q) (hm : q.desc.mode ≠ 5)
    (hx : s.copyUnit s.arg.core q = (.error x, t)) : Settles .copyFault s (t.stopCopy s.arg.core q x) :=
  settles_of_event (execCopyFault s) rfl rfl (by simp only [h, hm, if_false, hx])

theorem State.copyRecord_faults (s : State) (c : Nat) (q : Copy) (x : CopyFault) :
    ∃ r : FaultRec, (s.copyRecord c q x.cause x.access x.va x.detail).faults = s.faults ++ [r] ∧
      r.cause = x.cause ∧ r.access = x.access ∧ r.va = x.va ∧ r.detail = x.detail ∧ r.async = true ∧ r.core = c ∧ r.job = q.job ∧ r.pc = q.pc :=
  ⟨_, rfl, rfl, rfl, rfl, rfl, rfl, rfl, rfl, rfl⟩

/-- A copy that ends: the current one, with nothing being programmed or under way, that has written all or has been stopped. -/
theorem copyComplete_ends (s : State) (q : Copy) (hq : (theCore s).engine.current = some q) (hp : q.program = none) (hl : q.land = none)
    (he : (q.stopped || (q.started && q.finished)) = true) (hn : s.arg.m = 0) :
    Settles .copyComplete s ((s.completeCopy s.arg.core q).dropCopy s.arg.core) := by
  have hcur : (s.core s.arg.core).engine.current = some q := hq
  refine settles_of_event (execCopyComplete s) rfl rfl ?_
  simp only [hn, if_true, hcur, hp, hl, he, Option.isSome_none, Bool.or_false, Bool.not_true, Bool.false_eq_true, if_false]

/-- A copy that has written all leaves no sector to count (R311). -/
theorem State.unwritten_finished (s : State) (c : Nat) {q : Copy} (h : q.finished = true) : s.unwritten c q = (0, s) := by
  have hstream : (q.desc.mode = 2 && q.stream.isNone) = false := by
    rw [Bool.eq_false_iff]
    intro hm
    simp only [Bool.and_eq_true, decide_eq_true_eq, Option.isNone_iff_eq_none] at hm
    simp [Copy.finished, hm.1, hm.2] at h
  unfold State.unwritten
  rw [if_neg (by simp [hstream]), Copy.left, if_pos h]

/-- Its completion is the flag, and what CSTAT reports (R286, R310). -/
theorem State.completeCopy_finished {s : State} {c : Nat} {q : Copy} (hq : (s.core c).engine.current = some q) (hl : q.land = none)
    (hf : q.finished = true) (hquiet : q.quiet = false) (he : q.err = false) :
    s.completeCopy c q = (s.writeFlag c q).2.modEngine c fun e => { e with done := e.done.set (0, false) q.job (q.seq, (s.writeFlag c q).1) } := by
  have hcount : s.countSectors c q 0 false = s := by
    have hland : s.landing c q = none := by simp [State.landing, hq, hl]
    simp [State.countSectors, hland]
  unfold State.completeCopy
  rw [if_neg (by simp [hquiet]), s.unwritten_finished c hf, he]
  dsimp only
  rw [hcount]

theorem copyComplete_reports (s : State) (q : Copy) (hq : (theCore s).engine.current = some q) (hp : q.program = none) (hl : q.land = none)
    (hst : q.started = true) (hf : q.finished = true) (hquiet : q.quiet = false) (he : q.err = false) (ha : q.desc.flaga = 0)
    (hn : s.arg.m = 0) :
    ∃ u : State, Settles .copyComplete s u ∧ (theCore u).engine.current = none ∧ (theCore u).engine.waiting = (theCore s).engine.waiting ∧
      (theCore u).engine.done.get (0, false) q.job = (q.seq, false) ∧ u.mem = s.mem ∧ u.arg = s.arg := by
  have hx := copyComplete_ends s q hq hp hl (by simp [hst, hf]) hn
  have hflag : s.writeFlag s.arg.core q = (false, s) := by
    unfold State.writeFlag
    rw [if_pos ha, he]
  rw [State.completeCopy_finished hq hl hf hquiet he, hflag] at hx
  dsimp only at hx
  generalize hu : State.dropCopy _ _ = u at hx
  have hengine : (u.core s.arg.core).engine =
      { (s.core s.arg.core).engine with done := (s.core s.arg.core).engine.done.set (0, false) q.job (q.seq, false), current := none } := by
    rw [← hu, State.engine_dropCopy, State.engine_modEngine]
  have harg : u.arg = s.arg := by rw [← hu]; rfl
  have hmem : u.mem = s.mem := by rw [← hu]; rfl
  unfold theCore
  refine ⟨u, hx, ?_, ?_, ?_, hmem, harg⟩ <;> rw [harg, hengine]
  exact Sparse.get_set_self _ _ _ _

theorem copyComplete_writesFlag (s t : State) (q : Copy) (parts : List (Nat × Nat)) (hq : (theCore s).engine.current = some q)
    (hp : q.program = none) (hl : q.land = none) (hst : q.started = true) (hf : q.finished = true) (hquiet : q.quiet = false) (he : q.err = false)
    (ha : q.desc.flaga ≠ 0) (hn : s.arg.m = 0)
    (hr : s.resolve (q.agent s.arg.core) { write := true } (pieces q.desc.flaga 8) = (.ok parts, t)) :
    Settles .copyComplete s (State.dropCopy ((t.writeParts (engineWriter s.arg.core) (cutData parts (leBytes 8 q.desc.flagv.toNat))).modEngine
      s.arg.core fun e => { e with done := e.done.set (0, false) q.job (q.seq, false) }) s.arg.core) := by
  have hx := copyComplete_ends s q hq hp hl (by simp [hst, hf]) hn
  have hflag : s.writeFlag s.arg.core q =
      (false, t.writeParts (engineWriter s.arg.core) (cutData parts (leBytes 8 q.desc.flagv.toNat))) := by
    unfold State.writeFlag
    rw [if_neg ha, hr, he]
    rfl
  rwa [State.completeCopy_finished hq hl hf hquiet he, hflag] at hx

/-- A copy that a kill stopped writes no flag and reports nothing (R407). -/
theorem State.completeCopy_quiet (s : State) (c : Nat) {q : Copy} (h : q.quiet = true) : s.completeCopy c q = s := if_pos h

theorem copyComplete_dropsCurrent (s : State) (q : Copy) (hq : (theCore s).engine.current = some q) (hp : q.program = none) (hl : q.land = none)
    (hst : q.stopped = true) (hquiet : q.quiet = true) (hn : s.arg.m = 0) : Settles .copyComplete s (s.dropCopy s.arg.core) := by
  have hx := copyComplete_ends s q hq hp hl (by simp [hst]) hn
  rwa [s.completeCopy_quiet _ hquiet] at hx

theorem copyComplete_dropsWaiting (s : State) (q : Copy) (hq : (theCore s).engine.waiting = some q) (hst : q.stopped = true)
    (hquiet : q.quiet = true) (hn : s.arg.m = 1) :
    Settles .copyComplete s (s.modEngine s.arg.core fun e => { e with waiting := none }) := by
  have hw : (s.core s.arg.core).engine.waiting = some q := hq
  refine settles_of_event (execCopyComplete s) rfl rfl ?_
  simp only [hn, Nat.one_ne_zero, if_false, hw, hst, if_true, s.completeCopy_quiet _ hquiet]

/-- A page committed whole (R285). -/
theorem flashProgramComplete_commits (s : State) (q : Copy) (page : Nat) (data : List Byte) (marks : List Bool)
    (hq : (theCore s).engine.current = some q) (hp : q.program = some (page, data, marks)) (hquiet : q.quiet = false) :
    Settles .flashProgramComplete s ((((s.putRun (engineWriter s.arg.core) (flashKey (16384 * page)) ⟨data, marks⟩).modFlash (page % 8)
      (·.rewrite page)).modCopy s.arg.core fun q => { q with program := none }).pageDone s.arg.core q) := by
  have hcur : (s.core s.arg.core).engine.current = some q := hq
  refine settles_of_event (execFlashProgramComplete s) rfl rfl ?_
  simp only [hcur, hp, hquiet, Bool.false_eq_true, if_false]

/-- Settles O43: each event by what its guards find, the order of stacks by the fold over them, the fetched image chunk by chunk. -/
theorem mergeStacksAndCopies : Obligations.MergeStacksAndCopies := by
  refine ⟨⟨stackDeadlineRelease_releases, stackEngineStart_starts, Cluster.nextReleased_first, stackSplit_fetched,
    fun s st b m ms c hst hb hms hg hc => ⟨s.finishMember st b m, s.finishMember_writes st b m c hg hc, stackSplit_member s st b m ms hst hb hms⟩,
    stackSplit_drops, stackDissolve_ends⟩, copyStart_swapsIn, copyElementWrite_copies, copyElementWrite_fills, copyElementWrite_lands,
    dramlocFrame_moves, copyFault_stops, State.copyRecord_faults, copyComplete_reports, copyComplete_writesFlag, copyComplete_dropsCurrent,
    copyComplete_dropsWaiting, flashProgramComplete_commits⟩

end Sys2Proof.Machine
end

section
/-! SUPPORT. O58: memory, and memory as the running bundle's reads see it, stay canonical.  What touches neither keeps the form in
both directions, so that `simp` passes through it; what writes memory keeps it, by the lemmas of `State.MemOk` about the writes of
bytes.  The operations that end in a continuation keep it when their continuation does. -/
namespace Sys2Proof.Machine

/-- An update of what is no memory keeps the form, and changes nothing that it rests on. -/
theorem State.memOk_congr {s t : State} (hm : t.mem = s.mem) (h0 : t.issue.mem0 = s.issue.mem0) : t.MemOk ↔ s.MemOk :=
  ⟨fun h => h.of_eq hm.symm h0.symm, fun h => h.of_eq hm h0⟩

@[simp] theorem State.memOk_ite (c : Prop) [Decidable c] (a b : State) : (if c then a else b).MemOk ↔ if c then a.MemOk else b.MemOk := by
  split <;> rfl

theorem State.memOk_iff {s : State} : s.MemOk ↔ Memory.wf s.mem = true ∧ Memory.wf s.issue.mem0 = true :=
  ⟨fun h => ⟨h.mem, h.mem0⟩, fun h => ⟨h.1, h.2⟩⟩

@[simp] theorem State.memOk_foldl {α : Type} (f : State → α → State) (as : List α) (s : State) (hf : ∀ s a, (f s a).MemOk ↔ s.MemOk) :
    (as.foldl f s).MemOk ↔ s.MemOk := by
  induction as generalizing s with
  | nil => exact Iff.rfl
  | cons a as ih => exact (ih _).trans (hf s a)

@[simp] theorem State.memOk_modCore (s : State) (c : Nat) (f : Core → Core) : (s.modCore c f).MemOk ↔ s.MemOk := State.memOk_congr rfl rfl
@[simp] theorem State.memOk_setCtx (s : State) (c b : Nat) (k : Ctx) : (s.setCtx c b k).MemOk ↔ s.MemOk := State.memOk_congr rfl rfl
@[simp] theorem State.memOk_modCtx (s : State) (c b : Nat) (f : Ctx → Ctx) : (s.modCtx c b f).MemOk ↔ s.MemOk := State.memOk_congr rfl rfl
@[simp] theorem State.memOk_modCur (s : State) (f : Ctx → Ctx) : (s.modCur f).MemOk ↔ s.MemOk := State.memOk_congr rfl rfl
@[simp] theorem State.memOk_modCluster (s : State) (d : Nat) (f : Cluster → Cluster) : (s.modCluster d f).MemOk ↔ s.MemOk :=
  State.memOk_congr rfl rfl
@[simp] theorem State.memOk_modJob (s : State) (d : Nat) (f : Job → Job) : (s.modJob d f).MemOk ↔ s.MemOk := State.memOk_congr rfl rfl
@[simp] theorem State.memOk_modRegion (s : State) (c n : Nat) (f : Region → Region) : (s.modRegion c n f).MemOk ↔ s.MemOk :=
  State.memOk_congr rfl rfl
@[simp] theorem State.memOk_report (s : State) (r : FaultRec) : (s.report r).MemOk ↔ s.MemOk := State.memOk_congr rfl rfl
@[simp] theorem State.memOk_useFree (s : State) : s.useFree.2.MemOk ↔ s.MemOk := State.memOk_congr rfl rfl

@[simp] theorem State.memOk_dropQw (s : State) (key n : Nat) : (s.dropQw key n).MemOk ↔ s.MemOk := by
  unfold State.dropQw
  dsimp only
  split <;> simp [State.memOk_iff, State.count]

@[simp] theorem State.memOk_latchOne (s : State) (o : Opd) : (s.latchOne o).MemOk ↔ s.MemOk := by
  unfold State.latchOne
  simp

@[simp] theorem State.memOk_latchAll (s : State) (o : List Opd) : (s.latchAll o).MemOk ↔ s.MemOk := by
  unfold State.latchAll
  simp

/-- A result's state is canonical when the pair's is. -/
theorem State.MemOk.of_pair {α : Type} {p : α × State} {a : α} {t : State} (h : p.2.MemOk) (e : p = (a, t)) : t.MemOk := by
  rwa [e] at h

theorem State.MemOk.ite {c : Prop} {_ : Decidable c} {a b : State} (ha : a.MemOk) (hb : b.MemOk) : (if c then a else b).MemOk := by
  split
  · exact ha
  · exact hb

/-- An answer whose trap state is canonical, and whose value satisfies a predicate. -/
def Checked {α : Type} (P : α → Prop) : Except State α → Prop
  | .error b => b.MemOk
  | .ok a => P a

@[simp] theorem checked_error {α : Type} (P : α → Prop) (b : State) : Checked P (.error b) ↔ b.MemOk := Iff.rfl

@[simp] theorem checked_ok {α : Type} (P : α → Prop) (a : α) : Checked P (.ok a) ↔ P a := Iff.rfl

theorem Checked.error {α : Type} {P : α → Prop} {r : Except State α} {b : State} (h : Checked P r) (e : r = .error b) : b.MemOk := by
  rwa [e] at h

theorem Checked.ok {α : Type} {P : α → Prop} {r : Except State α} {a : α} (h : Checked P r) (e : r = .ok a) : P a := by
  rwa [e] at h

/-- The state of a check that failed is canonical. -/
def CheckOk : Option State → Prop
  | none => True
  | some b => b.MemOk

@[simp] theorem checkOk_none : CheckOk none := trivial

@[simp] theorem checkOk_some (b : State) : CheckOk (some b) ↔ b.MemOk := Iff.rfl

theorem CheckOk.trap {o : Option State} {b : State} (h : CheckOk o) (e : o = some b) : b.MemOk := by
  rwa [e] at h

theorem CheckOk.ite {c : Prop} {_ : Decidable c} {o p : Option State} (ho : CheckOk o) (hp : CheckOk p) :
    CheckOk (if c then o else p) := by
  split
  · exact ho
  · exact hp

theorem CheckOk.findSome {α : Type} {l : List α} {f : α → Option State} (h : ∀ a ∈ l, CheckOk (f a)) : CheckOk (l.findSome? f) := by
  cases e : l.findSome? f with
  | none => trivial
  | some b =>
    obtain ⟨a, ha, e⟩ := List.exists_of_findSome?_eq_some e
    exact (h a ha).trap e

/-! What an operation answers keeps the form -/

/-- The next state of an outcome is canonical. -/
def Out.MemOk : Out → Prop
  | .next t => t.MemOk
  | _ => True

theorem Out.memOk_next {t : State} (h : t.MemOk) : Out.MemOk (.next t) := h

theorem Out.MemOk.next {o : Out} {t : State} (h : o.MemOk) (e : o = .next t) : t.MemOk := by
  rwa [e] at h

theorem Out.memOk_ite (c : Prop) {_ : Decidable c} {a b : Out} (ha : a.MemOk) (hb : b.MemOk) : Out.MemOk (if c then a else b) := by
  split
  · exact ha
  · exact hb

/-! Updates of the state -/

@[simp] theorem State.memOk_modDie (s : State) (e : Nat) (f : Die → Die) : (s.modDie e f).MemOk ↔ s.MemOk := State.memOk_congr rfl rfl
@[simp] theorem State.memOk_modHbm (s : State) (h : Nat) (f : HbmStack → HbmStack) : (s.modHbm h f).MemOk ↔ s.MemOk :=
  State.memOk_congr rfl rfl
@[simp] theorem State.memOk_modFlash (s : State) (n : Nat) (f : FlashStack → FlashStack) : (s.modFlash n f).MemOk ↔ s.MemOk :=
  State.memOk_congr rfl rfl
@[simp] theorem State.memOk_setHandle (s : State) (h : Nat) (x : Handle) : (s.setHandle h x).MemOk ↔ s.MemOk := State.memOk_congr rfl rfl
@[simp] theorem State.memOk_signal (s : State) (v : Nat) : (s.signal v).MemOk ↔ s.MemOk := State.memOk_congr rfl rfl
@[simp] theorem State.memOk_count (s : State) (iface job : Nat) (f : Counter → Counter) : (s.count iface job f).MemOk ↔ s.MemOk :=
  State.memOk_congr rfl rfl
@[simp] theorem State.memOk_inject (s : State) (iface job : Nat) : (s.inject iface job).MemOk ↔ s.MemOk := State.memOk_congr rfl rfl
@[simp] theorem State.memOk_consume (s : State) (iface job : Nat) : (s.consume iface job).MemOk ↔ s.MemOk := State.memOk_congr rfl rfl
@[simp] theorem State.memOk_sendNotice (s : State) (kind : NoticeKind) (iface job : Nat) :
    (s.sendNotice kind iface job).MemOk ↔ s.MemOk :=
  State.memOk_congr rfl rfl

@[simp] theorem State.memOk_service (s : State) (kind job core : Nat) (x4 x5 : Word) :
    (s.service kind job core x4 x5).MemOk ↔ s.MemOk := by
  unfold State.service
  simp

@[simp] theorem State.memOk_release (s : State) (c b : Nat) : (s.release c b).MemOk ↔ s.MemOk := State.memOk_congr rfl rfl
@[simp] theorem State.memOk_withdraw (s : State) (c b : Nat) : (s.withdraw c b).MemOk ↔ s.MemOk := State.memOk_congr rfl rfl

@[simp] theorem State.memOk_trapAs (s : State) (i : TrapInfo) (r : Option FaultRec) (hs : s.MemOk) : (s.trapAs i r).MemOk := by
  unfold State.trapAs
  dsimp only
  (repeat' split) <;> simp [hs, State.MemOk.takeTrap]

@[simp] theorem State.memOk_absentAs (s : State) (r : FaultRec) (hs : s.MemOk) : (s.absentAs r).MemOk := by
  unfold State.absentAs
  simp [hs, State.MemOk.takeTrap]

/-! Memory and translation -/

@[simp] theorem State.memOk_bindRegion (s : State) (c n : Nat) (v : Word) : (s.bindRegion c n v).MemOk ↔ s.MemOk :=
  State.memOk_congr rfl rfl
@[simp] theorem State.memOk_unbindRegion (s : State) (c n : Nat) (v : Word) : (s.unbindRegion c n v).MemOk ↔ s.MemOk :=
  State.memOk_congr rfl rfl

@[simp] theorem State.memOk_finishUnbind (s : State) (c n : Nat) (hs : s.MemOk) : (s.finishUnbind c n).MemOk := by
  unfold State.finishUnbind
  simp [hs, State.MemOk.writeBackAll]

@[simp] theorem State.memOk_dropTlb (s : State) (i : Tlbi) (hs : s.MemOk) : (s.dropTlb i).MemOk := by
  unfold State.dropTlb
  exact State.MemOk.of_eq (State.MemOk.foldl _ (fun _ _ h => h.unpin _ _) _ _ hs) rfl rfl

@[simp] theorem State.memOk_finishTlbi (s : State) (i : Tlbi) (hs : s.MemOk) : (s.finishTlbi i).MemOk := by
  unfold State.finishTlbi
  exact State.memOk_dropTlb _ _ (State.MemOk.foldl _ (fun _ _ h => (h.flush _ _).flush _ _) _ _ hs)

@[simp] theorem State.memOk_landPreempt (s : State) (c b : Nat) : (s.landPreempt c b).MemOk ↔ s.MemOk := by
  unfold State.landPreempt
  simp

@[simp] theorem State.memOk_requestPreempt (s : State) (c b : Nat) : (s.requestPreempt c b).MemOk ↔ s.MemOk := by
  unfold State.requestPreempt
  simp

@[simp] theorem State.memOk_withdrawPreempt (s : State) (c b : Nat) : (s.withdrawPreempt c b).MemOk ↔ s.MemOk := State.memOk_congr rfl rfl
@[simp] theorem State.memOk_releaseHeld (s : State) (c b : Nat) : (s.releaseHeld c b).MemOk ↔ s.MemOk := State.memOk_congr rfl rfl

@[simp] theorem State.memOk_writePreq (s : State) (c : Nat) (v : Word) : (s.writePreq c v).MemOk ↔ s.MemOk := by
  unfold State.writePreq
  simp

@[simp] theorem State.memOk_writeHptCtl (s : State) (d : Nat) (v : Word) (hs : s.MemOk) : (s.writeHptCtl d v).MemOk := by
  unfold State.writeHptCtl
  simp [hs, State.MemOk.trimPinned]

@[simp] theorem State.memOk_clearHptCnt (s : State) (d : Nat) : (s.clearHptCnt d).MemOk ↔ s.MemOk := State.memOk_congr rfl rfl

@[simp] theorem State.memOk_ctlWrite (s : State) (c off : Nat) (v : Word) (hs : s.MemOk) : (s.ctlWrite c off v).MemOk := by
  unfold State.ctlWrite
  dsimp only
  (repeat' split) <;> simp [hs]

@[simp] theorem State.memOk_ctlRead (s : State) (key n : Nat) : (s.ctlRead key n).MemOk ↔ s.MemOk := by
  unfold State.ctlRead
  simp

@[simp] theorem State.memOk_ctlStore (s : State) (key : Nat) (data : List Byte) (hs : s.MemOk) : (s.ctlStore key data).MemOk := by
  unfold State.ctlStore
  exact State.MemOk.foldl _ (fun s _ h => State.memOk_ctlWrite s _ _ _ h) _ _ hs

@[simp] theorem State.memOk_countUncorr (s : State) (p : Nat × Nat) : (s.countUncorr p).MemOk ↔ s.MemOk := by
  unfold State.countUncorr
  simp

@[simp] theorem State.memOk_afterRead (s : State) (parts : List (Nat × Nat)) : (s.afterRead parts).MemOk ↔ s.MemOk := by
  unfold State.afterRead
  simp

@[simp] theorem State.memOk_writeParts (s : State) (writer : Nat) (parts : List (Nat × List Byte)) (spoil : Bool) (hs : s.MemOk) :
    (s.writeParts writer parts spoil).MemOk := by
  unfold State.writeParts
  refine State.MemOk.foldl _ (fun s p h => ?_) _ _ hs
  split
  · simp [h]
  · exact h.putBytes _ _ _ _

/-! Operands and traps -/

@[simp] theorem State.memOk_formatFault (s : State) (found required : Fmt) (hs : s.MemOk) : (s.formatFault found required).MemOk := by
  unfold State.formatFault
  simp [hs, State.MemOk.raise]

@[simp] theorem State.memOk_enqueue (s : State) (rd wr : List Reg) (mwait : Bool) : (s.enqueue rd wr mwait).MemOk ↔ s.MemOk :=
  State.memOk_congr rfl rfl
@[simp] theorem State.memOk_enqueueLate (s before : State) (rd wr : List Reg) : (s.enqueueLate before rd wr).MemOk ↔ s.MemOk :=
  State.memOk_congr rfl rfl
@[simp] theorem State.memOk_putX (s : State) (n : Nat) (v : Word) : (s.putX n v).MemOk ↔ s.MemOk := State.memOk_congr rfl rfl
@[simp] theorem State.memOk_putP (s : State) (n : Nat) (v : Word) : (s.putP n v).MemOk ↔ s.MemOk := State.memOk_congr rfl rfl
@[simp] theorem State.memOk_putV (s : State) (n : Nat) (r : VReg) : (s.putV n r).MemOk ↔ s.MemOk := State.memOk_congr rfl rfl

@[simp] theorem State.memOk_raiseX (s : State) (access : Nat) (f : XFault) (bte : Word) (hs : s.MemOk) :
    (s.raiseX access f bte).MemOk := by
  unfold State.raiseX
  simp [hs, State.MemOk.raiseFault]

@[simp] theorem State.memOk_afterStores (t : State) (release : Bool) (k : State → State) (ht : t.MemOk) (hk : ∀ t, t.MemOk →
    (k t).MemOk) :
    (t.afterStores release k).MemOk := by
  unfold State.afterStores
  dsimp only
  split
  · exact ht.holdFor _
  · exact hk _ (ht.flush _ _)

/-! The merge buffer -/

@[simp] theorem State.memOk_releaseStacksOf (s : State) (c b : Nat) : (s.releaseStacksOf c b).MemOk ↔ s.MemOk := State.memOk_congr rfl rfl
@[simp] theorem State.memOk_writeMrgctl (s : State) (d : Nat) (v : Word) : (s.writeMrgctl d v).MemOk ↔ s.MemOk :=
  State.memOk_congr rfl rfl

/-! Matrix operations -/

@[simp] theorem State.memOk_needs (s : State) (f : Need → Need) : (s.needs f).MemOk ↔ s.MemOk := State.memOk_congr rfl rfl

theorem memOk_orElse {checks : List (Option State)} {body : State} (hc : ∀ o ∈ checks, CheckOk o) (hb : body.MemOk) :
    (orElse checks body).MemOk := by
  unfold orElse
  split
  next b e =>
    exact (CheckOk.findSome hc).trap e
  next => exact hb

@[simp] theorem State.memOk_putT (s : State) (n : Nat) (t : Tile) : (s.putT n t).MemOk ↔ s.MemOk := State.memOk_congr rfl rfl
@[simp] theorem State.memOk_putA (s : State) (n : Nat) (a : Acc) : (s.putA n a).MemOk ↔ s.MemOk := State.memOk_congr rfl rfl
@[simp] theorem State.memOk_lateImage (s : State) (acc : Nat) (va : Word) (cause : Nat) (detail : Word) :
    (s.lateImage acc va cause detail).MemOk ↔ s.MemOk :=
  State.memOk_congr rfl rfl

@[simp] theorem State.memOk_withRows (t : State) (va : Word) (acc : Nat) (k : Tile → State → State) (ht : t.MemOk)
    (hk : ∀ a t, t.MemOk → (k a t).MemOk) :
    (t.withRows va acc k).MemOk := by
  unfold State.withRows
  split
  next => dsimp only; split <;> simp [ht, hk]
  next =>
    split
    next x t1 e => simp [(ht.resolve ..).of_pair e]
    next parts t1 e => have h1 := (ht.resolve ..).of_pair e; dsimp only; split <;> simp [h1, hk]

theorem State.checked_image {t : State} (ht : t.MemOk) (va : Word) : Checked (fun p => p.2.MemOk) (t.image va) := by
  unfold State.image
  split
  · exact ht.raise _ _
  · split
    next x t1 e => simp [(ht.resolveIn ..).of_pair e]
    next parts t1 e =>
      have h1 := (ht.resolveIn ..).of_pair e
      dsimp only
      split
      · exact h1.holdFor _
      · split
        · split
          · exact h1.of_eq rfl rfl
          · exact h1.raise _ _ _
        · exact h1.raise _ _ _

theorem State.memOk_withImage (t : State) (va : Word) (n : Nat) (checks : Fmt → State → Except State Acc)
    (act : Fmt → Acc → State → State) (ht : t.MemOk) (hc : ∀ g t, t.MemOk → Checked (fun _ => True) (checks g t))
    (ha : ∀ g a t, t.MemOk → (act g a t).MemOk) :
    (t.withImage va n checks act).MemOk := by
  unfold State.withImage
  split
  · split
    next b e => exact (hc _ t ht).error e
    next acc e => exact ha _ _ _ ht
  · split
    next b e => exact (State.checked_image ht va).error e
    next g t1 e =>
      have h1 : t1.MemOk := (State.checked_image ht va).ok e
      split
      next b e => exact (hc _ _ h1).error e
      next acc e => simp [h1]

/-! Vector operations -/

@[simp] theorem State.memOk_vMerge (s t : State) (d : Nat) (f : Fmt) (new : List Nat) : (s.vMerge t d f new).MemOk ↔ t.MemOk :=
  State.memOk_congr rfl rfl
@[simp] theorem State.memOk_putPairs (t : State) (d : Nat) (kt pt : Fmt) (ps : List (Nat × Nat)) :
    (t.putPairs d kt pt ps).MemOk ↔ t.MemOk :=
  State.memOk_congr rfl rfl

/-! Loads and stores -/

theorem State.memOk_access (t : State) (kind : Nat) (q : XReq) (ps : List (Word × Nat)) (k : List (Nat × Nat) → State → State)
    (ht : t.MemOk) (hk : ∀ parts t, t.MemOk → (k parts t).MemOk) :
    (t.access kind q ps k).MemOk := by
  unfold State.access
  split
  next x t1 e => simp [(ht.resolveIn ..).of_pair e]
  next parts t1 e =>
    have h1 := (ht.resolveIn ..).of_pair e
    split
    · exact h1.holdFor _
    · exact hk _ _ h1

theorem State.memOk_roomForLoad (t : State) (body : State → State) (ht : t.MemOk) (hb : ∀ t, t.MemOk → (body t).MemOk) :
    (t.roomForLoad body).MemOk := by
  unfold State.roomForLoad
  split
  · exact ht.holdFor _
  · exact hb _ ht

theorem State.memOk_seqCst (t : State) (kind : ScKind) (key w operand compare : Nat) (k : Nat → Bool → State → State) (ht : t.MemOk)
    (hk : ∀ v b t, t.MemOk → (k v b t).MemOk) :
    (t.seqCst kind key w operand compare k).MemOk := by
  unfold State.seqCst
  split
  · exact hk _ _ _ ht
  · exact ht.modCur _

@[simp] theorem State.memOk_seqCstStore (t : State) (key w v scope : Nat) (ht : t.MemOk) : (t.seqCstStore key w v scope).MemOk := by
  unfold State.seqCstStore
  split
  · exact State.memOk_seqCst _ _ _ _ _ _ _ ht fun _ _ _ h => h
  · dsimp only
    split
    · simp [ht]
    · simpa [State.memOk_iff] using ht

@[simp] theorem State.memOk_landOne (t : State) (n : Nat) (v : Word) (bad : Bool) : (t.landOne n v bad).MemOk ↔ t.MemOk :=
  State.memOk_congr rfl rfl

theorem State.checked_kvEntries {t : State} (ht : t.MemOk) (kind : Nat) (rows done : List KvRow) :
    Checked (fun p => p.2.MemOk) (t.kvEntries kind rows done) := by
  induction rows generalizing t done with
  | nil => exact ht
  | cons r rs ih =>
    unfold State.kvEntries
    split
    next x t1 e => simp [(ht.resolveIn ..).of_pair e]
    next parts t1 e =>
      have h1 := (ht.resolveIn ..).of_pair e
      have h2 : (t1.afterRead parts).MemOk := by simpa using h1
      split
      · exact h1.holdFor _
      dsimp only
      split
      · exact h2.raise _ _ _ _
      split
      · exact h2.raise _ _ _ _
      · exact ih h2 _

theorem State.memOk_kvGather (t : State) (rows : List KvRow) (fields : List (Nat × Nat)) (body : List
    (Nat × List Byte) → Bool → State → State) (ht : t.MemOk) (hb : ∀ r b t, t.MemOk → (body r b t).MemOk) :
    (t.kvGather rows fields body).MemOk := by
  unfold State.kvGather
  split
  next b e => exact (State.checked_kvEntries ht ..).error e
  next rows t1 e =>
    have h1 : t1.MemOk := (State.checked_kvEntries ht ..).ok e
    split
    next x t2 e => simp [(h1.resolveIn ..).of_pair e]
    next parts t2 e =>
      have h2 := (h1.resolveIn ..).of_pair e
      split
      · exact h2.holdFor _
      · exact hb _ _ _ (by simpa using h2)

@[simp] theorem State.memOk_commitStore (t : State) (f : MEM) (data : List (Nat × List Byte)) (unit : Nat) (ht : t.MemOk) :
    (t.commitStore f data unit).MemOk := by
  have enter (p : Prop) [Decidable p] (u : State) (g : Ctx → Ctx) (h : u.MemOk) : (if p then u else
      { u with fabric := { u.fabric with nextItem := u.fabric.nextItem + 1 } }.modCur g).MemOk := by
    split
    · exact h
    · exact h.of_eq rfl rfl
  unfold State.commitStore
  dsimp only
  split
  · exact enter _ _ _ ht
  · split
    · exact State.memOk_afterStores _ _ _ ht fun u h => enter _ _ _ (by simp [h])
    · exact enter _ _ _ (by simp [ht])

@[simp] theorem State.memOk_atomicOn (s : State) (old : Sparse Byte) (oldBad : Sparse Bool) (who op key w v compare : Nat)
    (hs : s.MemOk) :
    (s.atomicOn old oldBad who op key w v compare).2.MemOk := by
  unfold State.atomicOn
  dsimp only
  (repeat' split) <;> simp [hs]

@[simp] theorem State.memOk_atomicAt (s : State) (who op key w v compare : Nat) (hs : s.MemOk) :
    (s.atomicAt who op key w v compare).2.MemOk := by
  unfold State.atomicAt
  simp [hs]

@[simp] theorem State.memOk_serve (t : State) : t.serve.MemOk ↔ t.MemOk := State.memOk_congr rfl rfl

@[simp] theorem State.memOk_atomicIn (t : State) (op key w v compare : Nat) (ht : t.MemOk) : (t.atomicIn op key w v compare).2.MemOk := by
  unfold State.atomicIn
  dsimp only
  (repeat' split) <;> simp [ht]

@[simp] theorem State.memOk_reductionRecord (s : State) (r : Reduction) (cause : Nat) (va detail : Word) :
    (s.reductionRecord r cause va detail).MemOk ↔ s.MemOk :=
  State.memOk_congr rfl rfl

/-! The dispatcher -/

@[simp] theorem State.memOk_regate (s : State) : s.regate.MemOk ↔ s.MemOk := State.memOk_congr rfl rfl

@[simp] theorem State.memOk_queueRec (s : State) (r : RecIn) (kind job : Nat) (trec : Word) (iface poster : Nat) (launch : Option Nat) :
    (s.queueRec r kind job trec iface poster launch).MemOk ↔ s.MemOk := by
  unfold State.queueRec
  split
  · rfl
  · exact (State.memOk_regate _).trans (State.memOk_congr rfl rfl)

@[simp] theorem State.memOk_enterRec (s : State) (r : RecIn) (kind job : Nat) (trec : Word) (iface poster : Nat) (launch : Option Nat)
    (hs : s.MemOk) :
    (s.enterRec r kind job trec iface poster launch).MemOk := by
  unfold State.enterRec
  simp [hs]

@[simp] theorem State.memOk_rejectRec (s : State) (job c b : Nat) (r : RecIn) (trec : Word) :
    (s.rejectRec job c b r trec).MemOk ↔ s.MemOk :=
  State.memOk_congr rfl rfl

@[simp] theorem State.memOk_postAlways (s : State) (c b job : Nat) (r : RecIn) (trec : Word) (launch : Option Nat) (hs : s.MemOk) :
    (s.postAlways c b job r trec launch).MemOk := by
  unfold State.postAlways
  simp [hs]

@[simp] theorem State.memOk_blockPost (t : State) (job pipe stage : Nat) (ht : t.MemOk) : (t.blockPost job pipe stage).MemOk := by
  unfold State.blockPost
  simp [ht, State.MemOk.holdFor]

@[simp] theorem State.memOk_noteFired (s : State) (id lev g : Nat) : (s.noteFired id lev g).MemOk ↔ s.MemOk := State.memOk_congr rfl rfl

@[simp] theorem State.memOk_postContinuation (s : State) (c b job : Nat) (l : Launch) (lev g : Nat) (hs : s.MemOk) :
    (s.postContinuation c b job l lev g).MemOk := by
  unfold State.postContinuation
  simp [hs]

@[simp] theorem State.memOk_joinDown (t : State) (ht : t.MemOk) : t.joinDown.MemOk := by
  unfold State.joinDown
  dsimp only
  split
  · exact ht
  split
  · exact ht.report _
  split
  next x t1 e => exact ((ht.resolve ..).of_pair e).report _
  next parts t1 e =>
    have h1 := (ht.resolve ..).of_pair e
    split
    · exact h1.report _
    split
    · exact h1.report _
    split
    · simp [h1]
    split
    next => simp [h1]
    next =>
      split
      next x t2 e => exact ((h1.resolve ..).of_pair e).report _
      next ps t2 e =>
        have h2 := (h1.resolve ..).of_pair e
        split
        · exact h2.report _
        · simp [h2]

@[simp] theorem State.memOk_willRetire (t : State) : t.willRetire.MemOk ↔ t.MemOk := State.memOk_congr rfl rfl

@[simp] theorem State.memOk_iodWrite (s : State) (job : Nat) (va : Word) (v : Nat) (hs : s.MemOk) : (s.iodWrite job va v).MemOk := by
  unfold State.iodWrite
  split
  next parts s1 e => simp [(hs.resolve ..).of_pair e]
  next x s1 e => exact hs.of_eq rfl rfl

@[simp] theorem State.memOk_putStatus (s : State) (job : Nat) (hdr : Word) (v : Nat) (hs : s.MemOk) : (s.putStatus job hdr v).MemOk := by
  unfold State.putStatus
  simp [hs]

@[simp] theorem State.memOk_launchLess (s : State) (id : Nat) (hs : s.MemOk) : (s.launchLess id).MemOk := by
  unfold State.launchLess
  split
  · exact hs
  · split
    · exact State.memOk_putStatus _ _ _ _ (hs.of_eq rfl rfl)
    · exact hs.of_eq rfl rfl

@[simp] theorem State.memOk_retired (s : State) (c b : Nat) (hs : s.MemOk) : (s.retired c b).MemOk := by
  unfold State.retired
  dsimp only
  (repeat' split) <;> simp [hs]

/-! Control -/

@[simp] theorem State.memOk_goTo (t : State) (pc : Word) : (t.goTo pc).MemOk ↔ t.MemOk := State.memOk_congr rfl rfl

theorem State.memOk_jump (t : State) (a : Word) (k : State → State) (ht : t.MemOk) (hk : ∀ t, t.MemOk → (k t).MemOk) :
    (t.jump a k).MemOk := by
  unfold State.jump
  split
  · exact ht.raise _ _
  · exact hk _ (by simpa using ht)

@[simp] theorem State.memOk_pushLoop (t : State) (e : LoopEntry) (ht : t.MemOk) : (t.pushLoop e).MemOk := by
  unfold State.pushLoop
  split
  · exact ht.raise _ _
  · exact ht.of_eq rfl rfl

@[simp] theorem State.memOk_openLoop (t : State) (count : BitVec 32) (len : Nat) (ht : t.MemOk) : (t.openLoop count len).MemOk := by
  unfold State.openLoop
  simp [ht]

@[simp] theorem State.memOk_thenDo (t : State) (a : After) : (t.thenDo a).MemOk ↔ t.MemOk := State.memOk_congr rfl rfl

@[simp] theorem State.memOk_trace (t : State) (c : Nat) (record : BitVec 256) (ht : t.MemOk) : (t.trace c record).MemOk := by
  unfold State.trace
  extract_lets drop busy u
  have hu : u.MemOk := by unfold u; split <;> simp [ht]
  have hd : ∀ t : State, t.MemOk → (drop t).MemOk := fun t h => h.of_eq rfl rfl
  clear_value u drop
  split
  · exact hd _ ht
  split
  · exact hd _ hu
  · exact (State.memOk_ite _ _ _).2 (by split <;> exact (hu.putNum _ _ _ _).of_eq rfl rfl)

@[simp] theorem State.memOk_setBarrier (s : State) (writer key : Nat) (b : Barrier) (hs : s.MemOk) :
    (s.setBarrier writer key b).MemOk := by
  unfold State.setBarrier
  simp [hs, State.MemOk.putNum]

theorem State.memOk_barrierOp (t : State) (kind : Nat) (va : Word) (ok : Bool) (k : Nat → State → State) (ht : t.MemOk)
    (hk : ∀ key t, t.MemOk → (k key t).MemOk) :
    (t.barrierOp kind va ok k).MemOk := by
  unfold State.barrierOp
  split
  · exact ht.raise _ _
  split
  · exact ht.raise _ _
  split
  · exact ht.raiseFault _ _ _ _
  split
  · exact ht.holdFor _
  split
  · exact State.memOk_afterStores _ _ _ ht (hk _)
  · exact hk _ _ ht

@[simp] theorem State.memOk_putRead (t : State) (n : Nat) (v : Word) (bad : Bool) : (t.putRead n v bad).MemOk ↔ t.MemOk :=
  State.memOk_congr rfl rfl
@[simp] theorem State.memOk_refetch (t : State) (scope : Nat) : (t.refetch scope).MemOk ↔ t.MemOk := State.memOk_congr rfl rfl
@[simp] theorem State.memOk_setCycles (s : State) (v : Word) : (s.setCycles v).MemOk ↔ s.MemOk := State.memOk_congr rfl rfl

@[simp] theorem State.memOk_setSysReg (s : State) (sel : Nat) (v : Word) : (s.setSysReg sel v).MemOk ↔ s.MemOk := by
  unfold State.setSysReg
  dsimp only
  split <;> simp

@[simp] theorem State.memOk_saveBank (t : State) (f : SR) (parts : List (Nat × Nat)) (ht : t.MemOk) : (t.saveBank f parts).MemOk := by
  unfold State.saveBank
  dsimp only
  split
  · exact State.MemOk.holdFor (by simpa using ht) _
  · have h1 := (ht.flush t.issue.core t.otherBank).dropQw t.issue.core t.otherBank
    exact (State.memOk_putX _ _ _).2 ((State.memOk_release _ _ _).2 ((State.memOk_writeParts _ _ _ _ h1).of_eq rfl rfl))

@[simp] theorem State.memOk_loadBank (t : State) (c b : Nat) (k : Ctx) : (t.loadBank c b k).MemOk ↔ t.MemOk := by
  unfold State.loadBank
  dsimp only
  (repeat' split) <;> simp [State.memOk_iff]

/-! The copy engine -/

@[simp] theorem State.memOk_modShadow (t : State) (f : CopyDesc → CopyDesc) : (t.modShadow f).MemOk ↔ t.MemOk := State.memOk_congr rfl rfl
@[simp] theorem State.memOk_modEngine (s : State) (c : Nat) (f : Engine → Engine) : (s.modEngine c f).MemOk ↔ s.MemOk :=
  State.memOk_congr rfl rfl
@[simp] theorem State.memOk_cancel (t : State) (d : Nat) (hit : Copy → Bool) : (t.cancel d hit).MemOk ↔ t.MemOk :=
  State.memOk_congr rfl rfl
@[simp] theorem State.memOk_askTable (t : State) (d : Nat) (kind : HReqKind) : (t.askTable d kind).MemOk ↔ t.MemOk :=
  State.memOk_congr rfl rfl

@[simp] theorem State.memOk_request (t : State) (d : Nat) (extent dest : Word) (demand below : Bool) (ht : t.MemOk) :
    (t.request d extent dest demand below).MemOk := by
  unfold State.request
  split
  · exact ht.raise _ _
  · split
    · exact ht.raise _ _
    · simp [ht]

@[simp] theorem State.memOk_releaseHandle (t : State) (d h : Nat) : (t.releaseHandle d h).MemOk ↔ t.MemOk := by
  unfold State.releaseHandle
  split <;> simp

@[simp] theorem State.memOk_sendOut (t : State) (entry target : Word) (payload : Payload) :
    (t.sendOut entry target payload).MemOk ↔ t.MemOk :=
  State.memOk_congr rfl rfl

theorem State.memOk_send (t : State) (entry target : Word) (check : State → Option State) (payload : Payload) (ht : t.MemOk)
    (hc : CheckOk (check t)) :
    (t.send entry target check payload).MemOk := by
  unfold State.send
  split
  · exact ht.raise _ _
  split
  · exact ht.raise _ _
  split
  · exact ht.raise _ _
  split
  next b e => exact hc.trap e
  next =>
    split
    · exact ht.holdFor _
    · simp [ht]

theorem State.memOk_linkOp (t : State) (va q n : Word) (recv : Bool) (k : State → State) (ht : t.MemOk) (hk : ∀ t, t.MemOk →
    (k t).MemOk) :
    (t.linkOp va q n recv k).MemOk := by
  unfold State.linkOp
  split
  · exact ht.raise _ _
  split
  · exact ht.raise _ _
  split
  · exact ht.raise _ _
  · exact hk _ ht

@[simp] theorem State.memOk_transmit (t : State) (cargo : Cargo) : (t.transmit cargo).MemOk ↔ t.MemOk := State.memOk_congr rfl rfl

@[simp] theorem State.memOk_sendLink (t : State) (c b peer queue : Nat) (data : List Byte) (k : Ctx) :
    (t.sendLink c b peer queue data k).MemOk ↔ t.MemOk := by
  unfold State.sendLink
  simp

/-! Waking -/

@[simp] theorem State.memOk_wakeOne (s : State) (c b : Nat) : (s.wakeOne c b).MemOk ↔ s.MemOk := by
  unfold State.wakeOne
  dsimp only
  split <;> simp

@[simp] theorem State.memOk_settleCore (s : State) (c : Nat) : (s.settleCore c).MemOk ↔ s.MemOk := by
  unfold State.settleCore
  simp

@[simp] theorem State.memOk_settle (s : State) : s.settle.MemOk ↔ s.MemOk := by
  unfold State.settle
  simp

/-! Copies -/

@[simp] theorem State.memOk_putRun (s : State) (writer key : Nat) (r : Run) (hs : s.MemOk) : (s.putRun writer key r).MemOk := by
  unfold State.putRun
  split
  · simp [hs]
  split
  · exact hs
  · have h1 := hs.putBytes writer key r.data
    dsimp only
    split
    · exact h1.of_eq rfl rfl
    · exact h1

@[simp] theorem State.memOk_putRuns (s : State) (writer : Nat) (l : List (Nat × Run)) (hs : s.MemOk) : (s.putRuns writer l).MemOk :=
  State.MemOk.foldl _ (fun s p h => State.memOk_putRun s writer p.1 p.2 h) _ _ hs

@[simp] theorem State.memOk_putAlong (s : State) (writer : Nat) (ps : List (Nat × Nat)) (r : Run) (hs : s.MemOk) :
    (s.putAlong writer ps r).MemOk := by
  induction ps generalizing s r with
  | nil => exact hs
  | cons p ps ih => exact ih _ _ (State.memOk_putRun _ _ _ _ hs)

@[simp] theorem State.MemOk.copyRead {s : State} (hs : s.MemOk) (c : Nat) (q : Copy) (va : Word) (n : Nat) :
    (s.copyRead c q va n).2.MemOk := by
  unfold State.copyRead
  split
  next x s1 e => exact (hs.resolve ..).of_pair e
  next parts s1 e => simpa using (hs.resolve ..).of_pair e

@[simp] theorem State.memOk_modCopy (s : State) (c : Nat) (f : Copy → Copy) : (s.modCopy c f).MemOk ↔ s.MemOk := State.memOk_congr rfl rfl

@[simp] theorem State.memOk_landAlong (s : State) (c : Nat) (q : Copy) (parts : List (Nat × Nat)) (r : Run) (hs : s.MemOk) :
    (s.landAlong c q parts r).MemOk := by
  unfold State.landAlong
  split <;> simp [hs]

@[simp] theorem State.MemOk.copyWrite {s : State} (hs : s.MemOk) (c : Nat) (q : Copy) (va : Word) (r : Run) :
    (s.copyWrite c q va r).2.MemOk := by
  unfold State.copyWrite
  split
  next x s1 e => exact (hs.resolve ..).of_pair e
  next parts s1 e => simp [(hs.resolve ..).of_pair e]

@[simp] theorem State.memOk_copyRecord (s : State) (c : Nat) (q : Copy) (cause access : Nat) (va detail : Word) :
    (s.copyRecord c q cause access va detail).MemOk ↔ s.MemOk :=
  State.memOk_congr rfl rfl

@[simp] theorem State.memOk_countSectors (s : State) (c : Nat) (q : Copy) (n : Nat) (err : Bool) (hs : s.MemOk) :
    (s.countSectors c q n err).MemOk := by
  unfold State.countSectors
  dsimp only
  (repeat' split) <;> simp [hs]

@[simp] theorem State.memOk_dataFault (s : State) (c : Nat) (q : Copy) (cause access : Nat) (va : Word) (hs : s.MemOk) :
    (s.dataFault c q cause access va).MemOk := by
  unfold State.dataFault
  simp [hs]

@[simp] theorem State.memOk_readFlash (s : State) (page : Nat) (r : Reader) (demand : Bool) :
    (s.readFlash page r demand).MemOk ↔ s.MemOk :=
  State.memOk_congr rfl rfl

@[simp] theorem State.memOk_sourceFaults (s : State) (c : Nat) (q : Copy) (e : Nat) (src dst : Word) (r : Run) (hs : s.MemOk) :
    (s.sourceFaults c q e src dst r).MemOk := by
  unfold State.sourceFaults
  split
  · exact State.MemOk.foldl _ (fun s _ h => State.memOk_dataFault s _ _ _ _ _ h) _ _ hs
  · split <;> simp [hs]

@[simp] theorem State.MemOk.elementSrc {s : State} (hs : s.MemOk) (c : Nat) (q : Copy) (i : Nat) : (s.elementSrc c q i).2.MemOk := by
  unfold State.elementSrc
  split
  · exact hs
  · split
    next x s1 e => exact (hs.copyRead ..).of_pair e
    next r s1 e => exact (hs.copyRead ..).of_pair e

@[simp] theorem State.MemOk.elementIn {s : State} (hs : s.MemOk) (c : Nat) (q : Copy) (i : Nat) : (s.elementIn c q i).2.MemOk := by
  unfold State.elementIn
  split
  · exact hs
  · split
    next x s1 e => exact (hs.elementSrc ..).of_pair e
    next src s1 e =>
      have h1 := (hs.elementSrc ..).of_pair e
      split
      · simp [h1]
      · split
        next x s2 e => exact (h1.copyRead ..).of_pair e
        next r s2 e => simp [(h1.copyRead ..).of_pair e]

@[simp] theorem State.MemOk.walkUnit {s : State} (hs : s.MemOk) (c : Nat) (q : Copy) : (s.walkUnit c q).2.MemOk := by
  unfold State.walkUnit
  split
  next x s1 e => exact (hs.elementIn ..).of_pair e
  next r s1 e =>
    have h1 := (hs.elementIn ..).of_pair e
    dsimp only
    split
    next x s2 e => exact (h1.copyWrite ..).of_pair e
    next s2 e => simp [(h1.copyWrite ..).of_pair e]

@[simp] theorem State.MemOk.readPieces {s : State} (hs : s.MemOk) (c : Nat) (q : Copy) (ps : List (Nat × Nat × Nat)) :
    (s.readPieces c q ps).2.MemOk := by
  induction ps generalizing s with
  | nil => exact hs
  | cons p ps ih =>
    obtain ⟨e, off, n⟩ := p
    unfold State.readPieces
    split
    next x s1 e => exact (hs.elementIn ..).of_pair e
    next run s1 e =>
      have h1 := (hs.elementIn ..).of_pair e
      have h2 : (if off = 0 then s1 else { s1 with faults := s.faults }).MemOk := by split <;> exact h1.of_eq rfl rfl
      split
      next x s2 e => exact (ih h2).of_pair e
      next rs s2 e => exact (ih h2).of_pair e

@[simp] theorem State.MemOk.writePieces {s : State} (hs : s.MemOk) (c : Nat) (q : Copy) (ps : List ((Nat × Nat × Nat) × Run)) :
    (s.writePieces c q ps).2.MemOk := by
  induction ps generalizing s with
  | nil => exact hs
  | cons p ps ih =>
    obtain ⟨⟨e, off, n⟩, run⟩ := p
    unfold State.writePieces
    split
    next x s1 e => exact (hs.copyWrite ..).of_pair e
    next s1 e => exact ih ((hs.copyWrite ..).of_pair e)

@[simp] theorem State.memOk_pageDone (s : State) (c : Nat) (q : Copy) (hs : s.MemOk) : (s.pageDone c q).MemOk := by
  unfold State.pageDone
  simp [hs]

@[simp] theorem State.MemOk.pageUnit {s : State} (hs : s.MemOk) (c : Nat) (q : Copy) : (s.pageUnit c q).2.MemOk := by
  unfold State.pageUnit
  dsimp only
  split
  next x s1 e => exact (hs.readPieces ..).of_pair e
  next rs s1 e =>
    have h1 := (hs.readPieces ..).of_pair e
    split
    · split <;> simp [h1]
    · split
      next x s2 e => exact (h1.copyRead ..).of_pair e
      next tag s2 e =>
        have h2 := (h1.copyRead ..).of_pair e
        split
        · split
          next x s3 e => exact (h2.writePieces ..).of_pair e
          next s3 e => simp [(h2.writePieces ..).of_pair e]
        · simp [h2]

@[simp] theorem State.MemOk.packedPlace {s : State} (hs : s.MemOk) (c : Nat) (q : Copy) (write : Bool) (va : Word) (n : Nat) :
    (s.packedPlace c q write va n).2.MemOk := by
  unfold State.packedPlace
  dsimp only
  split
  next x s1 e => exact (hs.resolve ..).of_pair e
  next parts s1 e =>
    have h1 := (hs.resolve ..).of_pair e
    split <;> exact h1

@[simp] theorem State.MemOk.decodeLost {s : State} (hs : s.MemOk) (c : Nat) (q : Copy) (st : KpsStream) (cause access : Nat) (va : Word) :
    (s.decodeLost c q st cause access va).2.MemOk := by
  unfold State.decodeLost
  have h1 : (s.dataFault c q cause access va).MemOk := by simp [hs]
  dsimp only
  split
  next x s2 e => exact (h1.copyWrite ..).of_pair e
  next s2 e => simp [(h1.copyWrite ..).of_pair e]

@[simp] theorem State.MemOk.decodeHead {s : State} (hs : s.MemOk) (c : Nat) (q : Copy) : (s.decodeHead c q).2.MemOk := by
  unfold State.decodeHead
  dsimp only
  split
  next x s1 e => exact (hs.copyRead ..).of_pair e
  next r s1 e =>
    have h1 := (hs.copyRead ..).of_pair e
    split
    · simp [h1]
    · split <;> simp [h1]

@[simp] theorem State.MemOk.blockIn {s : State} (hs : s.MemOk) (c : Nat) (q : Copy) (st : KpsStream) : (s.blockIn c q st).2.MemOk := by
  unfold State.blockIn
  split
  · split
    next x s1 e => exact (hs.packedPlace ..).of_pair e
    next la s1 e => exact (hs.packedPlace ..).of_pair e
  · dsimp only
    split
    next x s1 e => exact (hs.copyRead ..).of_pair e
    next hr s1 e =>
      have h1 := (hs.copyRead ..).of_pair e
      split
      · exact h1
      · split
        next x s2 e => exact (h1.copyRead ..).of_pair e
        next r s2 e => exact (h1.copyRead ..).of_pair e

@[simp] theorem State.MemOk.decodeBlock {s : State} (hs : s.MemOk) (c : Nat) (q : Copy) (st : KpsStream) :
    (s.decodeBlock c q st).2.MemOk := by
  unfold State.decodeBlock
  split
  next x s1 e => exact (hs.blockIn ..).of_pair e
  next s1 e => simp [(hs.blockIn ..).of_pair e]
  next h r s1 e =>
    have h1 := (hs.blockIn ..).of_pair e
    extract_lets va out s2 run
    have h2 : s2.MemOk := by
      unfold s2
      split
      · simp [h1]
      · split <;> simp [h1]
    split
    next x s3 e => exact (h2.copyWrite ..).of_pair e
    next s3 e => simp [(h2.copyWrite ..).of_pair e]

@[simp] theorem State.MemOk.encodeHead {s : State} (hs : s.MemOk) (c : Nat) (q : Copy) : (s.encodeHead c q).2.MemOk := by
  unfold State.encodeHead
  dsimp only
  split
  next x s1 e => exact (hs.copyRead ..).of_pair e
  next r s1 e =>
    have h1 := (hs.copyRead ..).of_pair e
    split
    next x s2 e => exact (h1.copyWrite ..).of_pair e
    next s2 e => simp [(h1.copyWrite ..).of_pair e]

@[simp] theorem State.MemOk.packBlock {s : State} (hs : s.MemOk) (c : Nat) (q : Copy) (h : BlockHead) (payload : Run) :
    (s.packBlock c q h payload).2.MemOk := by
  unfold State.packBlock
  dsimp only
  split
  next x s1 e => exact (hs.packedPlace ..).of_pair e
  next la s1 e =>
    have h1 := (hs.packedPlace ..).of_pair e
    split
    · simp [h1]
    · simp [h1, State.MemOk.putBytes]

@[simp] theorem State.MemOk.encodeBlockUnit {s : State} (hs : s.MemOk) (c : Nat) (q : Copy) (st : KpsStream) :
    (s.encodeBlockUnit c q st).2.MemOk := by
  unfold State.encodeBlockUnit
  extract_lets d src
  split
  next x s1 e => exact (hs.copyRead ..).of_pair e
  next r s1 e =>
    have h1 := (hs.copyRead ..).of_pair e
    dsimp only
    have h2 : (if r.bad then s1.dataFault c q 0x10 8 src else s1).MemOk := by split <;> simp [h1]
    have h3 (p : Prop) [Decidable p] (a b : Except CopyFault Unit × State) (ha : a.2.MemOk) (hb : b.2.MemOk) :
        (if p then a else b).2.MemOk := by split <;> assumption
    split
    · exact h3 _ _ _ (h2.packBlock ..) (h2.copyWrite ..)
    · exact (State.memOk_modCopy _ _ _).2 (h3 _ _ _ (h2.packBlock ..) (h2.copyWrite ..))

@[simp] theorem State.MemOk.encodeEnd {s : State} (hs : s.MemOk) (c : Nat) (q : Copy) : (s.encodeEnd c q).2.MemOk := by
  unfold State.encodeEnd
  dsimp only
  split
  · simp [hs]
  · split
    next x s1 e => exact (hs.copyWrite ..).of_pair e
    next s1 e => simp [(hs.copyWrite ..).of_pair e]

@[simp] theorem State.memOk_copyUnit (s : State) (c : Nat) (q : Copy) (hs : s.MemOk) : (s.copyUnit c q).2.MemOk := by
  unfold State.copyUnit
  dsimp only
  (repeat' split) <;> simp [hs]

@[simp] theorem State.memOk_landCopy (s : State) (c : Nat) (all : Bool) (hs : s.MemOk) : (s.landCopy c all).MemOk := by
  unfold State.landCopy
  dsimp only
  (repeat' split) <;> simp [hs]

theorem State.memOk_runUnit (s : State) (c : Nat) (apart : Bool) (unit : State → Except CopyFault Unit × State) (hs : s.MemOk)
    (hu : ∀ s, s.MemOk → (unit s).2.MemOk) :
    (s.runUnit c apart unit).MemOk := by
  unfold State.runUnit
  have h0 : (if apart then s.modCopy c fun q => { q with land := some [] } else s).MemOk := by split <;> simp [hs]
  split
  next s1 e =>
    have h1 := (hu _ h0).of_pair e
    split <;> simp [h1]
  next => exact hs

@[simp] theorem State.MemOk.framePlace {s : State} (hs : s.MemOk) (c : Nat) (q : Copy) (write : Bool) (va : Word) :
    (s.framePlace c q write va).2.MemOk := by
  unfold State.framePlace
  extract_lets access home
  clear_value home
  split
  next x s1 e => exact (hs.place ..).of_pair e
  next key s1 e =>
    have h1 := (hs.place ..).of_pair e
    split
    · exact hs
    · split
      · exact hs
      · exact h1

@[simp] theorem State.memOk_moveFrame (s : State) (c : Nat) (q : Copy) (src : Option Nat) (dst : Nat) (hs : s.MemOk) :
    (s.moveFrame c q src dst).MemOk := by
  unfold State.moveFrame
  split
  · exact State.memOk_landAlong _ _ _ _ _ hs
  · dsimp only
    split <;> simp [hs]

@[simp] theorem State.MemOk.frameUnit {s : State} (hs : s.MemOk) (c : Nat) (q : Copy) : (s.frameUnit c q).2.MemOk := by
  unfold State.frameUnit
  extract_lets off last done source
  have h1 : source.2.MemOk := by
    unfold source
    split
    · exact hs
    · split
      next x s1 e => exact (hs.framePlace ..).of_pair e
      next k s1 e => exact (hs.framePlace ..).of_pair e
  have hd (t : State) (src : Option Nat) (dst : Nat) (ht : t.MemOk) : (done t src dst).2.MemOk := by simp [done, ht]
  clear_value source done
  split
  next x s1 => exact h1
  next src s1 =>
    split
    next x s2 e => exact (State.MemOk.framePlace h1 ..).of_pair e
    next dst s2 e => exact hd _ _ _ ((State.MemOk.framePlace h1 ..).of_pair e)

@[simp] theorem State.memOk_stopCopy (s : State) (c : Nat) (q : Copy) (x : CopyFault) (hs : s.MemOk) : (s.stopCopy c q x).MemOk := by
  unfold State.stopCopy
  simp [hs]

@[simp] theorem State.MemOk.writeFlag {s : State} (hs : s.MemOk) (c : Nat) (q : Copy) : (s.writeFlag c q).2.MemOk := by
  unfold State.writeFlag
  split
  · exact hs
  split
  next parts s1 e => simp [(hs.resolve ..).of_pair e]
  next x s1 e => simp [(hs.resolve ..).of_pair e]

@[simp] theorem State.memOk_dropCopy (s : State) (c : Nat) : (s.dropCopy c).MemOk ↔ s.MemOk := State.memOk_congr rfl rfl

@[simp] theorem State.MemOk.unwritten {s : State} (hs : s.MemOk) (c : Nat) (q : Copy) : (s.unwritten c q).2.MemOk := by
  unfold State.unwritten
  split
  · split
    next r s1 e => exact (hs.copyRead ..).of_pair e
    next x s1 e => exact (hs.copyRead ..).of_pair e
  · exact hs

@[simp] theorem State.memOk_completeCopy (s : State) (c : Nat) (q : Copy) (hs : s.MemOk) : (s.completeCopy c q).MemOk := by
  unfold State.completeCopy
  split
  · exact hs
  · have h0 : ((s.unwritten c q).2.countSectors c q (s.unwritten c q).1 q.err).MemOk := by simp [hs]
    simpa using h0.writeFlag c q

/-! Placement, expansion and launches -/

@[simp] theorem State.memOk_dropRec (s : State) (id : Nat) : (s.dropRec id).MemOk ↔ s.MemOk := State.memOk_congr rfl rfl
@[simp] theorem State.memOk_fill (s : State) (c b : Nat) (k : Ctx) : (s.fill c b k).MemOk ↔ s.MemOk := State.memOk_congr rfl rfl

@[simp] theorem State.memOk_refillQueue (s : State) (c : Nat) : (s.refillQueue c).MemOk ↔ s.MemOk := by
  unfold State.refillQueue
  split
  · rfl
  · split <;> simp

@[simp] theorem State.memOk_placeHandler (s : State) (c b i : Nat) (hs : s.MemOk) : (s.placeHandler c b i).MemOk := by
  unfold State.placeHandler
  split
  · exact hs
  · rw [State.memOk_fill]
    split
    · exact State.MemOk.of_eq (s := (s.modCore c fun k => { k with queue := k.queue.eraseIdx i }).refillQueue c) (by simpa using hs) rfl rfl
    · simpa using hs

@[simp] theorem State.memOk_endExpansion (s : State) (r : Rec) : (s.endExpansion r).MemOk ↔ s.MemOk := by
  unfold State.endExpansion
  dsimp only
  split <;> simp

@[simp] theorem State.memOk_expansionFault (s : State) (c : Nat) (r : Rec) (cause : Nat) (va : Word) :
    (s.expansionFault c r cause va).MemOk ↔ s.MemOk := by
  unfold State.expansionFault
  simp

@[simp] theorem State.MemOk.entryCount {s : State} (hs : s.MemOk) (c : Nat) (r : Rec) : (s.entryCount c r).2.MemOk := by
  unfold State.entryCount
  split
  · exact hs
  · split
    next x s1 e => simp [(hs.resolve ..).of_pair e]
    next parts s1 e =>
      have h1 := (hs.resolve ..).of_pair e
      dsimp only
      split
      · simp [h1]
      · split <;> simp [h1]

@[simp] theorem State.MemOk.produce {s : State} (hs : s.MemOk) (c : Nat) (r : Rec) : (s.produce c r).2.MemOk := by
  unfold State.produce
  split
  next s1 e => exact (hs.entryCount ..).of_pair e
  next n s1 e =>
    have h1 := (hs.entryCount ..).of_pair e
    split
    · simp [h1]
    · have h2 : (match r.counted with
        | some i => s1.inject i r.job
        | none => s1).MemOk := by split <;> simp [h1]
      dsimp only
      split
      · rw [State.memOk_endExpansion]; exact h2.of_eq rfl rfl
      · exact h2.of_eq rfl rfl

@[simp] theorem State.memOk_placeProduced (s : State) (c b : Nat) (r : Rec) (hs : s.MemOk) : (s.placeProduced c b r).MemOk := by
  unfold State.placeProduced
  split
  next s1 e => exact (hs.produce ..).of_pair e
  next t s1 e =>
    have h1 := (hs.produce ..).of_pair e
    split
    · exact h1.of_eq rfl rfl
    · simp [h1]

@[simp] theorem State.memOk_placeRecord (s : State) (c b tier id : Nat) (hs : s.MemOk) : (s.placeRecord c b tier id).MemOk := by
  unfold State.placeRecord
  dsimp only
  (repeat' split) <;> simp [hs]

@[simp] theorem State.memOk_placeInto (s : State) (c b : Nat) (hs : s.MemOk) : (s.placeInto c b).MemOk := by
  unfold State.placeInto
  split <;> simp [hs]

@[simp] theorem State.memOk_placeOn (s : State) (c : Nat) (hs : s.MemOk) : (s.placeOn c).MemOk := by
  unfold State.placeOn
  split
  · exact hs
  · split <;> simp [hs]

@[simp] theorem State.memOk_modRec (s : State) (id : Nat) (f : Rec → Rec) : (s.modRec id f).MemOk ↔ s.MemOk := State.memOk_congr rfl rfl

@[simp] theorem State.memOk_allocate (s : State) : s.allocate.MemOk ↔ s.MemOk := by
  unfold State.allocate
  refine (State.memOk_foldl _ _ _ fun s c => ?_).trans (State.memOk_congr rfl rfl)
  dsimp only
  split
  · rfl
  · simp

@[simp] theorem State.memOk_letIn (s : State) (p : Nat × Nat × Blocked) : (s.letIn p).MemOk ↔ s.MemOk := State.memOk_congr rfl rfl

@[simp] theorem State.memOk_hostPost (s : State) (j off : Nat) (bs : List Byte) : (s.hostPost j off bs).MemOk ↔ s.MemOk := by
  unfold State.hostPost
  dsimp only
  (repeat' split) <;> simp [State.memOk_iff]

@[simp] theorem State.memOk_rejectBare (s : State) (job : Nat) (r : RecIn) (trec : Word) : (s.rejectBare job r trec).MemOk ↔ s.MemOk :=
  State.memOk_congr rfl rfl
@[simp] theorem State.memOk_launchFault (s : State) (job access : Nat) (x : XFault) : (s.launchFault job access x).MemOk ↔ s.MemOk :=
  State.memOk_congr rfl rfl

@[simp] theorem State.MemOk.iodRead {s : State} (hs : s.MemOk) (job : Nat) (va : Word) (n : Nat) : (s.iodRead job va n).2.MemOk := by
  unfold State.iodRead
  split
  next parts s1 e => simp [(hs.resolve ..).of_pair e]
  next x s1 e => simp [(hs.resolve ..).of_pair e]

@[simp] theorem State.MemOk.iodReadAll {s : State} (hs : s.MemOk) (job n : Nat) (vas : List Word) : (s.iodReadAll job n vas).2.MemOk := by
  induction vas generalizing s with
  | nil => exact hs
  | cons va r ih =>
    unfold State.iodReadAll
    split
    next s1 e => exact (hs.iodRead ..).of_pair e
    next bs s1 e =>
      have h1 := (hs.iodRead ..).of_pair e
      split
      next l s2 e => exact (ih h1).of_pair e
      next s2 e => exact (ih h1).of_pair e

@[simp] theorem State.MemOk.iodFill {s : State} (hs : s.MemOk) (job : Nat) (ps : List (Word × Nat)) (bs : List Byte) :
    (s.iodFill job ps bs).2.MemOk := by
  induction ps generalizing s bs with
  | nil => exact hs
  | cons p r ih =>
    unfold State.iodFill
    split
    next x s1 e => simp [(hs.place ..).of_pair e]
    next key s1 e => exact ih (((hs.place ..).of_pair e).putBytes _ _ _) _

@[simp] theorem State.memOk_launchTables (s : State) (h : Header) (l : Launch) (hs : s.MemOk) : (s.launchTables h l).MemOk := by
  unfold State.launchTables
  split
  next s1 e => simp [(hs.iodRead ..).of_pair e]
  next pt s1 e =>
    have h1 := (hs.iodRead ..).of_pair e
    split
    next s2 e => simp [(h1.iodReadAll ..).of_pair e]
    next js s2 e =>
      have h2 := (h1.iodReadAll ..).of_pair e
      dsimp only
      split
      · simp [h2]
      · split
        next s3 e => simp [(h2.iodFill ..).of_pair e]
        next s3 e => exact State.memOk_putStatus _ _ _ _ (((h2.iodFill ..).of_pair e).of_eq rfl rfl)

@[simp] theorem State.memOk_jobError (s : State) (j : Nat) : (s.jobError j).MemOk ↔ s.MemOk := State.memOk_congr rfl rfl

@[simp] theorem State.memOk_writeLaunch (s : State) (j : Nat) (va : Word) (hs : s.MemOk) : (s.writeLaunch j va).MemOk := by
  unfold State.writeLaunch
  extract_lets t
  have ht : t.MemOk := hs.modJob _ _
  clear_value t
  split
  · simp [ht]
  split
  · simp [ht]
  split
  next s1 e => simp [(ht.iodRead ..).of_pair e]
  next bs s1 e =>
    have h1 := (ht.iodRead ..).of_pair e
    dsimp only
    split <;> simp [h1]

/-! The fabric -/

@[simp] theorem State.memOk_freeSend (s : State) (m : Msg) : (s.freeSend m).MemOk ↔ s.MemOk := by
  unfold State.freeSend
  simp

@[simp] theorem State.memOk_dropMsg (s : State) (n : Nat) : (s.dropMsg n).MemOk ↔ s.MemOk := State.memOk_congr rfl rfl

@[simp] theorem State.memOk_handOver (s : State) (m : Msg) (holder : Nat) (route : List Nat) (hs : s.MemOk) :
    (s.handOver m holder route).MemOk := by
  unfold State.handOver
  have h1 : (((s.inject holder m.job).sendNotice .handover m.holder m.job).freeSend m).MemOk := by simp [hs]
  dsimp only
  split
  · simp [h1]
  · exact h1.of_eq rfl rfl

@[simp] theorem State.memOk_noticeArrives (s : State) (kind : NoticeKind) (n : Nat) : (s.noticeArrives kind n).MemOk ↔ s.MemOk := by
  unfold State.noticeArrives
  dsimp only
  (repeat' split) <;> simp [State.memOk_iff]

@[simp] theorem State.memOk_dropArrival (s : State) (core cause : Nat) (a : Arrived) : (s.dropArrival core cause a).MemOk ↔ s.MemOk := by
  unfold State.dropArrival
  dsimp only
  split <;> simp

@[simp] theorem State.memOk_overflow (s : State) (core : Nat) (a : Arrived) (hs : s.MemOk) : (s.overflow core a).MemOk := by
  unfold State.overflow
  simp [hs, State.MemOk.putBytes]

@[simp] theorem State.memOk_arrive (s : State) (core : Nat) (a : Arrived) (hs : s.MemOk) : (s.arrive core a).MemOk := by
  unfold State.arrive
  simp [hs]

@[simp] theorem State.memOk_clearAct (s : State) (iface job : Nat) : (s.clearAct iface job).MemOk ↔ s.MemOk := State.memOk_congr rfl rfl

@[simp] theorem State.memOk_readWave (s : State) (w : Wave) (i : Nat) (hs : s.MemOk) : (s.readWave w i).MemOk := by
  have h1 (w : Wave) : (if w.second then s else w.jobs.foldl (fun s j => s.clearAct i j) s).MemOk := by split <;> simp [hs]
  unfold State.readWave
  split
  · exact hs
  · exact (h1 (Wave.served s w)).of_eq rfl rfl

@[simp] theorem State.memOk_startWave (s : State) : s.startWave.MemOk ↔ s.MemOk := by
  unfold State.startWave
  dsimp only
  (repeat' split) <;> simp [State.memOk_iff]

@[simp] theorem State.memOk_setXwave (s : State) (job : Nat) (x : Option XWave) : (s.setXwave job x).MemOk ↔ s.MemOk :=
  State.memOk_congr rfl rfl

@[simp] theorem State.memOk_tellChildren (s : State) (job wave : Nat) (what : Control) :
    (s.tellChildren job wave what).MemOk ↔ s.MemOk := by
  unfold State.tellChildren
  simp

@[simp] theorem State.memOk_takeVerdict (s : State) (x : XWave) (quiet : Bool) (start : Word) :
    (s.takeVerdict x quiet start).MemOk ↔ s.MemOk := by
  unfold State.takeVerdict
  simp

@[simp] theorem State.memOk_startPass (s : State) (x : XWave) : (s.startPass x).MemOk ↔ s.MemOk := by
  unfold State.startPass
  simp

@[simp] theorem State.memOk_replyUp (s : State) (x : XWave) : (s.replyUp x).MemOk ↔ s.MemOk := State.memOk_congr rfl rfl

@[simp] theorem State.memOk_rootPass (s : State) (x : XWave) : (s.rootPass x).MemOk ↔ s.MemOk := by
  unfold State.rootPass
  dsimp only
  (repeat' split) <;> simp

@[simp] theorem State.memOk_passOn (s : State) (job : Nat) : (s.passOn job).MemOk ↔ s.MemOk := by
  unfold State.passOn
  dsimp only
  split <;> simp

@[simp] theorem State.memOk_readX (s : State) (job : Nat) (second : Bool) (i : Nat) (hs : s.MemOk) : (s.readX job second i).MemOk := by
  unfold State.readX
  split
  · split
    · split
      · exact hs
      · simp [hs]
    · exact hs
  · exact hs

@[simp] theorem State.memOk_takeReply (s : State) (job : Nat) (r : WaveReply) (hs : s.MemOk) : (s.takeReply job r).MemOk := by
  unfold State.takeReply
  split
  · split
    · exact hs
    · simp [hs]
  · exact hs

@[simp] theorem State.memOk_failChild (s : State) (job child : Nat) (hs : s.MemOk) : (s.failChild job child).MemOk := by
  unfold State.failChild
  split
  · simp [hs]
  · exact hs

@[simp] theorem State.memOk_lateVerdict (s : State) (job wave : Nat) (quiet : Bool) (start : Word) :
    (s.lateVerdict job wave quiet start).MemOk ↔ s.MemOk := by
  unfold State.lateVerdict
  simp

@[simp] theorem State.memOk_dropPacket (s : State) (n : Nat) : (s.dropPacket n).MemOk ↔ s.MemOk := State.memOk_congr rfl rfl
@[simp] theorem State.memOk_dropLink (s : State) (lsend : Nat) : (s.dropLink lsend).MemOk ↔ s.MemOk := State.memOk_congr rfl rfl

@[simp] theorem State.memOk_lose (s : State) (when_ : Word) (l : Loss) (hs : s.MemOk) : (s.lose when_ l).MemOk := by
  unfold State.lose
  simp [hs, State.MemOk.putBytes]

@[simp] theorem State.memOk_abandonMessage (s : State) (p : Packet) (m : Msg) (hs : s.MemOk) : (s.abandonMessage p m).MemOk := by
  unfold State.abandonMessage
  simp [hs]

/-! Flash and handles -/

@[simp] theorem State.memOk_countRead (s : State) (page : Nat) : (s.countRead page).MemOk ↔ s.MemOk := by
  unfold State.countRead
  dsimp only
  (repeat' split) <;> simp [State.memOk_iff]

@[simp] theorem State.memOk_deliver (s : State) (r : FlashRead) (bad : Bool) : (s.deliver r bad).MemOk ↔ s.MemOk := by
  unfold State.deliver
  split <;> exact State.memOk_congr rfl rfl
@[simp] theorem State.memOk_modHandle (s : State) (h : Nat) (f : Handle → Handle) : (s.modHandle h f).MemOk ↔ s.MemOk :=
  State.memOk_congr rfl rfl
@[simp] theorem State.memOk_answer (s : State) (r : HReq) (v : Word) : (s.answer r v).MemOk ↔ s.MemOk := State.memOk_congr rfl rfl

@[simp] theorem State.memOk_answerRequest (s : State) (r : HReq) (first count : Nat) (dest : Word) (demand below : Bool) (hs : s.MemOk) :
    (s.answerRequest r first count dest demand below).MemOk := by
  unfold State.answerRequest
  dsimp only
  (repeat' split) <;> simp [hs]

@[simp] theorem State.memOk_answerUpgrade (s : State) (r : HReq) (h : Nat) : (s.answerUpgrade r h).MemOk ↔ s.MemOk := by
  unfold State.answerUpgrade
  split
  · simp
  · exact (State.memOk_answer _ _ _).trans ((State.memOk_modHandle _ _ _).trans (State.memOk_congr rfl rfl))
  · simp

@[simp] theorem State.memOk_handleRecord (s : State) (k : Handle) (cause : Nat) (va detail : Word) :
    (s.handleRecord k cause va detail).MemOk ↔ s.MemOk :=
  State.memOk_congr rfl rfl

@[simp] theorem State.memOk_pageDest (s : State) (k : Handle) (page : Nat) (hs : s.MemOk) : (s.pageDest k page).2.MemOk := by
  unfold State.pageDest
  simp [hs, State.MemOk.resolve]

@[simp] theorem State.memOk_landPage (s : State) (h page fp : Nat) (bad : Bool) (hs : s.MemOk) : (s.landPage h page fp bad).MemOk := by
  unfold State.landPage
  extract_lets k s1
  have h1 : s1.MemOk := by simpa [s1] using hs
  clear_value s1
  split
  next x s2 e => simp [(State.memOk_pageDest _ _ _ h1).of_pair e]
  next parts s2 e =>
    have h2 := (State.memOk_pageDest _ _ _ h1).of_pair e
    dsimp only
    split <;> simp [h2]

@[simp] theorem State.memOk_landPart (s : State) (h page : Nat) (r : FlashRead) (l : List (Nat × Run)) (all : Bool) (hs : s.MemOk) :
    (s.landPart h page r l all).MemOk := by
  unfold State.landPart
  generalize (if all then (l, []) else pickChunk s.free l) = p
  dsimp only
  have hput : ((if all then s else s.useFree.2).putRuns 256 p.1).MemOk := State.memOk_putRuns _ _ _ (by split <;> simp [hs])
  generalize (if all then s else s.useFree.2).putRuns 256 p.1 = u at hput ⊢
  split
  · exact hput.of_eq rfl rfl
  · split
    · rw [State.memOk_handleRecord]; exact hput.of_eq rfl rfl
    · exact hput.of_eq rfl rfl

/-! Issue events -/

@[simp] theorem State.memOk_expire (s : State) (c b : Nat) : (s.expire c b).MemOk ↔ s.MemOk := by
  unfold State.expire
  dsimp only
  split <;> simp

@[simp] theorem State.memOk_parkLong (s : State) (c b : Nat) : (s.parkLong c b).MemOk ↔ s.MemOk := by
  unfold State.parkLong
  dsimp only
  split <;> simp

@[simp] theorem State.memOk_openLate (s : State) (c b : Nat) (e : QEntry) (o : LateOp) (hs : s.MemOk) : (s.openLate c b e o).MemOk :=
  ⟨hs.mem, hs.mem⟩

@[simp] theorem State.memOk_trapLate (s : State) (c b : Nat) (e : QEntry) (o : LateOp) (hs : s.MemOk) : (s.trapLate c b e o).MemOk := by
  unfold State.trapLate
  simp [hs, State.MemOk.takeTrap]

theorem State.memOk_runLate (s : State) (c b : Nat) (e : QEntry) (o : LateOp) (hs : s.MemOk) (ho : (s.carryOut c b e o).MemOk) :
    (s.runLate c b e o).MemOk := by
  unfold State.runLate
  split
  next t et =>
    have ht : t.MemOk := ho.next et
    split
    · split
      · exact hs
      · exact ⟨ht.mem, rfl⟩
    · simp [hs]
    · exact hs
  · exact hs

@[simp] theorem State.memOk_performUpTo (s : State) (c b n : Nat) (hs : s.MemOk) : (s.performUpTo c b n).MemOk := by
  unfold State.performUpTo
  exact (State.memOk_modCtx _ _ _ _).2 (State.MemOk.foldl _ (fun _ _ h => h.putParts _ _ _) _ _ hs)

@[simp] theorem State.memOk_landStore (s : State) (c b : Nat) (st : StoreOp) (hs : s.MemOk) : (s.landStore c b st).MemOk := by
  unfold State.landStore
  simp [hs, State.MemOk.putParts]

@[simp] theorem State.memOk_performStore (s : State) (c b n : Nat) (hs : s.MemOk) : (s.performStore c b n).MemOk := by
  unfold State.performStore
  dsimp only
  (repeat' split) <;> simp [hs]

@[simp] theorem State.memOk_setReduction (s : State) (r : Reduction) : (s.setReduction r).MemOk ↔ s.MemOk := State.memOk_congr rfl rfl
@[simp] theorem State.memOk_moveLast (s : State) (r : Reduction) : (s.moveLast r).MemOk ↔ s.MemOk := State.memOk_congr rfl rfl

@[simp] theorem State.memOk_orphan (s : State) (r : Reduction) (x : Nat × Word × Word) (hs : s.MemOk) : (s.orphan r x).MemOk := by
  unfold State.orphan
  simp [hs, State.MemOk.putBytes]

@[simp] theorem State.memOk_reduceAt (s : State) (r : Reduction) (hs : s.MemOk) : (s.reduceAt r).MemOk := by
  unfold State.reduceAt
  split
  next x s1 e => simp [(hs.resolve ..).of_pair e]
  next parts s1 e =>
    have h1 := (hs.resolve ..).of_pair e
    dsimp only
    split <;> simp [h1]

@[simp] theorem State.memOk_performReduction (s : State) (n : Nat) (hs : s.MemOk) : (s.performReduction n).MemOk := by
  unfold State.performReduction
  dsimp only
  (repeat' split) <;> simp [hs]

@[simp] theorem State.memOk_stamp (s : State) (c b : Nat) (hs : s.MemOk) : (s.stamp c b).MemOk := by
  unfold State.stamp
  dsimp only
  (repeat' split) <;> simp [hs, State.MemOk.flush]

@[simp] theorem State.MemOk.scAccess {s : State} (hs : s.MemOk) (who : Nat) (a : ScAccess) : (s.scAccess who a).2.MemOk := by
  unfold State.scAccess
  dsimp only
  split <;> simp [hs]

@[simp] theorem State.MemOk.scAll {s : State} (hs : s.MemOk) (who : Nat) (as : List ScAccess) : (s.scAll who as).2.MemOk := by
  induction as generalizing s with
  | nil => exact hs
  | cons a r ih => exact ih (hs.scAccess who a)

theorem State.memOk_landStamped {s t : State} {c b : Nat} (hs : s.MemOk) (e : s.landStamped c b = some t) : t.MemOk := by
  unfold State.landStamped at e
  extract_lets k at e
  split at e
  · split at e
    · cases e
    · cases e; simp [hs, State.MemOk.putParts]
  · split at e
    · split at e
      · cases e
      · cases e; simp [hs]
    · cases e

@[simp] theorem State.memOk_performSc (s : State) (c b : Nat) (hs : s.MemOk) : (s.performSc c b).MemOk := by
  unfold State.performSc
  split
  · dsimp only
    split
    · exact hs
    · split
      next s1 e => exact (State.memOk_landStamped hs e).of_eq rfl rfl
      next => exact hs
  · exact hs

@[simp] theorem State.memOk_noteTimer (s : State) (c b : Nat) : (s.noteTimer c b).MemOk ↔ s.MemOk := by
  unfold State.noteTimer
  simp

@[simp] theorem State.memOk_timerTrap (s : State) (c b : Nat) (hs : s.MemOk) : (s.timerTrap c b).MemOk := by
  unfold State.timerTrap
  simp [hs, State.MemOk.takeTrap]

@[simp] theorem State.memOk_timerOrWait (s : State) (c b : Nat) (hs : s.MemOk) : (s.timerOrWait c b).MemOk := by
  unfold State.timerOrWait
  simp [hs]

/-! Faults -/

@[simp] theorem State.memOk_writeRecord (s : State) (r : FaultRec) (hs : s.MemOk) : (s.writeRecord r).MemOk := by
  unfold State.writeRecord
  simp [hs, State.MemOk.putBytes]

@[simp] theorem State.memOk_writeRecords (s : State) (job : Nat) (hs : s.MemOk) : (s.writeRecords job).MemOk := by
  unfold State.writeRecords
  refine State.MemOk.foldl _ (fun t r h => ?_) _ _ (hs.of_eq rfl rfl)
  split <;> simp [h]

@[simp] theorem State.memOk_passOrphan (s : State) (job : Nat) : (s.passOrphan job).MemOk ↔ s.MemOk := State.memOk_congr rfl rfl

@[simp] theorem State.memOk_replayOrphans (s : State) (job : Nat) (v : Word) (hs : s.MemOk) : (s.replayOrphans job v).MemOk := by
  unfold State.replayOrphans
  exact State.MemOk.foldl _ (fun t r h => by simp [h]) _ _ hs

@[simp] theorem State.memOk_discardOrphans (s : State) (job : Nat) (v : Word) : (s.discardOrphans job v).MemOk ↔ s.MemOk := by
  unfold State.discardOrphans
  exact State.memOk_foldl _ _ _ fun t r => State.memOk_congr rfl rfl

@[simp] theorem State.memOk_replayJob (s : State) (job : Nat) : (s.replayJob job).MemOk ↔ s.MemOk := by
  unfold State.replayJob
  simp

@[simp] theorem State.memOk_preemptJob (s : State) (job : Nat) : (s.preemptJob job).MemOk ↔ s.MemOk := by
  unfold State.preemptJob
  simp

@[simp] theorem State.memOk_releaseJob (s : State) (job : Nat) : (s.releaseJob job).MemOk ↔ s.MemOk := by
  unfold State.releaseJob
  simp

@[simp] theorem State.memOk_overdue (s : State) (c b : Nat) : (s.overdue c b).MemOk ↔ s.MemOk := by
  unfold State.overdue
  dsimp only
  split <;> simp

@[simp] theorem State.memOk_killJob (s : State) (job : Nat) (hs : s.MemOk) : (s.killJob job).MemOk := by
  unfold State.killJob
  simp [hs, State.MemOk.startKill]

@[simp] theorem State.memOk_clearJob (s : State) (job : Nat) : (s.clearJob job).MemOk ↔ s.MemOk := by
  unfold State.clearJob
  exact (State.memOk_modJob _ _ _).trans ((State.memOk_foldl _ _ _ State.memOk_freeSend).trans (State.memOk_congr rfl rfl))

@[simp] theorem State.memOk_finishKill (s : State) (job : Nat) (hs : s.MemOk) : (s.finishKill job).MemOk := by
  unfold State.finishKill
  simp [hs]

@[simp] theorem State.memOk_modTlbi (s : State) (f : Tlbi → Tlbi) (u : TlbiUnit) : (s.modTlbi f u).MemOk ↔ s.MemOk := by
  cases u <;> exact State.memOk_congr rfl rfl

/-! Jobs -/

@[simp] theorem State.memOk_createJob (s : State) (j : Nat) (v : Word) (table : List Byte) : (s.createJob j v table).MemOk ↔ s.MemOk := by
  unfold State.createJob
  dsimp only
  split
  · simp
  · exact State.memOk_congr rfl rfl

@[simp] theorem State.memOk_tearDown (s : State) (j : Nat) (hs : s.MemOk) : (s.tearDown j).MemOk := by
  unfold State.tearDown
  simp [hs, State.MemOk.startKill]

@[simp] theorem State.memOk_finishTearDown (s : State) (j : Nat) (hs : s.MemOk) : (s.finishTearDown j).MemOk := by
  unfold State.finishTearDown
  dsimp only
  split
  · exact hs
  · split
    · exact hs.startKill _
    · simp [hs]

/-! Stacks -/

@[simp] theorem State.memOk_modStack (s : State) (d n : Nat) (f : Stack → Stack) : (s.modStack d n f).MemOk ↔ s.MemOk :=
  State.memOk_congr rfl rfl
@[simp] theorem State.memOk_dropStack (s : State) (d n : Nat) : (s.dropStack d n).MemOk ↔ s.MemOk := State.memOk_congr rfl rfl

@[simp] theorem State.MemOk.memberImage {s : State} (hs : s.MemOk) (st : Stack) (m : Member) : (s.memberImage st m).2.MemOk := by
  unfold State.memberImage
  split
  next x s1 e => exact (hs.resolve ..).of_pair e
  next parts s1 e => exact (hs.resolve ..).of_pair e

@[simp] theorem State.MemOk.fetchImage {s : State} (hs : s.MemOk) (st : Stack) (m : Member) : (s.fetchImage st m).2.MemOk := by
  unfold State.fetchImage
  split
  next x s1 e => exact (hs.memberImage ..).of_pair e
  next parts s1 e =>
    have h1 := (hs.memberImage ..).of_pair e
    split <;> simp [h1]

@[simp] theorem State.memOk_endFetch (s : State) (d : Nat) (st : Stack) (parts : List (Nat × Nat)) (old : List Byte) :
    (s.endFetch d st parts old).MemOk ↔ s.MemOk := by
  unfold State.endFetch
  split
  · simp
  · dsimp only
    split
    · simp
    · exact (State.memOk_modStack _ _ _ _).trans ((State.memOk_afterRead _ _).trans (State.memOk_congr rfl rfl))

@[simp] theorem State.memOk_finishMember (s : State) (st : Stack) (b : Tile) (m : Member) : (s.finishMember st b m).MemOk ↔ s.MemOk := by
  unfold State.finishMember
  simp

@[simp] theorem State.memOk_poisonMember (s : State) (m : Member) (x : Nat × Word × Word) (va : Word) :
    (s.poisonMember m x va).MemOk ↔ s.MemOk :=
  State.memOk_congr rfl rfl

@[simp] theorem State.memOk_reissue (s : State) (st : Stack) (m : Member) (hs : s.MemOk) : (s.reissue st m).MemOk := by
  unfold State.reissue
  split
  · exact hs
  · split
    next b s1 e => simp [(hs.fetchImage ..).of_pair e]
    next x s1 e => simp [(hs.fetchImage ..).of_pair e]

/-! The host and the platform -/

@[simp] theorem State.memOk_hostReads (s : State) (bs : List Byte) : (s.hostReads bs).MemOk ↔ s.MemOk := State.memOk_congr rfl rfl

@[simp] theorem State.memOk_writeFinj (s : State) (n : Nat) (v : Word) : (s.writeFinj n v).MemOk ↔ s.MemOk := by
  unfold State.writeFinj
  simp

@[simp] theorem State.memOk_writeVfslots (s : State) (vf : Nat) (v : Word) : (s.writeVfslots vf v).MemOk ↔ s.MemOk := by
  unfold State.writeVfslots
  dsimp only
  (repeat' split) <;> simp [State.memOk_iff]

@[simp] theorem State.memOk_writeFgrant (s : State) (j g : Nat) (second : Bool) (v : Word) :
    (s.writeFgrant j g second v).MemOk ↔ s.MemOk := by
  unfold State.writeFgrant
  simp

@[simp] theorem State.memOk_writeZfree (s : State) (n : Nat) (v : Word) : (s.writeZfree n v).MemOk ↔ s.MemOk := by
  unfold State.writeZfree
  simp

@[simp] theorem State.memOk_command (s : State) (cmd : Nat) (run : State → Mailbox → Mailbox) : (s.command cmd run).MemOk ↔ s.MemOk := by
  unfold State.command
  dsimp only
  (repeat' split) <;> simp [State.memOk_iff]

@[simp] theorem State.memOk_writeMbcmd (s : State) (v : Word) : (s.writeMbcmd v).MemOk ↔ s.MemOk := by
  unfold State.writeMbcmd
  split <;> simp

@[simp] theorem State.memOk_writeJobctl (s : State) (j : Nat) (v : Word) (table : List Byte) (hs : s.MemOk) :
    (s.writeJobctl j v table).MemOk := by
  unfold State.writeJobctl
  simp [hs]

@[simp] theorem State.memOk_writePreempt (s : State) (j : Nat) (v : Word) : (s.writePreempt j v).MemOk ↔ s.MemOk := by
  unfold State.writePreempt
  simp

@[simp] theorem State.memOk_writeOrtail (s : State) (j : Nat) (v : Word) (hs : s.MemOk) : (s.writeOrtail j v).MemOk := by
  unfold State.writeOrtail
  simp [hs]

@[simp] theorem State.memOk_writeTslice (s : State) (j : Nat) (v : Word) : (s.writeTslice j v).MemOk ↔ s.MemOk := by
  unfold State.writeTslice
  simp

@[simp] theorem State.memOk_writeJobReg (s : State) (j off : Nat) (v : Word) (data : List Byte) (hs : s.MemOk) :
    (s.writeJobReg j off v data).MemOk := by
  unfold State.writeJobReg
  dsimp only
  (repeat' split) <;> simp [hs]

@[simp] theorem State.memOk_writePkgReg (s : State) (off : Nat) (v : Word) : (s.writePkgReg off v).MemOk ↔ s.MemOk := by
  unfold State.writePkgReg
  dsimp only
  split
  case h_8 => split <;> simp
  all_goals exact State.memOk_congr rfl rfl

@[simp] theorem State.memOk_writeUnitReg (s : State) (off : Nat) (v : Word) : (s.writeUnitReg off v).MemOk ↔ s.MemOk := by
  unfold State.writeUnitReg
  split
  · split <;> simp
  split
  · split <;> simp
  split
  case h_5 => simp
  case h_6 => split <;> exact State.memOk_congr rfl rfl
  all_goals exact State.memOk_congr rfl rfl

@[simp] theorem State.memOk_writeBar0 (s : State) (off : Nat) (v : Word) (data : List Byte) (hs : s.MemOk) :
    (s.writeBar0 off v data).MemOk := by
  unfold State.writeBar0
  simp [hs]

@[simp] theorem State.memOk_afterBar0 (s : State) (off : Nat) : (s.afterBar0 off).MemOk ↔ s.MemOk := by
  unfold State.afterBar0
  simp

@[simp] theorem State.memOk_hostRead (s : State) (a : HostAccess) (hs : s.MemOk) : (s.hostRead a).MemOk := by
  unfold State.hostRead
  split <;> simp [hs]

@[simp] theorem State.memOk_hostWrite (s : State) (a : HostAccess) (bs : List Byte) (hs : s.MemOk) : (s.hostWrite a bs).MemOk := by
  unfold State.hostWrite
  split
  · split
    · split <;> simp [hs]
    · exact hs
  split
  · split
    · exact hs
    · split <;> simp [hs]
  · exact hs

@[simp] theorem State.memOk_bootChange (s : State) (stage : Nat) (busy : Bool) (err : Nat) :
    (s.bootChange stage busy err).MemOk ↔ s.MemOk :=
  State.memOk_congr rfl rfl
@[simp] theorem State.memOk_countLasting (s : State) (c : Nat) : (s.countLasting c).MemOk ↔ s.MemOk := State.memOk_congr rfl rfl

@[simp] theorem State.memOk_noteUnit (s : State) (c : Nat) : (s.noteUnit c).MemOk ↔ s.MemOk := by
  unfold State.noteUnit
  simp

@[simp] theorem State.memOk_mapOut (s : State) (c : Nat) : (s.mapOut c).MemOk ↔ s.MemOk := State.memOk_congr rfl rfl
@[simp] theorem State.memOk_loseUnit (s : State) (c u : Nat) : (s.loseUnit c u).MemOk ↔ s.MemOk := State.memOk_congr rfl rfl

@[simp] theorem State.memOk_mapOutBare (s : State) (c : Nat) : (s.mapOutBare c).MemOk ↔ s.MemOk := by
  unfold State.mapOutBare
  simp

@[simp] theorem State.memOk_mapOutUnit (s : State) (c u : Nat) : (s.mapOutUnit c u).MemOk ↔ s.MemOk := by
  unfold State.mapOutUnit
  simp

@[simp] theorem State.memOk_collimate (s : State) (r : StageReport) : (s.collimate r).MemOk ↔ s.MemOk := by
  unfold State.collimate
  simp

@[simp] theorem State.memOk_stage1 (s : State) : s.stage1.MemOk ↔ s.MemOk := State.memOk_congr rfl rfl

@[simp] theorem State.memOk_sense (s : State) (p : PowerSample) (hs : s.MemOk) : (s.sense p).MemOk := by
  unfold State.sense
  have h1 : ((List.range 4).foldl (fun s e => s.modDie e fun d => { d with temp := p.temps.getD e 0 % 256 }) s).MemOk := by
    simp [hs]
  exact h1.of_eq rfl rfl

@[simp] theorem State.memOk_holdBanks (s : State) (c : Nat) : (s.holdBanks c).MemOk ↔ s.MemOk := by
  unfold State.holdBanks
  simp

@[simp] theorem State.memOk_startTest (s : State) (u : HwUnit) : (s.startTest u).MemOk ↔ s.MemOk := by
  unfold State.startTest
  dsimp only
  (repeat' split) <;> simp

@[simp] theorem State.memOk_collimationSave (s : State) (c b : Nat) (hs : s.MemOk) : (s.collimationSave c b).MemOk := by
  unfold State.collimationSave
  simp [hs, State.MemOk.flush, State.MemOk.putBytes]

@[simp] theorem State.memOk_evacuate (s : State) (c b : Nat) (hs : s.MemOk) : (s.evacuate c b).MemOk := by
  unfold State.evacuate
  dsimp only
  split
  · exact hs
  · have h1 : ((s.collimationSave c b).dropQw c b).MemOk := by simp [hs]
    exact (State.memOk_service ..).2 ((State.memOk_release ..).2 (h1.of_eq rfl rfl))

@[simp] theorem State.memOk_endHold (s : State) (c : Nat) : (s.endHold c).MemOk ↔ s.MemOk := by
  unfold State.endHold
  simp

@[simp] theorem State.memOk_settleSite (s : State) (c : Nat) (hs : s.MemOk) : (s.settleSite c).MemOk := by
  unfold State.settleSite
  simp [hs]

@[simp] theorem State.memOk_saveForTest (s : State) (u : HwUnit) (hs : s.MemOk) : (s.saveForTest u).MemOk := by
  unfold State.saveForTest
  split
  · simp [hs]
  · exact hs

@[simp] theorem State.memOk_holdBare (s : State) (c u : Nat) (hs : s.MemOk) : (s.holdBare c u).MemOk := by
  unfold State.holdBare
  simp [hs]

@[simp] theorem State.memOk_endTest (s : State) (u : HwUnit) (lasting : Bool) (hs : s.MemOk) : (s.endTest u lasting).MemOk := by
  unfold State.endTest
  dsimp only
  (repeat' split) <;> simp [hs]

@[simp] theorem State.memOk_failHbm (s : State) (h : Nat) (a : AgeSample) (hs : s.MemOk) : (s.failHbm h a).MemOk := by
  unfold State.failHbm
  refine State.MemOk.foldl _ (fun _ _ h => ?_) _ _ ((State.memOk_modHbm _ _ _).2 hs)
  exact h.of_eq rfl rfl

/-! Fetch and issue -/

@[simp] theorem State.MemOk.fetch {s : State} (hs : s.MemOk) (c b : Nat) (pc : Word) (fresh : Bool) : (s.fetch c b pc fresh).2.MemOk := by
  unfold State.fetch
  split
  next x s1 e => exact (hs.resolve ..).of_pair e
  next parts s1 e => exact (hs.resolve ..).of_pair e

@[simp] theorem State.MemOk.fetchRun {s : State} (hs : s.MemOk) (c b : Nat) (fresh : Bool) (n : Nat) (pc : Word) :
    (s.fetchRun c b fresh n pc).2.MemOk := by
  induction n generalizing s pc with
  | zero => exact hs
  | succ n ih =>
    unfold State.fetchRun
    split
    next x s1 e => exact ih ((hs.fetch ..).of_pair e) _
    next w s1 e => exact ih ((hs.fetch ..).of_pair e) _

@[simp] theorem State.MemOk.refillLoop {s : State} (hs : s.MemOk) (c b : Nat) (e : LoopEntry) : (s.refillLoop c b e).2.MemOk := by
  unfold State.refillLoop
  split
  · exact hs
  · split
    next x s1 e => exact (hs.fetch ..).of_pair e
    next w s1 e =>
      have h1 := (hs.fetch ..).of_pair e
      simp [h1]

@[simp] theorem State.MemOk.fetchNext {s : State} (hs : s.MemOk) (c b : Nat) : (s.fetchNext c b).2.MemOk := by
  unfold State.fetchNext
  dsimp only
  split
  · exact hs.fetch ..
  · split
    next x s1 e => exact (hs.refillLoop ..).of_pair e
    next s1 e =>
      have h1 := (hs.refillLoop ..).of_pair e
      split
      · exact h1
      · exact h1.fetch ..

@[simp] theorem State.memOk_decoded (s : State) (c b : Nat) (w : Bundle) (hs : s.MemOk) : (s.decoded c b w).2.MemOk := by
  unfold State.decoded
  dsimp only
  (repeat' split) <;> simp [hs]

theorem Ctx.wf_before (k : Ctx) (m : Sparse Byte) (hm : Memory.wf m = true) : Memory.wf (k.before m) = true := by
  unfold Ctx.before
  split
  next q _ =>
    split
    · generalize q.acc = as
      induction as with
      | nil => exact hm
      | cons a as ih =>
        dsimp only [List.foldr]
        split
        · exact Sparse.wf_splice _ _ _ _ ih
        · exact ih
    · exact hm
  · exact hm

@[simp] theorem State.memOk_openIssue (s : State) (c b : Nat) (hs : s.MemOk) : (s.openIssue c b).MemOk :=
  ⟨hs.mem, Ctx.wf_before _ _ hs.mem⟩

@[simp] theorem State.memOk_stopForPreempt (t : State) (c b : Nat) : (t.stopForPreempt c b).MemOk ↔ t.MemOk := by
  unfold State.stopForPreempt
  simp

@[simp] theorem State.memOk_yieldTo (t : State) (c b : Nat) (ht : t.MemOk) : (t.yieldTo c b).2.MemOk := by
  unfold State.yieldTo
  dsimp only
  (repeat' split) <;> simp [ht]

@[simp] theorem State.memOk_switchBank (t : State) (c b : Nat) : (t.switchBank c b).MemOk ↔ t.MemOk := by
  unfold State.switchBank
  simp

@[simp] theorem State.memOk_afterBundle (t : State) (c b : Nat) (after : After) (ht : t.MemOk) : (t.afterBundle c b after).MemOk := by
  unfold State.afterBundle
  dsimp only
  (repeat' split) <;> simp [ht]

@[simp] theorem State.memOk_leave (t : State) (c b : Nat) (after : After) (ht : t.MemOk) : (t.leave c b after).MemOk := by
  unfold State.leave
  simp [ht, State.MemOk.flush]

@[simp] theorem State.MemOk.resolved {t : State} (ht : t.MemOk) (c b : Nat) (after : After) : (t.resolved c b after).2.MemOk := by
  unfold State.resolved
  split <;> simp [ht]

@[simp] theorem State.memOk_commitBundle (t : State) (body : List (Word × Bundle)) (ht : t.MemOk) : (t.commitBundle body).MemOk := by
  unfold State.commitBundle
  simp [ht]

@[simp] theorem State.memOk_raiseQw (s : State) (c b : Nat) : (s.raiseQw c b).MemOk ↔ s.MemOk := by
  unfold State.raiseQw
  dsimp only
  split <;> simp

@[simp] theorem State.memOk_keepWaiting (s : State) (x : Ctx) (w : Option Await) : (s.keepWaiting x w).MemOk ↔ s.MemOk := by
  unfold State.keepWaiting
  dsimp only
  split <;> simp

@[simp] theorem State.memOk_waitForWheel (s : State) (q : ScWait) : (s.waitForWheel q).MemOk ↔ s.MemOk := State.memOk_congr rfl rfl
@[simp] theorem State.memOk_keepTlbs (s t : State) : (s.keepTlbs t).MemOk ↔ s.MemOk := State.memOk_congr rfl rfl
@[simp] theorem State.memOk_keepStacks (s t : State) : (s.keepStacks t).MemOk ↔ s.MemOk := State.memOk_congr rfl rfl

@[simp] theorem State.memOk_closeIssue (s t : State) (body : List (Word × Bundle)) (hs : s.MemOk) (ht : t.MemOk) :
    (s.closeIssue t body).MemOk := by
  unfold State.closeIssue
  extract_lets c b waits s1
  have h1 : s1.MemOk := (State.memOk_keepTlbs _ t).2 ⟨hs.mem, ht.mem0⟩
  clear_value s1 waits
  split
  · simp [h1]
  · split
    · split
      · simp [h1]
      · split <;> simp [h1, ht]
    · simp [h1]
    · split <;> simp [h1]
    · simp [h1]
    · simp [h1]

@[simp] theorem State.memOk_refuseBundle (s : State) (cause sl : Nat) (epc : Word) (hs : s.MemOk) :
    (s.refuseBundle cause sl epc).MemOk := by
  unfold State.refuseBundle
  exact State.MemOk.raiseAs (s := { s with issue := { s.issue with slot := sl } }) (hs.of_eq rfl rfl) _ _

/-! The schedule -/

@[simp] theorem State.memOk_passFor (s : State) (n : Nat) (e : Nat × Nat) : (State.passFor n s e).MemOk ↔ s.MemOk :=
  State.memOk_congr rfl rfl
@[simp] theorem State.memOk_passHbm (s : State) (j : Nat) : (s.passHbm j).MemOk ↔ s.MemOk := State.memOk_congr rfl rfl

@[simp] theorem State.memOk_tick (s : State) : s.tick.MemOk ↔ s.MemOk := by
  unfold State.tick
  split
  · rfl
  · dsimp only
    exact (State.memOk_foldl _ _ _ State.memOk_passHbm).trans
      ((State.memOk_foldl _ _ _ fun s e => State.memOk_passFor s _ e).trans (State.memOk_congr rfl rfl))

theorem Out.memOk_anchored {s : State} (hs : s.MemOk) (os : List Opd) (wr : List Reg) {body : State → State} (hb : ∀ t, t.MemOk →
    (body t).MemOk) :
    (s.anchored os wr body).MemOk := by
  unfold State.anchored
  refine Out.memOk_ite _ (Out.memOk_next (hs.holdFor _)) (Out.memOk_ite _ (Out.memOk_next (by simpa using hs)) ?_)
  split
  · exact Out.memOk_next (hs.raise _ _)
  · exact Out.memOk_next (hb _ (by simpa using hs))

theorem Out.memOk_slipped {s : State} (hs : s.MemOk) (act : Bool) (os : List Opd) (wr : List Reg) {body : State → State}
    (hb : ∀ t, t.MemOk → (body t).MemOk) :
    (s.slipped act os wr body).MemOk := by
  have hl : (s.latchAll os).MemOk := by simpa using hs
  have hc : (if act then body (s.latchAll os) else s.latchAll os).MemOk := by
    split
    · exact hb _ hl
    · exact hl
  unfold State.slipped
  extract_lets rd spoilt s1 s2
  refine Out.memOk_ite _ (Out.memOk_next ?_) (Out.memOk_ite _ (Out.memOk_next (hs.holdFor _)) (Out.memOk_ite _ (Out.memOk_next (hs.raise _ _)) ?_))
  · split
    · exact hs.raise _ _
    · exact hc
  · have h2 : s2.MemOk := hc
    clear_value s2
    refine Out.memOk_ite _ (Out.memOk_next h2) (Out.memOk_ite _ (Out.memOk_next ?_) (Out.memOk_ite _ (Out.memOk_next ?_) (Out.memOk_next ?_)))
    · simpa using h2
    · simpa using h2
    · split <;> simpa using h2

theorem Out.memOk_vOp {s : State} (hs : s.MemOk) (whole : Bool) (os : List Opd) (wr : List Reg) {check : Option State}
    {body : State → State} (hc : CheckOk check) (hb : ∀ t, t.MemOk → (body t).MemOk) :
    (s.vOp whole os wr check body).MemOk := by
  refine Out.memOk_slipped hs _ _ _ fun t ht => ?_
  split
  · exact hc
  · exact hb t ht

theorem Out.memOk_mOp {s : State} (hs : s.MemOk) (srcs : List TSrc) (dsts : List (BitVec 6)) (rd : List Opd) (wr : List Reg)
    {body : List Nat → List Nat → State → State} (hb : ∀ ns ds t, t.MemOk → (body ns ds t).MemOk) :
    (s.mOp srcs dsts rd wr body).MemOk := by
  unfold State.mOp
  extract_lets ns ds os named ds'
  refine Out.memOk_ite _ (Out.memOk_slipped hs _ _ _ fun _ h => h)
    (Out.memOk_ite _ (Out.memOk_next (hs.raise _ _)) (Out.memOk_ite _ (Out.memOk_next (hs.holdFor _)) ?_))
  exact Out.memOk_slipped ((State.memOk_needs _ _).2 hs) _ _ _ (hb _ _)

/-! Checks of sources -/

@[simp] theorem checkOk_badTag {s : State} (hs : s.MemOk) (o : Opd) (fmt : Fmt) (ok : Fmt → Bool) : CheckOk (s.badTag o fmt ok) := by
  unfold State.badTag
  dsimp only
  repeat' split
  all_goals simp [hs, State.MemOk.raise]

@[simp] theorem checkOk_badTags {s : State} (hs : s.MemOk) (os : List Opd) (fmt : Fmt) (ok : Fmt → Bool) :
    CheckOk (s.badTags os fmt ok) := by
  unfold State.badTags
  split
  next t e => exact (CheckOk.findSome fun o _ => checkOk_badTag hs o fmt ok).trap e
  next =>
    split
    · simp
    · split <;> simp [hs]

@[simp] theorem checkOk_badTile {s : State} (hs : s.MemOk) (n : Nat) : CheckOk (s.badTile n) := by
  unfold State.badTile
  split <;> simp [hs, State.MemOk.raise]

@[simp] theorem checkOk_badTileTag {s : State} (hs : s.MemOk) (n : Nat) (ok : Fmt → Bool) : CheckOk (s.badTileTag n ok) := by
  unfold State.badTileTag
  split
  next t e => exact (checkOk_badTile hs n).trap e
  next => split <;> simp [hs]

@[simp] theorem checkOk_badAcc {s : State} (hs : s.MemOk) (n : Nat) (ok : Fmt → Bool) (required : Fmt) :
    CheckOk (s.badAcc n ok required) := by
  unfold State.badAcc
  dsimp only
  repeat' split
  all_goals simp [hs, State.MemOk.raise]

@[simp] theorem checkOk_badV {s : State} (hs : s.MemOk) (n : Nat) (ok : Fmt → Bool) (required : Fmt) :
    CheckOk (s.badV n ok required) := by
  unfold State.badV
  dsimp only
  repeat' split
  all_goals simp [hs, State.MemOk.raise]

@[simp] theorem checked_accFor {s : State} (hs : s.MemOk) (c : MClass) (n : Nat) (za : Bool) :
    Checked (fun _ => True) (s.accFor c n za) := by
  unfold State.accFor
  split
  · trivial
  · split
    next t e => exact (checkOk_badAcc hs ..).trap e
    next => trivial

@[simp] theorem checked_charged {s : State} (hs : s.MemOk) (c : MClass) (n : Nat) (acc : Acc) :
    Checked (fun _ => True) (s.charged c n acc) := by
  unfold State.charged
  repeat' split
  · trivial
  · exact hs.raise _ _
  · trivial

@[simp] theorem checked_mmaAcc {s : State} (hs : s.MemOk) (f : MX) (fa fb : Fmt) : Checked (fun _ => True) (s.mmaAcc f fa fb) := by
  unfold State.mmaAcc
  split
  · simp [hs]
  · split
    next t e => exact (checked_accFor hs ..).error e
    next acc e =>
      split
      next t e => exact (checked_charged hs ..).error e
      next => trivial

/-! Vector operations -/

theorem Out.memOk_v1 {s : State} (hs : s.MemOk) (f : SR) (ok : Fmt → Bool) (op : Fmt → Nat → Nat) : (s.v1 f ok op).MemOk :=
  Out.memOk_vOp hs _ _ _ (checkOk_badTags hs ..) fun _ ht => (State.memOk_vMerge ..).2 ht

theorem Out.memOk_v2 {s : State} (hs : s.MemOk) (f : SR) (ok : Fmt → Bool) (op : Fmt → Nat → Nat → Nat) : (s.v2 f ok op).MemOk :=
  Out.memOk_vOp hs _ _ _ (checkOk_badTags hs ..) fun _ ht => (State.memOk_vMerge ..).2 ht

theorem Out.memOk_v3 {s : State} (hs : s.MemOk) (f : SR) (ok : Fmt → Bool) (op : Fmt → Nat → Nat → Nat → Nat) : (s.v3 f ok op).MemOk :=
  Out.memOk_vOp hs _ _ _ (checkOk_badTags hs ..) fun _ ht => (State.memOk_vMerge ..).2 ht

theorem Out.memOk_vCmp {s : State} (hs : s.MemOk) (f : SR) (fl : Num → Num → Bool) (it : Int → Int → Bool) : (s.vCmp f fl it).MemOk :=
  Out.memOk_vOp hs _ _ _ (checkOk_badTags hs ..) fun _ ht => (State.memOk_putP ..).2 ht

theorem Out.memOk_vReduce {s : State} (hs : s.MemOk) (f : SR) (op : Fmt → Nat → Nat → Nat) (ident : Fmt → Nat) :
    (s.vReduce f op ident).MemOk :=
  Out.memOk_vOp hs _ _ _ (checkOk_badTags hs ..) fun _ ht => by
    dsimp only
    split <;> simp [ht]

theorem State.memOk_popWords {t t1 : State} (ht : t.MemOk) {n : Nat} {ws : List (BitVec 512)} (e : t.popWords n = some (ws, t1)) :
    t1.MemOk := by
  unfold State.popWords at e
  split at e
  · cases e
  · cases e; simp [ht]

theorem Out.memOk_vConvert {s : State} (hs : s.MemOk) (f : SR) (ok : Fmt → Bool) (make : CvtPlan → List (BitVec 512) → VReg) :
    (s.vConvert f ok make).MemOk := by
  unfold State.vConvert
  refine Out.memOk_vOp hs _ _ _ ?_ fun t ht => ?_
  · split <;> simp [hs, State.MemOk.raise]
  · split
    · exact ht.raise _ _
    · split
      next => exact ht.holdFor _
      next ws t1 e => simp [State.memOk_popWords ht e]

/-! Matrix operations -/

theorem Out.memOk_mmaImage {s : State} (hs : s.MemOk) (f : MX) (merge : Bool) : (s.mmaImage f merge).MemOk := by
  unfold State.mmaImage
  refine Out.memOk_mOp hs _ _ _ _ fun ns _ t ht => ?_
  dsimp only
  refine State.memOk_withImage t _ _ _ _ ht (fun g t ht => ?_) (fun g acc t ht => ?_)
  · split
    next bad e => exact (checkOk_badTile ht ..).trap e
    next =>
      have h := checked_mmaAcc ht f (s.tileIn (ns.getD 0 32)).tag g
      generalize t.mmaAcc f (s.tileIn (ns.getD 0 32)).tag g = r at h
      cases r with
      | error b => exact h
      | ok a => trivial
  · split
    next t2 e =>
      obtain ⟨-, e⟩ := Option.ite_none_right_eq_some.mp e
      unfold State.joinBuffer at e
      dsimp only at e
      split at e
      · cases e
      · cases e; exact ht.of_eq rfl rfl
    next =>
      refine State.memOk_withRows _ _ _ _ ht fun rows t ht => ?_
      split <;> simp [ht]

theorem Out.memOk_mmaTiles {s : State} (hs : s.MemOk) (f : MX) : (s.mmaTiles f).MemOk := by
  refine Out.memOk_mOp hs _ _ _ _ fun ns _ t ht => ?_
  dsimp only
  split
  next bad e => exact (CheckOk.findSome (by simp [ht])).trap e
  next =>
    split
    next bad e => exact (checked_mmaAcc ht ..).error e
    next => simp [ht]

theorem State.checked_loadExpander {s : State} (hs : s.MemOk) (xs : Nat) (va : Word) : Checked State.MemOk (s.loadExpander xs va) := by
  unfold State.loadExpander
  split
  · exact hs.raise _ _
  · split
    next x s1 e => simp [(hs.resolveIn ..).of_pair e]
    next parts s1 e =>
      have h1 := (hs.resolveIn ..).of_pair e
      split
      · exact h1.holdFor _
      · simpa using h1

theorem State.checked_projection {s : State} (hs : s.MemOk) (xs : Nat) (found : Fmt) :
    Checked (fun p => p.2.MemOk) (s.projection xs found) := by
  unfold State.projection
  dsimp only
  split
  · simp [hs]
  split
  · exact hs
  split
  next t e => exact (State.checked_loadExpander hs ..).error e
  next s1 e => exact (State.checked_loadExpander hs ..).ok e

theorem Out.memOk_absorb {s : State} (hs : s.MemOk) (f : MX) : (s.absorb f).MemOk := by
  refine Out.memOk_mOp hs _ _ _ _ fun ns _ t ht => ?_
  dsimp only
  split
  next bad e => exact (CheckOk.findSome (by simp [ht])).trap e
  next =>
    split
    next bad e => exact (State.checked_projection ht ..).error e
    next w t0 e =>
      have h0 : t0.MemOk := (State.checked_projection ht ..).ok e
      have h1 : (t0.needs fun q => { q with xs := some f.xs.toNat }).MemOk := by simpa using h0
      split
      next bad e => exact (checked_accFor h1 ..).error e
      next acc e => split <;> simp [h0]

theorem Out.memOk_applyScales {s : State} (hs : s.MemOk) (f : MX) (h : Nat) (ok : Fmt → Bool) : (s.applyScales f h ok).MemOk := by
  unfold State.applyScales
  refine Out.memOk_ite _ (Out.memOk_mOp hs _ _ _ _ fun ns _ t ht => ?_) (Out.memOk_mOp hs _ _ _ _ fun ns _ t ht => ?_)
  · refine State.memOk_withImage t _ _ _ _ ht (fun g t ht => ?_) (fun g acc t ht => State.memOk_withRows _ _ _ _ ht fun rows t ht => by simp [ht])
    split
    next bad e => exact (CheckOk.findSome (by simp [ht])).trap e
    next => trivial
  · exact memOk_orElse (by simp [ht]) (by simp [ht])

theorem Out.memOk_execTtrn {s : State} (hs : s.MemOk) (f : MX) : (execTtrn f s).MemOk := by
  unfold execTtrn
  refine Out.memOk_mOp hs _ _ _ _ fun ns ds t ht => ?_
  extract_lets n ta
  have hc : CheckOk (if ta.tag.width = 8 && 2 < f.cm.toNat then some (t.raise 0x0F 0) else none) := by
    split <;> simp [ht, State.MemOk.raise]
  exact memOk_orElse (List.forall_mem_cons.2 ⟨checkOk_badTileTag ht .., List.forall_mem_singleton.2 hc⟩) ((State.memOk_putT ..).2 ht)

theorem Out.memOk_execTrow {s : State} (hs : s.MemOk) (f : MX) : (execTrow f s).MemOk := by
  unfold execTrow
  refine Out.memOk_mOp hs _ _ _ _ fun ns ds t ht => ?_
  exact memOk_orElse (List.forall_mem_singleton.2 (checkOk_badTileTag ht ..)) ((State.memOk_putV ..).2 ht)

theorem Out.memOk_execTwrow {s : State} (hs : s.MemOk) (f : MX) : (execTwrow f s).MemOk := by
  unfold execTwrow
  refine Out.memOk_mOp hs _ _ _ _ fun ns ds t ht => ?_
  exact memOk_orElse (List.forall_mem_cons.2 ⟨checkOk_badV ht .., List.forall_mem_cons.2 ⟨checkOk_badTile ht ..,
    List.forall_mem_singleton.2 (checkOk_badV ht ..)⟩⟩) ((State.memOk_putT ..).2 ht)

theorem Out.memOk_execArow {s : State} (hs : s.MemOk) (f : MX) : (execArow f s).MemOk := by
  unfold execArow
  refine Out.memOk_mOp hs _ _ _ _ fun ns ds t ht => ?_
  exact memOk_orElse (List.forall_mem_singleton.2 (checkOk_badAcc ht ..)) ((State.memOk_putV ..).2 ht)

theorem Out.memOk_execAwrow {s : State} (hs : s.MemOk) (f : MX) : (execAwrow f s).MemOk := by
  unfold execAwrow
  refine Out.memOk_mOp hs _ _ _ _ fun ns ds t ht => ?_
  exact memOk_orElse (List.forall_mem_cons.2 ⟨checkOk_badV ht .., List.forall_mem_cons.2 ⟨checkOk_badAcc ht ..,
    List.forall_mem_singleton.2 (checkOk_badV ht ..)⟩⟩) ((State.memOk_putA ..).2 ht)

theorem Out.memOk_execTred {s : State} (hs : s.MemOk) (f : MX) : (execTred f s).MemOk := by
  refine Out.memOk_mOp hs _ _ _ _ fun ns _ t ht => ?_
  dsimp only
  split
  next bad e => exact (checkOk_badTile ht ..).trap e
  next =>
    split
    · simp [ht]
    · split
      next bad e => exact (checked_accFor ht ..).error e
      next acc e =>
        split
        next bad e => exact (checked_charged ht ..).error e
        next acc e => simp [ht]

theorem Out.memOk_execAadd {s : State} (hs : s.MemOk) (f : MX) : (execAadd f s).MemOk := by
  unfold execAadd
  refine Out.memOk_mOp hs _ _ _ _ fun _ _ t ht => ?_
  dsimp only
  split
  next bad e => exact (CheckOk.findSome (by simp [ht])).trap e
  next =>
    split
    next bad e => exact (checked_charged ht ..).error e
    next acc e => simp [ht]

theorem Out.memOk_execAfold {s : State} (hs : s.MemOk) (f : MX) : (execAfold f s).MemOk := by
  unfold execAfold
  refine Out.memOk_mOp hs _ _ _ _ fun _ _ t ht => ?_
  dsimp only
  split
  next bad e => exact (checkOk_badAcc ht ..).trap e
  next =>
    split
    · simp [ht]
    · have hc : CheckOk (if f.za = 1 then none else t.badAcc f.acc.toNat (· == .acc32i) .acc32i) := by split <;> simp [ht]
      split
      next bad e => exact hc.trap e
      next => simp [ht]

theorem execQueued_memOk (i : Instr) {s : State} (hs : s.MemOk) : Out.MemOk (execQueued i s) := by
  cases i with
  | vabs _ _ | vneg _ _ | vrcp _ _ | vrsq _ _ | vexp2 _ _ | vlog2 _ _ =>
    dsimp only [execQueued]
    exact Out.memOk_v1 hs ..
  | vadd _ _ | vsub _ _ | vmul _ _ | vmin _ _ | vmax _ _ | vdiv _ | vand _ _ | vor _ _ | vxor _ _ | vshl _ _ | vshr _ _ | vsar _ _ =>
    dsimp only [execQueued]
    exact Out.memOk_v2 hs ..
  | vfma _ _ | vfms _ _ =>
    dsimp only [execQueued]
    exact Out.memOk_v3 hs ..
  | vceq _ _ | vcne _ _ | vclt _ _ | vcle _ _ =>
    dsimp only [execQueued]
    exact Out.memOk_vCmp hs ..
  | vradd _ | vrmax _ | vrmin _ =>
    dsimp only [execQueued]
    exact Out.memOk_vReduce hs ..
  | vcvt _ _ | vqnt _ _ | vdqnt _ _ =>
    dsimp only [execQueued]
    exact Out.memOk_vConvert hs ..
  | vsel _ _ | vrot _ _ | vscan _ =>
    dsimp only [execQueued]
    exact Out.memOk_vOp hs _ _ _ (checkOk_badTags hs ..) fun _ ht => (State.memOk_vMerge ..).2 ht
  | vbcst _ _ | viota _ _ =>
    dsimp only [execQueued]
    exact Out.memOk_vOp hs _ _ _ checkOk_none fun _ ht => (State.memOk_vMerge ..).2 ht
  | vmov _ _ =>
    dsimp only [execQueued]
    refine Out.memOk_vOp hs _ _ _ checkOk_none fun t ht => ?_
    dsimp only
    split <;> simp [ht]
  | vins _ _ | vcmpr _ =>
    dsimp only [execQueued]
    exact Out.memOk_vOp hs _ _ _ (checkOk_badTags hs ..) fun _ ht => (State.memOk_putV ..).2 ht
  | vxtr _ _ | vargmx _ =>
    dsimp only [execQueued]
    exact Out.memOk_vOp hs _ _ _ (checkOk_badTags hs ..) fun _ ht => (State.memOk_putX ..).2 ht
  | vperm f =>
    dsimp only [execQueued]
    refine Out.memOk_vOp hs _ _ _ ?_ fun _ ht => (State.memOk_vMerge ..).2 ht
    split
    next t e => exact (checkOk_badTags hs ..).trap e
    next => exact checkOk_badTag hs ..
  | vsortk f =>
    dsimp only [execQueued]
    refine Out.memOk_vOp hs _ _ _ ?_ fun _ ht => (State.memOk_putPairs ..).2 ht
    split
    next t e => exact (checkOk_badTag hs ..).trap e
    next => exact checkOk_badTag hs ..
  | vmrgk f =>
    dsimp only [execQueued]
    refine Out.memOk_vOp hs _ _ _ ?_ fun _ ht => (State.memOk_putPairs ..).2 ht
    split
    next t e => exact (checkOk_badTags hs ..).trap e
    next => exact checkOk_badTags hs ..
  | vtag _ _ =>
    dsimp only [execQueued]
    exact Out.memOk_vOp hs _ _ _ (checkOk_badTag hs ..) fun _ ht => (State.memOk_putV ..).2 ht
  | vgtag _ _ =>
    dsimp only [execQueued]
    exact Out.memOk_vOp hs _ _ _ checkOk_none fun _ ht => (State.memOk_putX ..).2 ht
  | mma f =>
    dsimp only [execQueued]
    exact Out.memOk_ite _ (Out.memOk_mmaImage hs ..) (Out.memOk_mmaTiles hs ..)
  | mmaAbs f =>
    dsimp only [execQueued]
    exact Out.memOk_absorb hs f
  | mmam f =>
    dsimp only [execQueued]
    exact Out.memOk_ite _ (Out.memOk_absorb hs ..) (Out.memOk_ite _ (Out.memOk_mmaImage hs ..) (Out.memOk_mmaTiles hs ..))
  | ascl f | acvt f =>
    dsimp only [execQueued]
    exact Out.memOk_applyScales hs ..
  | azero f =>
    dsimp only [execQueued]
    exact Out.memOk_mOp hs _ _ _ _ fun _ _ _ ht => (State.memOk_putA ..).2 ht
  | tzero f | tmov f =>
    dsimp only [execQueued]
    exact Out.memOk_mOp hs _ _ _ _ fun _ _ _ ht => (State.memOk_putT ..).2 ht
  | ttrn f =>
    dsimp only [execQueued]
    exact Out.memOk_execTtrn hs f
  | tprm f | ttag f =>
    dsimp only [execQueued]
    exact Out.memOk_mOp hs _ _ _ _ fun _ _ t ht => memOk_orElse (by simp [ht]) ((State.memOk_putT ..).2 ht)
  | trow f =>
    dsimp only [execQueued]
    exact Out.memOk_execTrow hs f
  | twrow f =>
    dsimp only [execQueued]
    exact Out.memOk_execTwrow hs f
  | arow f =>
    dsimp only [execQueued]
    exact Out.memOk_execArow hs f
  | awrow f =>
    dsimp only [execQueued]
    exact Out.memOk_execAwrow hs f
  | tred f =>
    dsimp only [execQueued]
    exact Out.memOk_execTred hs f
  | aadd f =>
    dsimp only [execQueued]
    exact Out.memOk_execAadd hs f
  | afold f =>
    dsimp only [execQueued]
    exact Out.memOk_execAfold hs f
  | lxld f =>
    dsimp only [execQueued]
    refine Out.memOk_mOp hs _ _ _ _ fun _ _ t ht => ?_
    split
    next bad e => exact (State.checked_loadExpander ht ..).error e
    next t1 e => exact State.MemOk.modCur ((State.checked_loadExpander ht ..).ok e) _
  | lxinv f =>
    dsimp only [execQueued]
    exact Out.memOk_mOp hs _ _ _ _ fun _ _ t ht => by simp [ht]
  | _ => exact Out.memOk_next hs

/-! An operation as it leaves its queue -/

theorem State.memOk_carryOut {s : State} (hs : s.MemOk) (c b : Nat) (e : QEntry) (o : LateOp) : (s.carryOut c b e o).MemOk := by
  have ht := State.memOk_openLate s c b e o hs
  exact Out.memOk_ite _ (Out.memOk_next (ht.raise _ _)) (execQueued_memOk _ ht)

@[simp] theorem State.memOk_issueHead (s : State) (c b slot : Nat) (hs : s.MemOk) : (s.issueHead c b slot).MemOk := by
  unfold State.issueHead
  split
  · exact hs
  next e _ =>
    extract_lets u
    have hu : u.MemOk := by unfold u; split <;> simp [hs]
    clear_value u
    refine State.MemOk.ite hu ?_
    split
    next o _ => exact State.memOk_runLate _ _ _ _ _ hu (State.memOk_carryOut hu ..)
    next => simp [hu]

/-! Events -/

theorem Out.memOk_event {s : State} (hs : s.MemOk) {f : State → State} (hf : ∀ s, s.MemOk → (f s).MemOk) : (s.event f).MemOk :=
  Out.memOk_next ((State.memOk_settle _).2 (hf s hs))

theorem Out.memOk_execCopyElementWrite {s : State} (hs : s.MemOk) : (execCopyElementWrite s).MemOk := by
  refine Out.memOk_event hs fun s hs => ?_
  dsimp only
  split
  · exact State.MemOk.ite hs (State.memOk_runUnit _ _ _ _ hs fun s h => State.memOk_copyUnit s _ _ h)
  · simp [hs]

theorem Out.memOk_execCopyFault {s : State} (hs : s.MemOk) : (execCopyFault s).MemOk := by
  refine Out.memOk_event hs fun s hs => ?_
  split
  next q _ =>
    have hu : (if q.desc.mode = 5 then s.frameUnit s.arg.core q else s.copyUnit s.arg.core q).2.MemOk := by split <;> simp [hs]
    split
    next x s1 e => simp [hu.of_pair e]
    next => exact hs
  next => exact hs

theorem Out.memOk_execDramlocFrame {s : State} (hs : s.MemOk) : (execDramlocFrame s).MemOk := by
  refine Out.memOk_event hs fun s hs => ?_
  split
  · exact State.MemOk.ite hs (State.memOk_runUnit _ _ _ _ hs fun s h => h.frameUnit _ _)
  · exact hs

theorem Out.memOk_execFaultRecordWrite {s : State} (hs : s.MemOk) : (execFaultRecordWrite s).MemOk := by
  refine Out.memOk_event hs fun s hs => ?_
  split
  · split
    · exact hs.of_eq rfl rfl
    · split
      · exact State.memOk_writeRecord _ _ (hs.of_eq rfl rfl)
      · exact hs
  · exact hs

theorem Out.memOk_execHandlePageLand {s : State} (hs : s.MemOk) : (execHandlePageLand s).MemOk := by
  refine Out.memOk_event hs fun s hs => ?_
  dsimp only
  split
  · exact hs
  next r _ =>
    have hw : ({ s with reads := s.reads.filter fun o => o.n ≠ r.n }.landPage s.arg.n s.arg.m r.page (r.got.getD false)).MemOk :=
      State.memOk_landPage _ _ _ _ _ (hs.of_eq rfl rfl)
    split
    · simp [hs]
    · refine State.MemOk.ite hw ?_
      split
      · exact hw
      next parts s1 e => simp [(State.memOk_pageDest _ _ _ hs).of_pair e]

theorem Out.memOk_execHostBar4Write {s : State} (hs : s.MemOk) : (execHostBar4Write s).MemOk := by
  refine Out.memOk_event hs fun s hs => State.MemOk.foldl _ (fun t e h => ?_) _ _ hs
  split
  · exact h.putBytes _ _ _
  · exact h

theorem Out.memOk_execLinkArrival {s : State} (hs : s.MemOk) : (execLinkArrival s).MemOk := by
  refine Out.memOk_event hs fun s hs => ?_
  dsimp only
  split
  · exact hs
  split
  · simp [hs]
  · simp [hs, State.MemOk.putParts]

theorem Out.memOk_execPowerCapTick {s : State} (hs : s.MemOk) : (execPowerCapTick s).MemOk := by
  refine Out.memOk_event hs fun s hs => ?_
  split
  · exact hs
  next p _ =>
    extract_lets s1 n held u pkg s2 pkg2 s3
    have h1 : s1.MemOk := State.memOk_sense _ _ hs
    have h2 : s2.MemOk := by
      unfold s2
      split
      · exact h1.of_eq rfl rfl
      · exact h1
    clear_value s2
    have h3 : s3.MemOk := h2.of_eq rfl rfl
    clear_value s3
    exact State.MemOk.ite ((State.memOk_signal _ _).2 h3) h3

theorem Out.memOk_execPowerGood {s : State} (hs : s.MemOk) : (execPowerGood s).MemOk :=
  Out.memOk_event hs fun _ hs => ⟨Sparse.wf_filter _ _ _ hs.mem, rfl⟩

theorem Out.memOk_execProbeGrant {s : State} (hs : s.MemOk) : (execProbeGrant s).MemOk := by
  refine Out.memOk_event hs fun s hs => ?_
  split
  · dsimp only
    split
    · exact hs
    split
    · simp [hs]
    split
    · simp [hs]
    · refine (State.memOk_modJob ..).2 ((State.memOk_letIn ..).2 ?_)
      exact hs.of_eq rfl rfl
  · exact hs

theorem Out.memOk_execGridTaskPost {s : State} (hs : s.MemOk) : (execGridTaskPost s).MemOk := by
  refine Out.memOk_event hs fun s hs => ?_
  split
  · exact hs
  · dsimp only
    split
    · exact hs
    split
    · exact (State.memOk_rejectBare ..).2 (hs.of_eq rfl rfl)
    split
    · exact State.memOk_enterRec _ _ _ _ _ _ _ _ (hs.of_eq rfl rfl)
    · exact hs

theorem Out.memOk_execHostPostEnter {s : State} (hs : s.MemOk) : (execHostPostEnter s).MemOk := by
  refine Out.memOk_event hs fun s hs => ?_
  dsimp only
  split
  · exact hs
  next e _ =>
    have h1 : State.MemOk { s with disp := { s.disp with host := s.disp.host.erase e } } := hs.of_eq rfl rfl
    split
    · exact (State.memOk_rejectBare ..).2 (State.MemOk.ite ((State.memOk_consume ..).2 h1) h1)
    split
    · exact (State.memOk_queueRec ..).2 h1
    · exact hs

theorem Out.memOk_execStackDissolve {s : State} (hs : s.MemOk) : (execStackDissolve s).MemOk := by
  refine Out.memOk_event hs fun s hs => ?_
  split
  next st _ =>
    refine State.MemOk.ite ((State.memOk_dropStack ..).2 ?_) hs
    exact State.MemOk.foldl _ (fun s m h => State.memOk_reissue s st m h) _ _ hs
  next => exact hs

theorem Out.memOk_execStackEngineStart {s : State} (hs : s.MemOk) : (execStackEngineStart s).MemOk := by
  refine Out.memOk_event hs fun s hs => ?_
  dsimp only
  split
  · exact hs
  split
  · exact hs
  split
  · simp [hs]
  split
  next parts s1 e => simp [(hs.memberImage ..).of_pair e]
  next x s1 e => simp [(hs.memberImage ..).of_pair e]

theorem Out.memOk_execStage2Complete {s : State} (hs : s.MemOk) : (execStage2Complete s).MemOk := by
  refine Out.memOk_event hs fun s hs => ?_
  dsimp only
  split
  · exact hs
  split
  · simp [hs]
  · refine (State.memOk_bootChange ..).2 (State.MemOk.of_eq (s := List.foldl _ _ _) ?_ rfl rfl)
    exact (State.memOk_foldl _ _ _ fun _ _ => State.memOk_modFlash ..).2 (hs.of_eq rfl rfl)

theorem Out.memOk_execSweepVerdict {s : State} (hs : s.MemOk) : (execSweepVerdict s).MemOk := by
  refine Out.memOk_event hs fun s hs => ?_
  split
  · refine State.MemOk.ite hs (State.MemOk.foldl _ (fun s e h => ?_) _ _ (hs.of_eq rfl rfl))
    exact State.MemOk.ite (h.modJob _ _) h
  · exact hs

theorem Out.memOk_execThermalTrip {s : State} (hs : s.MemOk) : (execThermalTrip s).MemOk := by
  refine Out.memOk_event hs fun s hs => ?_
  split
  · exact hs
  · refine State.MemOk.ite hs ?_
    extract_lets s1
    have h1 : s1.MemOk := State.MemOk.foldl _ (fun _ j h => h.startKill j) _ _ hs
    clear_value s1
    exact (State.memOk_signal ..).2 ((State.memOk_bootChange ..).2 (h1.of_eq rfl rfl))

theorem Out.memOk_execXwaveStart {s : State} (hs : s.MemOk) : (execXwaveStart s).MemOk := by
  refine Out.memOk_event hs fun s hs => ?_
  extract_lets j q early
  refine State.MemOk.ite hs ?_
  exact (State.memOk_passOn ..).2 ((State.memOk_startPass ..).2 ((State.memOk_modJob ..).2 (hs.of_eq rfl rfl)))

theorem Out.memOk_execRemoteMessageReceive {s : State} (hs : s.MemOk) : (execRemoteMessageReceive s).MemOk := by
  refine Out.memOk_event hs fun s hs => ?_
  split
  · exact hs
  · exact State.MemOk.ite hs ((State.memOk_inject ..).2 (hs.of_eq rfl rfl))

theorem Out.memOk_execStage0Complete {s : State} (hs : s.MemOk) : (execStage0Complete s).MemOk := by
  refine Out.memOk_event hs fun s hs => State.MemOk.ite hs (State.MemOk.ite ((State.memOk_bootChange ..).2 hs) ?_)
  exact (State.memOk_bootChange ..).2 (hs.of_eq rfl rfl)

theorem Out.memOk_execCooldownRestart {s : State} (hs : s.MemOk) : (execCooldownRestart s).MemOk := by
  refine Out.memOk_event hs fun s hs => ?_
  split
  · exact hs
  · exact State.MemOk.ite hs ((State.memOk_bootChange ..).2 (hs.of_eq rfl rfl))

theorem Out.memOk_execReductionAck {s : State} (hs : s.MemOk) : (execReductionAck s).MemOk := by
  refine Out.memOk_event hs fun s hs => ?_
  split
  · exact hs
  · exact (State.memOk_consume ..).2 (hs.of_eq rfl rfl)

theorem Out.memOk_execEventArrival {s : State} (hs : s.MemOk) : (execEventArrival s).MemOk := by
  refine Out.memOk_event hs fun s hs => ?_
  split
  · exact hs
  · exact State.MemOk.ite ((State.memOk_modCtx ..).2 (hs.of_eq rfl rfl)) (hs.of_eq rfl rfl)

theorem Out.memOk_execBlockEraseComplete {s : State} (hs : s.MemOk) : (execBlockEraseComplete s).MemOk :=
  Out.memOk_event hs fun _ hs => State.MemOk.ite hs ((State.memOk_modFlash ..).2 (hs.of_eq rfl rfl))

theorem Out.memOk_execRelocationRemap {s : State} (hs : s.MemOk) : (execRelocationRemap s).MemOk :=
  Out.memOk_event hs fun _ hs => State.MemOk.ite hs ((State.memOk_modFlash ..).2 (hs.of_eq rfl rfl))

theorem Out.memOk_execMailboxDone {s : State} (hs : s.MemOk) : (execMailboxDone s).MemOk :=
  Out.memOk_event hs fun _ hs => State.MemOk.ite ((State.memOk_signal ..).2 (hs.of_eq rfl rfl)) hs

theorem Out.memOk_execUeRetransmit {s : State} (hs : s.MemOk) : (execUeRetransmit s).MemOk :=
  Out.memOk_event hs fun _ hs => hs.of_eq rfl rfl

theorem Out.memOk_execMwait {s : State} (hs : s.MemOk) : (execMwait s).MemOk := by
  refine Out.memOk_ite _ (Out.memOk_next (hs.holdFor _)) (Out.memOk_ite _ (Out.memOk_next ?_) (Out.memOk_slipped hs _ _ _ fun _ h => h))
  simp [hs]

theorem Out.memOk_execBlockedPostAdmit {s : State} (hs : s.MemOk) : (execBlockedPostAdmit s).MemOk := by
  refine Out.memOk_event hs fun s hs => ?_
  repeat' split
  all_goals simp [hs]

theorem Out.memOk_execCopyComplete {s : State} (hs : s.MemOk) : (execCopyComplete s).MemOk := by
  refine Out.memOk_event hs fun s hs => ?_
  dsimp only
  repeat' split
  all_goals simp [hs]

theorem Out.memOk_execEphemUpdate {s : State} (hs : s.MemOk) : (execEphemUpdate s).MemOk := by
  refine Out.memOk_event hs fun s hs => ?_
  dsimp only
  repeat' split
  all_goals simp [hs]

theorem Out.memOk_execExpansionSelect {s : State} (hs : s.MemOk) : (execExpansionSelect s).MemOk := by
  refine Out.memOk_event hs fun s hs => ?_
  repeat' split
  all_goals simp [hs]

theorem Out.memOk_execFlashPageRead {s : State} (hs : s.MemOk) : (execFlashPageRead s).MemOk := by
  refine Out.memOk_event hs fun s hs => ?_
  dsimp only
  repeat' split
  all_goals simp [hs]

theorem Out.memOk_execFlashProgramComplete {s : State} (hs : s.MemOk) : (execFlashProgramComplete s).MemOk := by
  refine Out.memOk_event hs fun s hs => ?_
  dsimp only
  repeat' split
  all_goals simp [hs]

theorem Out.memOk_execGatingTimeout {s : State} (hs : s.MemOk) : (execGatingTimeout s).MemOk := by
  refine Out.memOk_event hs fun s hs => ?_
  repeat' split
  all_goals simp [hs]

theorem Out.memOk_execHandleTableAnswer {s : State} (hs : s.MemOk) : (execHandleTableAnswer s).MemOk := by
  refine Out.memOk_event hs fun s hs => ?_
  repeat' split
  all_goals simp [hs]

theorem Out.memOk_execMessageArrival {s : State} (hs : s.MemOk) : (execMessageArrival s).MemOk := by
  refine Out.memOk_event hs fun s hs => ?_
  dsimp only
  repeat' split
  all_goals simp [hs]

theorem Out.memOk_execMessageHandover {s : State} (hs : s.MemOk) : (execMessageHandover s).MemOk := by
  refine Out.memOk_event hs fun s hs => ?_
  repeat' split
  all_goals simp [hs]

theorem Out.memOk_execProbeSend {s : State} (hs : s.MemOk) : (execProbeSend s).MemOk := by
  refine Out.memOk_event hs fun s hs => ?_
  dsimp only
  repeat' split
  all_goals simp [hs]

theorem Out.memOk_execStackSplit {s : State} (hs : s.MemOk) : (execStackSplit s).MemOk := by
  refine Out.memOk_event hs fun s hs => ?_
  dsimp only
  repeat' split
  all_goals simp [hs]

theorem Out.memOk_execSweepPass2 {s : State} (hs : s.MemOk) : (execSweepPass2 s).MemOk := by
  refine Out.memOk_event hs fun s hs => ?_
  repeat' split
  all_goals simp [hs]

theorem Out.memOk_execSweepWaveStart {s : State} (hs : s.MemOk) : (execSweepWaveStart s).MemOk := by
  refine Out.memOk_event hs fun s hs => ?_
  repeat' split
  all_goals simp [hs]

theorem Out.memOk_execTileLoadComplete {s : State} (hs : s.MemOk) : (execTileLoadComplete s).MemOk := by
  refine Out.memOk_event hs fun s hs => ?_
  dsimp only
  repeat' split
  all_goals simp [hs]

theorem Out.memOk_execUeAbandon {s : State} (hs : s.MemOk) : (execUeAbandon s).MemOk := by
  refine Out.memOk_event hs fun s hs => ?_
  repeat' split
  all_goals simp [hs]

theorem Out.memOk_execUeAckReceive {s : State} (hs : s.MemOk) : (execUeAckReceive s).MemOk := by
  refine Out.memOk_event hs fun s hs => ?_
  repeat' split
  all_goals simp [hs]

theorem Out.memOk_execXwaveReplyReceive {s : State} (hs : s.MemOk) : (execXwaveReplyReceive s).MemOk := by
  refine Out.memOk_event hs fun s hs => ?_
  repeat' split
  all_goals simp [hs]

theorem Out.memOk_execXwaveReplyTimeout {s : State} (hs : s.MemOk) : (execXwaveReplyTimeout s).MemOk := by
  refine Out.memOk_event hs fun s hs => ?_
  repeat' split
  all_goals simp [hs]

theorem Out.memOk_execXwaveRequestReceive {s : State} (hs : s.MemOk) : (execXwaveRequestReceive s).MemOk := by
  refine Out.memOk_event hs fun s hs => ?_
  dsimp only
  repeat' split
  all_goals simp [hs]

theorem Out.memOk_execXwaveVerdictReceive {s : State} (hs : s.MemOk) : (execXwaveVerdictReceive s).MemOk := by
  refine Out.memOk_event hs fun s hs => ?_
  dsimp only
  repeat' split
  all_goals simp [hs]

/-! Operations that the issue of their bundle carries out -/

theorem Out.memOk_putX {s : State} (hs : s.MemOk) (os : List Opd) (wr : List Reg) (n : Nat) (v : Word) :
    (s.anchored os wr fun t => t.putX n v).MemOk :=
  Out.memOk_anchored hs _ _ fun _ ht => (State.memOk_putX ..).2 ht

theorem Out.memOk_putP {s : State} (hs : s.MemOk) (os : List Opd) (wr : List Reg) (n : Nat) (v : Word) :
    (s.anchored os wr fun t => t.putP n v).MemOk :=
  Out.memOk_anchored hs _ _ fun _ ht => (State.memOk_putP ..).2 ht

theorem Out.memOk_sDraw {s : State} (hs : s.MemOk) (f : SR) (op : Nat → Word) : (s.sDraw f op).MemOk := by
  refine Out.memOk_anchored hs _ _ fun t ht => ?_
  split
  next => exact ht.holdFor _
  next ws t1 e => simp [State.memOk_popWords ht e]

/-! Loads and stores -/

theorem Out.memOk_load {s : State} (hs : s.MemOk) (f : MEM) (w : Nat) (sgn : Bool) : (s.load f w sgn).MemOk := by
  unfold State.load
  refine Out.memOk_anchored hs _ _ fun t ht => State.memOk_roomForLoad _ _ ht fun t ht => ?_
  refine State.MemOk.ite (ht.raise _ _) (State.memOk_access _ _ _ _ _ ht fun parts t ht => ?_)
  refine State.MemOk.ite (State.memOk_seqCst _ _ _ _ _ _ _ ht fun v b t ht => ?_) ?_ <;> simp [ht]

theorem Out.memOk_store {s : State} (hs : s.MemOk) (f : MEM) (w : Nat) : (s.store f w).MemOk := by
  unfold State.store
  refine Out.memOk_anchored hs _ _ fun t ht => State.MemOk.ite (ht.raise _ _) (State.memOk_access _ _ _ _ _ ht fun parts t ht => ?_)
  split <;> simp [ht]

theorem Out.memOk_atomic {s : State} (hs : s.MemOk) (f : MEM) (op : Nat) : (s.atomic f op).MemOk := by
  unfold State.atomic
  extract_lets va w d i cas pair val rd land
  have hl (t : State) (m : Nat) (bad : Bool) (ht : t.MemOk) : (land t m bad).MemOk := by
    unfold land
    split <;> simp [ht]
  clear_value land
  refine Out.memOk_anchored hs _ _ fun t ht => State.memOk_roomForLoad _ _ ht fun t ht => ?_
  refine State.MemOk.ite (ht.raise _ _) (State.memOk_access _ _ _ _ _ ht fun parts t ht => ?_)
  extract_lets key act
  have ha (t : State) (ht : t.MemOk) : (act t).MemOk := hl _ _ _ (State.memOk_atomicIn _ _ _ _ _ _ ht)
  clear_value act
  refine State.MemOk.ite (State.memOk_seqCst _ _ _ _ _ _ _ ht fun v b t ht => hl _ _ _ ht) ?_
  refine State.MemOk.ite (ht.holdFor _) (State.MemOk.ite (State.memOk_afterStores _ _ _ ht ha) ?_)
  exact State.MemOk.ite (State.memOk_afterStores _ _ _ ht ha) (ha _ ht)

theorem Out.memOk_reduce {s : State} (hs : s.MemOk) (f : MEM) (op : Nat) : (s.reduce f op).MemOk := by
  unfold State.reduce
  refine Out.memOk_anchored hs _ _ fun t ht => State.MemOk.ite (ht.raise _ _) ?_
  extract_lets r out
  have ho (r : Reduction) (t : State) (ht : t.MemOk) : (out r t).MemOk := (State.memOk_inject ..).2 (ht.of_eq rfl rfl)
  clear_value out
  split
  · exact ho _ _ ht
  · refine State.MemOk.ite (ht.holdFor _) ?_
    extract_lets act
    have ha (t : State) (ht : t.MemOk) : (act t).MemOk := by
      refine ho _ _ ?_
      have h1 (who : Nat) (op key w v compare : Nat) := State.memOk_atomicAt t who op key w v compare ht
      exact State.MemOk.ite ((State.memOk_reductionRecord ..).2 (h1 ..)) (h1 ..)
    exact State.MemOk.ite (State.memOk_afterStores _ _ _ ht ha) (ha _ ht)

theorem Out.memOk_execLdq {s : State} (hs : s.MemOk) (f : MEM) : (execLdq f s).MemOk := by
  unfold execLdq
  refine Out.memOk_anchored hs _ _ fun t ht => State.memOk_roomForLoad _ _ ht fun t ht => ?_
  exact State.MemOk.ite (ht.raise _ _) (State.memOk_access _ _ _ _ _ ht fun parts t ht => by simp [ht])

theorem Out.memOk_execVld {s : State} (hs : s.MemOk) (f : MEM) : (execVld f s).MemOk := by
  unfold execVld
  refine Out.memOk_anchored hs _ _ fun t ht => State.memOk_roomForLoad _ _ ht fun t ht => ?_
  exact State.MemOk.ite (ht.raise _ _) (State.memOk_access _ _ _ _ _ ht fun parts t ht => by simp [ht])

theorem Out.memOk_execVlds {s : State} (hs : s.MemOk) (f : MEM) : (execVlds f s).MemOk := by
  unfold execVlds
  refine Out.memOk_anchored hs _ _ fun t ht => State.memOk_roomForLoad _ _ ht fun t ht => ?_
  split
  · exact ht.raise _ _
  · exact State.memOk_access _ _ _ _ _ ht fun parts t ht => by simp [ht]

theorem checkOk_gatherChecks {t : State} (ht : t.MemOk) (s : State) (f : SR) : CheckOk (t.gatherChecks s f) := by
  unfold State.gatherChecks
  dsimp only
  repeat' split
  all_goals simp [ht, State.MemOk.raise]

theorem checkOk_badData {t : State} (ht : t.MemOk) (s : State) (d : Nat) (ok : Fmt → Bool) (required : Fmt) :
    CheckOk (t.badData s d ok required) := by
  unfold State.badData
  dsimp only
  repeat' split
  all_goals simp [ht, State.MemOk.raise]

/-- A store of data with a tag, which is checked before it commits. -/
theorem State.memOk_commitChecked {t : State} (ht : t.MemOk) {o : Option State} (ho : CheckOk o) (f : MEM) (data : List
    (Nat × List Byte)) (unit : Nat) :
    (orElse [o] (t.commitStore f data unit)).MemOk :=
  memOk_orElse (List.forall_mem_singleton.2 ho) (State.memOk_commitStore _ _ _ _ ht)

theorem Out.memOk_execVgth {s : State} (hs : s.MemOk) (f : SR) : (execVgth f s).MemOk := by
  unfold execVgth
  refine Out.memOk_anchored hs _ _ fun t ht => ?_
  split
  next bad e => exact (checkOk_gatherChecks ht ..).trap e
  next =>
    refine State.memOk_roomForLoad _ _ ht fun t ht => ?_
    exact State.memOk_access _ _ _ _ _ ht fun parts t ht => by simp [ht]

theorem Out.memOk_execStq {s : State} (hs : s.MemOk) (f : MEM) : (execStq f s).MemOk := by
  unfold execStq
  refine Out.memOk_anchored hs _ _ fun t ht => State.MemOk.ite (ht.raise _ _) ?_
  exact State.memOk_access _ _ _ _ _ ht fun parts t ht => State.memOk_commitStore _ _ _ _ ht

theorem Out.memOk_execVst {s : State} (hs : s.MemOk) (f : MEM) : (execVst f s).MemOk := by
  unfold execVst
  refine Out.memOk_anchored hs _ _ fun t ht => State.MemOk.ite (ht.raise _ _) ?_
  exact State.memOk_access _ _ _ _ _ ht fun parts t ht => State.memOk_commitChecked ht (checkOk_badData ht ..) ..

theorem Out.memOk_execVsts {s : State} (hs : s.MemOk) (f : MEM) : (execVsts f s).MemOk := by
  unfold execVsts
  refine Out.memOk_anchored hs _ _ fun t ht => ?_
  split
  · exact ht.raise _ _
  · exact State.memOk_access _ _ _ _ _ ht fun parts t ht => State.memOk_commitChecked ht (checkOk_badData ht ..) ..

theorem Out.memOk_execVsct {s : State} (hs : s.MemOk) (f : SR) : (execVsct f s).MemOk := by
  unfold execVsct
  refine Out.memOk_anchored hs _ _ fun t ht => ?_
  split
  next bad e => exact (checkOk_gatherChecks ht ..).trap e
  next => exact State.memOk_access _ _ _ _ _ ht fun parts t ht => State.memOk_commitChecked ht (checkOk_badData ht ..) ..

theorem Out.memOk_execPst {s : State} (hs : s.MemOk) (f : MEM) : (execPst f s).MemOk := by
  unfold execPst
  refine Out.memOk_anchored hs _ _ fun t ht => State.MemOk.ite (ht.raise _ _) ?_
  exact State.memOk_access _ _ _ _ _ ht fun parts t ht => State.memOk_commitChecked ht (checkOk_badData ht ..) ..

theorem CheckOk.map {α : Type} {o : Option α} {f : α → State} (hf : ∀ a, (f a).MemOk) : CheckOk (o.map f) := by
  cases o with
  | none => trivial
  | some a => exact hf a

theorem checkOk_kvUnaligned (s : State) (f : SR) {t : State} (ht : t.MemOk) : CheckOk (s.kvUnaligned f t) := by
  unfold State.kvUnaligned
  exact CheckOk.map fun r => ht.raise _ _ _ _

theorem Out.memOk_tileLoad {s : State} (hs : s.MemOk) (f : SR) (unaligned : State → Option State)
    (body : Nat → Option Nat → State → State) (hu : ∀ t, t.MemOk → CheckOk (unaligned t)) (hb : ∀ n ring t, t.MemOk →
    (body n ring t).MemOk) :
    (s.tileLoad f unaligned body).MemOk := by
  unfold State.tileLoad
  refine Out.memOk_anchored hs _ _ fun t ht => ?_
  split
  next bad e => exact (hu t ht).trap e
  next => exact ht.raise _ _
  next n ring _ _ => exact State.memOk_roomForLoad _ _ ht (hb n ring)

theorem Out.memOk_tileStore {s : State} (hs : s.MemOk) (d : BitVec 6) (os : List Opd) (unaligned : State → Option State)
    (body : Nat → State → State) (hu : ∀ t, t.MemOk → CheckOk (unaligned t)) (hb : ∀ n t, t.MemOk → (body n t).MemOk) :
    (s.tileStore d os unaligned body).MemOk := by
  unfold State.tileStore
  refine Out.memOk_anchored hs _ _ fun t ht => ?_
  split
  next bad e => exact (hu t ht).trap e
  next => exact ht.raise _ _
  next n filled => exact State.MemOk.ite (hb _ _ ht) (ht.holdFor _)

theorem Out.memOk_execTld {s : State} (hs : s.MemOk) (f : SR) : (execTld f s).MemOk := by
  unfold execTld
  exact Out.memOk_tileLoad hs _ _ _ (fun t ht => CheckOk.map fun va => ht.raise _ _) fun n ring t ht =>
    State.memOk_access _ _ _ _ _ ht fun parts t ht => by simp [ht]

theorem Out.memOk_execTldkLat8 {s : State} (hs : s.MemOk) (f : SR) : (execTldkLat8 f s).MemOk := by
  unfold execTldkLat8
  exact Out.memOk_tileLoad hs _ _ _ (fun _ ht => checkOk_kvUnaligned s f ht) fun _ _ _ ht =>
    State.memOk_kvGather _ _ _ _ ht fun _ _ _ ht => (State.memOk_modCur ..).2 ht

theorem Out.memOk_execTldkExpand {s : State} (hs : s.MemOk) (f : SR) : (execTldkExpand f s).MemOk := by
  unfold execTldkExpand
  refine Out.memOk_tileLoad hs _ _ _ (fun _ ht => checkOk_kvUnaligned s f ht) fun n ring t ht =>
    State.memOk_kvGather _ _ _ _ ht fun recs bad t ht => ?_
  split
  next bad e => exact (State.checked_projection ht ..).error e
  next w t1 e => exact (State.memOk_modCur ..).2 ((State.checked_projection ht ..).ok e)

theorem Out.memOk_execTst {s : State} (hs : s.MemOk) (f : MEM) : (execTst f s).MemOk := by
  unfold execTst
  refine Out.memOk_tileStore hs _ _ _ _ (fun t ht => ?_) fun n t ht => State.memOk_access _ _ _ _ _ ht fun parts t ht =>
    State.memOk_commitChecked ht (checkOk_badTile ht ..) ..
  split <;> simp [ht, State.MemOk.raise]

theorem Out.memOk_execTstk {s : State} (hs : s.MemOk) (f : SR) : (execTstk f s).MemOk := by
  unfold execTstk
  refine Out.memOk_tileStore hs _ _ _ _ (fun _ ht => checkOk_kvUnaligned s f ht) fun n t ht => ?_
  split
  next bad e => exact (State.checked_kvEntries ht ..).error e
  next rows t1 e =>
    have h1 : t1.MemOk := (State.checked_kvEntries ht ..).ok e
    dsimp only
    split
    next x t2 e => simp [(h1.resolveIn ..).of_pair e]
    next parts t2 e =>
      have h2 := (h1.resolveIn ..).of_pair e
      refine memOk_orElse (List.forall_mem_cons.2 ⟨checkOk_badTile h2 _, List.forall_mem_cons.2 ⟨?_, List.forall_mem_singleton.2 ?_⟩⟩)
        (State.memOk_commitStore _ _ _ _ h2)
      · exact CheckOk.ite checkOk_none (by simp [h2])
      · exact CheckOk.ite (h2.raise _ _) checkOk_none

theorem Out.memOk_execLdblk {s : State} (hs : s.MemOk) (f : MEM) : (execLdblk f s).MemOk := by
  unfold execLdblk
  refine Out.memOk_anchored hs _ _ fun t ht => State.MemOk.ite (ht.raise _ _) ?_
  split
  · exact ht.raise _ _
  · refine State.MemOk.ite (ht.raise _ _) (State.memOk_access _ _ _ _ _ ht fun parts t ht => ?_)
    exact State.MemOk.ite (ht.raise _ _) (by simp [ht])

theorem Out.memOk_execLbwait {s : State} (hs : s.MemOk) (f : MEM) : (execLbwait f s).MemOk := by
  unfold execLbwait
  refine Out.memOk_anchored hs _ _ fun t ht => State.MemOk.ite (ht.raise _ _) ?_
  exact State.MemOk.ite (by simp [ht]) (State.MemOk.ite (by simp [ht]) (State.MemOk.ite (by simp [ht]) (ht.holdFor _)))

theorem Out.memOk_execLinv {s : State} (hs : s.MemOk) (f : MEM) : (execLinv f s).MemOk := by
  unfold execLinv
  refine Out.memOk_anchored hs _ _ fun _ ht => State.memOk_access _ _ _ _ _ ht fun _ t ht => State.MemOk.foldl _ (fun _ _ h => ?_) _ t ht
  exact h.modCore _ _

theorem Out.memOk_execLwb {s : State} (hs : s.MemOk) (f : MEM) : (execLwb f s).MemOk := by
  unfold execLwb
  refine Out.memOk_anchored hs _ _ fun t ht => ?_
  split
  · exact ht.writeBack _ _ _ _
  · split
    next x t1 e => simp [(ht.resolveIn ..).of_pair e]
    next parts t1 e => exact State.MemOk.resolveIn (s := { t with free := t1.free }) (ht.of_eq rfl rfl) _ _

theorem Out.memOk_execLzero {s : State} (hs : s.MemOk) (f : MEM) : (execLzero f s).MemOk := by
  unfold execLzero
  refine Out.memOk_anchored hs _ _ fun t ht => State.MemOk.ite (ht.raise _ _) ?_
  exact State.memOk_access _ _ _ _ _ ht fun parts t ht => State.memOk_commitStore _ _ _ _ ht

/-! Control, posts and barriers -/

theorem Out.memOk_execLbrk {s : State} (hs : s.MemOk) (f : SR) : (execLbrk f s).MemOk := by
  unfold execLbrk
  refine Out.memOk_anchored hs _ _ fun t ht => ?_
  split
  · exact ht.raise _ _
  · simp [ht]

theorem Out.memOk_execRep {s : State} (hs : s.MemOk) (f : SI) : (execRep f s).MemOk := by
  unfold execRep
  refine Out.memOk_ite _ (Out.memOk_next hs) (Out.memOk_anchored hs _ _ fun t ht => ?_)
  exact State.MemOk.ite (ht.raise _ _) (by simp [ht])

theorem Out.memOk_post {s : State} (hs : s.MemOk) (f : SR) (kind : Nat) : (s.post f kind).MemOk := by
  unfold State.post
  refine Out.memOk_anchored hs _ _ fun t ht => State.MemOk.ite (ht.raise _ _) (State.memOk_access _ _ _ _ _ ht fun parts t ht => ?_)
  refine State.MemOk.ite (ht.raise _ _) ?_
  have h1 : (t.afterRead parts).MemOk := by simpa using ht
  refine State.MemOk.ite (by simp [h1]) (State.MemOk.ite (by simp [h1]) (State.MemOk.ite (h1.holdFor _) ?_))
  exact State.memOk_afterStores _ _ _ h1 fun t ht => by simp [ht]

theorem Out.memOk_execJadd {s : State} (hs : s.MemOk) (f : SI) : (execJadd f s).MemOk := by
  unfold execJadd
  refine Out.memOk_anchored hs _ _ fun t ht => State.MemOk.ite (ht.raise _ _) (State.memOk_access _ _ _ _ _ ht fun parts t ht => ?_)
  extract_lets key act
  have ha (t : State) (ht : t.MemOk) : (act t).MemOk := State.memOk_atomicAt _ _ _ _ _ _ _ ht
  clear_value act
  exact State.MemOk.ite (ht.holdFor _) (State.MemOk.ite (State.memOk_afterStores _ _ _ ht ha) (ha _ ht))

theorem Out.memOk_execEndp {s : State} (hs : s.MemOk) (f : SR) : (execEndp f s).MemOk := by
  unfold execEndp
  refine Out.memOk_anchored hs _ _ fun t ht => State.MemOk.ite (ht.holdFor _) (State.MemOk.ite (ht.raise _ _) ?_)
  refine State.memOk_access _ _ _ _ _ ht fun parts t ht => State.MemOk.ite (ht.raise _ _) ?_
  refine State.memOk_afterStores _ _ _ (by simpa using ht) fun t ht => ?_
  dsimp only
  split <;> simp [ht]

theorem Out.memOk_execWhwait {s : State} (hs : s.MemOk) (f : SR) : (execWhwait f s).MemOk := by
  unfold execWhwait
  refine Out.memOk_anchored hs _ _ fun t ht => ?_
  split
  · exact ht.raise _ _
  · exact ht.raise _ _
  · exact ht.parkFor _
  · exact ht

theorem Out.memOk_execBinit {s : State} (hs : s.MemOk) (f : SR) : (execBinit f s).MemOk := by
  unfold execBinit
  exact Out.memOk_anchored hs _ _ fun _ ht => State.memOk_barrierOp _ _ _ _ _ ht fun _ _ ht => State.memOk_setBarrier _ _ _ _ ht

theorem Out.memOk_execBexp {s : State} (hs : s.MemOk) (f : SR) : (execBexp f s).MemOk := by
  unfold execBexp
  exact Out.memOk_anchored hs _ _ fun _ ht => State.memOk_barrierOp _ _ _ _ _ ht fun _ _ ht => State.memOk_setBarrier _ _ _ _ ht

theorem Out.memOk_execBarv {s : State} (hs : s.MemOk) (f : SR) : (execBarv f s).MemOk := by
  unfold execBarv
  exact Out.memOk_anchored hs _ _ fun _ ht => State.memOk_barrierOp _ _ _ _ _ ht fun _ _ ht =>
    State.memOk_afterStores _ _ _ ht fun _ ht => State.memOk_setBarrier _ _ _ _ ht

theorem Out.memOk_execBwait {s : State} (hs : s.MemOk) (f : SR) : (execBwait f s).MemOk := by
  unfold execBwait
  exact Out.memOk_anchored hs _ _ fun _ ht => State.memOk_barrierOp _ _ _ _ _ ht fun _ _ ht =>
    State.MemOk.ite ((State.memOk_putRead ..).2 ht) (ht.holdFor _)

theorem Out.memOk_execBtest {s : State} (hs : s.MemOk) (f : SR) : (execBtest f s).MemOk := by
  unfold execBtest
  exact Out.memOk_anchored hs _ _ fun _ ht => State.memOk_barrierOp _ _ _ _ _ ht fun _ _ ht => (State.memOk_putRead ..).2 ht

theorem Out.memOk_execBwany {s : State} (hs : s.MemOk) (f : SR) : (execBwany f s).MemOk := by
  unfold execBwany
  refine Out.memOk_anchored hs _ _ fun t ht => State.MemOk.ite (ht.raise _ _) ?_
  split
  · exact ht.raiseFault _ _ _ _
  · extract_lets look runs
    have hl (t : State) (ht : t.MemOk) : (look t).MemOk := by
      unfold look
      split
      · simp [ht]
      · exact ht.holdFor _
    clear_value look
    exact State.MemOk.ite (ht.holdFor _) (State.MemOk.ite (State.memOk_afterStores _ _ _ ht hl) (hl _ ht))

theorem Out.memOk_execWaita {s : State} (hs : s.MemOk) (f : SR) : (execWaita f s).MemOk := by
  unfold execWaita
  refine Out.memOk_anchored hs _ _ fun t ht => State.MemOk.ite (ht.raise _ _) (State.memOk_access _ _ _ _ _ ht fun parts t ht => ?_)
  exact State.MemOk.ite (by simp [ht]) ((State.memOk_modCur ..).2 (ht.holdFor _))

theorem Out.memOk_execFence {s : State} (hs : s.MemOk) (f : SR) : (execFence f s).MemOk := by
  unfold execFence
  exact Out.memOk_anchored hs _ _ fun _ ht => State.MemOk.ite (ht.holdFor _)
    (State.memOk_afterStores _ _ _ ht fun _ ht => (State.memOk_refetch ..).2 ht)

theorem Out.memOk_execDrain {s : State} (hs : s.MemOk) (f : SR) : (execDrain f s).MemOk := by
  unfold execDrain
  exact Out.memOk_anchored hs _ _ fun _ ht => State.MemOk.ite (ht.holdFor _)
    (State.memOk_afterStores _ _ _ ht fun _ ht => (State.memOk_refetch ..).2 ht)

theorem Out.memOk_execQinit {s : State} (hs : s.MemOk) (f : SI) : (execQinit f s).MemOk := by
  unfold execQinit
  exact Out.memOk_anchored hs _ _ fun _ ht => State.MemOk.ite (ht.holdFor _) (ht.modCur _)

theorem Out.memOk_execQadvh {s : State} (hs : s.MemOk) (f : SI) : (execQadvh f s).MemOk := by
  unfold execQadvh
  exact Out.memOk_anchored hs _ _ fun _ ht => State.MemOk.ite (ht.raise _ _) (State.MemOk.ite (ht.holdFor _) (ht.modCur _))

theorem Out.memOk_execQadvt {s : State} (hs : s.MemOk) (f : SI) : (execQadvt f s).MemOk := by
  unfold execQadvt
  exact Out.memOk_anchored hs _ _ fun _ ht => State.MemOk.ite (ht.raise _ _) (State.MemOk.ite (ht.modCur _) (ht.modCur _))

theorem Out.memOk_supervised {s : State} (hs : s.MemOk) {o : Out} (ho : o.MemOk) : (s.supervised o).MemOk :=
  Out.memOk_ite _ (Out.memOk_next (hs.raise _ _)) ho

theorem Out.memOk_execMfs {s : State} (hs : s.MemOk) (f : SI) : (execMfs f s).MemOk := by
  unfold execMfs
  exact Out.memOk_ite _ (Out.memOk_next (hs.raise _ _)) (Out.memOk_ite _ (Out.memOk_next (hs.raise _ _)) (Out.memOk_putX hs ..))

theorem Out.memOk_execMts {s : State} (hs : s.MemOk) (f : SI) : (execMts f s).MemOk := by
  unfold execMts
  exact Out.memOk_ite _ (Out.memOk_next (hs.raise _ _)) (Out.memOk_ite _ (Out.memOk_next (hs.raise _ _))
    (Out.memOk_anchored hs _ _ fun _ ht => (State.memOk_setSysReg ..).2 ht))

theorem Out.memOk_execCsave {s : State} (hs : s.MemOk) (f : SR) : (execCsave f s).MemOk := by
  unfold execCsave
  refine Out.memOk_supervised hs (Out.memOk_anchored hs _ _ fun t ht => State.MemOk.ite (ht.raise _ _) ?_)
  split
  · simp [ht]
  · simp [ht]
  · exact State.memOk_access _ _ _ _ _ ht fun parts t ht => State.memOk_saveBank _ _ _ ht

theorem Out.memOk_execCload {s : State} (hs : s.MemOk) (f : SR) : (execCload f s).MemOk := by
  unfold execCload
  refine Out.memOk_supervised hs (Out.memOk_anchored hs _ _ fun t ht => State.MemOk.ite (ht.raise _ _) ?_)
  refine State.MemOk.ite (by simp [ht]) (State.memOk_access _ _ _ _ _ ht fun parts t ht => State.MemOk.ite (ht.raise _ _) ?_)
  exact State.MemOk.ite (by simp [ht]) (by simp [ht])

theorem Out.memOk_execCtxsw {s : State} (hs : s.MemOk) (f : SR) : (execCtxsw f s).MemOk := by
  unfold execCtxsw
  exact Out.memOk_supervised hs (Out.memOk_anchored hs _ _ fun t ht => State.MemOk.ite (by simp [ht]) (by simp [ht]))

theorem Out.memOk_execEret {s : State} (hs : s.MemOk) : (execEret s).MemOk := by
  unfold execEret
  exact Out.memOk_supervised hs (Out.memOk_anchored hs _ _ fun t ht => State.MemOk.ite (ht.raise _ _) (by simp [ht]))

theorem Out.memOk_execEvt {s : State} (hs : s.MemOk) (f : SI) : (execEvt f s).MemOk := by
  unfold execEvt
  refine Out.memOk_anchored hs _ _ fun t ht => State.MemOk.ite (ht.raise _ _) ?_
  exact ht.of_eq rfl rfl

theorem Out.memOk_execEndTask {s : State} (hs : s.MemOk) : (execEndTask s).MemOk := by
  unfold execEndTask
  refine Out.memOk_anchored hs _ _ fun t ht => State.MemOk.ite (ht.holdFor _) (State.memOk_afterStores _ _ _ ht fun t ht => ?_)
  split <;> simp [ht]

theorem Out.memOk_execQuiet {s : State} (hs : s.MemOk) : (execQuiet s).MemOk := by
  unfold execQuiet
  refine Out.memOk_anchored hs _ _ fun t ht => ?_
  split
  · exact State.MemOk.ite ht (ht.holdFor _)
  · exact ht.holdFor _

/-! Engine, handles, messages and links -/

theorem Out.memOk_execCbar {s : State} (hs : s.MemOk) (f : SR) : (execCbar f s).MemOk := by
  unfold execCbar
  refine Out.memOk_anchored hs _ _ fun t ht => State.MemOk.ite (by simp [ht]) (State.MemOk.ite (ht.raise _ _) ?_)
  split
  · exact ht.raiseFault _ _ _ _
  · simp [ht]

theorem Out.memOk_execCgo {s : State} (hs : s.MemOk) (f : SR) : (execCgo f s).MemOk := by
  unfold execCgo
  refine Out.memOk_anchored hs _ _ fun t ht => State.MemOk.ite (ht.raise _ _) (State.MemOk.ite (ht.holdFor _) ?_)
  exact State.memOk_afterStores _ _ _ ht fun t ht => by simp [ht]

theorem Out.memOk_execWhreq {s : State} (hs : s.MemOk) (f : SR) : (execWhreq f s).MemOk := by
  unfold execWhreq
  refine Out.memOk_ite _ (Out.memOk_next (hs.holdFor _)) (Out.memOk_anchored ?_ _ _ fun t ht => State.memOk_request _ _ _ _ _ _ ht)
  exact State.MemOk.ite hs (by simpa using hs)

theorem Out.memOk_execWhrel {s : State} (hs : s.MemOk) (f : SR) : (execWhrel f s).MemOk := by
  unfold execWhrel
  refine Out.memOk_anchored hs _ _ fun t ht => State.MemOk.ite (by simp [ht]) (State.MemOk.ite (ht.holdFor _) ?_)
  exact State.MemOk.ite (ht.holdFor _) (by simp [ht])

theorem Out.memOk_execMsend {s : State} (hs : s.MemOk) (f : SR) : (execMsend f s).MemOk := by
  unfold execMsend
  exact Out.memOk_anchored hs _ _ fun _ ht => State.memOk_send _ _ _ _ _ ht checkOk_none

theorem Out.memOk_execMsendv {s : State} (hs : s.MemOk) (f : SR) : (execMsendv f s).MemOk := by
  unfold execMsendv
  refine Out.memOk_anchored hs _ _ fun t ht => State.memOk_send _ _ _ _ _ ht ?_
  split <;> simp [ht, State.MemOk.raise]

theorem Out.memOk_execLsend {s : State} (hs : s.MemOk) (f : SR) : (execLsend f s).MemOk := by
  unfold execLsend
  refine Out.memOk_anchored hs _ _ fun t ht => State.memOk_linkOp _ _ _ _ _ _ ht fun t ht => State.memOk_access _ _ _ _ _ ht fun parts t ht => ?_
  exact State.MemOk.ite (ht.raise _ _) (by simp [ht])

theorem Out.memOk_execLrecv {s : State} (hs : s.MemOk) (f : SR) : (execLrecv f s).MemOk := by
  unfold execLrecv
  refine Out.memOk_anchored hs _ _ fun t ht => State.memOk_linkOp _ _ _ _ _ _ ht fun t ht => State.MemOk.ite (ht.raise _ _) ?_
  refine State.memOk_access _ _ _ _ _ ht fun parts t ht => State.MemOk.ite (ht.holdFor _) (State.memOk_afterStores _ _ _ ht fun t ht => ?_)
  exact State.MemOk.ite (ht.holdFor _) (State.memOk_writeParts _ _ _ _ (ht.modJob _ _))

/-! Every instruction -/

theorem Out.memOk_of_queued {i : Instr} {s : State} (h : execQueued i s = exec i s) (hs : s.MemOk) : Out.MemOk (exec i s) :=
  h ▸ execQueued_memOk i hs

theorem exec_memOk (i : Instr) {s : State} (hs : s.MemOk) : Out.MemOk (exec i s) := by
  cases i with
  | nop => exact Out.memOk_next hs
  | vadd _ _ | vsub _ _ | vmul _ _ | vfma _ _ | vfms _ _ | vmin _ _ | vmax _ _ | vabs _ _ | vneg _ _ | vdiv _ | vrcp _ _ | vrsq _ _
  | vexp2 _ _ | vlog2 _ _ | vand _ _ | vor _ _ | vxor _ _ | vshl _ _ | vshr _ _ | vsar _ _ | vceq _ _ | vcne _ _ | vclt _ _ | vcle _ _
  | vsel _ _ | vmov _ _ | vbcst _ _ | viota _ _ | vxtr _ _ | vins _ _ | vradd _ | vrmax _ | vrmin _ | vscan _ | vargmx _ | vperm _
  | vrot _ _ | vcmpr _ | vsortk _ | vmrgk _ | vcvt _ _ | vqnt _ _ | vdqnt _ _ | vtag _ _ | vgtag _ _ | mma _ | mmaAbs _ | mmam _ | ttrn _
  | tprm _ | tred _ | azero _ | aadd _ | ascl _ | acvt _ | afold _ | arow _ | awrow _ | tzero _ | tmov _ | trow _ | twrow _ | ttag _
  | lxld _ | lxinv _ =>
    exact Out.memOk_of_queued rfl hs
  | add _ | sub _ | mul _ | mulh _ | mulhu _ | div _ | divu _ | rem _ | and _ | or _ | xor _ | addi _ | andi _ | ori _ | shl _ | shr _ | sar _
  | shli _ | shri _ | sari _ | clz _ | ctz _ | popc _ | min _ | max _ | minu _ | maxu _ | sel _ | li _ | lih _ | addsh _ | bfx _ | bfi _ | widf _
  | pget _ | pcnt _ | pfirst _ | fadd _ | fsub _ | fmul _ | ffma _ | fmin _ | fmax _ | fcvti _ | fcvtf _ | lidx _ | whtest _ | cstat _ | qtest _ =>
    dsimp only [exec]
    exact Out.memOk_putX hs ..
  | cmpeq _ | cmpne _ | cmplt _ | cmpltu _ | cmple _ | cmpleu _ | cmpeqi _ | cmplti _ | cmpltui _ | pand _ | por _ | pxor _ | pandn _ | pset _
  | fclt _ | fcle _ =>
    dsimp only [exec]
    exact Out.memOk_putP hs ..
  | rndq _ | rndf _ =>
    dsimp only [exec]
    exact Out.memOk_sDraw hs ..
  | ldb _ | ldbu _ | ldh _ | ldhu _ | ldw _ | ldwu _ | ldd _ =>
    dsimp only [exec]
    exact Out.memOk_load hs ..
  | stb _ | sth _ | stw _ | std _ =>
    dsimp only [exec]
    exact Out.memOk_store hs ..
  | amadd _ | amswp _ | amcas _ | amcas16 _ | ammin _ | ammax _ | amminu _ | ammaxu _ | amand _ | amor _ | amxor _ | amfadd _ =>
    dsimp only [exec]
    exact Out.memOk_atomic hs ..
  | rdadd _ | rdmin _ | rdmax _ | rdand _ | rdor _ | rdxor _ | rdfadd _ =>
    dsimp only [exec]
    exact Out.memOk_reduce hs ..
  | waitaTimeout | longWaitPark | slotQueueIssue | loadDataReturn | matrixResultWrite | expanderLoadComplete | loadBlockFilled
  | generatorRefill | scStamp | scPerform | reductionPerform | placement | aging | stageAllocation | hostPost | launch
  | stackDeadlineRelease | copyStart | handleReady | handleError | handleReleaseFree | handoverAck | retirementNotice | timer
  | preemptOverdue | fqtailWrite | losstailWrite | ortailReplay | ortailDiscard | replay | preemptReq | preemptRel | preqRequest
  | preqHeldRelease | kill | killComplete | jobCreate | jobTeardown | teardownComplete | tlbiGo | tlbiComplete | rctlBind | rctlUnbind
  | unbindWritebackDone | hptEpoch | zfreePush | mbGetid | mbAttest | mbVerify | mbUpdate | finjWrite | vfslotsWrite | fgrantWrite
  | dispcntRead | fhealthCRead | hptCntRead | colcntRead | huncRead | registerWrite | hostBar4Read | stage1Complete | unitError
  | collimationTestDone | storePerform | hptCtlWrite =>
    dsimp only [exec]
    exact Out.memOk_event hs fun s hs => by simp [hs]
  | lbrk f => exact Out.memOk_execLbrk hs f
  | rep f => exact Out.memOk_execRep hs f
  | jadd f => exact Out.memOk_execJadd hs f
  | endp f => exact Out.memOk_execEndp hs f
  | whwait f => exact Out.memOk_execWhwait hs f
  | binit f => exact Out.memOk_execBinit hs f
  | barv f => exact Out.memOk_execBarv hs f
  | bexp f => exact Out.memOk_execBexp hs f
  | bwait f => exact Out.memOk_execBwait hs f
  | btest f => exact Out.memOk_execBtest hs f
  | bwany f => exact Out.memOk_execBwany hs f
  | waita f => exact Out.memOk_execWaita hs f
  | fence f => exact Out.memOk_execFence hs f
  | drain f => exact Out.memOk_execDrain hs f
  | qinit f => exact Out.memOk_execQinit hs f
  | qadvh f => exact Out.memOk_execQadvh hs f
  | qadvt f => exact Out.memOk_execQadvt hs f
  | mfs f => exact Out.memOk_execMfs hs f
  | mts f => exact Out.memOk_execMts hs f
  | csave f => exact Out.memOk_execCsave hs f
  | cload f => exact Out.memOk_execCload hs f
  | ctxsw f => exact Out.memOk_execCtxsw hs f
  | evt f => exact Out.memOk_execEvt hs f
  | ldq f => exact Out.memOk_execLdq hs f
  | vld f => exact Out.memOk_execVld hs f
  | vlds f => exact Out.memOk_execVlds hs f
  | vgth f => exact Out.memOk_execVgth hs f
  | tld f => exact Out.memOk_execTld hs f
  | tldkLat8 f => exact Out.memOk_execTldkLat8 hs f
  | tldkExpand f => exact Out.memOk_execTldkExpand hs f
  | ldblk f => exact Out.memOk_execLdblk hs f
  | lbwait f => exact Out.memOk_execLbwait hs f
  | stq f => exact Out.memOk_execStq hs f
  | vst f => exact Out.memOk_execVst hs f
  | vsts f => exact Out.memOk_execVsts hs f
  | vsct f => exact Out.memOk_execVsct hs f
  | pst f => exact Out.memOk_execPst hs f
  | tst f => exact Out.memOk_execTst hs f
  | tstk f => exact Out.memOk_execTstk hs f
  | linv f => exact Out.memOk_execLinv hs f
  | lwb f => exact Out.memOk_execLwb hs f
  | lzero f => exact Out.memOk_execLzero hs f
  | cbar f => exact Out.memOk_execCbar hs f
  | cgo f => exact Out.memOk_execCgo hs f
  | whreq f => exact Out.memOk_execWhreq hs f
  | whrel f => exact Out.memOk_execWhrel hs f
  | msend f => exact Out.memOk_execMsend hs f
  | msendv f => exact Out.memOk_execMsendv hs f
  | lsend f => exact Out.memOk_execLsend hs f
  | lrecv f => exact Out.memOk_execLrecv hs f
  | endTask => exact Out.memOk_execEndTask hs
  | quiet => exact Out.memOk_execQuiet hs
  | eret => exact Out.memOk_execEret hs
  | mwait => exact Out.memOk_execMwait hs
  | tileLoadComplete => exact Out.memOk_execTileLoadComplete hs
  | gatingTimeout => exact Out.memOk_execGatingTimeout hs
  | blockedPostAdmit => exact Out.memOk_execBlockedPostAdmit hs
  | probeSend => exact Out.memOk_execProbeSend hs
  | probeGrant => exact Out.memOk_execProbeGrant hs
  | expansionSelect => exact Out.memOk_execExpansionSelect hs
  | hostPostEnter => exact Out.memOk_execHostPostEnter hs
  | gridTaskPost => exact Out.memOk_execGridTaskPost hs
  | stackEngineStart => exact Out.memOk_execStackEngineStart hs
  | stackSplit => exact Out.memOk_execStackSplit hs
  | stackDissolve => exact Out.memOk_execStackDissolve hs
  | copyElementWrite => exact Out.memOk_execCopyElementWrite hs
  | dramlocFrame => exact Out.memOk_execDramlocFrame hs
  | copyFault => exact Out.memOk_execCopyFault hs
  | copyComplete => exact Out.memOk_execCopyComplete hs
  | handlePageLand => exact Out.memOk_execHandlePageLand hs
  | flashPageRead => exact Out.memOk_execFlashPageRead hs
  | relocationRemap => exact Out.memOk_execRelocationRemap hs
  | blockEraseComplete => exact Out.memOk_execBlockEraseComplete hs
  | messageArrival => exact Out.memOk_execMessageArrival hs
  | messageHandover => exact Out.memOk_execMessageHandover hs
  | reductionAck => exact Out.memOk_execReductionAck hs
  | remoteMessageReceive => exact Out.memOk_execRemoteMessageReceive hs
  | sweepWaveStart => exact Out.memOk_execSweepWaveStart hs
  | sweepPass2 => exact Out.memOk_execSweepPass2 hs
  | sweepVerdict => exact Out.memOk_execSweepVerdict hs
  | xwaveStart => exact Out.memOk_execXwaveStart hs
  | xwaveRequestReceive => exact Out.memOk_execXwaveRequestReceive hs
  | xwaveReplyReceive => exact Out.memOk_execXwaveReplyReceive hs
  | xwaveReplyTimeout => exact Out.memOk_execXwaveReplyTimeout hs
  | xwaveVerdictReceive => exact Out.memOk_execXwaveVerdictReceive hs
  | ueRetransmit => exact Out.memOk_execUeRetransmit hs
  | ueAckReceive => exact Out.memOk_execUeAckReceive hs
  | ueAbandon => exact Out.memOk_execUeAbandon hs
  | linkArrival => exact Out.memOk_execLinkArrival hs
  | faultRecordWrite => exact Out.memOk_execFaultRecordWrite hs
  | mailboxDone => exact Out.memOk_execMailboxDone hs
  | hostBar4Write => exact Out.memOk_execHostBar4Write hs
  | powerGood => exact Out.memOk_execPowerGood hs
  | stage0Complete => exact Out.memOk_execStage0Complete hs
  | stage2Complete => exact Out.memOk_execStage2Complete hs
  | powerCapTick => exact Out.memOk_execPowerCapTick hs
  | thermalTrip => exact Out.memOk_execThermalTrip hs
  | cooldownRestart => exact Out.memOk_execCooldownRestart hs
  | ephemUpdate => exact Out.memOk_execEphemUpdate hs
  | handleTableAnswer => exact Out.memOk_execHandleTableAnswer hs
  | eventArrival => exact Out.memOk_execEventArrival hs
  | flashProgramComplete => exact Out.memOk_execFlashProgramComplete hs
  | pld _ | pref _ =>
    dsimp only [exec]
    exact Out.memOk_anchored hs _ _ fun _ ht => ht
  | br _ | call _ | csrc _ | cdst _ | cmode _ | ccan _ | ccanAll _ | yield | park | loopi _ | whdmd _ | whdmdUp _ =>
    dsimp only [exec]
    exact Out.memOk_anchored hs _ _ fun _ ht => by simp [ht]
  | brx _ | ret _ =>
    dsimp only [exec]
    exact Out.memOk_anchored hs _ _ fun _ ht => State.memOk_jump _ _ _ ht fun _ h => h
  | callx _ =>
    dsimp only [exec]
    exact Out.memOk_anchored hs _ _ fun _ ht => State.memOk_jump _ _ _ ht fun _ h => (State.memOk_putX ..).2 h
  | trap _ | svc _ =>
    dsimp only [exec]
    exact Out.memOk_anchored hs _ _ fun _ ht => ht.raise _ _ _
  | post _ | postn _ | posti _ =>
    dsimp only [exec]
    exact Out.memOk_post hs ..
  | rbkey _ =>
    dsimp only [exec, execRbkey]
    exact Out.memOk_anchored hs _ _ fun _ ht => ht.modCur _
  | loop _ =>
    dsimp only [exec, execLoop]
    exact Out.memOk_anchored hs _ _ fun _ ht => State.memOk_openLoop _ _ _ ht
  | evtTr _ =>
    dsimp only [exec, execEvtTr]
    exact Out.memOk_anchored hs _ _ fun _ ht => State.memOk_trace _ _ _ ht
  | blkrel _ =>
    dsimp only [exec, execBlkrel]
    exact Out.memOk_anchored hs _ _ fun _ ht => State.MemOk.ite (ht.raise _ _) (ht.modCur _)
  | cdim _ | celt _ | cflag _ =>
    dsimp only [exec, execCdim, execCelt, execCflag]
    exact Out.memOk_anchored hs _ _ fun _ ht => State.MemOk.ite (ht.raise _ _) ((State.memOk_modShadow ..).2 ht)
  | slipw =>
    dsimp only [exec]
    exact Out.memOk_anchored hs _ _ fun _ ht => State.MemOk.ite ht (ht.holdFor _)

/-! A step -/

theorem State.checked_condition {s : State} (hs : s.MemOk) (p : Pred) : Checked (fun _ => True) (s.condition p) := by
  unfold State.condition
  dsimp only
  repeat' split
  all_goals simp [hs, State.MemOk.raise, State.MemOk.holdFor]

theorem State.runSlot_memOk {s : State} (hs : s.MemOk) (sl : Slot) (p : Pred) (i : Instr) : (s.runSlot sl p i).MemOk := by
  unfold State.runSlot
  extract_lets r unsure issue s1
  have h1 : s1.MemOk := hs.of_eq rfl rfl
  clear_value s1
  split
  next t e => exact Out.memOk_next ((State.checked_condition h1 p).error e)
  next v _ =>
    have h := exec_memOk i (s := { s1 with issue := { s1.issue with cond := v } }) (h1.of_eq rfl rfl)
    split
    next t e => exact Out.memOk_next (State.MemOk.ite (h1.holdFor _) (h.next e))
    next => trivial
    next => trivial

theorem State.runSlots_memOk {s : State} (hs : s.MemOk) (l : List (Slot × Pred × Instr)) : (s.runSlots l).MemOk := by
  induction l generalizing s with
  | nil => exact Out.memOk_next hs
  | cons e r ih =>
    obtain ⟨sl, p, i⟩ := e
    have h := State.runSlot_memOk hs sl p i
    obtain ⟨t, ht⟩ := s.runSlot_answers sl p i
    simp only [State.runSlots, ht]
    exact Out.memOk_ite _ (ih (h.next ht)) (Out.memOk_next (h.next ht))

theorem State.issueDecoded_memOk {s : State} (hs : s.MemOk) (q : Fetched) : (s.issueDecoded q).MemOk := by
  refine Out.memOk_ite _ (Out.memOk_next (State.memOk_closeIssue _ _ _ hs (hs.holdFor _))) ?_
  split
  · exact Out.memOk_next (State.memOk_closeIssue _ _ _ hs (State.memOk_refuseBundle _ _ _ _ hs))
  · have h := State.runSlots_memOk hs (q.work (s.issue.pre.repeating s.here))
    split
    next t e => exact Out.memOk_next (State.memOk_closeIssue _ _ _ hs (h.next e))
    next => trivial
    next => trivial

theorem State.issueBank_memOk {s : State} (hs : s.MemOk) (c b : Nat) : (s.issueBank c b).MemOk := by
  unfold State.issueBank
  split
  · exact Out.memOk_next (by simp [hs])
  · refine Out.memOk_ite _ (Out.memOk_next (by simp [hs])) (Out.memOk_ite _ (Out.memOk_next hs) ?_)
    split
    next x s1 e =>
      have h1 := State.memOk_openIssue s1 c b ((hs.fetchNext ..).of_pair e)
      exact Out.memOk_next (State.memOk_closeIssue _ _ _ h1 (State.memOk_raiseX _ _ _ _ h1))
    next w s1 e => exact State.issueDecoded_memOk (State.memOk_openIssue _ _ _ (State.memOk_decoded _ _ _ _ ((hs.fetchNext ..).of_pair e))) _

theorem State.issueCore_memOk {s : State} (hs : s.MemOk) (c : Nat) : (s.issueCore c).MemOk := by
  have h1 : (s.noteTimer c (s.core c).active).MemOk := by simp [hs]
  refine Out.memOk_ite _ (Out.memOk_next h1) ?_
  split
  next t e =>
    have ht := (State.issueBank_memOk h1 c (s.core c).active).next e
    exact Out.memOk_next ((State.memOk_settle _).2 ⟨ht.mem, rfl⟩)
  next => trivial
  next => trivial

theorem State.act_memOk {s : State} (hs : s.MemOk) (a : Option Action) : (s.act a).MemOk := by
  match a with
  | none => exact Out.memOk_next hs
  | some (.host a) =>
    show (s.hostAccess a).MemOk
    unfold State.hostAccess
    refine Out.memOk_event hs fun s hs => ?_
    split <;> simp [hs]
  | some (.issue c) => exact Out.memOk_ite _ (State.issueCore_memOk hs c) (Out.memOk_next hs)
  | some (.event i a) =>
    refine Out.memOk_ite _ (Out.memOk_next hs) ?_
    have h := exec_memOk i (s := { s with arg := a }) (hs.of_eq rfl rfl)
    split
    next t e => exact Out.memOk_next ((h.next e).of_eq rfl rfl)
    next => trivial
    next => trivial

theorem State.MemOk.nextAction {s : State} (hs : s.MemOk) : s.nextAction.2.MemOk := by
  unfold State.nextAction
  dsimp only
  repeat' split
  all_goals exact hs.of_eq rfl rfl

/-- Settles O58: every operation, event and access of the host writes memory through the writes of bytes, which keep the form. -/
theorem stepKeepsMemoryCanonical : Obligations.StepKeepsMemoryCanonical := by
  unfold Obligations.StepKeepsMemoryCanonical
  intro s t hs ht
  unfold step at ht
  have h := State.act_memOk hs.nextAction s.nextAction.1
  obtain ⟨u, hu⟩ := s.nextAction.2.act_answers s.nextAction.1
  simp only [hu] at ht
  cases ht
  exact (State.memOk_tick _).2 (h.next hu)

end Sys2Proof.Machine
end

section
/-! SUPPORT. O26: an access that is misaligned or whose translation fails traps before it reads or writes. -/
namespace Sys2Proof.Machine

/-- An access whose translation fails raises its fault (R242). -/
theorem State.access_fails {t u : State} {q : XReq} {ps : List (Word × Nat)} {x : XFault} (kind : Nat)
    (k : List (Nat × Nat) → State → State) (h : t.resolveIn q ps = (.error x, u)) : t.access kind q ps k = u.raiseX kind x := by
  unfold State.access
  rw [h]

/-- An ordered access off its width traps (R259). -/
theorem ordered_misaligned {f : MEM} {va : Word} {w : Nat} (ho : f.ord ≠ 0) (h : va.toNat % w ≠ 0) :
    (decide (f.ord ≠ 0) && misaligned va w) = true := by
  simpa [misaligned, h] using ho

theorem State.load_misaligned (f : MEM) (s : State) (w : Nat) (sgn : Bool) (h : Ready s [baseOf f, idxOf f] [.x f.d.toNat])
    (hroom : s.issue.pre.loadsOut < 64) (ho : f.ord ≠ 0) (hal : (s.ea f).toNat % w ≠ 0) :
    s.load f w sgn = .next (s.raise 0x0E (s.ea f)) := by
  rw [State.load, s.anchored_unlatched _ _ _ h (by simp [baseOf, idxOf, opReg]), s.roomForLoad_room _ hroom,
    if_pos (ordered_misaligned ho hal)]

theorem State.load_faults (f : MEM) (s t : State) (w : Nat) (sgn : Bool) (x : XFault)
    (h : Ready s [baseOf f, idxOf f] [.x f.d.toNat]) (hroom : s.issue.pre.loadsOut < 64) (ho : f.ord = 0)
    (hres : s.resolveIn {} (pieces (s.ea f) w) = (.error x, t)) :
    s.load f w sgn = .next (t.raiseFault x.cause (x.access.getD 1) x.va x.detail) := by
  have hq : ({ atomic := f.ord = 4 } : XReq) = {} := by simp [ho]
  rw [State.load, s.anchored_unlatched _ _ _ h (by simp [baseOf, idxOf, opReg]), s.roomForLoad_room _ hroom,
    ordered_aligned (.inl ho), if_neg Bool.false_ne_true, hq, State.access_fails _ _ hres]
  rfl

theorem State.store_misaligned (f : MEM) (s : State) (w : Nat) (h : Ready s [baseOf f, idxOf f, opReg .x f.d.toNat] [])
    (ho : f.ord ≠ 0) (hal : (s.ea f).toNat % w ≠ 0) : s.store f w = .next (s.raise 0x0E (s.ea f)) := by
  rw [State.store, s.anchored_unlatched _ _ _ h (by simp [baseOf, idxOf, opReg]), if_pos (ordered_misaligned ho hal)]

theorem State.store_faults (f : MEM) (s t : State) (w : Nat) (x : XFault)
    (h : Ready s [baseOf f, idxOf f, opReg .x f.d.toNat] []) (ho : f.ord = 0)
    (hres : s.resolveIn { write := true } (pieces (s.ea f) w) = (.error x, t)) :
    s.store f w = .next (t.raiseFault x.cause (x.access.getD 2) x.va x.detail) := by
  have hq : ({ write := true, atomic := f.ord = 4 } : XReq) = { write := true } := by simp [ho]
  rw [State.store, s.anchored_unlatched _ _ _ h (by simp [baseOf, idxOf, opReg]), ordered_aligned (.inl ho),
    if_neg Bool.false_ne_true, hq, State.access_fails _ _ hres]
  rfl

theorem State.reduce_misaligned (f : MEM) (s : State) (op : Nat) (h : Ready s [baseOf f, opReg .x f.d.toNat] [])
    (hal : (s.baseDisp f).toNat % atomWidth f.scl ≠ 0) : s.reduce f op = .next (s.raise 0x0E (s.baseDisp f)) := by
  rw [State.reduce, s.anchored_unlatched _ _ _ h (by simp [baseOf, opReg]), if_pos (by simpa [misaligned] using hal)]

/-- The loads of one register, by their widths. -/
theorem exec_scalarLoad {mk : MEM → Instr} {w : Nat}
    (hm : (mk, w) ∈ [(Instr.ldb, 1), (.ldbu, 1), (.ldh, 2), (.ldhu, 2), (.ldw, 4), (.ldwu, 4), (.ldd, 8)]) :
    ∃ sgn, ∀ f s, exec (mk f) s = State.load s f w sgn := by
  simp only [List.mem_cons, List.not_mem_nil, or_false, Prod.mk.injEq] at hm
  rcases hm with ⟨rfl, rfl⟩ | ⟨rfl, rfl⟩ | ⟨rfl, rfl⟩ | ⟨rfl, rfl⟩ | ⟨rfl, rfl⟩ | ⟨rfl, rfl⟩ | ⟨rfl, rfl⟩ <;>
    exact ⟨_, fun _ _ => rfl⟩

/-- The stores of one register, by their widths. -/
theorem exec_scalarStore {mk : MEM → Instr} {w : Nat} (hm : (mk, w) ∈ [(Instr.stb, 1), (.sth, 2), (.stw, 4), (.std, 8)]) (f : MEM)
    (s : State) : exec (mk f) s = State.store s f w := by
  simp only [List.mem_cons, List.not_mem_nil, or_false, Prod.mk.injEq] at hm
  rcases hm with ⟨rfl, rfl⟩ | ⟨rfl, rfl⟩ | ⟨rfl, rfl⟩ | ⟨rfl, rfl⟩ <;> rfl

/-- The reductions, each with its operation. -/
theorem exec_reduction {mk : MEM → Instr} (hm : mk ∈ [Instr.rdadd, .rdmin, .rdmax, .rdand, .rdor, .rdxor, .rdfadd]) :
    ∃ op, ∀ f s, exec (mk f) s = State.reduce s f op := by
  simp only [List.mem_cons, List.not_mem_nil, or_false] at hm
  rcases hm with rfl | rfl | rfl | rfl | rfl | rfl | rfl <;> exact ⟨_, fun _ _ => rfl⟩

/-- Settles O26: the check of the alignment comes before the translation, and the fault of the translation before any byte. -/
theorem misalignedAndTranslationFaults : Obligations.MisalignedAndTranslationFaults := by
  refine ⟨⟨fun mk w hm f s h hroom ho hal => ?_, fun mk w hm f s h ho hal => ?_, fun mk hm f s h hal => ?_⟩,
    fun mk w hm f s t x h hroom ho hres => ?_, fun mk w hm f s t x h ho hres => ?_⟩
  · obtain ⟨sgn, he⟩ := exec_scalarLoad (List.mem_of_mem_drop (i := 2) hm)
    rw [he]
    exact s.load_misaligned f w sgn h hroom ho hal
  · rw [exec_scalarStore (List.mem_of_mem_drop (i := 1) hm)]
    exact s.store_misaligned f w h ho hal
  · obtain ⟨op, he⟩ := exec_reduction hm
    rw [he]
    exact s.reduce_misaligned f op h hal
  · obtain ⟨sgn, he⟩ := exec_scalarLoad hm
    rw [he]
    exact s.load_faults f t w sgn x h hroom ho hres
  · rw [exec_scalarStore hm]
    exact s.store_faults f t w x h ho hres

end Sys2Proof.Machine
end

section
/-! SUPPORT. O22: vector accesses whose checks pass land their register or commit its bytes. -/
namespace Sys2Proof.Machine

/-- A list of aligned addresses has no misaligned one (R259). -/
theorem find_misaligned_none {vas : List Word} {b : Nat} (h : ∀ va ∈ vas, va.toNat % b = 0) :
    vas.find? (misaligned · b) = none := by
  simpa [misaligned] using h

/-- The checks of a gather or a scatter pass (R259, R265). -/
theorem State.gatherChecks_pass {s : State} {f : SR} (t : State) (h : GatherOk s f) : t.gatherChecks s f = none := by
  obtain ⟨htag, hls⟩ := h
  have hal : (s.lanesAt f).find? (fun l => misaligned l.2.2 4) = none :=
    List.find?_eq_none.mpr fun l hl => by simp [misaligned, (hls l hl).1]
  have hbound : (s.lanesAt f).find? (fun l => (s.srcX (opC .x f)).toNat ≤ l.2.1) = none :=
    List.find?_eq_none.mpr fun l hl => by simpa using (hls l hl).2
  unfold State.gatherChecks
  simp only [hal, hbound]
  rcases htag with htag | htag <;> simp [htag]

/-- A register whose tag a store accepts is stored (R260). -/
theorem State.badData_none {s : State} {d : Nat} {ok : Fmt → Bool} (t : State) (req : Fmt) (hp : (s.issue.pre.getV d).tag ≠ .poison)
    (hok : ok (s.issue.pre.getV d).tag = true) : t.badData s d ok req = none := by
  simp [State.badData, hp, hok]

theorem exec_vld_lands (f : MEM) (s t : State) (parts : List (Nat × Nat)) (h : Ready s [baseOf f] [.v f.d.toNat])
    (hroom : s.issue.pre.loadsOut < 64) (hal : (s.baseDisp f).toNat % 8 = 0)
    (hres : s.resolveIn {} (pieces (s.baseDisp f) (imageBytes (fmt6 f))) = (.ok parts, t)) (hwait : t.readWaits parts = false) :
    exec (.vld f) s = .next ((t.modCur fun k => k.landV f.d.toNat
      ⟨fmt6 f, cleanBody (fmt6 f) (BitVec.ofNat 2048 (ofLeBytes ((t.bytesRead parts).take 256))),
        BitVec.ofNat 256 (ofLeBytes ((t.bytesRead parts).drop 256))⟩ (t.badRead parts)).afterRead parts) := by
  show execVld f s = _
  rw [execVld, s.anchored_unlatched _ _ _ h (by simp [baseOf, opReg]), s.roomForLoad_room _ hroom,
    if_neg (by simp [misaligned, hal]), State.access_found _ _ hres (.inr hwait)]

theorem exec_vlds_lands (f : MEM) (s t : State) (parts : List (Nat × Nat)) (vas : List Word)
    (hvas : vas = stridden (s.issue.pre.getX f.base.toNat) (f.disp.signExtend 64) (fmt6 f).lanes)
    (h : Ready s [baseOf f] [.v f.d.toNat]) (hroom : s.issue.pre.loadsOut < 64)
    (hal : ∀ va ∈ vas, va.toNat % ((fmt6 f).width / 8) = 0)
    (hres : s.resolveIn {} (vas.map fun va => (va, (fmt6 f).width / 8)) = (.ok parts, t)) (hwait : t.readWaits parts = false) :
    exec (.vlds f) s = .next ((t.modCur fun k => k.landV f.d.toNat
      ⟨fmt6 f, packLanes (fmt6 f).width ((chunked ((fmt6 f).width / 8) (t.bytesRead parts)).map (fmt6 f).clean), 0⟩
      (t.badRead parts)).afterRead parts) := by
  subst hvas
  show execVlds f s = _
  rw [execVlds, s.anchored_unlatched _ _ _ h (by simp [baseOf, opReg]), s.roomForLoad_room _ hroom, find_misaligned_none hal]
  exact congrArg Host.Outcome.next (State.access_found _ _ hres (.inr hwait))

theorem exec_vgth_lands (f : SR) (s t : State) (parts : List (Nat × Nat)) (h : Ready s (gatherReads f) [.v f.d.toNat])
    (hroom : s.issue.pre.loadsOut < 64) (hok : GatherOk s f)
    (hres : (s.latchAll (gatherReads f)).resolveIn {} ((s.lanesAt f).map fun l => (l.2.2, 4)) = (.ok parts, t))
    (hwait : t.readWaits parts = false) :
    exec (.vgth f) s = .next ((t.modCur fun k => k.landV f.d.toNat
      ((s.issue.pre.getV f.d.toNat).merge (fmtOf f) (s.srcP (maskOf f)) ((List.range 64).map fun i =>
        (((((s.lanesAt f).map (·.1)).zip (chunked 4 (t.bytesRead parts))).find? fun p => p.1 = i).map (·.2)).getD 0))
      (t.badRead parts)).afterRead parts) := by
  show execVgth f s = _
  rw [execVgth, s.anchored_ready _ _ _ (by exact h), State.gatherChecks_pass _ hok]
  exact congrArg Host.Outcome.next ((State.roomForLoad_room _ _ (by simpa using hroom)).trans (State.access_found _ _ hres (.inr hwait)))

theorem exec_vst_commits (f : MEM) (s t : State) (parts : List (Nat × Nat)) (r : VReg) (hr : r = s.issue.pre.getV f.d.toNat)
    (h : Ready s [baseOf f, idxOf f, opReg .v f.d.toNat] []) (hal : (s.ea f).toNat % 8 = 0)
    (hres : s.resolveIn { write := true } (pieces (s.ea f) (imageBytes r.tag)) = (.ok parts, t)) (hp : r.tag ≠ .poison) :
    exec (.vst f) s = .next (t.commitStore f (cutData parts
      (leBytes 256 r.body.toNat ++ leBytes (r.tag.sidecarUsed r.tag.lanes) r.side.toNat))) := by
  subst hr
  show execVst f s = _
  rw [execVst, s.anchored_unlatched _ _ _ h (by simp [baseOf, idxOf, opReg]), if_neg (by simp [misaligned, hal]),
    State.access_found _ _ hres (.inl rfl), State.badData_none _ _ hp rfl, orElse_none _ (by simp)]
  rfl

/-- The lanes of a format of the strided stores are whole bytes (R263). -/
theorem Fmt.inStrided_bytes {g : Fmt} (h : g.inStrided = true) : g.width / 8 ≠ 0 := by
  simp only [Fmt.inStrided, Bool.and_eq_true, decide_eq_true_eq] at h
  omega

theorem exec_vsts_commits (f : MEM) (s t : State) (parts : List (Nat × Nat)) (r : VReg) (vas : List Word)
    (hr : r = s.issue.pre.getV f.d.toNat)
    (hvas : vas = stridden (s.issue.pre.getX f.base.toNat) (f.disp.signExtend 64) r.tag.lanes)
    (h : Ready s [baseOf f, opReg .v f.d.toNat] []) (hp : r.tag ≠ .poison) (hin : r.tag.inStrided = true)
    (hal : ∀ va ∈ vas, va.toNat % (r.tag.width / 8) = 0)
    (hres : s.resolveIn { write := true } (vas.map fun va => (va, r.tag.width / 8)) = (.ok parts, t)) :
    exec (.vsts f) s = .next (t.commitStore plainMem (cutData parts
      ((List.range r.tag.lanes).flatMap fun i => leBytes (r.tag.width / 8) (laneAt r.tag r i))) (r.tag.width / 8)) := by
  subst hr hvas
  show execVsts f s = _
  rw [execVsts, s.anchored_unlatched _ _ _ h (by simp [baseOf, opReg])]
  simp only [hin, Bool.or_true, if_true, if_neg (Fmt.inStrided_bytes hin)]
  rw [find_misaligned_none hal, VReg.elems_eq, List.flatMap_map]
  refine congrArg Host.Outcome.next ((State.access_found _ _ hres (.inl rfl)).trans ?_)
  rw [State.badData_none _ _ hp hin, orElse_none _ (by simp)]

theorem exec_vsct_commits (f : SR) (s t : State) (parts : List (Nat × Nat)) (r : VReg) (hr : r = s.issue.pre.getV f.d.toNat)
    (h : Ready s (gatherReads f) []) (hok : GatherOk s f)
    (hres : (s.latchAll (gatherReads f)).resolveIn { write := true } ((s.lanesAt f).map fun l => (l.2.2, 4)) = (.ok parts, t))
    (hp : r.tag ≠ .poison) (htag : if f.fmt = 0 then r.tag.inGather = true else r.tag = fmtOf f) :
    exec (.vsct f) s = .next (t.commitStore plainMem (cutData parts
      ((s.lanesAt f).flatMap fun l => leBytes 4 ((lanesOf 32 r.body).getD l.1 0))) 4) := by
  subst hr
  show execVsct f s = _
  rw [execVsct, s.anchored_ready _ _ _ (by exact h), State.gatherChecks_pass _ hok]
  have hin : (if f.fmt = 0 then (s.issue.pre.getV f.d.toNat).tag.inGather else
      decide ((s.issue.pre.getV f.d.toNat).tag = fmtOf f)) = true := by
    split
    · next hf => rwa [if_pos hf] at htag
    · next hf => exact decide_eq_true (by rwa [if_neg hf] at htag)
  refine congrArg Host.Outcome.next ((State.access_found _ _ hres (.inl rfl)).trans ?_)
  rw [State.badData_none _ _ hp hin, orElse_none _ (by simp)]

/-- A poisoned register has no unscaled format. -/
theorem Fmt.ne_poison_of_isUnscaled {g : Fmt} (h : g.isUnscaled = true) : g ≠ .poison := by
  rintro rfl
  exact absurd h (by decide)

theorem exec_pst_commits (f : MEM) (s t : State) (parts : List (Nat × Nat)) (r : VReg) (on : List Nat)
    (hr : r = s.issue.pre.getV f.d.toNat) (hon : on = (List.range 64).filter fun i => (s.issue.pre.getP f.idx.toNat).getLsbD i)
    (h : Ready s [baseOf f, opReg .p f.idx.toNat, opReg .v f.d.toNat] []) (hal : (s.baseDisp f).toNat % 8 = 0)
    (hres : s.resolveIn { write := true } (on.map fun i => (s.baseDisp f + word (4 * i), 4)) = (.ok parts, t))
    (htag : r.tag.isUnscaled = true) :
    exec (.pst f) s = .next (t.commitStore plainMem (cutData parts (on.flatMap fun i => leBytes 4 (r.body.toNat / 2 ^ (32 * i))))) := by
  subst hr hon
  show execPst f s = _
  rw [execPst, s.anchored_unlatched _ _ _ h (by simp [baseOf, opReg]), if_neg (by simp [misaligned, hal]),
    State.access_found _ _ hres (.inl rfl), State.badData_none _ _ (Fmt.ne_poison_of_isUnscaled htag) htag, orElse_none _ (by simp)]

/-- Settles O22: each access by itself, its checks passed. -/
theorem vectorLoadsAndStores : Obligations.VectorLoadsAndStores :=
  ⟨⟨exec_vld_lands, exec_vlds_lands, exec_vgth_lands⟩, exec_vst_commits, exec_vsts_commits, exec_vsct_commits, exec_pst_commits⟩

end Sys2Proof.Machine
end

section
/-! SUPPORT. O21: a store that leaves its bundle joins the committed ones; they perform as an overlay of memory. -/
namespace Sys2Proof.Machine

/-- Bytes none of which is written at once all join the committed stores (R343, R437). -/
theorem State.commitStore_joins (f : MEM) (t : State) (data : List (Nat × List Byte)) (unit : Nat) (hne : data ≠ [])
    (hlater : ∀ p ∈ data, isReg p.1 = false ∧
      (isLdmOf t.issue.core p.1 = true → t.ldmNow unit (data.filter fun p => isLdmOf t.issue.core p.1) = false)) :
    t.commitStore f data unit =
      { t with fabric := { t.fabric with nextItem := t.fabric.nextItem + 1 } }.modCur fun k =>
        { k with stores := k.stores ++ [(⟨t.fabric.nextItem, data, false, f.ord = 2, f.scope.toNat, unit, none⟩ : StoreOp)] } := by
  have hnow : ∀ p ∈ data, ¬(isReg p.1 || (isLdmOf t.issue.core p.1 && t.ldmNow unit (data.filter fun p => isLdmOf t.issue.core p.1))) = true := by
    intro p hp
    obtain ⟨hreg, hldm⟩ := hlater p hp
    cases hown : isLdmOf t.issue.core p.1 with
    | false => simp [hreg]
    | true => simp [hreg, hldm hown]
  unfold State.commitStore
  dsimp only
  rw [List.partition_eq_filter_filter, List.filter_eq_nil_iff.mpr hnow,
    List.filter_eq_self.mpr fun p hp => by simpa only [Function.comp_apply, Bool.not_eq_true', Bool.not_eq_true] using hnow p hp,
    List.isEmpty_eq_false_iff.mpr hne]
  rfl

/-! Stores that perform, as an overlay (R340, R343) -/

/-- Memory after a write of bytes. -/
theorem State.putBytes_mem (s : State) (who key : Nat) (data : List Byte) (bad : Bool) :
    (s.putBytes who key data bad).mem = if s.deadLdm key then s.mem else Sparse.splice 0 s.mem key data := by
  unfold State.putBytes State.soilPinned
  split
  · rfl
  · split <;> rfl

/-- What no change of a cluster by a function touches, that change leaves in every cluster. -/
theorem State.cluster_modCluster_keeps {α : Type} (rd : Cluster → α) {f : Cluster → Cluster} (h : ∀ k, rd (f k) = rd k) (s : State)
    (d e : Nat) : rd ((s.modCluster d f).cluster e) = rd (s.cluster e) := by
  by_cases he : e = d
  · rw [he, State.cluster_modCluster_self, h]
  · rw [State.cluster_modCluster_ne _ _ _ _ he]

/-- No write of bytes changes which LDMs are offline. -/
theorem State.offline_putBytes (s : State) (who key : Nat) (data : List Byte) (bad : Bool) (c : Nat) :
    (s.putBytes who key data bad).offline c = s.offline c := by
  unfold State.putBytes State.soilPinned
  split
  · rfl
  · split
    · rfl
    · exact congrArg (Nat.testBit · (c % 8)) ((State.cluster_modCluster_keeps Cluster.offline (by exact fun _ => rfl) _ _ _).trans rfl)

theorem State.deadLdm_putBytes (s : State) (who key : Nat) (data : List Byte) (bad : Bool) (k : Nat) :
    (s.putBytes who key data bad).deadLdm k = s.deadLdm k := by
  unfold State.deadLdm
  rw [State.offline_putBytes]

theorem State.deadLdm_putParts (s : State) (who : Nat) (parts : List (Nat × List Byte)) (bad : Bool) (k : Nat) :
    (s.putParts who parts bad).deadLdm k = s.deadLdm k :=
  foldl_keeps (fun t => State.deadLdm t k) (fun t _ => t.deadLdm_putBytes _ _ _ _ k) parts s

/-- The parts of a store, none in an offline LDM, as memory holds them one after the other. -/
theorem State.putParts_mem (s : State) (who : Nat) (parts : List (Nat × List Byte)) (bad : Bool)
    (h : ∀ p ∈ parts, s.deadLdm p.1 = false) :
    (s.putParts who parts bad).mem = parts.foldl (fun m p => Sparse.splice 0 m p.1 p.2) s.mem := by
  unfold State.putParts
  induction parts generalizing s with
  | nil => rfl
  | cons p r ih =>
    have hp : s.deadLdm p.1 = false := h p (by simp)
    rw [List.foldl_cons, List.foldl_cons, ih _ fun q hq => (s.deadLdm_putBytes _ _ _ _ _).trans (h q (by simp [hq])),
      State.putBytes_mem, hp, if_neg Bool.false_ne_true]

/-- Stores perform in their order. -/
theorem State.performed_mem (s : State) (c : Nat) (stores : List StoreOp) (h : ∀ st ∈ stores, ∀ p ∈ st.parts, s.deadLdm p.1 = false) :
    (stores.foldl (fun s st => s.putParts c st.parts st.bad) s).mem = overlay s.mem stores := by
  unfold overlay
  induction stores generalizing s with
  | nil => rfl
  | cons st r ih =>
    rw [List.foldl_cons, List.foldl_cons,
      ih _ fun q hq p hp => (s.deadLdm_putParts _ _ _ _).trans (h q (by simp [hq]) p hp), s.putParts_mem _ _ _ (h st (by simp))]

theorem State.flush_mem (s : State) (c b : Nat) (h : ∀ st ∈ (s.ctx c b).stores, ∀ p ∈ st.parts, s.deadLdm p.1 = false) :
    (s.flush c b).mem = overlay s.mem (s.ctx c b).stores := by
  rw [State.flush, State.modCtx_mem, s.performed_mem c _ h]

/-- Settles O21: the store joins as the last one; the stores of a bank, performed, are their overlay. -/
theorem committedStoresWaitAndPerformInOrder : Obligations.CommittedStoresWaitAndPerformInOrder := by
  refine ⟨fun f t data unit hne hlater => ?_, fun s c b a h => ⟨by rw [s.flush_mem c b h], ?_⟩⟩
  · rw [t.commitStore_joins f data unit hne hlater, State.cur_modCur]
    exact ⟨rfl, State.modCur_mem ..⟩
  · rw [State.flush, State.ctx_modCtx_self]

end Sys2Proof.Machine
end

section
/-! SUPPORT. O25: load-blocks taken, waited for and freed; a line invalidated breaks the blocks that hold it. -/
namespace Sys2Proof.Machine

/-- An operation that leaves the bank changed, and nothing else, runs; no source has a latch. -/
theorem runs_of_modCur (i : Instr) (s : State) (g : Ctx → Ctx) (h : exec i s = .next (s.modCur g)) : Runs i s [] g :=
  ⟨s.modCur g, h, by simp; rfl, Elsewhere.modCur s g⟩

/-- LDBLK at an aligned address with entry i the lowest free one goes on to its translation (R246, R270). -/
theorem exec_ldblk_takes (f : MEM) (s : State) (i : Nat) (h : Ready s [baseOf f] [.x f.d.toNat]) (hal : (s.baseDisp f).toNat % 128 = 0)
    (hi : (List.range 4).find? (fun i => !(s.issue.pre.blocks.get .none i).used) = some i)
    (hat : (s.core s.issue.core).blockAt s.issue.pre.asid (s.baseDisp f) (f.idx.toNat + 1) = false) :
    exec (.ldblk f) s = .next (s.access 14 { line := true } (pieces (s.baseDisp f) (128 * (f.idx.toNat + 1))) fun parts t =>
      if (t.core t.issue.core).inBlock parts then t.raise 0x0F 0
      else (t.modCur fun k => { k with
        blocks := k.blocks.set .none i ⟨true, s.baseDisp f, parts, f.idx.toNat + 1, false, false⟩ }).putX f.d.toNat (word i)) := by
  show execLdblk f s = _
  rw [execLdblk, s.anchored_unlatched _ _ _ h (by simp [baseOf, opReg]), if_neg (by simp [misaligned, hal])]
  simp only [hi, hat, Bool.false_eq_true, if_false]

/-- The lowest free entry. -/
theorem lowestFree {p : Nat → Bool} {i : Nat} (hi : i < 4) (hused : ∀ j < i, p j = true) (hfree : p i = false) :
    (List.range 4).find? (fun i => !p i) = some i := by
  rw [List.find?_range_eq_some]
  exact ⟨by simp [hfree], by simpa using hi, fun j hj => by simp [hused j hj]⟩

theorem exec_ldblk_misaligned (f : MEM) (s : State) (h : Ready s [baseOf f] [.x f.d.toNat]) (hal : (s.baseDisp f).toNat % 128 ≠ 0) :
    exec (.ldblk f) s = .next (s.raise 0x0E (s.baseDisp f)) := by
  show execLdblk f s = _
  rw [execLdblk, s.anchored_unlatched _ _ _ h (by simp [baseOf, opReg]), if_pos (by simp [misaligned, hal])]

/-- LDBLK with no entry left, or on lines that a block of its address space holds, traps (R246, R270). -/
theorem exec_ldblk_bounds (f : MEM) (s : State) (h : Ready s [baseOf f] [.x f.d.toNat]) (hal : (s.baseDisp f).toNat % 128 = 0)
    (hno : (∀ i < 4, (s.issue.pre.blocks.get .none i).used = true) ∨
      (s.core s.issue.core).blockAt s.issue.pre.asid (s.baseDisp f) (f.idx.toNat + 1) = true) :
    exec (.ldblk f) s = .next (s.raise 0x0F 0) := by
  show execLdblk f s = _
  rw [execLdblk, s.anchored_unlatched _ _ _ h (by simp [baseOf, opReg]), if_neg (by simp [misaligned, hal])]
  split
  · rfl
  · next i hi =>
    rcases hno with hall | hat
    · obtain ⟨hfree, hmem, -⟩ := List.find?_range_eq_some.mp hi
      simp [hall i (by simpa using hmem)] at hfree
    · rw [if_pos hat]

/-- LDBLK on bytes that a block of the core holds traps (R246). -/
theorem exec_ldblk_inBlock (f : MEM) (s t : State) (parts : List (Nat × Nat)) (h : Ready s [baseOf f] [.x f.d.toNat])
    (hal : (s.baseDisp f).toNat % 128 = 0) (hfree : ∃ i < 4, (s.issue.pre.blocks.get .none i).used = false)
    (hat : (s.core s.issue.core).blockAt s.issue.pre.asid (s.baseDisp f) (f.idx.toNat + 1) = false)
    (hres : s.resolveIn { line := true } (pieces (s.baseDisp f) (128 * (f.idx.toNat + 1))) = (.ok parts, t))
    (hwait : t.readWaits parts = false) (hin : (t.core t.issue.core).inBlock parts = true) :
    exec (.ldblk f) s = .next (t.raise 0x0F 0) := by
  obtain ⟨i, hi⟩ : ∃ i, (List.range 4).find? (fun i => !(s.issue.pre.blocks.get .none i).used) = some i := by
    obtain ⟨i, hi, hf⟩ := hfree
    exact Option.isSome_iff_exists.mp (List.find?_isSome.mpr ⟨i, by simpa using hi, by simp [hf]⟩)
  rw [exec_ldblk_takes f s i h hal hi hat, State.access_found _ _ hres (.inr hwait), if_pos hin]

/-- LBWAIT, by the entry that it names (R270). -/
theorem exec_lbwait (f : MEM) (s : State) (h : Ready s [baseOf f] [.x f.d.toNat]) :
    exec (.lbwait f) s = .next (
      if 3 < (s.issue.pre.getX f.base.toNat).toNat then s.raise 0x0F 0
      else if !(s.issue.pre.blocks.get .none (s.issue.pre.getX f.base.toNat).toNat).used then s.putX f.d.toNat 2
      else if (s.issue.pre.blocks.get .none (s.issue.pre.getX f.base.toNat).toNat).broken then s.putX f.d.toNat 1
      else if (s.issue.pre.blocks.get .none (s.issue.pre.getX f.base.toNat).toNat).filled then s.putX f.d.toNat 0
      else s.holdFor none) := by
  show execLbwait f s = _
  rw [execLbwait, s.anchored_unlatched _ _ _ h (by simp [baseOf, opReg])]

theorem lbwait_reports (f : MEM) (s : State) (b : LoadBlock) (h : Ready s [baseOf f] [.x f.d.toNat])
    (hi : (s.issue.pre.getX f.base.toNat).toNat < 4) (hb : b = s.issue.pre.blocks.get .none (s.issue.pre.getX f.base.toNat).toNat)
    (hdone : b.used = true → b.broken = true ∨ b.filled = true) :
    Runs (.lbwait f) s [] fun k => k.setX f.d.toNat (if !b.used then 2 else if b.broken then 1 else 0) := by
  subst hb
  refine runs_of_modCur _ _ _ ((exec_lbwait f s h).trans ?_)
  rw [if_neg (by omega)]
  cases hu : (s.issue.pre.blocks.get .none (s.issue.pre.getX f.base.toNat).toNat).used
  · rfl
  · cases hbr : (s.issue.pre.blocks.get .none (s.issue.pre.getX f.base.toNat).toNat).broken
    · rw [(hdone hu).resolve_left (by simp [hbr])]
      rfl
    · rfl

theorem lbwait_holds (f : MEM) (s : State) (b : LoadBlock) (h : Ready s [baseOf f] [.x f.d.toNat])
    (hi : (s.issue.pre.getX f.base.toNat).toNat < 4) (hb : b = s.issue.pre.blocks.get .none (s.issue.pre.getX f.base.toNat).toNat)
    (hu : b.used = true) (hbr : b.broken = false) (hf : b.filled = false) : exec (.lbwait f) s = .next (s.holdFor none) := by
  subst hb
  rw [exec_lbwait f s h, if_neg (by omega), hu, hbr, hf]
  rfl

/-- BLKREL, by the entry that it names (R270). -/
theorem exec_blkrel (f : MEM) (s : State) (h : Ready s [baseOf f] []) :
    exec (.blkrel f) s = .next (if 3 < (s.issue.pre.getX f.base.toNat).toNat then s.raise 0x0F 0
      else s.modCur fun k => { k with blocks := k.blocks.set .none (s.issue.pre.getX f.base.toNat).toNat .none }) := by
  show execBlkrel f s = _
  rw [execBlkrel, s.anchored_unlatched _ _ _ h (by simp [baseOf, opReg])]

/-! LINV breaks the blocks that hold its line (R246, R275) -/

/-- A block that a run of bytes overlaps. -/
def LoadBlock.meets (b : LoadBlock) (q : Nat × Nat) : Prop := ∃ p ∈ b.keys, q.1 < p.1 + p.2 ∧ p.1 < q.1 + q.2

/-- Every block of a context that one of the runs overlaps is broken. -/
def Ctx.brokenOn (parts : List (Nat × Nat)) (k : Ctx) : Prop :=
  ∀ (i : Nat) (b : LoadBlock), (i, b) ∈ k.blocks → b.used = true → ∀ q ∈ parts, b.meets q → b.broken = true

theorem Ctx.brokenOn_strike {parts : List (Nat × Nat)} {k : Ctx} (h : k.brokenOn parts) (q : Nat × Nat) :
    (k.strike q.1 q.2).brokenOn (q :: parts) := by
  intro i b hmem hused r hr hmeets
  obtain ⟨e, he, heq⟩ := List.mem_map.mp hmem
  obtain ⟨rfl, rfl⟩ := Prod.mk.inj heq
  unfold LoadBlock.strike at hused hmeets ⊢
  split
  · rfl
  · next hno =>
    rw [if_neg hno] at hused hmeets
    rcases List.mem_cons.mp hr with rfl | hr
    · obtain ⟨p, hp, hov⟩ := hmeets
      exact absurd (by simpa [hused] using ⟨p.1, p.2, hp, hov⟩) hno
    · exact h e.1 e.2 he hused r hr hmeets

/-- Strikes of a list of runs on the running core, one by one. -/
def State.strikeRuns (t : State) (parts : List (Nat × Nat)) : State :=
  parts.foldl (fun t p => t.modCore t.issue.core (Core.strike p.1 p.2)) t

theorem State.strikeRuns_mem (t : State) (parts : List (Nat × Nat)) : (t.strikeRuns parts).mem = t.mem := by
  induction parts generalizing t with
  | nil => rfl
  | cons p r ih => exact (ih _).trans (State.modCore_mem ..)

theorem State.strikeRuns_broken (t : State) (parts done : List (Nat × Nat))
    (h : ∀ b, ((t.core t.issue.core).bank b).brokenOn done) (b : Nat) :
    (((t.strikeRuns parts).core t.issue.core).bank b).brokenOn (parts.reverse ++ done) := by
  induction parts generalizing t done with
  | nil => exact h b
  | cons p r ih =>
    have hnext := ih (t.modCore t.issue.core (Core.strike p.1 p.2)) (p :: done) fun b => by
      rw [State.modCore_issue, State.core_modCore_self, Core.bank_strike]
      exact Ctx.brokenOn_strike (h b) p
    rw [List.reverse_cons, List.append_assoc]
    exact hnext

/-- After the strikes, every block that one of the runs overlaps is broken. -/
theorem State.strikeRuns_breaks (t : State) (parts : List (Nat × Nat)) (b : Nat) :
    (((t.strikeRuns parts).core t.issue.core).bank b).brokenOn parts := by
  intro i k hmem hused q hq hmeets
  exact t.strikeRuns_broken parts [] (fun b i k _ _ q hq => absurd hq List.not_mem_nil) b i k hmem hused q (by simpa using hq) hmeets

theorem exec_linv (f : MEM) (s t : State) (parts : List (Nat × Nat)) (h : Ready s [baseOf f, idxOf f] [])
    (hres : s.resolveIn {} (pieces (lineOf (s.ea f)) 128) = (.ok parts, t)) (hwait : t.readWaits parts = false) :
    exec (.linv f) s = .next (t.strikeRuns parts) := by
  show execLinv f s = _
  rw [execLinv, s.anchored_unlatched _ _ _ h (by simp [baseOf, idxOf, opReg]), State.access_found _ _ hres (.inr hwait)]
  rfl

theorem linv_breaks (f : MEM) (s t : State) (parts : List (Nat × Nat)) (h : Ready s [baseOf f, idxOf f] [])
    (hres : s.resolveIn {} (pieces (lineOf (s.ea f)) 128) = (.ok parts, t)) (hwait : t.readWaits parts = false) :
    ∃ u, exec (.linv f) s = .next u ∧ u.mem = t.mem ∧
      ∀ x ∈ [(u.core t.issue.core).b0, (u.core t.issue.core).b1], ∀ (i : Nat) (b : LoadBlock), (i, b) ∈ x.blocks →
        b.used = true → (∃ p ∈ b.keys, ∃ q ∈ parts, q.1 < p.1 + p.2 ∧ p.1 < q.1 + q.2) → b.broken = true := by
  refine ⟨_, exec_linv f s t parts h hres hwait, t.strikeRuns_mem parts, ?_⟩
  intro x hx i b hmem hused ⟨p, hp, q, hq, hov⟩
  rcases List.mem_pair.mp hx with rfl | rfl
  · exact t.strikeRuns_breaks parts 0 i b hmem hused q hq ⟨p, hp, hov⟩
  · exact t.strikeRuns_breaks parts 1 i b hmem hused q hq ⟨p, hp, hov⟩

/-! LWB (R251, R275) -/

theorem exec_lwb_region (f : MEM) (s : State) (n : Nat) (r : Region) (h : Ready s [baseOf f, idxOf f] [])
    (hc : canonical (s.ea f) = true) (hw : bits (s.ea f) 48 16 ∉ [0xFF, 0xFE, 0xFD]) (hr : s.regionFor s.me (s.ea f) = some (n, r)) :
    exec (.lwb f) s = .next (s.writeBack s.issue.core n
      (((bits (s.ea f) 14 42 - r.page) * 16384 + bits (s.ea f) 0 14) / 1024) fun q =>
        { q with pc := s.issue.pre.pc, wid := s.issue.pre.wid, slot := s.issue.slot, bank := s.issue.bank,
                 sup := s.issue.pre.mode = .supervisor }) := by
  show execLwb f s = _
  rw [execLwb, s.anchored_unlatched _ _ _ h (by simp [baseOf, idxOf, opReg]), if_neg (by simp [hw, hc]), hr]

theorem exec_lwb_elsewhere (f : MEM) (s t : State) (parts : List (Nat × Nat)) (h : Ready s [baseOf f, idxOf f] [])
    (ho : bits (s.ea f) 48 16 ∈ [0xFF, 0xFE, 0xFD] ∨ canonical (s.ea f) = false ∨ s.regionFor s.me (s.ea f) = none)
    (hres : s.resolveIn { write := true } (pieces (lineOf (s.ea f)) 128) = (.ok parts, t)) :
    exec (.lwb f) s = .next ({ s with free := t.free }.resolveIn {} (pieces (lineOf (s.ea f)) 128)).2 := by
  have hn : (if bits (s.ea f) 48 16 ∈ [0xFF, 0xFE, 0xFD] || !canonical (s.ea f) then none else s.regionFor s.me (s.ea f)) = none := by
    split
    · rfl
    · next hno =>
      rcases ho with ho | ho | ho
      · exact absurd (by simpa using .inl (by simpa using ho)) hno
      · exact absurd (by simp [ho]) hno
      · exact ho
  show execLwb f s = _
  rw [execLwb, s.anchored_unlatched _ _ _ h (by simp [baseOf, idxOf, opReg]), hn, hres]

/-- Settles O25: the entries of the load-blocks, their traps, then the line operations. -/
theorem blocksPrefetchesAndLines : Obligations.BlocksPrefetchesAndLines := by
  refine ⟨⟨?takes, ?reports, ?frees, ?traps, ?bounds, ?holds, fun f s h => ?pld, fun f s h => ?pref⟩, linv_breaks, exec_lwb_region,
    exec_lwb_elsewhere⟩
  case takes =>
    intro f s t i parts h hal hi hused hfree hat hres hwait hin
    rw [exec_ldblk_takes f s i h hal (lowestFree hi hused hfree) hat, State.access_found _ _ hres (.inr hwait), hin]
    rfl
  case reports =>
    rintro f s _ b h rfl hi hb hdone
    exact lbwait_reports f s b h hi hb hdone
  case frees =>
    rintro f s _ h rfl hi
    exact runs_of_modCur _ _ _ ((exec_blkrel f s h).trans (by rw [if_neg (by omega)]))
  case traps =>
    intro f s h
    exact ⟨exec_ldblk_misaligned f s h, fun hal hall => exec_ldblk_bounds f s h hal (.inl hall),
      fun hal hat => exec_ldblk_bounds f s h hal (.inr hat),
      fun parts t hal hfree hat hres hwait hin => exec_ldblk_inBlock f s t parts h hal hfree hat hres hwait hin⟩
  case bounds =>
    intro f s hi
    refine ⟨fun h => ?_, fun h => ?_⟩
    · rw [exec_lbwait f s h, if_pos (by omega)]
    · rw [exec_blkrel f s h, if_pos (by omega)]
  case holds =>
    rintro f s _ b h rfl hi hb hu hbr hf
    exact lbwait_holds f s b h hi hb hu hbr hf
  case pld => exact s.anchored_unlatched [] [] (fun t => t) h (by simp)
  case pref => exact s.anchored_unlatched [] [] (fun t => t) h (by simp)

end Sys2Proof.Machine
end

section
/-! SUPPORT. O24: an atomic on clean bytes of memory, wherever its bundle's other accesses stand; reductions that set out. -/
namespace Sys2Proof.Machine

/-! What an access of memory reads and leaves depends on memory and on which LDM is offline -/

theorem State.offline_congr {s t : State} (h : t.clusters = s.clusters) (c : Nat) : t.offline c = s.offline c := by
  unfold State.offline State.cluster
  rw [h]

theorem State.deadLdm_congr {s t : State} (h : t.clusters = s.clusters) (key : Nat) : t.deadLdm key = s.deadLdm key := by
  unfold State.deadLdm
  rw [State.offline_congr h]

/-- Bytes in memory, as a view finds them. -/
theorem State.view_memory_congr {s t : State} (h : t.clusters = s.clusters) (m : Sparse Byte) {key : Nat} (w : Nat) (hk : isReg key = false) :
    t.view m [(key, w)] = s.view m [(key, w)] := by
  simp [State.view, hk, State.bytesIn, State.deadLdm_congr h]

theorem State.putBytes_mem_congr {s t : State} (hm : t.mem = s.mem) (hc : t.clusters = s.clusters) (who key : Nat) (data : List Byte) :
    (t.putBytes who key data).mem = (s.putBytes who key data).mem := by
  rw [State.putBytes_mem, State.putBytes_mem, hm, State.deadLdm_congr hc]

/-! A read of one run of memory counts an uncorrectable one, and leaves all else -/

theorem State.afterRead_one (s : State) {key : Nat} (w : Nat) (hk : isReg key = false) : s.afterRead [(key, w)] = s.countUncorr (key, w) := by
  simp [State.afterRead, hk]

@[simp] theorem State.countUncorr_mem (s : State) (p : Nat × Nat) : (s.countUncorr p).mem = s.mem := by
  unfold State.countUncorr
  split <;> rfl

@[simp] theorem State.countUncorr_clusters (s : State) (p : Nat × Nat) : (s.countUncorr p).clusters = s.clusters := by
  unfold State.countUncorr
  split <;> rfl

@[simp] theorem State.countUncorr_fabric (s : State) (p : Nat × Nat) : (s.countUncorr p).fabric = s.fabric := by
  unfold State.countUncorr
  split <;> rfl

/-! An atomic performs at a key (R272) -/

theorem State.writeParts_one (s : State) (who : Nat) {key : Nat} (data : List Byte) (hk : isReg key = false) :
    s.writeParts who [(key, data)] = s.putBytes who key data := by
  simp [State.writeParts, hk]

/-- What an atomic on clean bytes returns. -/
theorem State.atomicOn_old (s : State) (m : Sparse Byte) (bad : Sparse Bool) (who op key w v compare : Nat)
    (hbad : viewBad bad [(key, w)] = false) :
    (s.atomicOn m bad who op key w v compare).1 = (ofLeBytes (s.view m [(key, w)]), false) := by
  unfold State.atomicOn
  dsimp only
  rw [hbad]
  split <;> rfl

/-- The state that an atomic on clean bytes of memory leaves. -/
theorem State.atomicOn_after (s : State) (m : Sparse Byte) (bad : Sparse Bool) (who op key w v compare : Nat)
    (hk : isReg key = false) (hbad : viewBad bad [(key, w)] = false) :
    (s.atomicOn m bad who op key w v compare).2 =
      ((newValue op w (ofLeBytes (s.view m [(key, w)])) v compare).map fun n =>
        (s.countUncorr (key, w)).putBytes who key (leBytes w n)).getD (s.countUncorr (key, w)) := by
  unfold State.atomicOn
  dsimp only
  rw [hbad, if_neg Bool.false_ne_true, s.afterRead_one w hk]
  split
  · next n hn => rw [hn, State.writeParts_one _ _ _ hk]; rfl
  · next hn => rw [hn]; rfl

/-- Memory after an atomic: the new value at its key where there is one, else as it was. -/
def State.atomMemAfter (t : State) (key w : Nat) (new : Option Nat) : Sparse Byte :=
  (new.map fun n => (t.putBytes t.asHome key (leBytes w n)).mem).getD t.mem

theorem State.atomicOn_mem {t u : State} (hm : u.mem = t.mem) (hc : u.clusters = t.clusters) (hi : u.issue = t.issue) (m : Sparse Byte)
    (bad : Sparse Bool) (op key w v compare : Nat) (hk : isReg key = false) (hbad : viewBad bad [(key, w)] = false) :
    (u.atomicOn m bad u.asHome op key w v compare).2.mem =
      t.atomMemAfter key w (newValue op w (ofLeBytes (t.view m [(key, w)])) v compare) := by
  have hhome : u.asHome = t.asHome := by rw [State.asHome, hi, State.asHome]
  rw [State.atomicOn_after _ _ _ _ _ _ _ _ _ hk hbad, State.view_memory_congr hc m w hk, hhome, State.atomMemAfter]
  cases newValue op w (ofLeBytes (t.view m [(key, w)])) v compare with
  | none => simpa using hm
  | some n => exact State.putBytes_mem_congr (by simpa using hm) (by simpa using hc) _ _ _

/-- An atomic of the bundle reads memory as `atomMem` says; a state that has the same memory, the same LDMs offline and the same
bundle serves for it. -/
theorem State.atomicIn_performs {t u : State} (hm : u.mem = t.mem) (hb : u.bad = t.bad) (hc : u.clusters = t.clusters) (hi : u.issue = t.issue)
    (op key w v compare : Nat) (hk : isReg key = false) (hbad : viewBad t.atomMem.2 [(key, w)] = false) :
    (u.atomicIn op key w v compare).1 = (ofLeBytes (t.view t.atomMem.1 [(key, w)]), false) ∧
    (u.atomicIn op key w v compare).2.mem =
      t.atomMemAfter key w (newValue op w (ofLeBytes (t.view t.atomMem.1 [(key, w)])) v compare) := by
  have hon (m : Sparse Byte) (bad : Sparse Bool) (hbad : viewBad bad [(key, w)] = false) :
      (u.atomicOn m bad u.asHome op key w v compare).1 = (ofLeBytes (t.view m [(key, w)]), false) ∧
      (u.atomicOn m bad u.asHome op key w v compare).2.mem =
        t.atomMemAfter key w (newValue op w (ofLeBytes (t.view m [(key, w)])) v compare) :=
    ⟨by rw [State.atomicOn_old _ _ _ _ _ _ _ _ _ hbad, State.view_memory_congr hc m w hk],
      State.atomicOn_mem hm hc hi m bad op key w v compare hk hbad⟩
  unfold State.atomicIn State.atomMem at *
  rw [hi]
  cases hs : t.issue.served with
  | true =>
    rw [hs, if_pos rfl] at hbad
    have h := hon t.mem t.bad hbad
    rw [← hm, ← hb] at h
    simpa [State.serve, State.atomicAt, hm] using h
  | false =>
    rw [hs, if_neg Bool.false_ne_true] at hbad
    exact hon _ _ hbad

/-! Accesses of the context before it -/

theorem State.behindReduction_none {t : State} (c b n : Nat) (parts : List (Nat × Nat)) (h : t.reductionsOut c b = false) :
    t.behindReduction c b n parts = false := by
  unfold State.reductionsOut at h
  unfold State.behindReduction
  simp only [List.any_eq_false] at h ⊢
  intro r hr
  simp [h r hr]

theorem State.storesStuck_none {t : State} {c b : Nat} (h : (t.ctx c b).stores = []) : t.storesStuck c b = false := by
  simp [State.storesStuck, h]

theorem State.storesFirst_none {t : State} (parts : List (Nat × Nat)) (h : t.cur.stores = []) : t.storesFirst parts = false := by
  simp [State.storesFirst, Ctx.storeMeets, h]

/-- With no committed store, stores that perform leave memory and the clusters. -/
theorem State.flush_none {t : State} {c b : Nat} (h : (t.ctx c b).stores = []) :
    (t.flush c b).mem = t.mem ∧ (t.flush c b).bad = t.bad ∧ (t.flush c b).clusters = t.clusters ∧ (t.flush c b).issue = t.issue := by
  unfold State.flush
  rw [h]
  exact ⟨State.modCtx_mem .., State.modCtx_bad .., State.modCtx_clusters .., State.modCtx_issue ..⟩

/-! The instruction (R272, R273) -/

/-- An atomic performs, and what it returns lands. -/
def State.atomicLands (t : State) (d op key w v compare : Nat) : State :=
  (t.atomicIn op key w v compare).2.landOld d op (t.atomicIn op key w v compare).1.1 (t.atomicIn op key w v compare).1.2

/-- An atomic whose bytes are found: under seq_cst it waits for the slot wheel, else it waits for what its context has outstanding. -/
theorem State.atomic_found (f : MEM) (s t : State) (op key : Nat) (h : Ready s (atomReads f op) (atomWrites f op))
    (hroom : s.issue.pre.loadsOut < 64) (hal : (s.baseDisp f).toNat % atomWidth f.scl = 0)
    (hres : s.resolveIn { write := true, atomic := true } (pieces (s.baseDisp f) (atomWidth f.scl)) = (.ok [(key, atomWidth f.scl)], t)) :
    s.atomic f op = .next (
      if f.ord = 4 then
        t.seqCst (.atomic op) key (atomWidth f.scl) (atomOperand s op (atomWidth f.scl) f.idx.toNat)
          (atomOperand s op (atomWidth f.scl) f.d.toNat) fun m bad t => t.landOld f.d.toNat op m bad
      else
        let act := fun t : State => t.atomicLands f.d.toNat op key (atomWidth f.scl) (atomOperand s op (atomWidth f.scl) f.idx.toNat)
          (atomOperand s op (atomWidth f.scl) f.d.toNat)
        if t.behindOwn [(key, atomWidth f.scl)] || t.imageBefore [(key, atomWidth f.scl)] then t.holdFor none
        else if f.ord = 2 ∨ f.ord = 3 then t.afterStores true act
        else if t.storesFirst [(key, atomWidth f.scl)] then t.afterStores false act
        else act t) := by
  have hplain : ∀ o ∈ atomReads f op, o.h = 0 := by
    intro o ho
    simp only [atomReads, List.mem_append, List.mem_ite_nil_right, List.mem_cons, List.not_mem_nil, or_false] at ho
    rcases ho with ((rfl | rfl) | ⟨-, rfl⟩) | ⟨-, rfl | rfl⟩ <;> rfl
  have hmis : misaligned (s.baseDisp f) (atomWidth f.scl) = false := by simp [misaligned, hal]
  unfold atomReads at h hplain
  unfold atomWrites at h
  unfold State.atomic
  dsimp only
  rw [s.anchored_unlatched _ _ _ h hplain, s.roomForLoad_room _ hroom, hmis, if_neg Bool.false_ne_true,
    State.access_found _ _ hres (.inl rfl)]
  rfl

/-- An atomic that nothing of its context holds back performs: on the state at its translation, or on it with its context's
stores, of which there are none, performed. -/
theorem State.atomic_acts (f : MEM) (s t : State) (op key : Nat) (h : Ready s (atomReads f op) (atomWrites f op))
    (hroom : s.issue.pre.loadsOut < 64) (hal : (s.baseDisp f).toNat % atomWidth f.scl = 0)
    (hres : s.resolveIn { write := true, atomic := true } (pieces (s.baseDisp f) (atomWidth f.scl)) = (.ok [(key, atomWidth f.scl)], t))
    (ho : f.ord ≠ 4) (hst : t.cur.stores = []) (hred : t.reductionsOut t.issue.core t.issue.bank = false)
    (himg : t.imageBefore [(key, atomWidth f.scl)] = false) (hout : f.ord = 2 ∨ f.ord = 3 → t.imagesOut = false) :
    ∃ u : State, u.mem = t.mem ∧ u.bad = t.bad ∧ u.clusters = t.clusters ∧ u.issue = t.issue ∧
      s.atomic f op = .next (u.atomicLands f.d.toNat op key (atomWidth f.scl) (atomOperand s op (atomWidth f.scl) f.idx.toNat)
          (atomOperand s op (atomWidth f.scl) f.d.toNat)) := by
  have hbehind : t.behindOwn [(key, atomWidth f.scl)] = false := State.behindReduction_none _ _ _ _ hred
  have hfound := s.atomic_found f t op key h hroom hal hres
  rw [if_neg ho] at hfound
  dsimp only at hfound
  rw [hbehind, himg, Bool.or_false, if_neg Bool.false_ne_true] at hfound
  by_cases hord : f.ord = 2 ∨ f.ord = 3
  · obtain ⟨hm, hb, hc, hi⟩ := State.flush_none (c := t.issue.core) (b := t.issue.bank) hst
    refine ⟨t.flush t.issue.core t.issue.bank, hm, hb, hc, hi, ?_⟩
    rw [hfound, if_pos hord]
    unfold State.afterStores
    dsimp only
    rw [State.storesStuck_none hst, hred, hout hord]
    rfl
  · refine ⟨t, rfl, rfl, rfl, rfl, ?_⟩
    rw [hfound, if_neg hord, State.storesFirst_none _ hst, if_neg Bool.false_ne_true]

/-- A returning atomic, by the new value that its operation has. -/
theorem returningAtomic_of_newValue (mk : MEM → Instr) (op : Nat) (new : Nat → Nat → Nat → Nat → Option Nat)
    (he : ∀ f s, exec (mk f) s = State.atomic s f op) (hnew : ∀ w m v c, 0 < w → newValue op w m v c = new w m v c) :
    ReturningAtomic mk op new := by
  rintro f s t key w old h hroom rfl hal hres
  rw [he]
  refine ⟨fun bad ho hv => ?_, fun ho hst hred himg hout hk hold hbad => ?_⟩
  · rw [s.atomic_found f t op key h hroom hal hres, if_pos ho, State.seqCst_performed hv]
  · obtain ⟨u, hm, hb, hc, hi, hexec⟩ := s.atomic_acts f t op key h hroom hal hres ho hst hred himg hout
    have hw : 0 < atomWidth f.scl := by
      unfold atomWidth
      split
      · omega
      · exact Nat.two_pow_pos _
    obtain ⟨hret, hmem⟩ := State.atomicIn_performs hm hb hc hi op key (atomWidth f.scl)
      (atomOperand s op (atomWidth f.scl) f.idx.toNat) (atomOperand s op (atomWidth f.scl) f.d.toNat) hk hbad
    rw [← hold] at hret hmem
    refine ⟨(u.atomicIn op key (atomWidth f.scl) (atomOperand s op (atomWidth f.scl) f.idx.toNat)
      (atomOperand s op (atomWidth f.scl) f.d.toNat)).2, hexec.trans ?_, ?_⟩
    · rw [State.atomicLands, hret]
    · rw [hmem, hnew _ _ _ _ hw]
      split
      · next n hn => rw [hn]; rfl
      · next hn => rw [hn]; rfl

/-! Reductions (R274) -/

/-- What a reduction carries as it sets out. -/
def State.reductionOf (s : State) (f : MEM) (op : Nat) : Reduction :=
  { n := s.fabric.nextItem, core := s.issue.core, bank := s.issue.bank, job := s.issue.pre.job, asid := s.issue.pre.asid
    sup := s.issue.pre.mode = .supervisor, wid := s.issue.pre.wid, pc := s.issue.pre.pc, op := op, scl := f.scl.toNat, ord := f.ord.toNat
    scope := f.scope.toNat, va := s.baseDisp f, operand := s.issue.pre.getX f.d.toNat, stage := 0, ctx := s.issue.pre.serial, fault := none }

/-- A reduction is among those under way, and counted at an interface for a job. -/
def State.sendReduction (t : State) (r : Reduction) (c job : Nat) : State :=
  { t with fabric := { t.fabric with reductions := t.fabric.reductions ++ [r], nextItem := t.fabric.nextItem + 1 } }.inject (clusterOf c) job

theorem State.reduce_away (f : MEM) (s : State) (op : Nat) (h : Ready s [baseOf f, opReg .x f.d.toNat] [])
    (hal : (s.baseDisp f).toNat % atomWidth f.scl = 0) (haway : s.ownLdmKey (s.baseDisp f) (atomWidth f.scl) = none) :
    s.reduce f op = .next (s.sendReduction (s.reductionOf f op) s.issue.core s.issue.pre.job) := by
  rw [State.reduce, s.anchored_unlatched _ _ _ h (by simp [baseOf, opReg]), if_neg (by simp [misaligned, hal]), haway]
  rfl

/-- A reduction to the own LDM that nothing holds back performs with its bundle (R342). -/
theorem State.reduce_own (f : MEM) (s : State) (op key : Nat) (h : Ready s [baseOf f, opReg .x f.d.toNat] [])
    (hal : (s.baseDisp f).toNat % atomWidth f.scl = 0) (hown : s.ownLdmKey (s.baseDisp f) (atomWidth f.scl) = some key)
    (hbehind : s.behindOwn [(key, atomWidth f.scl)] = false) (himg : s.imageBefore [(key, atomWidth f.scl)] = false)
    (hst : s.cur.stores.any (·.inLdm s.issue.core) = false) (ho2 : f.ord ≠ 2) (ho3 : f.ord ≠ 3)
    (hbad : anyBad s.bad key (atomWidth f.scl) = false) :
    s.reduce f op = .next ((s.atomicAt s.asHome (reductionOp op f.scl.toNat) key (atomWidth f.scl)
      ((s.issue.pre.getX f.d.toNat).toNat % 2 ^ (8 * atomWidth f.scl)) 0).2.sendReduction { s.reductionOf f op with stage := 1 }
        s.issue.core s.issue.pre.job) := by
  have hclean : (s.atomicAt s.asHome (reductionOp op f.scl.toNat) key (atomWidth f.scl)
      ((s.issue.pre.getX f.d.toNat).toNat % 2 ^ (8 * atomWidth f.scl)) 0).1.2 = false :=
    congrArg Prod.snd (s.atomicOn_old s.mem s.bad _ _ _ _ _ _ (by simpa [viewBad] using hbad))
  rw [State.reduce, s.anchored_unlatched _ _ _ h (by simp [baseOf, opReg]), if_neg (by simp [misaligned, hal]), hown]
  dsimp only
  rw [hbehind, himg, hst, Bool.or_false, Bool.or_false, if_neg Bool.false_ne_true, if_neg (not_or.mpr ⟨ho2, ho3⟩), hclean, if_neg Bool.false_ne_true]
  rfl

/-- The own LDM's bytes are no registers. -/
theorem isReg_of_isLdmOf {c key : Nat} (h : isLdmOf c key = true) : isReg key = false := by
  have hl : isLdm key = true := (Bool.and_eq_true _ _ ▸ h : _ ∧ _).1
  have hr : isCtl key = false := by
    simp only [isLdm, Bool.and_eq_true, decide_eq_true_eq] at hl
    simp only [isCtl, Bool.and_eq_false_iff, decide_eq_false_iff_not]
    omega
  simp [isReg, hr]

theorem State.ownLdmKey_isLdmOf {t : State} {va : Word} {w key : Nat} (h : t.ownLdmKey va w = some key) : isLdmOf t.issue.core key = true := by
  unfold State.ownLdmKey at h
  split at h
  · split at h
    · split at h
      · next hl => exact Option.some.inj h ▸ hl
      · exact absurd h (by simp)
    · exact absurd h (by simp)
  · exact absurd h (by simp)

theorem State.atomicAt_fabric (s : State) (who op key w v compare : Nat) (hk : isReg key = false) (hbad : anyBad s.bad key w = false) :
    (s.atomicAt who op key w v compare).2.fabric = s.fabric := by
  rw [State.atomicAt, State.atomicOn_after _ _ _ _ _ _ _ _ _ hk (by simpa [viewBad] using hbad)]
  cases newValue op w (ofLeBytes (s.view s.mem [(key, w)])) v compare <;> simp

/-- A reduction, by its operation. -/
theorem reduces_of_reduce (mk : MEM → Instr) (op : Nat) (he : ∀ f s, exec (mk f) s = State.reduce s f op) : Reduces mk op := by
  intro f s h hal
  rw [he]
  refine ⟨fun haway => ?_, fun key hown hbehind himg hst ho2 ho3 hbad => ?_⟩
  · refine ⟨_, s.reductionOf f op, s.reduce_away f op h hal haway, rfl, ?_, rfl, ?_, rfl, rfl, rfl⟩
    · exact ⟨rfl, rfl, rfl, rfl, rfl, rfl, rfl, rfl, rfl, rfl, rfl, rfl, rfl, rfl⟩
    · simp [State.sendReduction, State.inject, State.count, State.counter]
  · have hfab := s.atomicAt_fabric s.asHome (reductionOp op f.scl.toNat) key (atomWidth f.scl)
      ((s.issue.pre.getX f.d.toNat).toNat % 2 ^ (8 * atomWidth f.scl)) 0 (isReg_of_isLdmOf (State.ownLdmKey_isLdmOf hown)) hbad
    refine ⟨_, { s.reductionOf f op with stage := 1 }, s.reduce_own f op key h hal hown hbehind himg hst ho2 ho3 hbad, ?_, ?_, rfl, rfl⟩
    · rw [← hfab]
      rfl
    · exact ⟨rfl, rfl, rfl, rfl, rfl, rfl, rfl, rfl, rfl, rfl, rfl, rfl, rfl, rfl⟩

/-- Signed order of the low bytes of two numbers, as the atomics compare them (R272). -/
theorem newValue_signedMin (w m v c : Nat) (h : 0 < w) :
    newValue 0x1C w m v c = some (if (BitVec.ofNat (8 * w) v).toInt < (BitVec.ofNat (8 * w) m).toInt then v else m) := by
  simp [newValue, intOfBits_signed (w := 8 * w) (by omega)]

theorem newValue_signedMax (w m v c : Nat) (h : 0 < w) :
    newValue 0x1D w m v c = some (if (BitVec.ofNat (8 * w) m).toInt < (BitVec.ofNat (8 * w) v).toInt then v else m) := by
  simp [newValue, intOfBits_signed (w := 8 * w) (by omega)]

/-- Settles O24: each atomic by the new value of its operation, each reduction by its operation. -/
theorem atomicsAndReductions : Obligations.AtomicsAndReductions :=
  ⟨⟨returningAtomic_of_newValue _ _ _ (fun _ _ => rfl) fun _ _ _ _ _ => rfl, returningAtomic_of_newValue _ _ _ (fun _ _ => rfl) fun _ _ _ _ _ => rfl,
    returningAtomic_of_newValue _ _ _ (fun _ _ => rfl) fun _ _ _ _ _ => rfl, returningAtomic_of_newValue _ _ _ (fun _ _ => rfl) fun _ _ _ _ _ => rfl,
    returningAtomic_of_newValue _ _ _ (fun _ _ => rfl) newValue_signedMin, returningAtomic_of_newValue _ _ _ (fun _ _ => rfl) newValue_signedMax,
    returningAtomic_of_newValue _ _ _ (fun _ _ => rfl) fun _ _ _ _ _ => rfl, returningAtomic_of_newValue _ _ _ (fun _ _ => rfl) fun _ _ _ _ _ => rfl,
    returningAtomic_of_newValue _ _ _ (fun _ _ => rfl) fun _ _ _ _ _ => rfl, returningAtomic_of_newValue _ _ _ (fun _ _ => rfl) fun _ _ _ _ _ => rfl,
    returningAtomic_of_newValue _ _ _ (fun _ _ => rfl) fun _ _ _ _ _ => rfl, returningAtomic_of_newValue _ _ _ (fun _ _ => rfl) fun _ _ _ _ _ => rfl⟩,
   reduces_of_reduce _ _ fun _ _ => rfl, reduces_of_reduce _ _ fun _ _ => rfl, reduces_of_reduce _ _ fun _ _ => rfl,
   reduces_of_reduce _ _ fun _ _ => rfl, reduces_of_reduce _ _ fun _ _ => rfl, reduces_of_reduce _ _ fun _ _ => rfl,
   reduces_of_reduce _ _ fun _ _ => rfl⟩

end Sys2Proof.Machine
end

section
/-! SUPPORT. O20: an access through the window of the own LDM goes to the core's LDM, untranslated. -/
namespace Sys2Proof.Machine

/-! Where it goes (R231) -/

/-- Bytes that one page holds are one piece. -/
theorem pieces_one {va : Word} {n : Nat} (hn : 0 < n) (h : n ≤ pageLeft va) : pieces va n = [(va, n)] := by
  show cutPages (n / 256 + 1 + 1) va n = _
  simp only [cutPages, Nat.min_eq_left h, if_neg (Nat.ne_of_gt hn), Nat.sub_self, if_true]

/-- An address of the own LDM's window, in its fields. -/
theorem bits_ownWindow {va : Word} {off : Nat} (h : va = word (0xFF * 2 ^ 48 + off)) (hoff : off < 2 ^ 21) :
    bits va 48 16 = 0xFF ∧ bits va 0 48 = off ∧ bits va 0 14 = off % 16384 := by
  subst h
  simp only [bits, word, BitVec.toNat_ofNat]
  omega

/-- The own LDM's window is the core's LDM (R231). -/
theorem State.resolveIn_ownWindow (s : State) (q : XReq) {va : Word} {off n : Nat} (hva : va = word (0xFF * 2 ^ 48 + off)) (hn : 0 < n)
    (hoff : off + n ≤ 2 ^ 21) (hpage : off % 16384 + n ≤ 16384) (hc : s.issue.core < 256) (hf : q.fetch = false) (hk : q.kv = false)
    (hl : q.line = false) : s.resolveIn q (pieces va n) = (.ok [(ldmKey s.issue.core off, n)], s) := by
  obtain ⟨hhi, hlow, hpg⟩ := bits_ownWindow hva (by omega)
  have hplace (t : State) : t.place s.me q va n = (.ok (ldmKey s.issue.core off), t) := by
    have hcore : s.me.core = s.issue.core := rfl
    have hin : ¬(decide (2 ^ 21 ≤ bits va 0 48) || decide (256 ≤ s.me.core)) = true := by
      rw [hlow, hcore]
      simp only [Bool.or_eq_true, decide_eq_true_eq]
      omega
    unfold State.place
    dsimp only
    split
    · rw [if_neg hin, hf, hk, hl, hlow, hcore]
      rfl
    · next h => exact absurd (hhi.symm.trans h) (by decide)
    · next h => exact absurd (hhi.symm.trans h) (by decide)
    · next h _ _ => exact absurd hhi h
  have hleft : n ≤ pageLeft va := by
    rw [pageLeft, if_neg (by omega), hpg]
    omega
  have hres (t : State) : t.resolve s.me q [(va, n)] = (.ok [(ldmKey s.issue.core off, n)], t) := by
    unfold State.resolve State.resolveGo
    rw [hplace]
    rfl
  rw [pieces_one hn hleft]
  unfold State.resolveIn
  rw [hres s, hres { s with mem := s.issue.mem0, bad := s.issue.bad0 }]

/-- The key of a byte of a core's LDM. -/
theorem isLdmOf_ldmKey {c off : Nat} (hc : c < 256) (hoff : off < 2 ^ 21) : isLdmOf c (ldmKey c off) = true := by
  have hlo : 2 ^ 52 ≤ ldmKey c off := by
    unfold ldmKey
    omega
  have hhi : ldmKey c off < 2 ^ 52 + 2 ^ 29 := by
    unfold ldmKey
    omega
  have hown : (ldmKey c off - 2 ^ 52) / 2 ^ 21 = c := by
    unfold ldmKey
    omega
  rw [isLdmOf, isLdm, hown, decide_eq_true hlo, decide_eq_true hhi, decide_eq_true rfl]
  rfl

theorem State.deadLdm_online {s : State} {c off : Nat} (hc : c < 256) (hoff : off < 2 ^ 21) (h : s.offline c = false) :
    s.deadLdm (ldmKey c off) = false := by
  have hown : (ldmKey c off - 2 ^ 52) / 2 ^ 21 = c := by
    rw [ldmKey]
    omega
  rw [State.deadLdm, hown, h, Bool.and_false]

/-! The bytes of a load -/

/-- A slice of a map, entry by entry. -/
theorem Sparse.slice_eq_map {α : Type} (d : α) (m : Sparse α) (k n : Nat) :
    Sparse.slice d m k n = (List.range n).map fun i => Sparse.get d m (k + i) := by
  refine List.map_congr_left fun i hi => ?_
  have hi : i < n := List.mem_range.mp hi
  exact Sparse.get_filter d m (fun j => decide (k ≤ j ∧ j < k + n)) (k + i) (by simp [hi])

/-- The number that n bytes are, the lowest address least significant. -/
theorem ofLeBytes_map_range (n : Nat) (g : Nat → Byte) :
    ofLeBytes ((List.range n).map g) = ((List.range n).map fun i => (g i).toNat * 256 ^ i).sum := by
  induction n generalizing g with
  | zero => rfl
  | succ n ih =>
    rw [List.range_succ_eq_map, List.map_cons, List.map_cons, List.map_map, List.map_map, ofLeBytes]
    have ih' := ih (g ∘ Nat.succ)
    rw [ih', List.sum_cons, Nat.pow_zero, Nat.mul_one, ← List.sum_map_mul_left]
    congr 3
    funext i
    simp [Nat.pow_succ, Nat.mul_comm, Nat.mul_left_comm]

theorem ofLeBytes_lt (bs : List Byte) : ofLeBytes bs < 256 ^ bs.length := by
  induction bs with
  | nil => exact Nat.one_pos
  | cons b r ih =>
    rw [ofLeBytes, List.length_cons, Nat.pow_succ']
    omega

theorem word_ofLeBytes_toNat {bs : List Byte} (h : bs.length = 8) : (word (ofLeBytes bs)).toNat = ofLeBytes bs := by
  rw [word, BitVec.toNat_ofNat]
  refine Nat.mod_eq_of_lt ((ofLeBytes_lt bs).trans_eq ?_)
  rw [h]
  rfl

/-- A number of 64 bits has no bits left to extend. -/
theorem sextWord_64 (n : Nat) : sextWord 64 n = word n := by
  rw [sextWord, intOfBits_signed (by omega), BitVec.ofInt_toInt, word]

/-- What a load of the own LDM finds: memory before the bundle, no earlier store in its way. -/
theorem State.bytesRead_ownLdm {s : State} {off n : Nat} (hc : s.issue.core < 256) (hoff : off < 2 ^ 21)
    (hon : s.offline s.issue.core = false) (hst : s.issue.pre.stores = []) :
    s.bytesRead [(ldmKey s.issue.core off, n)] =
      (List.range n).map fun i => s.issue.mem0.get 0 (ldmKey s.issue.core (off + i)) := by
  have hdead := State.deadLdm_online hc hoff hon
  have hreg := isReg_of_isLdmOf (isLdmOf_ldmKey hc hoff)
  rw [State.bytesRead, hst, State.view, List.flatMap_singleton, hreg, if_neg Bool.false_ne_true, State.bytesIn, hdead,
    if_neg Bool.false_ne_true, Sparse.slice_eq_map]
  exact List.map_congr_left fun i _ => congrArg (Sparse.get 0 s.issue.mem0) (Nat.add_assoc ..)

/-! What lands -/

@[simp] theorem State.countUncorr_cur (s : State) (p : Nat × Nat) : (s.countUncorr p).cur = s.cur := by
  unfold State.countUncorr
  split <;> rfl

theorem Ctx.getX_landX (k : Ctx) (n m : Nat) (v : Word) (bad : Bool) (tok : Nat) :
    ((k.landX n v bad tok).useToken).getX m = if m = n ∧ n ≠ 0 then v else k.getX m := by
  rw [← Ctx.getX_setX]
  unfold Ctx.landX Ctx.pendOn Ctx.useToken
  split <;> rfl

/-- LDD from the own LDM (R231, R261). -/
theorem ldd_ownLdm (f : MEM) (s : State) (off : Nat) (h : Ready s [baseOf f, idxOf f] [.x f.d.toNat]) (hroom : s.issue.pre.loadsOut < 64)
    (ho : f.ord ≠ 4) (hal : f.ord = 0 ∨ off % 8 = 0) (hc : s.issue.core < 256) (hon : s.offline s.issue.core = false)
    (hst : s.issue.pre.stores = []) (hred : s.reductionsOut s.issue.core s.issue.bank = false)
    (hva : s.ea f = word (0xFF * 2 ^ 48 + off)) (hoff : off + 8 ≤ 2 ^ 21) (hpage : off % 16384 + 8 ≤ 16384) :
    ∃ t, exec (.ldd f) s = .next t ∧ t.mem = s.mem ∧
      (t.cur.getX f.d.toNat).toNat = (if f.d = 0 then 0 else
        ((List.range 8).map fun i => (s.issue.mem0.get 0 (ldmKey s.issue.core (off + i))).toNat * 256 ^ i).sum) ∧
      ∀ m, m ≠ f.d.toNat → t.cur.getX m = s.cur.getX m := by
  have hreg : isReg (ldmKey s.issue.core off) = false := isReg_of_isLdmOf (isLdmOf_ldmKey hc (by omega))
  have hres := s.resolveIn_ownWindow { atomic := f.ord = 4 } hva (n := 8) (by omega) hoff hpage hc rfl rfl rfl
  have hwait : s.readWaits [(ldmKey s.issue.core off, 8)] = false := by
    rw [State.readWaits, State.ownWrites, State.behindReduction_none _ _ _ _ hred, hst]
    rfl
  have hmod : f.ord = 0 ∨ (s.ea f).toNat % 8 = 0 := hal.imp_right fun hal => by
    rw [hva, word, BitVec.toNat_ofNat]
    omega
  have hland := (State.load_lands .ldd 8 true (fun _ _ => rfl) f s s _ h hroom hmod hres hwait).1 ho
  have hbytes := s.bytesRead_ownLdm (off := off) (n := 8) hc (by omega) hon hst
  refine ⟨_, hland, ?_, ?_, fun m hm => ?_⟩
  all_goals rw [State.afterRead_one _ _ hreg]
  · rw [State.countUncorr_mem, State.modCur_mem]
  · rw [State.countUncorr_cur, State.cur_modCur, Ctx.getX_landX]
    by_cases hd : f.d = 0
    · rw [if_neg (by simp [hd]), if_pos hd, hd]
      rfl
    · rw [if_pos ⟨rfl, by simpa [BitVec.toNat_eq] using hd⟩, if_neg hd, if_pos rfl, sextWord_64, hbytes,
        word_ofLeBytes_toNat (by simp), ofLeBytes_map_range]
  · rw [State.countUncorr_cur, State.cur_modCur, Ctx.getX_landX, if_neg (fun hc => hm hc.1)]

/-! Stores (R261, R342, R437) -/

/-- Bytes of the own LDM that nothing holds back are written as the store issues. -/
theorem State.commitStore_now (f : MEM) (t : State) {key : Nat} (data : List Byte) (unit : Nat) (hown : isLdmOf t.issue.core key = true)
    (hnow : t.ldmNow unit [(key, data)] = true) (ho : f.ord ≠ 2) :
    t.commitStore f [(key, data)] unit = t.putBytes t.issue.core key data := by
  have hreg := isReg_of_isLdmOf hown
  unfold State.commitStore
  simp only [List.filter_cons, hown, if_true, List.filter_nil, hnow, hreg, List.partition_eq_filter_filter, Function.comp_apply,
    Bool.not_true, Bool.and_self, Bool.or_true, List.isEmpty_cons, Bool.false_eq_true, if_false, ho, decide_false, List.isEmpty_nil]
  exact t.writeParts_one _ _ hreg

/-- A core's own write breaks none of its load-blocks, and changes nothing else of it (R246). -/
theorem State.core_putBytes_own (s : State) (key : Nat) (data : List Byte) (bad : Bool) (c : Nat) :
    (s.putBytes c key data bad).core c = s.core c := by
  have hstrike (t : State) (n : Nat) : (t.strike c key n).core c = t.core c :=
    (Sparse.get_map_at (g := fun d k => k.struckBy c d key n) c (if_pos rfl) t.cores :).trans (if_pos rfl)
  unfold State.putBytes State.soilPinned
  split
  · rfl
  · split
    · exact hstrike _ _
    · exact hstrike _ _

/-- Byte i of a number. -/
theorem leBytes_getD {n i : Nat} (v : Nat) (h : i < n) : (leBytes n v).getD i 0 = BitVec.ofNat 8 (v / 256 ^ i) := by
  induction n generalizing v i with
  | zero => omega
  | succ n ih =>
    cases i with
    | zero => simp [leBytes]
    | succ i => rw [leBytes, List.getD_cons_succ, ih (v / 256) (by omega), Nat.div_div_eq_div_mul, Nat.pow_succ']

/-- A store to the own LDM, by its width (R231, R261, R342). -/
theorem store_ownLdm (f : MEM) (s : State) (off w : Nat) (mk : MEM → Instr) (hm : (mk, w) ∈ [(Instr.stb, 1), (.sth, 2), (.stw, 4), (.std, 8)])
    (h : Ready s [baseOf f, idxOf f, opReg .x f.d.toNat] []) (ho4 : f.ord ≠ 4) (ho2 : f.ord ≠ 2) (hal : off % w = 0)
    (hc : s.issue.core < 256) (hon : s.offline s.issue.core = false)
    (hnow : s.ldmNow 0 [(ldmKey s.issue.core off, leBytes w (s.issue.pre.getX f.d.toNat).toNat)] = true)
    (hva : s.ea f = word (0xFF * 2 ^ 48 + off)) (hoff : off + w ≤ 2 ^ 21) (hpage : off % 16384 + w ≤ 16384) :
    ∃ t, exec (mk f) s = .next t ∧ t.cur = s.cur ∧
      ∀ a, Sparse.get 0 t.mem a =
        if ldmKey s.issue.core off ≤ a ∧ a < ldmKey s.issue.core off + w
        then BitVec.ofNat 8 ((s.issue.pre.getX f.d.toNat).toNat / 256 ^ (a - ldmKey s.issue.core off))
        else Sparse.get 0 s.mem a := by
  have hw : w = 1 ∨ w = 2 ∨ w = 4 ∨ w = 8 := by
    simp only [List.mem_cons, List.not_mem_nil, or_false, Prod.mk.injEq] at hm
    tauto
  have hown : isLdmOf s.issue.core (ldmKey s.issue.core off) = true := isLdmOf_ldmKey hc (by omega)
  have hmod : (s.ea f).toNat % w = 0 := by
    rw [hva, word, BitVec.toNat_ofNat]
    rcases hw with rfl | rfl | rfl | rfl <;> omega
  have hres := s.resolveIn_ownWindow { write := true, atomic := f.ord = 4 } hva (by omega) hoff hpage hc rfl rfl rfl
  have hcommit := (State.store_commits mk w (fun f s => exec_scalarStore hm f s) f s s _ h (.inr hmod) hres).1 ho4
  have hdata : cutData [(ldmKey s.issue.core off, w)] (leBytes w (s.issue.pre.getX f.d.toNat).toNat) =
      [(ldmKey s.issue.core off, leBytes w (s.issue.pre.getX f.d.toNat).toNat)] := by
    simp [cutData, List.take_of_length_le, leBytes_length]
  have hunit : (if misaligned (s.ea f) w = true then 1 else 0) = 0 := if_neg (by simp [misaligned, hmod])
  rw [hdata, hunit, s.commitStore_now f _ 0 hown hnow ho2] at hcommit
  refine ⟨_, hcommit, ?_, fun a => ?_⟩
  · rw [State.cur, State.putBytes_issue, State.ctx, State.core_putBytes_own]
    rfl
  · rw [State.get_putBytes, leBytes_length]
    by_cases ha : ldmKey s.issue.core off ≤ a ∧ a < ldmKey s.issue.core off + w
    · rw [if_pos ⟨State.deadLdm_online hc (by omega) hon, ha⟩, if_pos ha, leBytes_getD _ (by omega)]
    · rw [if_neg fun h => ha h.2, if_neg ha]

/-- Settles O20: the load, then the stores by their width. -/
theorem ownLdmLoadsAndStores : Obligations.OwnLdmLoadsAndStores := ⟨ldd_ownLdm, store_ownLdm⟩

end Sys2Proof.Machine
end

section
/-! SUPPORT. Traps and kills: what a bank keeps under changes of single fields, what a kill releases (R387, R390, R407). -/
namespace Sys2Proof.Machine

/-! What a bank keeps -/

/-- What no change of a bank by a function touches, that change leaves in every bank. -/
theorem State.ctx_modCtx_keeps {α : Type} (rd : Ctx → α) (s : State) (c b : Nat) (f : Ctx → Ctx) (h : ∀ k, rd (f k) = rd k) (d e : Nat) :
    rd ((s.modCtx c b f).ctx d e) = rd (s.ctx d e) := by
  by_cases hd : d = c
  · subst hd
    by_cases he : (e = 0 ↔ b = 0)
    · have hbank (k : Core) : k.bank e = k.bank b := by
        unfold Core.bank
        rw [if_congr he rfl rfl]
      rw [State.ctx, hbank, ← State.ctx, State.ctx_modCtx_self, h, State.ctx, ← hbank]
      rfl
    · rw [State.ctx, State.modCtx, State.setCtx, State.core_modCore_self, Core.bank_setBank_ne _ _ _ _ he]
      rfl
  · rw [State.ctx, State.modCtx, State.setCtx, State.modCore, State.core_setCore_ne _ _ _ _ hd]
    rfl

/-- A write of bytes breaks load-blocks, and changes nothing else of a bank. -/
theorem State.ctx_putBytes_keeps {α : Type} (rd : Ctx → α) (h : ∀ k bl, rd { k with blocks := bl } = rd k) (s : State) (w key : Nat)
    (data : List Byte) (bad : Bool) (c b : Nat) : rd ((s.putBytes w key data bad).ctx c b) = rd (s.ctx c b) := by
  have hstruck (d : Nat) (k : Core) (n : Nat) : rd ((k.struckBy w d key n).bank b) = rd (k.bank b) := by
    have hbank (k' : Ctx) : rd (k'.strike key n) = rd k' := h k' _
    unfold Core.struckBy Core.strike Core.bank
    (repeat' split) <;> simp [hbank]
  have hstrike (t : State) (n : Nat) : rd ((t.strike w key n).ctx c b) = rd (t.ctx c b) :=
    Sparse.get_map_keeps (rd := fun k : Core => rd (k.bank b)) (g := fun d k => k.struckBy w d key n) (fun d k => hstruck d k n) .idle t.cores c
  unfold State.putBytes
  split
  · rfl
  · rw [State.ctx_soilPinned]
    exact hstrike _ _

/-! A kill (R407) -/

/-- The stores of a job's banks on a core perform. -/
def State.flushJob (j : Nat) (s : State) (c : Nat) : State :=
  let s := if (s.ctx c 0).job = j then s.flush c 0 else s
  if (s.ctx c 1).job = j then s.flush c 1 else s

/-- A kill's first steps: its tasks no longer wait in QUIET, their stores perform. -/
def State.beforeKill (s : State) (j : Nat) : State :=
  let u := (s.banksOf j).foldl (fun s p => s.dropQw p.1 p.2) s
  ((List.range 256).filter fun c => !(u.core c).b0.stores.isEmpty || !(u.core c).b1.stores.isEmpty).foldl (State.flushJob j) u

/-- What a kill releases (R407). -/
def State.released (s : State) (j : Nat) : State :=
  { s with
    disp := { s.disp with
      recs := s.disp.recs.filter fun r => r.job ≠ j
      launches := s.disp.launches.filter fun l => l.job ≠ j
      host := s.disp.host.filter fun e => e.1 ≠ j }
    hreqs := s.hreqs.filter fun r => r.job ≠ j
    saved := s.saved.filter fun r => r.job ≠ j
    cores := s.cores.map fun e => (e.1, killCore j e.2)
    clusters := s.clusters.map fun e => (e.1, killStacks j s.sidereal e.2) }

theorem State.startKill_live (s : State) {j : Nat} (ha : (s.job j).active = true) (hk : (s.job j).kstat = 0) :
    s.startKill j = ((s.beforeKill j).modJob j fun q => { q with kstat := 1, overflow := [] }).released j := by
  rw [State.startKill, if_neg (by simp [ha, hk])]
  rfl

/-- What a kill's first steps touch of a state. -/
structure QuietKeeps {β : Type} (rd : State → β) : Prop where
  count : ∀ (s : State) (i j : Nat) (f : Counter → Counter), rd (s.count i j f) = rd s
  put : ∀ (s : State) (w key : Nat) (data : List Byte) (bad : Bool), rd (s.putBytes w key data bad) = rd s
  qw : ∀ (s : State) (c b : Nat), rd (s.modCtx c b fun k => { k with qw := false }) = rd s
  stores : ∀ (s : State) (c b : Nat), rd (s.modCtx c b fun k => { k with stores := [] }) = rd s

theorem QuietKeeps.dropQw {β : Type} {rd : State → β} (h : QuietKeeps rd) (s : State) (c b : Nat) : rd (s.dropQw c b) = rd s := by
  unfold State.dropQw
  dsimp only
  split
  · rw [h.qw, h.count]
  · rfl

theorem QuietKeeps.flush {β : Type} {rd : State → β} (h : QuietKeeps rd) (s : State) (c b : Nat) : rd (s.flush c b) = rd s := by
  rw [State.flush, h.stores]
  exact foldl_keeps rd (fun t st => foldl_keeps rd (fun t p => h.put t _ _ _ _) _ t) _ s

theorem QuietKeeps.beforeKill {β : Type} {rd : State → β} (h : QuietKeeps rd) (s : State) (j : Nat) : rd (s.beforeKill j) = rd s := by
  have hflush (t : State) (c b : Nat) : rd (if (t.ctx c b).job = j then t.flush c b else t) = rd t := by
    split
    · exact h.flush t c b
    · rfl
  have hjob (t : State) (c : Nat) : rd (t.flushJob j c) = rd t := (hflush _ c 1).trans (hflush t c 0)
  exact (foldl_keeps rd hjob _ _).trans (foldl_keeps rd (fun t (p : Nat × Nat) => h.dropQw t p.1 p.2) _ s)

theorem quietKeeps_faults : QuietKeeps State.faults where
  count _ _ _ _ := rfl
  put s w key data bad := (congrArg State.faults (s.putBytes_package w key data bad) :)
  qw _ _ _ := rfl
  stores _ _ _ := rfl

theorem quietKeeps_jobs : QuietKeeps State.jobs where
  count _ _ _ _ := rfl
  put := State.putBytes_jobs
  qw _ _ _ := rfl
  stores _ _ _ := rfl

/-- The task that a bank has, as a kill looks for it. -/
theorem quietKeeps_bank (c b : Nat) : QuietKeeps fun s => ((s.ctx c b).status, (s.ctx c b).job) where
  count _ _ _ _ := rfl
  put s w key data bad := s.ctx_putBytes_keeps (fun k => (k.status, k.job)) (fun _ _ => rfl) w key data bad c b
  qw s d e := s.ctx_modCtx_keeps (fun k => (k.status, k.job)) d e _ (by exact fun _ => rfl) c b
  stores s d e := s.ctx_modCtx_keeps (fun k => (k.status, k.job)) d e _ (by exact fun _ => rfl) c b

/-- A bank of a job that is killed is free (R407). -/
theorem killCore_frees (j : Nat) (k : Core) (b : Nat) (h : (k.bank b).occupied = true) (hj : (k.bank b).job = j) :
    ((killCore j k).bank b).status = .idle := by
  unfold Core.bank at h hj ⊢
  split at h
  · next hb =>
    rw [if_pos hb] at hj ⊢
    show (if k.b0.occupied && k.b0.job = j then k.b0.freed else k.b0).status = .idle
    rw [if_pos (by simp [h, hj])]
    rfl
  · next hb =>
    rw [if_neg hb] at hj ⊢
    show (if k.b1.occupied && k.b1.job = j then k.b1.freed else k.b1).status = .idle
    rw [if_pos (by simp [h, hj])]
    rfl

theorem State.ctx_released (s : State) (j c b : Nat) : (s.released j).ctx c b = (killCore j (s.core c)).bank b :=
  congrArg (Core.bank · b) (Sparse.get_map (d := Core.idle) (g := killCore j) rfl s.cores c)

theorem State.startKill_frees (s : State) {j c b : Nat} (ha : (s.job j).active = true) (hk : (s.job j).kstat = 0)
    (ho : (s.ctx c b).occupied = true) (hj : (s.ctx c b).job = j) : ((s.startKill j).ctx c b).status = .idle := by
  have hkeeps := (quietKeeps_bank c b).beforeKill s j
  obtain ⟨hstatus, hjob⟩ := Prod.mk.inj hkeeps
  rw [s.startKill_live ha hk, State.ctx_released]
  refine killCore_frees j _ b ?_ ?_
  · rw [← ho]
    exact congrArg (fun st => decide (st ≠ Status.idle)) hstatus
  · exact hjob.trans hj

end Sys2Proof.Machine
end

section
/-! SUPPORT. O34: a trap taken in a bank, a second one in supervisor mode, a not-present fault. -/
namespace Sys2Proof.Machine

theorem flatMap_leBytes_length {α : Type} (l : List α) (n : Nat) (g : α → Nat) : (l.flatMap fun a => leBytes n (g a)).length = l.length * n := by
  induction l with
  | nil => simp
  | cons a r ih => rw [List.flatMap_cons, List.length_append, ih, leBytes_length, List.length_cons, Nat.succ_mul, Nat.add_comm]

/-- A trap frame is 128 bytes (R387). -/
theorem frameBytes_length (k : Ctx) (bte : Word) : (frameBytes k bte).length = 128 := by
  rw [frameBytes, List.length_append, List.length_append, flatMap_leBytes_length, leBytes_length, List.length_replicate, List.length_range]

/-- The state in which a trap that is no double trap is taken. -/
def State.trapped (s : State) (c b : Nat) (i : TrapInfo) : State :=
  let w := s.withdraw c b
  State.setCtx { w with mem := Sparse.splice 0 w.mem (ctlKey c (0x400 + 128 * b)) (frameBytes (s.ctx c b) i.bte) } c b
    ((s.ctx c b).entered (s.core c).tvec i)

theorem State.dropQw_none (s : State) (c b : Nat) (h : (s.ctx c b).qw = false) : s.dropQw c b = s := by
  unfold State.dropQw
  dsimp only
  rw [h]

/-- A trap of user mode, or a timer's, of a task that is not waiting in QUIET (R387). -/
theorem State.takeTrap_enters (s : State) (c b : Nat) (i : TrapInfo) (hm : (s.ctx c b).mode = .user ∨ i.async = true)
    (hq : (s.ctx c b).qw = false) : s.takeTrap c b i = s.trapped c b i := by
  have hno : ¬(decide ((s.ctx c b).mode = .supervisor) && !i.async) = true := by
    rcases hm with hm | hm <;> simp [hm]
  have hdrop : (s.withdraw c b).dropQw c b = s.withdraw c b := State.dropQw_none _ c b hq
  unfold State.takeTrap
  dsimp only
  rw [if_neg hno, hdrop]
  rfl

theorem takeTrap_saves (s : State) (c b : Nat) (i : TrapInfo) (hm : (s.ctx c b).mode = .user ∨ i.async = true)
    (hq : (s.ctx c b).qw = false) :
    (s.takeTrap c b i).ctx c b = (s.ctx c b).entered (s.core c).tvec i ∧
    ∀ a, Sparse.get 0 (s.takeTrap c b i).mem a =
      if ctlKey c (0x400 + 128 * b) ≤ a ∧ a < ctlKey c (0x400 + 128 * b) + 128
      then (frameBytes (s.ctx c b) i.bte).getD (a - ctlKey c (0x400 + 128 * b)) 0 else Sparse.get 0 s.mem a := by
  rw [s.takeTrap_enters c b i hm hq]
  refine ⟨State.ctx_setCtx_self .., fun a => ?_⟩
  have hget := Sparse.get_splice 0 s.mem (ctlKey c (0x400 + 128 * b)) (frameBytes (s.ctx c b) i.bte) a
  rw [frameBytes_length] at hget
  exact hget

/-! A double trap (R390, R407) -/

theorem takeTrap_double (s : State) (c b j : Nat) (i : TrapInfo) (hm : (s.ctx c b).mode = .supervisor) (hi : i.async = false)
    (hj : (s.ctx c b).job = j) : ∃ first, s.takeTrap c b i =
      (s.report { faultOf s c b 0x2D 0 i.slot i.addr (word (i.cause * 2 ^ 56 + first)) with pc := i.epc }).startKill j := by
  refine ⟨bits (s.ctx c b).tcause 0 8, ?_⟩
  unfold State.takeTrap
  dsimp only
  rw [if_pos (by simp [hm, hi]), ← hj]
  rfl

/-- A kill keeps the records that wait, sets KSTAT and drops the job's task records. -/
theorem State.startKill_shows (s : State) {j : Nat} (ha : (s.job j).active = true) (hk : (s.job j).kstat = 0) :
    (s.startKill j).faults = s.faults ∧ ((s.startKill j).job j).kstat = 1 ∧ ∀ r ∈ (s.startKill j).disp.recs, r.job ≠ j := by
  rw [s.startKill_live ha hk]
  refine ⟨quietKeeps_faults.beforeKill s j, ?_, fun r hr => by simpa using (List.mem_filter.mp hr).2⟩
  rw [← s.startKill_live ha hk, State.job, s.jobs_startKill ha hk, ← State.job, State.job_modJob_self]

/-! A not-present fault (R394) -/

theorem raiseFault_parks (s : State) (access : Nat) (va detail : Word) (hm : s.issue.pre.mode = .user) :
    s.raiseFault 4 access va detail =
      let r := faultOf s.undo s.issue.core s.issue.bank 4 access s.issue.slot va detail
      { (s.undo.report r).modCtx s.issue.core s.issue.bank (·.suspend (.parked .replay)) with
        issue := { s.issue with verdict := .absent r } } := by
  have hpre : s.undo.ctx s.issue.core s.issue.bank = s.issue.pre := State.ctx_setCtx_self ..
  have habsent (r : FaultRec) : s.undo.absentAs r = (s.undo.report r).modCtx s.issue.core s.issue.bank (·.suspend (.parked .replay)) := by
    unfold State.absentAs
    refine if_neg ?_
    show (s.undo.ctx s.issue.core s.issue.bank).mode ≠ _
    rw [hpre, hm]
    exact Mode.noConfusion
  unfold State.raiseFault
  rw [if_pos rfl, habsent]

theorem raiseFault_cur (s : State) (access : Nat) (va detail : Word) (hm : s.issue.pre.mode = .user) :
    (s.raiseFault 4 access va detail).cur = s.issue.pre.suspend (.parked .replay) := by
  have hpre : s.undo.ctx s.issue.core s.issue.bank = s.issue.pre := State.ctx_setCtx_self ..
  rw [raiseFault_parks s access va detail hm]
  unfold State.cur
  dsimp only
  change ((s.undo.report _).modCtx s.issue.core s.issue.bank (·.suspend (.parked .replay))).ctx s.issue.core s.issue.bank = _
  rw [State.ctx_modCtx_self]
  exact congrArg (Ctx.suspend · (.parked .replay)) hpre

/-- Settles O34: what the trap leaves of its bank, then the double trap's record and kill, then the park. -/
theorem trapEntryParksAndDoubleTraps : Obligations.TrapEntryParksAndDoubleTraps := by
  refine ⟨fun s c b i hm _ hq => ⟨_, rfl, ?enters⟩, fun s c b j i hc hb hm hi hj ho ha hk => ?double, fun s access va detail hm => ?absent⟩
  case enters =>
    obtain ⟨hctx, hmem⟩ := takeTrap_saves s c b i hm hq
    rw [hctx]
    exact ⟨rfl, rfl, rfl, rfl, rfl, rfl, rfl, rfl, rfl, rfl, rfl, rfl, rfl, rfl, rfl, rfl, rfl, rfl, hmem⟩
  case double =>
    obtain ⟨first, htrap⟩ := takeTrap_double s c b j i hm hi hj
    obtain ⟨hfaults, hkstat, hrecs⟩ := State.startKill_shows
      (s.report { faultOf s c b 0x2D 0 i.slot i.addr (word (i.cause * 2 ^ 56 + first)) with pc := i.epc }) ha hk
    rw [htrap, hfaults]
    exact ⟨hkstat, State.startKill_frees _ ha hk ho hj, ⟨_, List.mem_append_right _ (List.mem_singleton_self _), rfl, hj, rfl, rfl, rfl, rfl⟩, hrecs⟩
  case absent =>
    have hpre : s.undo.ctx s.issue.core s.issue.bank = s.issue.pre := State.ctx_setCtx_self ..
    have hcur := raiseFault_cur s access va detail hm
    rw [hcur, raiseFault_parks s access va detail hm]
    exact ⟨_, rfl, rfl, rfl, rfl, rfl, congrArg Ctx.pc hpre, rfl, congrArg Ctx.job hpre, rfl, rfl, rfl, rfl, rfl⟩

end Sys2Proof.Machine
end

section
/-! SUPPORT. O37: the shadow set's instructions, the copy engine's commands, requests to the handle table. -/
namespace Sys2Proof.Machine

/-- An operation whose hold actions are taken, and that changes its bank then, runs. -/
theorem runs_of_latched_modCur (i : Instr) (s : State) (os : List Opd) (g : Ctx → Ctx) (h : exec i s = .next ((s.latchAll os).modCur g)) :
    Runs i s os g :=
  ⟨_, h, by simp, (Elsewhere.latchAll s os).trans (Elsewhere.modCur _ _)⟩

/-- Hold actions leave the handle table. -/
theorem State.latchAll_handles (s : State) (os : List Opd) : (s.latchAll os).handles = s.handles :=
  (congrArg State.handles (Elsewhere.latchAll s os).package :)

/-! The shadow set (R277, R307, R308) -/

/-- The sign extension of 40 bits is one (R308). -/
theorem fits40_signExtend (a : BitVec 40) : fits40 (a.signExtend 64) = true := by
  have hlow : (a.signExtend 64).extractLsb' 0 40 = a := by
    ext i hi
    rw [BitVec.getElem_extractLsb', Nat.zero_add, BitVec.getLsbD_signExtend]
    simp [hi, Nat.lt_of_lt_of_le hi (by decide : 40 ≤ 64)]
  rw [fits40, sextWord_bits _ _ (by omega), hlow]
  exact decide_eq_true rfl

theorem cdim_sets (f : SR) (s : State) (n : Nat) (a b : BitVec 40) (h : Ready s [opA .x f, opB .x f, opC .x f] [])
    (hn : s.srcX (opA .x f) = BitVec.ofNat 64 n) (hlt : n < 2 ^ 24) (ha : s.srcX (opB .x f) = a.signExtend 64)
    (hb : s.srcX (opC .x f) = b.signExtend 64) :
    Runs (.cdim f) s [opA .x f, opB .x f, opC .x f] fun k => { k with shadow := { k.shadow with
      cnt := k.shadow.cnt.set (f.fn9.toNat % 8) n, sstr := k.shadow.sstr.set (f.fn9.toNat % 8) a
      dstr := k.shadow.dstr.set (f.fn9.toNat % 8) b } } := by
  have hlow (c : BitVec 40) : (c.signExtend 64).setWidth 40 = c := by
    ext i hi
    rw [BitVec.getElem_setWidth, BitVec.getLsbD_signExtend]
    simp [hi, Nat.lt_of_lt_of_le hi (by decide : 40 ≤ 64)]
  have hcount : bits (BitVec.ofNat 64 n) 0 24 = n ∧ bits (BitVec.ofNat 64 n) 24 40 = 0 := by
    simp only [bits, BitVec.toNat_ofNat]
    omega
  refine runs_of_latched_modCur _ _ _ _ ?_
  show execCdim f s = _
  unfold execCdim
  dsimp only
  rw [s.anchored_ready _ _ _ h]
  rw [hn, ha, hb, hcount.2, fits40_signExtend, fits40_signExtend, if_neg (by simp), hcount.1, hlow, hlow]
  rfl

theorem celt_sets (f : SR) (s : State) (h : Ready s [opA .x f, opB .x f] []) (hlo : 1 ≤ (s.srcX (opA .x f)).toNat)
    (hhi : (s.srcX (opA .x f)).toNat ≤ 256) : Runs (.celt f) s [opA .x f, opB .x f] fun k =>
      { k with shadow := { k.shadow with run := (s.srcX (opA .x f)).toNat, aux := s.srcX (opB .x f) } } := by
  refine runs_of_latched_modCur _ _ _ _ ?_
  show execCelt f s = _
  unfold execCelt
  dsimp only
  rw [s.anchored_ready _ _ _ h]
  rw [if_neg (by simp; omega)]
  rfl

theorem cmode_sets (f : SI) (s : State) (h : Ready s [] []) : Runs (.cmode f) s [] fun k =>
    { k with shadow := { k.shadow with mode := (f.imm.extractLsb' 0 4).toNat, mpar := f.imm.extractLsb' 4 16 } } := by
  have hmode : f.u % 16 = (f.imm.extractLsb' 0 4).toNat := by simp [SI.u]
  have hmpar : BitVec.ofNat 16 (f.u / 16) = f.imm.extractLsb' 4 16 := by
    apply BitVec.eq_of_toNat_eq
    simp [SI.u, Nat.shiftRight_eq_div_pow]
  refine runs_of_latched_modCur _ _ _ _ ?_
  show execCmode f s = _
  unfold execCmode
  dsimp only
  rw [s.anchored_ready _ _ _ h]
  rw [← hmode, ← hmpar]
  rfl

theorem cbar_sets (f : SR) (s : State) (h : Ready s [opA .x f] [])
    (hva : s.srcX (opA .x f) = 0 ∨ ((s.srcX (opA .x f)).toNat % 16 = 0 ∧
      ∃ key, (s.latchAll [opA .x f]).barrierKey (s.latchAll [opA .x f]).me (s.srcX (opA .x f)) = .ok key)) :
    Runs (.cbar f) s [opA .x f] fun k => { k with shadow := { k.shadow with bar := s.srcX (opA .x f) } } := by
  refine runs_of_latched_modCur _ _ _ _ ?_
  show execCbar f s = _
  unfold execCbar
  dsimp only
  rw [s.anchored_ready _ _ _ h]
  by_cases h0 : s.srcX (opA .x f) = 0
  · rw [if_pos h0]
    rfl
  · obtain ⟨hal, key, hkey⟩ := hva.resolve_left h0
    rw [if_neg h0, if_neg (by simp [misaligned, hal]), hkey]
    rfl

theorem cflag_sets (f : SR) (s : State) (h : Ready s [opA .x f, opB .x f] []) (hal : (s.srcX (opA .x f)).toNat % 8 = 0) :
    Runs (.cflag f) s [opA .x f, opB .x f] fun k => { k with shadow := { k.shadow with
      flaga := s.srcX (opA .x f), flagv := s.srcX (opB .x f), fscope := (f.fn9.extractLsb' 0 3).toNat } } := by
  have hscope : f.fn9.toNat % 8 = (f.fn9.extractLsb' 0 3).toNat := by simp
  refine runs_of_latched_modCur _ _ _ _ ?_
  show execCflag f s = _
  unfold execCflag
  dsimp only
  rw [s.anchored_ready _ _ _ h]
  rw [if_neg (by simp [misaligned, hal]), hscope]
  rfl

/-! CGO (R278, R309) -/

/-- Stores that perform leave the copy engines. -/
theorem State.flush_engine (s : State) (c b d : Nat) : ((s.flush c b).core d).engine = (s.core d).engine := by
  refine State.flush_keeps (fun t => (t.core d).engine) (fun t w key data bad => ?_) (fun t c b f => ?_) s c b
  · have hstrike (t : State) (n : Nat) : ((t.strike w key n).core d).engine = (t.core d).engine :=
      Sparse.get_map_keeps (rd := Core.engine) (g := fun e k => k.struckBy w e key n)
        (fun e k => by unfold Core.struckBy; (repeat' split) <;> rfl) .idle t.cores d
    unfold State.putBytes State.soilPinned
    split
    · rfl
    · split <;> exact hstrike _ _
  · exact State.core_modCore_keeps Core.engine (f := fun k => k.setBank b (f (t.ctx c b))) (fun k => by unfold Core.setBank; split <;> rfl) t c d

/-- A change of an engine depends on the engine alone. -/
theorem State.modEngine_congr (s : State) (c : Nat) {f g : Engine → Engine} (h : f (s.core c).engine = g (s.core c).engine) :
    s.modEngine c f = s.modEngine c g := by
  unfold State.modEngine State.modCore
  dsimp only
  rw [h]

/-- CGO at an engine that takes the copy (R278, R309). -/
theorem exec_cgo_commits (f : SR) (s u : State) (e : Engine) (h : Ready s [] [.x f.d.toNat]) (he : e = (s.core s.issue.core).engine)
    (hok : s.issue.pre.shadow.ok = true) (hw : e.waiting = none) (hcl : e.claims = [])
    (hst : s.storesStuck s.issue.core s.issue.bank = false) (hred : s.reductionsOut s.issue.core s.issue.bank = false)
    (himg : s.imagesOut = false) (hu : u = s.flush s.issue.core s.issue.bank) :
    exec (.cgo f) s = .next ((u.modEngine s.issue.core (·.accept (s.issue.pre.newCopy s.issue.bank e.nextSeq))).modCur fun k =>
      k.setX f.d.toNat (word e.nextSeq)) := by
  subst he hu
  have hclaimed : (s.core s.issue.core).claimed s.issue.pre.serial = false := by
    unfold Core.claimed
    rw [hcl]
    rfl
  have hengine := s.flush_engine s.issue.core s.issue.bank s.issue.core
  have hkeep (e : Engine) (he : e.claims = []) (p : Nat × Word → Bool) : { e with claims := e.claims.filter p } = e := by
    cases e
    subst he
    rfl
  show execCgo f s = _
  unfold execCgo
  dsimp only
  rw [s.anchored_unlatched _ _ _ h (by simp)]
  rw [hok, hw, hclaimed]
  unfold State.afterStores
  dsimp only
  rw [hst, hred, himg]
  refine congrArg Host.Outcome.next ?_
  refine congrArg (State.putX · f.d.toNat (word (s.core s.issue.core).engine.nextSeq)) (State.modEngine_congr _ _ ?_)
  rw [hengine, hkeep _ hcl]

theorem exec_cgo_waits (f : SR) (s : State) (h : Ready s [] [.x f.d.toNat]) (hok : s.issue.pre.shadow.ok = true)
    (hbusy : (s.core s.issue.core).engine.waiting.isSome = true ∨ (s.core s.issue.core).claimed s.issue.pre.serial = true) :
    exec (.cgo f) s = .next (s.holdFor (some .swap)) := by
  show execCgo f s = _
  unfold execCgo
  dsimp only
  rw [s.anchored_unlatched _ _ _ h (by simp)]
  rw [hok, if_neg (by simp), if_pos (by simpa using hbusy)]

theorem exec_cgo_traps (f : SR) (s : State) (h : Ready s [] [.x f.d.toNat]) (hok : s.issue.pre.shadow.ok = false) :
    exec (.cgo f) s = .next (s.raise 0x0F 0) := by
  show execCgo f s = _
  unfold execCgo
  dsimp only
  rw [s.anchored_unlatched _ _ _ h (by simp)]
  rw [hok, if_pos (by simp)]

theorem exec_ccan (f : SR) (s : State) (h : Ready s [opA .x f] [.x f.d.toNat]) : exec (.ccan f) s =
    .next ((s.latchAll [opA .x f]).cancel f.d.toNat fun q => q.seq = (s.srcX (opA .x f)).toNat % 2 ^ 32) := by
  show execCcan f s = _
  rw [execCcan, s.anchored_ready _ _ _ h]

theorem exec_ccanAll (f : SR) (s : State) (h : Ready s [opA .x f] [.x f.d.toNat]) :
    exec (.ccanAll f) s = .next ((s.latchAll [opA .x f]).cancel f.d.toNat fun _ => true) := by
  show execCcanAll f s = _
  rw [execCcanAll, s.anchored_ready _ _ _ h]

/-! Requests to the handle table (R312 to R315) -/

theorem State.request_asks (t : State) (d : Nat) {extent dest : Word} {first n : Nat} (demand below : Bool)
    (he : extentOf extent = some (first, n)) (hal : dest.toNat % 16384 = 0) :
    t.request d extent dest demand below = t.askTable d (.request first n dest demand below) := by
  rw [State.request, if_neg (by simp [misaligned, hal]), he]

theorem exec_whdmd_asks (f : SR) (s : State) (first n : Nat) (he : extentOf (s.srcX (opA .x f)) = some (first, n))
    (hal : (s.srcX (opB .x f)).toNat % 16384 = 0) (h : Ready s [opA .x f, opB .x f] [.x f.d.toNat]) :
    exec (.whdmd f) s = .next ((s.latchAll [opA .x f, opB .x f]).askTable f.d.toNat (.request first n (s.srcX (opB .x f)) true false)) := by
  show execWhdmd f s = _
  rw [execWhdmd, s.anchored_ready _ _ _ h, State.request_asks _ _ _ _ he hal]

theorem exec_whdmdUp (f : SR) (s : State) (h : Ready s [opA .x f, opB .x f] [.x f.d.toNat]) : exec (.whdmdUp f) s =
    .next ((s.latchAll [opA .x f, opB .x f]).askTable f.d.toNat (.upgrade ((s.srcX (opA .x f)).toNat % 4096))) := by
  show execWhdmdUp f s = _
  rw [execWhdmdUp, s.anchored_ready _ _ _ h]

/-- WHREQ where the core's are finder requests (R300). -/
theorem exec_whreq_finds (f : SR) (s : State) (first n : Nat) (he : extentOf (s.srcX (opA .x f)) = some (first, n))
    (hal : (s.srcX (opB .x f)).toNat % 16384 = 0) (h : Ready s [opA .x f, opB .x f, opC .x f] [.x f.d.toNat]) (hf : s.issue.find.1 = true) :
    exec (.whreq f) s = .next ((s.latchAll [opA .x f, opB .x f, opC .x f]).askTable f.d.toNat
      (.request first n (s.srcX (opB .x f)) false (decide ((s.srcX (opC .x f)).toNat % 256 < s.issue.find.2)))) := by
  show execWhreq f s = _
  unfold execWhreq
  dsimp only
  rw [hf, if_pos rfl, if_neg (by simp), if_pos rfl, List.cons_append, List.singleton_append, State.anchored_ready _ _ _ _ h, State.request_asks _ _ _ _ he hal, Bool.true_and]

/-- A hold action leaves what an operation needs to issue. -/
theorem Ready.latchOne {s : State} {os : List Opd} {wr : List Reg} (h : Ready s os wr) (o : Opd) : Ready (s.latchOne o) os wr := by
  have hi := s.latchOne_issue o
  exact ⟨by rw [State.active, hi]; exact h.active, by rw [hi]; exact h.free, by rw [hi]; exact h.unread, by rw [hi]; exact h.clean⟩

/-- WHREQ where the core's are no finder requests: C has its hold action alone (R71, R312). -/
theorem exec_whreq_plain (f : SR) (s : State) (first n : Nat) (he : extentOf (s.srcX (opA .x f)) = some (first, n))
    (hal : (s.srcX (opB .x f)).toNat % 16384 = 0) (h : Ready s [opA .x f, opB .x f] [.x f.d.toNat]) (hf : s.issue.find.1 = false)
    (hl : ∀ r ∈ (opC .x f).copies, s.later r = false) :
    exec (.whreq f) s = .next (((s.latchOne (opC .x f)).latchAll [opA .x f, opB .x f]).askTable f.d.toNat
      (.request first n (s.srcX (opB .x f)) false false)) := by
  have hno : (opC .x f).copies.any s.later = false := List.any_eq_false.mpr fun r hr => by simp [hl r hr]
  show execWhreq f s = _
  unfold execWhreq
  dsimp only
  rw [hf, if_neg Bool.false_ne_true, hno, Bool.and_false, if_neg Bool.false_ne_true, if_neg Bool.false_ne_true, List.append_nil,
    State.anchored_ready _ _ _ _ (h.latchOne _), State.request_asks _ _ _ _ he hal, Bool.false_and]

/-! WHREL (R153, R314) -/

/-- WHREL on handle h in its state. -/
theorem exec_whrel (f : SR) (s : State) (h : Nat) (hr : Ready s [opA .x f] [.x f.d.toNat]) (hh : h = (s.srcX (opA .x f)).toNat % 4096) :
    exec (.whrel f) s = .next (
      let t := s.latchAll [opA .x f]
      if s.issue.pre.await = some (.release h) && (s.handleState s.issue.pre.job h ≠ .pending || !(s.handle h).mark) then t.putX f.d.toNat 1
      else if s.asking then t.holdFor none
      else if s.handleState s.issue.pre.job h = .pending then t.holdFor (some (.release h))
      else t.releaseHandle f.d.toNat h) := by
  subst hh
  show execWhrel f s = _
  unfold execWhrel State.handleOf
  dsimp only
  rw [s.anchored_ready _ _ _ hr]

/-- Hold actions leave the states of the handles. -/
theorem State.handleState_latched (s : State) (os : List Opd) (h : Nat) :
    (s.latchAll os).handleState (s.latchAll os).issue.pre.job h = s.handleState s.issue.pre.job h := by
  rw [State.latchAll_issue]
  unfold State.handleState State.handle
  rw [State.latchAll_handles]

section
variable {f : SR} {s : State} {h : Nat} (hr : Ready s [opA .x f] [.x f.d.toNat]) (hh : h = (s.srcX (opA .x f)).toNat % 4096)
include hr hh

theorem exec_whrel_releases (hw : s.issue.pre.await ≠ some (.release h)) (ha : s.asking = false)
    (hp : s.handleState s.issue.pre.job h ≠ .pending) :
    exec (.whrel f) s = .next ((s.latchAll [opA .x f]).releaseHandle f.d.toNat h) := by
  rw [exec_whrel f s h hr hh]
  dsimp only
  rw [if_neg (by simp [hw]), ha, if_neg Bool.false_ne_true, if_neg hp]

theorem whrel_free (hw : s.issue.pre.await ≠ some (.release h)) (ha : s.asking = false) (hs : s.handleState s.issue.pre.job h = .free) :
    Runs (.whrel f) s [opA .x f] fun k => k.setX f.d.toNat 0 := by
  refine runs_of_latched_modCur _ _ _ _ ((exec_whrel_releases hr hh hw ha (by rw [hs]; exact HState.noConfusion)).trans ?_)
  rw [State.releaseHandle, State.handleState_latched, hs]
  rfl

theorem exec_whrel_ready (hw : s.issue.pre.await ≠ some (.release h)) (ha : s.asking = false) (hs : s.handleState s.issue.pre.job h = .ready) :
    exec (.whrel f) s = .next (((s.latchAll [opA .x f]).setHandle h .free).regate.putX f.d.toNat 2) := by
  rw [exec_whrel_releases hr hh hw ha (by rw [hs]; exact HState.noConfusion), State.releaseHandle,
    State.handleState_latched, hs]

theorem exec_whrel_error (hw : s.issue.pre.await ≠ some (.release h)) (ha : s.asking = false) (hs : s.handleState s.issue.pre.job h = .error) :
    exec (.whrel f) s = .next (((s.latchAll [opA .x f]).setHandle h .free).regate.putX f.d.toNat 3) := by
  rw [exec_whrel_releases hr hh hw ha (by rw [hs]; exact HState.noConfusion), State.releaseHandle,
    State.handleState_latched, hs]

theorem exec_whrel_pending (hw : s.issue.pre.await ≠ some (.release h)) (ha : s.asking = false)
    (hs : s.handleState s.issue.pre.job h = .pending) :
    exec (.whrel f) s = .next ((s.latchAll [opA .x f]).holdFor (some (.release h))) := by
  rw [exec_whrel f s h hr hh]
  dsimp only
  rw [if_neg (by simp [hw]), ha, if_neg Bool.false_ne_true, if_pos hs]

theorem exec_whrel_asking (hw : s.issue.pre.await ≠ some (.release h)) (ha : s.asking = true) :
    exec (.whrel f) s = .next ((s.latchAll [opA .x f]).holdFor none) := by
  rw [exec_whrel f s h hr hh]
  dsimp only
  rw [if_neg (by simp [hw]), if_pos ha]

theorem whrel_waited (hw : s.issue.pre.await = some (.release h)) (hs : s.handleState s.issue.pre.job h ≠ .pending ∨ (s.handle h).mark = false) :
    Runs (.whrel f) s [opA .x f] fun k => k.setX f.d.toNat 1 := by
  refine runs_of_latched_modCur _ _ _ _ ((exec_whrel f s h hr hh).trans ?_)
  dsimp only
  rw [if_pos (by simpa [hw] using hs)]
  rfl

end

/-- Settles O37: the shadow set, then the engine, then the handle table. -/
theorem copyDescriptorsAndCommands : Obligations.CopyDescriptorsAndCommands := by
  refine ⟨⟨fun f s h => ?csrc, fun f s h => ?cdst, cdim_sets, celt_sets, cmode_sets, ?cbar, cflag_sets⟩, exec_cgo_commits, exec_cgo_waits,
    exec_cgo_traps, fun f s h => ?cstat, exec_ccan, exec_ccanAll,
    fun f s first n he hal => ⟨exec_whdmd_asks f s first n he hal, exec_whreq_finds f s first n he hal, exec_whreq_plain f s first n he hal⟩,
    exec_whdmdUp, fun f s h hr hh => ⟨fun hw ha => ?released, exec_whrel_asking hr hh, whrel_waited hr hh⟩⟩
  case csrc => exact runs_of_anchored _ s _ _ _ rfl h
  case cdst => exact runs_of_anchored _ s _ _ _ rfl h
  case cbar =>
    rintro f s _ _ h rfl rfl hva
    exact cbar_sets f s h hva
  case cstat => exact runs_of_anchored _ s _ _ _ rfl h
  case released =>
    exact ⟨whrel_free hr hh hw ha, exec_whrel_ready hr hh hw ha, exec_whrel_error hr hh hw ha, exec_whrel_pending hr hh hw ha⟩

end Sys2Proof.Machine
end

section
/-! SUPPORT. O38: a send whose checks pass leaves; link queues send and receive; the generator key. -/
namespace Sys2Proof.Machine

/-- A send whose checks pass leaves (R316). -/
theorem State.send_leaves {t : State} {entry target : Word} {check : State → Option State} (payload : Payload) (h : SendOk t entry target)
    (hc : check t = none) : t.send entry target check payload = t.sendOut entry target payload := by
  obtain ⟨hal, hok, hrem, hroom⟩ := h
  have hpeer : ¬(target.getLsbD 8 && (!t.isPeer t.issue.pre.job (bits target 16 16) || !t.port.up)) = true := by
    cases hr : target.getLsbD 8 with
    | false => simp
    | true => simp [hrem hr]
  unfold State.send
  rw [if_neg (by simp [misaligned, hal]), if_neg (by simp [hok]), if_neg hpeer, hc]
  exact if_neg (Nat.not_le.mpr hroom)

/-- A message that leaves is in flight, counted, and holds a send entry (R316, R355). -/
theorem State.sendOut_sent (t : State) (entry target : Word) (payload : Payload) : Sent t (t.sendOut entry target payload) entry target payload := by
  refine ⟨_, rfl, rfl, rfl, rfl, rfl, rfl, rfl, rfl, rfl, rfl, rfl, rfl, rfl, ?_, ?_⟩
  · unfold State.sendOut
    dsimp only
    show (Sparse.get Counter.zero (Sparse.set _ _ _ _) _).inj = _
    rw [Sparse.get_set_self]
    rfl
  · exact congrArg Cluster.sends (State.cluster_modCluster_self ..)

theorem msend_sends (f : SR) (s t : State) (h : Ready s [opA .x f, opB .x f, opC .x f, opReg .x f.d.toNat] [])
    (ht : t = s.latchAll [opA .x f, opB .x f, opC .x f, opReg .x f.d.toNat]) (hok : SendOk t (s.srcX (opA .x f)) (s.srcX (opB .x f))) :
    ∃ u, exec (.msend f) s = .next u ∧
      Sent t u (s.srcX (opA .x f)) (s.srcX (opB .x f)) (.words (s.srcX (opC .x f)) (s.issue.pre.getX f.d.toNat)) := by
  subst ht
  refine ⟨_, ?_, State.sendOut_sent ..⟩
  show execMsend f s = _
  rw [execMsend, s.anchored_ready _ _ _ h, State.send_leaves _ hok rfl]
  rfl

theorem msendv_sends (f : SR) (s t : State) (v : VReg) (h : Ready s [opA .x f, opB .x f, opC .v f] []) (hv : v = s.srcV (opC .v f))
    (hp : v.tag ≠ .poison) (ht : t = s.latchAll [opA .x f, opB .x f, opC .v f]) (hok : SendOk t (s.srcX (opA .x f)) (s.srcX (opB .x f))) :
    ∃ u, exec (.msendv f) s = .next u ∧
      Sent t u (s.srcX (opA .x f)) (s.srcX (opB .x f)) (.vec v.tag (leBytes 256 v.body.toNat ++ leBytes 32 v.side.toNat)) := by
  subst ht hv
  refine ⟨_, ?_, State.sendOut_sent ..⟩
  show execMsendv f s = _
  rw [execMsendv, s.anchored_ready _ _ _ h, State.send_leaves _ hok (if_neg hp)]

/-! Link queues (R320, R321, R366) -/

/-- Peer and queue of a link operand in bounds. -/
theorem linkOperand {q : Word} (h : q.toNat < 2 ^ 20) : bits q 20 44 = 0 ∧ linkPeer q = q.toNat % 2 ^ 16 ∧ linkQueue q = q.toNat / 2 ^ 16 := by
  simp only [linkPeer, linkQueue, bits]
  omega

/-- A link operation whose checks pass (R320). -/
theorem State.linkOp_passes {t : State} {va q n : Word} {recv : Bool} (k : State → State) (hal : va.toNat % 8 = 0) (hq : q.toNat < 2 ^ 20)
    (hlo : 8 ≤ n.toNat) (hhi : n.toNat ≤ 65536) (hn : n.toNat % 8 = 0) (hup : t.port.up = true)
    (hl : (t.job t.issue.pre.job).links.contains (q.toNat % 2 ^ 16, q.toNat / 2 ^ 16, recv) = true) : t.linkOp va q n recv k = k t := by
  obtain ⟨hrest, hpeer, hqueue⟩ := linkOperand hq
  have hbounds : ¬(decide (bits q 20 44 ≠ 0) || decide (n.toNat < 8) || decide (65536 < n.toNat) || decide (n.toNat % 8 ≠ 0)) = true := by
    simp only [Bool.or_eq_true, decide_eq_true_eq]
    omega
  unfold State.linkOp
  rw [if_neg (by simp [misaligned, hal]), if_neg hbounds, hpeer, hqueue, hl, hup]
  rfl

theorem State.latchAll_jobs (s : State) (os : List Opd) : (s.latchAll os).jobs = s.jobs :=
  (congrArg State.jobs (Elsewhere.latchAll s os).package :)

theorem State.latchAll_port (s : State) (os : List Opd) : (s.latchAll os).port = s.port :=
  (congrArg State.port (Elsewhere.latchAll s os).package :)

/-- Hold actions leave the job of the running context. -/
theorem State.latchAll_job (s : State) (os : List Opd) (j : Nat) : (s.latchAll os).job j = s.job j := by
  rw [State.job, State.latchAll_jobs, State.job]

theorem exec_lsend_sends (f : SR) (s t : State) (va q n : Word) (parts : List (Nat × Nat)) (h : Ready s [opA .x f, opB .x f, opC .x f] [])
    (hva : va = s.srcX (opA .x f)) (hq : q = s.srcX (opB .x f)) (hn : n = s.srcX (opC .x f)) (hal : va.toNat % 8 = 0)
    (hqb : q.toNat < 2 ^ 20) (hlo : 8 ≤ n.toNat) (hhi : n.toNat ≤ 65536) (hn8 : n.toNat % 8 = 0) (hup : s.port.up = true)
    (hl : (s.job s.issue.pre.job).links.contains (q.toNat % 2 ^ 16, q.toNat / 2 ^ 16, false) = true)
    (hres : (s.latchAll [opA .x f, opB .x f, opC .x f]).resolveIn {} (pieces va n.toNat) = (.ok parts, t))
    (hwait : t.readWaits parts = false) (hbad : t.badRead parts = false) :
    exec (.lsend f) s = .next ((t.afterRead parts).sendLink s.issue.core s.issue.bank (q.toNat % 2 ^ 16)
      (q.toNat / 2 ^ 16) (t.bytesRead parts) s.issue.pre) := by
  subst hva hq hn
  obtain ⟨-, hpeer, hqueue⟩ := linkOperand hqb
  show execLsend f s = _
  unfold execLsend
  dsimp only
  rw [s.anchored_ready _ _ _ h, State.linkOp_passes _ hal hqb hlo hhi hn8 (by rwa [State.latchAll_port])
    (by rwa [State.latchAll_issue, State.latchAll_job]), State.access_found _ _ hres (.inr hwait), hbad, if_neg Bool.false_ne_true,
    hpeer, hqueue]

theorem exec_lrecv_receives (f : SR) (s t u : State) (va q n : Word) (parts from_ : List (Nat × Nat)) (first held key : Nat)
    (h : Ready s [opA .x f, opB .x f, opC .x f] []) (hva : va = s.srcX (opA .x f)) (hq : q = s.srcX (opB .x f))
    (hn : n = s.srcX (opC .x f)) (hal : va.toNat % 8 = 0) (hqb : q.toNat < 2 ^ 20) (hlo : 8 ≤ n.toNat) (hhi : n.toNat ≤ 65536)
    (hn8 : n.toNat % 8 = 0) (hup : s.port.up = true) (hkey : key = 16 * (q.toNat % 2 ^ 16) + q.toNat / 2 ^ 16)
    (hl : (s.job s.issue.pre.job).links.contains (q.toNat % 2 ^ 16, q.toNat / 2 ^ 16, true) = true)
    (hbroken : (s.job s.issue.pre.job).broken.get false key = false)
    (hres : (s.latchAll [opA .x f, opB .x f, opC .x f]).resolveIn { write := true } (pieces va n.toNat) = (.ok parts, t))
    (hstream : (t.job s.issue.pre.job).stream.get (0, 0) key = (first, held)) (hheld : n.toNat ≤ held)
    (hst : t.storesStuck t.issue.core t.issue.bank = false) (hu : u = t.flush t.issue.core t.issue.bank)
    (himg : u.imageBefore parts = false) (hown : u.behindOwn parts = false)
    (hfrom : from_ = (u.job s.issue.pre.job).linkParts key first n.toNat) :
    exec (.lrecv f) s = .next ((u.modJob s.issue.pre.job fun j => { j with
      stream := j.stream.set (0, 0) key ((first + n.toNat) % 65536, held - n.toNat) }).writeParts u.issue.core
        (cutData parts (u.view u.mem from_)) (viewBad u.bad from_)) := by
  subst hva hq hn hfrom
  obtain ⟨-, hpeer, hqueue⟩ := linkOperand hqb
  show execLrecv f s = _
  unfold execLrecv
  dsimp only
  rw [hpeer, hqueue, ← hkey, s.anchored_ready _ _ _ h, State.linkOp_passes _ hal hqb hlo hhi hn8 (by rwa [State.latchAll_port])
    (by rwa [State.latchAll_issue, State.latchAll_job]), State.latchAll_job, hbroken, if_neg Bool.false_ne_true,
    State.access_found _ _ hres (.inl rfl), hstream, if_neg (Nat.not_lt.mpr hheld)]
  unfold State.afterStores
  dsimp only
  rw [hst, Bool.false_and, Bool.or_false, if_neg Bool.false_ne_true, ← hu, himg, hown, Bool.or_false, if_neg Bool.false_ne_true]

/-- Settles O38: sends, links, then the key. -/
theorem messagesLinksAndGeneratorKey : Obligations.MessagesLinksAndGeneratorKey :=
  ⟨msend_sends, msendv_sends, exec_lsend_sends, exec_lrecv_receives, fun _ s h => runs_of_anchored _ s _ _ _ rfl h⟩

end Sys2Proof.Machine
end

section
/-! SUPPORT. Events that go through every bank of a job: a fold that reaches each bank, and what it leaves of the others (R394, R400). -/
namespace Sys2Proof.Machine

/-- A fold over a list that holds `a`: what stands before `a` is reached and the steps at other places keep, the step at `a` turns
into what every step keeps. -/
theorem foldl_reaches {σ α : Type} [DecidableEq α] {op : σ → α → σ} {P Q : σ → Prop} {a : α} {l : List α}
    (other : ∀ t, ∀ x ∈ l, x ≠ a → P t → P (op t x)) (here : ∀ t, P t → Q (op t a)) (stays : ∀ t, ∀ x ∈ l, Q t → Q (op t x))
    (ha : a ∈ l) {s : σ} (hs : P s) : Q (l.foldl op s) := by
  have hkeep (m : List α) (hm : ∀ x ∈ m, x ∈ l) (t : σ) (ht : Q t) : Q (m.foldl op t) := by
    induction m generalizing t with
    | nil => exact ht
    | cons x m ih => exact ih (fun y hy => hm y (by simp [hy])) _ (stays t x (hm x (by simp)) ht)
  have hgo (m : List α) (hm : ∀ x ∈ m, x ∈ l) (ham : a ∈ m) (t : σ) (ht : P t) : Q (m.foldl op t) := by
    induction m generalizing t with
    | nil => cases ham
    | cons x m ih =>
      by_cases hx : x = a
      · subst hx
        exact hkeep m (fun y hy => hm y (by simp [hy])) _ (here t ht)
      · exact ih (fun y hy => hm y (by simp [hy])) ((List.mem_cons.mp ham).resolve_left (Ne.symm hx)) _ (other t x (hm x (by simp)) hx ht)
  exact hgo l (fun _ h => h) ha s hs

theorem foldl_holds {σ α : Type} {op : σ → α → σ} {P : σ → Prop} {l : List α} (h : ∀ t, ∀ x ∈ l, P t → P (op t x)) {s : σ} (hs : P s) :
    P (l.foldl op s) := by
  induction l generalizing s with
  | nil => exact hs
  | cons x l ih => exact ih (fun t y hy => h t y (by simp [hy])) (h s x (by simp) hs)

/-! The banks of a job -/

/-- A core that a state does not list is idle. -/
theorem State.core_listed {s : State} {c b : Nat} (h : (s.ctx c b).occupied = true) : ∃ k, (c, k) ∈ s.cores := by
  by_contra hno
  have hidle : s.core c = .idle := (Sparse.get_eq_of_lt Core.idle s.cores c fun e he hc => hno ⟨e.2, hc ▸ he⟩ :)
  rw [State.ctx, hidle] at h
  unfold Core.bank at h
  split at h <;> exact absurd h (by decide)

theorem State.mem_banksOf {s : State} {j c b : Nat} (hb : b < 2) : (c, b) ∈ s.banksOf j ↔ (s.ctx c b).occupied = true ∧ (s.ctx c b).job = j := by
  constructor
  · intro h
    simpa using (List.mem_filter.mp h).2
  · intro ⟨ho, hj⟩
    obtain ⟨k, hk⟩ := State.core_listed ho
    refine List.mem_filter.mpr ⟨List.mem_flatMap.mpr ⟨(c, k), hk, ?_⟩, by simp [ho, hj]⟩
    have hb : b = 0 ∨ b = 1 := by omega
    rcases hb with rfl | rfl <;> simp

theorem State.banksOf_bank {s : State} {j : Nat} {p : Nat × Nat} (h : p ∈ s.banksOf j) : p.2 < 2 := by
  obtain ⟨e, -, he⟩ := List.mem_flatMap.mp (List.mem_filter.mp h).1
  rcases List.mem_pair.mp he with rfl | rfl <;> simp

/-- A change of one bank leaves every other bank. -/
theorem State.ctx_modCtx_ne (s : State) {c b d e : Nat} (f : Ctx → Ctx) (hb : b < 2) (he : e < 2) (h : (c, b) ≠ (d, e)) :
    (s.modCtx c b f).ctx d e = s.ctx d e := by
  unfold State.ctx State.modCtx State.setCtx
  by_cases hd : d = c
  · subst hd
    have hne : ¬(e = 0 ↔ b = 0) := fun hiff => h (by rw [Prod.mk.injEq]; omega)
    rw [State.core_modCore_self, Core.bank_setBank_ne _ _ _ _ hne]
  · rw [State.modCore, State.core_setCore_ne _ _ _ _ hd]

/-- A change of each bank of a job by one function that a second time changes nothing. -/
theorem State.foldBanks_ctx (s : State) (j : Nat) {f : Ctx → Ctx} (hf : ∀ k, f (f k) = f k) {c b : Nat} (hb : b < 2) :
    ((s.banksOf j).foldl (fun s p => s.modCtx p.1 p.2 f) s).ctx c b =
      if (s.ctx c b).occupied = true ∧ (s.ctx c b).job = j then f (s.ctx c b) else s.ctx c b := by
  have hother (k : Ctx) : ∀ t : State, ∀ p ∈ s.banksOf j, p ≠ (c, b) → t.ctx c b = k → (t.modCtx p.1 p.2 f).ctx c b = k := fun t p hp hne ht => by
    rw [State.ctx_modCtx_ne t f (State.banksOf_bank hp) hb hne, ht]
  split
  · next h =>
    refine foldl_reaches (P := fun t : State => t.ctx c b = s.ctx c b) (Q := fun t : State => t.ctx c b = f (s.ctx c b)) (hother _) ?_ ?_
      ((State.mem_banksOf hb).mpr h) rfl
    · intro t ht
      rw [State.ctx_modCtx_self, ht]
    · intro t p hp ht
      by_cases hpe : p = (c, b)
      · rw [hpe, State.ctx_modCtx_self, ht, hf]
      · exact hother _ t p hp hpe ht
  · next h =>
    refine foldl_holds (P := fun t : State => t.ctx c b = s.ctx c b) (fun t p hp ht => ?_) rfl
    refine hother _ t p hp (fun hpe => h ?_) ht
    exact (State.mem_banksOf hb).mp (hpe ▸ hp)

theorem State.foldBanks_mem (s : State) (j : Nat) (f : Ctx → Ctx) : ((s.banksOf j).foldl (fun s p => s.modCtx p.1 p.2 f) s).mem = s.mem :=
  foldl_keeps State.mem (fun t (p : Nat × Nat) => t.modCtx_mem p.1 p.2 f) _ s

theorem Ctx.occupied_iff (k : Ctx) : k.occupied = true ↔ k.status ≠ .idle := decide_eq_true_iff

end Sys2Proof.Machine
end

section
/-! SUPPORT. O48: pre-emptions asked for, landed and released; jobs created, killed and torn down. -/
namespace Sys2Proof.Machine

/-! A service task that sets out (R393) -/

theorem State.service_live (s : State) (kind : Nat) {job : Nat} (core : Nat) (x4 x5 : Word) (ha : (s.job job).active = true)
    (hk : (s.job job).kstat = 0) : s.service kind job core x4 x5 = s.modCore core fun k => { k with queue := k.queue ++
      [{ kind := .service kind, job := job, entry := 0, payload := .words (word kind) x4, x5 := x5, x6 := 0
         x7 := 0, x8 := 0, wid := 0, widths := [0, 0, 0, 0, 0, 0], prio := 3, holder := none, time := s.sidereal }] } :=
  if_pos (by simp [ha, hk])

/-- A service task joins a queue; nothing else of a core changes. -/
theorem State.core_service_keeps {α : Type} (rd : Core → α) (h : ∀ k q, rd { k with queue := q } = rd k) (s : State)
    (kind job core : Nat) (x4 x5 : Word) (c : Nat) : rd ((s.service kind job core x4 x5).core c) = rd (s.core c) := by
  unfold State.service
  split
  · exact State.core_modCore_keeps rd (by exact fun k => h k _) s core c
  · rfl

/-! A request for one bank (R399) -/

/-- A bank that a pre-emption has landed on (R399). -/
def Ctx.preempted (k : Ctx) : Ctx := { k with held := true, preq := none, overdue := 0 }

theorem State.landPreempt_ctx (s : State) (c b d e : Nat) :
    (s.landPreempt c b).ctx d e = (s.modCtx c b Ctx.preempted).ctx d e := by
  unfold State.landPreempt
  dsimp only
  split
  · exact State.core_modCore_keeps (Core.bank · e) (by exact fun _ => rfl) _ _ _
  · exact State.core_service_keeps (Core.bank · e) (fun _ _ => rfl) _ _ _ _ _ _ _

/-- What a pre-emption that lands leaves of the cores' queues and of all that is no core. -/
theorem State.landPreempt_service (s : State) (c b : Nat) (ht : (s.core c).coreTest = false) :
    s.landPreempt c b = (s.modCtx c b Ctx.preempted).service 2 (s.ctx c b).job c
      (contextWord c b (s.ctx c b).job) 0 :=
  if_neg (by simp [ht])

section
variable {s : State} {c b : Nat}

theorem State.requestPreempt_away (h : (s.ctx c b).occupied = false ∨ (s.ctx c b).held = true) : s.requestPreempt c b = s :=
  if_pos (by simpa using h)

theorem State.requestPreempt_lands (ho : (s.ctx c b).occupied = true) (hh : (s.ctx c b).held = false) (hr : (s.ctx c b).atRest = true) :
    s.requestPreempt c b = s.landPreempt c b := by
  unfold State.requestPreempt
  dsimp only
  rw [if_neg (by simp [ho, hh]), if_pos hr]

theorem State.requestPreempt_asked (ho : (s.ctx c b).occupied = true) (hh : (s.ctx c b).held = false) (hr : (s.ctx c b).atRest = false)
    (hq : (s.ctx c b).preq ≠ none) : s.requestPreempt c b = s := by
  unfold State.requestPreempt
  dsimp only
  rw [if_neg (by simp [ho, hh]), if_neg (by simp [hr]), if_pos (Option.isSome_iff_ne_none.mpr hq)]

theorem State.requestPreempt_asks (ho : (s.ctx c b).occupied = true) (hh : (s.ctx c b).held = false) (hr : (s.ctx c b).atRest = false)
    (hq : (s.ctx c b).preq = none) : s.requestPreempt c b = s.modCtx c b fun k => { k with preq := some s.sidereal, overdue := 0 } := by
  unfold State.requestPreempt
  dsimp only
  rw [if_neg (by simp [ho, hh]), if_neg (by simp [hr]), if_neg (by simp [hq])]

end

/-- A request that lands queues a kind-2 service task for its bank (R393, R399). -/
theorem State.landPreempt_queue (s : State) (c b : Nat) (ht : (s.core c).coreTest = false) (ha : (s.job (s.ctx c b).job).active = true)
    (hk : (s.job (s.ctx c b).job).kstat = 0) : ∃ a : Arrived, ((s.landPreempt c b).core c).queue = (s.core c).queue ++ [a] ∧
      a.kind = .service 2 ∧ a.job = (s.ctx c b).job ∧ a.payload = .words 2 (contextWord c b (s.ctx c b).job) := by
  have hq : ((s.modCtx c b Ctx.preempted).core c).queue = (s.core c).queue := by
    unfold State.modCtx State.setCtx
    rw [State.core_modCore_self]
    unfold Core.setBank
    split <;> rfl
  rw [s.landPreempt_service c b ht, State.service_live (s.modCtx c b Ctx.preempted) 2 c _ 0 ha hk, State.core_modCore_self]
  exact ⟨_, congrArg (· ++ [_]) hq, rfl, rfl, rfl⟩

theorem requestPreempt_bank (s : State) (c b : Nat) (ho : (s.ctx c b).occupied = true) (hh : (s.ctx c b).held = false) :
    ((s.ctx c b).atRest = false → (s.ctx c b).preq = none →
      s.requestPreempt c b = s.modCtx c b fun k => { k with preq := some s.sidereal, overdue := 0 }) ∧
    ((s.ctx c b).atRest = false → (s.ctx c b).preq ≠ none → s.requestPreempt c b = s) ∧
    ((s.ctx c b).atRest = true → (s.core c).coreTest = false → (s.job (s.ctx c b).job).active = true →
      (s.job (s.ctx c b).job).kstat = 0 → ((s.requestPreempt c b).ctx c b).held = true ∧ ((s.requestPreempt c b).ctx c b).preq = none ∧
      ∃ a : Arrived, ((s.requestPreempt c b).core c).queue = (s.core c).queue ++ [a] ∧ a.kind = .service 2 ∧ a.job = (s.ctx c b).job) := by
  refine ⟨State.requestPreempt_asks ho hh, State.requestPreempt_asked ho hh, fun hr ht ha hk => ?_⟩
  obtain ⟨a, hq, hkind, hjob, -⟩ := s.landPreempt_queue c b ht ha hk
  rw [State.requestPreempt_lands ho hh hr, State.landPreempt_ctx, State.ctx_modCtx_self]
  exact ⟨rfl, rfl, a, hq, hkind, hjob⟩

/-! Requests for every bank of a job (R400) -/

/-- What a request for one bank leaves: time, jobs, and every other bank; each core's test and what stands in its queue. -/
structure RequestKeeps (s t : State) : Prop where
  sidereal : t.sidereal = s.sidereal
  jobs : t.jobs = s.jobs
  test : ∀ c, (t.core c).test = (s.core c).test
  queue : ∀ c, ∀ a ∈ (s.core c).queue, a ∈ (t.core c).queue

theorem RequestKeeps.refl (s : State) : RequestKeeps s s := ⟨rfl, rfl, fun _ => rfl, fun _ _ h => h⟩

theorem RequestKeeps.trans {s t u : State} (h : RequestKeeps s t) (k : RequestKeeps t u) : RequestKeeps s u :=
  ⟨k.sidereal.trans h.sidereal, k.jobs.trans h.jobs, fun c => (k.test c).trans (h.test c), fun c a ha => k.queue c a (h.queue c a ha)⟩

theorem RequestKeeps.modCore (s : State) (c : Nat) {f : Core → Core} (ht : ∀ k, (f k).test = k.test) (hq : ∀ k, ∀ a ∈ k.queue, a ∈ (f k).queue) :
    RequestKeeps s (s.modCore c f) where
  sidereal := rfl
  jobs := rfl
  test d := State.core_modCore_keeps Core.test ht s c d
  queue d a ha := by
    by_cases hd : d = c
    · subst hd
      rw [State.core_modCore_self]
      exact hq _ a ha
    · rwa [State.modCore, State.core_setCore_ne _ _ _ _ hd]

theorem RequestKeeps.modCtx (s : State) (c b : Nat) (f : Ctx → Ctx) : RequestKeeps s (s.modCtx c b f) := by
  refine RequestKeeps.modCore s c (f := fun k => k.setBank b (f (s.ctx c b))) (fun k => ?_) fun k a ha => ?_
  · unfold Core.setBank
    split <;> rfl
  · unfold Core.setBank
    split <;> exact ha

theorem RequestKeeps.service (s : State) (kind job core : Nat) (x4 x5 : Word) : RequestKeeps s (s.service kind job core x4 x5) := by
  unfold State.service
  split
  · exact RequestKeeps.modCore s core (by exact fun _ => rfl) (by exact fun _ _ ha => List.mem_append_left _ ha)
  · exact RequestKeeps.refl s

theorem RequestKeeps.landPreempt (s : State) (c b : Nat) : RequestKeeps s (s.landPreempt c b) := by
  have hctx := RequestKeeps.modCtx s c b Ctx.preempted
  unfold State.landPreempt
  dsimp only
  split
  · exact hctx.trans (RequestKeeps.modCore _ c (by exact fun _ => rfl) (by exact fun _ _ ha => ha))
  · exact hctx.trans (RequestKeeps.service ..)

theorem RequestKeeps.requestPreempt (s : State) (c b : Nat) : RequestKeeps s (s.requestPreempt c b) := by
  unfold State.requestPreempt
  dsimp only
  split
  · exact RequestKeeps.refl s
  · split
    · exact RequestKeeps.landPreempt s c b
    · split
      · exact RequestKeeps.refl s
      · exact RequestKeeps.modCtx s c b _

theorem State.ctx_requestPreempt_ne (s : State) {c b d e : Nat} (hb : b < 2) (he : e < 2) (h : (c, b) ≠ (d, e)) :
    (s.requestPreempt c b).ctx d e = s.ctx d e := by
  unfold State.requestPreempt
  dsimp only
  split
  · rfl
  · split
    · rw [State.landPreempt_ctx, State.ctx_modCtx_ne _ _ hb he h]
    · split
      · rfl
      · exact State.ctx_modCtx_ne _ _ hb he h

/-- A bank that is not at rest, asked for; one that is asked for already stays as it is. -/
def Ctx.asked (now : Word) (k : Ctx) : Ctx :=
  { k with preq := some (k.preq.getD now), overdue := if k.preq = none then 0 else k.overdue }

/-- A bank as a request for it leaves it. -/
def Ctx.requested (now : Word) (k : Ctx) : Ctx :=
  if k.held then k else if k.atRest then k.preempted else k.asked now

theorem Ctx.requested_asked {now : Word} {k : Ctx} (hh : k.held = false) (hr : k.atRest = false) : k.requested now = k.asked now := by
  rw [Ctx.requested, if_neg (by simp [hh]), if_neg (by simp [hr])]

theorem Ctx.requested_lands {now : Word} {k : Ctx} (hh : k.held = false) (hr : k.atRest = true) : k.requested now = k.preempted := by
  rw [Ctx.requested, if_neg (by simp [hh]), if_pos hr]

theorem Ctx.asked_again {now : Word} {k : Ctx} (h : k.preq ≠ none) : k.asked now = k := by
  obtain ⟨t, ht⟩ := Option.ne_none_iff_exists'.mp h
  unfold Ctx.asked
  rw [if_neg h, ht, Option.getD_some, ← ht]

theorem State.ctx_requestPreempt_self (s : State) (c b : Nat) (ho : (s.ctx c b).occupied = true) :
    (s.requestPreempt c b).ctx c b = (s.ctx c b).requested s.sidereal := by
  cases hh : (s.ctx c b).held with
  | true =>
    rw [State.requestPreempt_away (.inr hh)]
    exact (if_pos hh).symm
  | false =>
    cases hr : (s.ctx c b).atRest with
    | true => rw [State.requestPreempt_lands ho hh hr, State.landPreempt_ctx, State.ctx_modCtx_self, Ctx.requested_lands hh hr]
    | false =>
      rw [Ctx.requested_asked hh hr]
      cases hq : (s.ctx c b).preq with
      | none =>
        rw [State.requestPreempt_asks ho hh hr hq, State.ctx_modCtx_self, Ctx.asked, hq]
        rfl
      | some t =>
        have hne : (s.ctx c b).preq ≠ none := by simp [hq]
        rw [State.requestPreempt_asked ho hh hr hne, Ctx.asked_again hne]

theorem Ctx.requested_requested (now : Word) (k : Ctx) : (k.requested now).requested now = k.requested now := by
  cases hh : k.held with
  | true => simp only [Ctx.requested, hh, if_true]
  | false =>
    cases hr : k.atRest with
    | true => rw [Ctx.requested_lands hh hr]; rfl
    | false =>
      rw [Ctx.requested_asked hh hr, Ctx.requested_asked (k := k.asked now) hh hr, Ctx.asked_again]
      exact Option.some_ne_none _

theorem Ctx.requested_occupied (now : Word) (k : Ctx) : (k.requested now).occupied = k.occupied := by
  unfold Ctx.requested
  split
  · rfl
  · split <;> rfl

theorem State.preemptJob_keeps (s : State) (j : Nat) : RequestKeeps s (s.preemptJob j) :=
  foldl_holds (P := RequestKeeps s) (fun t p _ h => h.trans (RequestKeeps.requestPreempt t p.1 p.2)) (RequestKeeps.refl s)

theorem State.ctx_preemptJob (s : State) (j : Nat) {c b : Nat} (hb : b < 2) :
    (s.preemptJob j).ctx c b = if (s.ctx c b).occupied = true ∧ (s.ctx c b).job = j then (s.ctx c b).requested s.sidereal else s.ctx c b := by
  have hother (k : Ctx) : ∀ t : State, ∀ p ∈ s.banksOf j, p ≠ (c, b) → t.sidereal = s.sidereal ∧ t.ctx c b = k →
      (t.requestPreempt p.1 p.2).sidereal = s.sidereal ∧ (t.requestPreempt p.1 p.2).ctx c b = k := fun t p hp hne ht =>
    ⟨(RequestKeeps.requestPreempt t p.1 p.2).sidereal.trans ht.1,
      (t.ctx_requestPreempt_ne (State.banksOf_bank hp) hb hne).trans ht.2⟩
  split
  · next h =>
    refine (foldl_reaches (P := fun t : State => t.sidereal = s.sidereal ∧ t.ctx c b = s.ctx c b)
      (Q := fun t : State => t.sidereal = s.sidereal ∧ t.ctx c b = (s.ctx c b).requested s.sidereal) (hother _) ?_ ?_
      ((State.mem_banksOf hb).mpr h) ⟨rfl, rfl⟩).2
    · intro t ht
      refine ⟨(RequestKeeps.requestPreempt t c b).sidereal.trans ht.1, ?_⟩
      rw [t.ctx_requestPreempt_self c b (by rw [ht.2]; exact h.1), ht.1, ht.2]
    · intro t p hp ht
      by_cases hpe : p = (c, b)
      · subst hpe
        refine ⟨(RequestKeeps.requestPreempt t c b).sidereal.trans ht.1, ?_⟩
        rw [t.ctx_requestPreempt_self c b (by rw [ht.2, Ctx.requested_occupied]; exact h.1), ht.1, ht.2, Ctx.requested_requested]
      · exact hother _ t p hp hpe ht
  · next h =>
    refine (foldl_holds (P := fun t : State => t.sidereal = s.sidereal ∧ t.ctx c b = s.ctx c b) (fun t p hp ht => ?_) ⟨rfl, rfl⟩).2
    exact hother _ t p hp (fun hpe => h ((State.mem_banksOf hb).mp (hpe ▸ hp))) ht

/-- Every bank of the job that is at rest has its service task queued (R393, R399). -/
theorem State.preemptJob_queues (s : State) (j : Nat) {c b : Nat} (hb : b < 2) (ho : (s.ctx c b).occupied = true) (hj : (s.ctx c b).job = j)
    (hh : (s.ctx c b).held = false) (hr : (s.ctx c b).atRest = true) (ht : (s.core c).coreTest = false) (ha : (s.job j).active = true)
    (hk : (s.job j).kstat = 0) : ∃ a ∈ ((s.preemptJob j).core c).queue, a.kind = .service 2 ∧ a.job = j ∧
      a.payload = .words 2 (contextWord c b j) := by
  refine foldl_reaches (P := fun t : State => RequestKeeps s t ∧ t.ctx c b = s.ctx c b)
    (Q := fun t : State => ∃ a ∈ (t.core c).queue, a.kind = .service 2 ∧ a.job = j ∧ a.payload = .words 2 (contextWord c b j)) ?_ ?_ ?_
    ((State.mem_banksOf hb).mpr ⟨ho, hj⟩) ⟨RequestKeeps.refl s, rfl⟩
  · intro t p hp hne ⟨hkeep, hctx⟩
    exact ⟨hkeep.trans (RequestKeeps.requestPreempt t p.1 p.2), (t.ctx_requestPreempt_ne (State.banksOf_bank hp) hb hne).trans hctx⟩
  · intro t ⟨hkeep, hctx⟩
    have htest : (t.core c).coreTest = false := by
      rw [← ht]
      unfold Core.coreTest
      rw [hkeep.test c]
    have hjob : t.job j = s.job j := by rw [State.job, hkeep.jobs, State.job]
    have hl := t.landPreempt_queue c b htest (by rw [hctx, hj, hjob]; exact ha) (by rw [hctx, hj, hjob]; exact hk)
    obtain ⟨a, hq, hkind, hajob, hpay⟩ := hl
    rw [hctx, hj] at hajob hpay
    rw [State.requestPreempt_lands (by rw [hctx]; exact ho) (by rw [hctx]; exact hh) (by rw [hctx]; exact hr), hq]
    exact ⟨a, List.mem_append_right _ (List.mem_singleton_self a), hkind, hajob, hpay⟩
  · intro t p _ ⟨a, ha, hrest⟩
    exact ⟨a, (RequestKeeps.requestPreempt t p.1 p.2).queue c a ha, hrest⟩

theorem preemptReq_reaches (s : State) : ∃ u : State, Settles .preemptReq s u ∧ ∀ (c b : Nat) (k : Ctx), b < 2 → k = s.ctx c b →
    (k.status = .idle ∨ k.job ≠ s.arg.n ∨ k.held = true → u.ctx c b = k) ∧
    (k.status ≠ .idle → k.job = s.arg.n → k.held = false →
      (k.atRest = false → u.ctx c b = { k with preq := some (k.preq.getD s.sidereal), overdue := if k.preq = none then 0 else k.overdue }) ∧
      (k.atRest = true → u.ctx c b = { k with held := true, preq := none, overdue := 0 } ∧
        ((s.core c).coreTest = false → (s.job s.arg.n).active = true → (s.job s.arg.n).kstat = 0 → ∃ a ∈ (u.core c).queue,
          a.kind = .service 2 ∧ a.job = s.arg.n ∧ a.payload = .words 2 (word (c + 256 * b + 65536 * s.arg.n))))) := by
  refine ⟨s.preemptJob s.arg.n, rfl, fun c b k hb hk => ?_⟩
  subst hk
  have hctx := s.ctx_preemptJob s.arg.n (c := c) hb
  refine ⟨fun hno => ?_, fun hi hj hh => ?_⟩
  · rw [hctx]
    split
    · next h =>
      have hheld : (s.ctx c b).held = true := (hno.resolve_left ((Ctx.occupied_iff _).mp h.1)).resolve_left (not_not.mpr h.2)
      exact if_pos hheld
    · rfl
  · have ho := (Ctx.occupied_iff _).mpr hi
    rw [if_pos ⟨ho, hj⟩] at hctx
    refine ⟨fun hr => ?_, fun hr => ⟨?_, fun ht ha hk => ?_⟩⟩
    · exact hctx.trans (Ctx.requested_asked hh hr)
    · exact hctx.trans (Ctx.requested_lands hh hr)
    · exact s.preemptJob_queues s.arg.n hb ho hj hh hr ht ha hk

theorem preemptRel_releases (s : State) : ∃ u : State, Settles .preemptRel s u ∧ u.mem = s.mem ∧ ∀ c b : Nat, b < 2 →
    u.ctx c b = if (s.ctx c b).status ≠ .idle ∧ (s.ctx c b).job = s.arg.n then { s.ctx c b with held := false } else s.ctx c b := by
  refine ⟨s.releaseJob s.arg.n, rfl, s.foldBanks_mem s.arg.n _, fun c b hb => ?_⟩
  have hctx := s.foldBanks_ctx s.arg.n (f := fun k => { k with held := false }) (fun _ => rfl) (c := c) hb
  exact hctx.trans (if_congr (and_congr_left fun _ => Ctx.occupied_iff _) rfl rfl)

/-! PREQ and overdue requests (R400, R401) -/

theorem preq_settles (s : State) (c : Nat) (hc : c = s.arg.core) :
    (s.arg.v = 1 → Settles .preqRequest s ((s.requestPreempt c 0).modCtx c 1 fun k => { k with preq := none, overdue := 0 })) ∧
    (s.arg.v = 3 → Settles .preqRequest s ((s.requestPreempt c 0).requestPreempt c 1)) ∧
    (s.arg.v = 4 → Settles .preqHeldRelease s (s.modCtx c 0 fun k => { k with held := false })) ∧
    (s.arg.v = 8 → Settles .preqHeldRelease s (s.modCtx c 1 fun k => { k with held := false })) := by
  subst hc
  refine ⟨fun hv => ?_, fun hv => ?_, fun hv => ?_, fun hv => ?_⟩
  · exact settles_of_event (execPreqRequest s) rfl rfl (by rw [hv]; rfl)
  · exact settles_of_event (execPreqRequest s) rfl rfl (by rw [hv]; rfl)
  · exact settles_of_event (execPreqHeldRelease s) rfl rfl (by rw [hv]; rfl)
  · exact settles_of_event (execPreqHeldRelease s) rfl rfl (by rw [hv]; rfl)

theorem preemptOverdue_settles (s : State) (t : Word) (hq : (theCtx s).preq = some t)
    (hd : 2 ^ 22 * ((theCtx s).overdue + 1) < (s.sidereal - t).toNat) :
    Settles .preemptOverdue s ((onCtx s fun k => { k with overdue := k.overdue + 1 }).service 3 (theCtx s).job s.pkg.svctl
      (word (s.arg.core + 256 * s.arg.bank + 65536 * (theCtx s).job)) (word (s.sidereal - t).toNat)) := by
  refine settles_of_event (execPreemptOverdue s) rfl rfl ?_
  show (s.overdue s.arg.core s.arg.bank) = _
  unfold State.overdue
  dsimp only
  split
  · next t' ht =>
    obtain rfl : t' = t := Option.some.inj (ht.symm.trans hq)
    exact if_pos hd
  · next hno => exact absurd (hno.symm.trans hq) (by simp)

/-! Kills (R406, R407) -/

theorem kill_settles (s : State) (h : (s.job s.arg.n).tearing = false) : Settles .kill s (s.startKill s.arg.n) :=
  settles_of_event (execKill s) rfl rfl (if_neg (by simp [h]))

/-- A bank that a kill leaves occupied is another job's. -/
theorem killCore_bank (j : Nat) (k : Core) :
    ((killCore j k).b0.status ≠ .idle → (killCore j k).b0.job ≠ j) ∧ ((killCore j k).b1.status ≠ .idle → (killCore j k).b1.job ≠ j) := by
  have hfreed (x : Ctx) : (if x.occupied && x.job = j then x.freed else x).status ≠ .idle → (if x.occupied && x.job = j then x.freed else x).job ≠ j := by
    split
    · exact fun h => absurd rfl h
    · next hno => exact fun h hj => hno (by simp [(Ctx.occupied_iff x).mpr h, hj])
  exact ⟨hfreed k.b0, hfreed k.b1⟩

theorem startKill_releases (s : State) (j : Nat) (ha : (s.job j).active = true) (hk : (s.job j).kstat = 0) : ((s.startKill j).job j).kstat = 1 ∧
    ((s.startKill j).job j).overflow = [] ∧ (∀ r ∈ (s.startKill j).disp.recs, r.job ≠ j) ∧ (∀ l ∈ (s.startKill j).disp.launches, l.job ≠ j) ∧
    (∀ e ∈ (s.startKill j).disp.host, e.1 ≠ j) ∧ (∀ r ∈ (s.startKill j).hreqs, r.job ≠ j) ∧
    ∀ e ∈ (s.startKill j).cores, (e.2.b0.status ≠ .idle → e.2.b0.job ≠ j) ∧ (e.2.b1.status ≠ .idle → e.2.b1.job ≠ j) ∧
      ∀ a ∈ e.2.queue, a.job ≠ j := by
  have hjob : (s.startKill j).job j = { s.job j with kstat := 1, overflow := [] } := by
    rw [State.job, s.jobs_startKill ha hk, ← State.job, State.job_modJob_self]
  rw [hjob, s.startKill_live ha hk]
  refine ⟨rfl, rfl, fun r hr => by simpa using (List.mem_filter.mp hr).2, fun l hl => by simpa using (List.mem_filter.mp hl).2,
    fun e he => by simpa using (List.mem_filter.mp he).2, fun r hr => by simpa using (List.mem_filter.mp hr).2, fun e he => ?_⟩
  obtain ⟨e0, -, rfl⟩ := List.mem_map.mp he
  obtain ⟨hb0, hb1⟩ := killCore_bank j e0.2
  exact ⟨hb0, hb1, fun a ha => by simpa using (List.mem_filter.mp ha).2⟩

/-! A kill, a teardown completes (R407, R424) -/

@[simp] theorem State.service_faults (s : State) (kind j core : Nat) (x4 x5 : Word) : (s.service kind j core x4 x5).faults = s.faults := by
  unfold State.service
  split <;> rfl

/-- A record that is written adds none. -/
theorem State.writeRecord_faults (s : State) (r : FaultRec) : (s.writeRecord r).faults = s.faults := by
  have hput (at_ : Nat) : (s.putBytes 256 at_ r.bytes).faults = s.faults := (congrArg State.faults (s.putBytes_package 256 at_ r.bytes false) :)
  unfold State.writeRecord
  dsimp only
  split
  · rw [State.service_faults, State.signal_faults, State.modJob_faults, hput]
  · rw [State.signal_faults, State.modJob_faults, hput]

theorem State.writeRecords_faults (s : State) (j : Nat) : (s.writeRecords j).faults = s.faults.filter (·.job ≠ j) := by
  refine foldl_keeps State.faults (fun t r => ?_) _ _
  split
  · exact t.writeRecord_faults r
  · rfl

/-- Send entries of a job's messages are given back, and nothing else changes. -/
theorem State.freeSend_keeps (s : State) (m : Msg) : (s.freeSend m).fabric = s.fabric ∧ (s.freeSend m).faults = s.faults ∧
    (s.freeSend m).mem = s.mem := by
  unfold State.freeSend
  split <;> exact ⟨rfl, rfl, rfl⟩

theorem State.clearJob_keeps (s : State) (j : Nat) : (s.clearJob j).faults = s.faults ∧ (s.clearJob j).mem = s.mem := by
  unfold State.clearJob
  exact ⟨foldl_keeps State.faults (fun t m => (t.freeSend_keeps m).2.1) _ _, foldl_keeps State.mem (fun t m => (t.freeSend_keeps m).2.2) _ _⟩

/-- Nothing of the job is left on the fabric. -/
theorem State.clearJob_fabric (s : State) (j : Nat) : (∀ m ∈ (s.clearJob j).fabric.msgs, m.job ≠ j) ∧
    (∀ m ∈ (s.clearJob j).fabric.notices, m.job ≠ j) ∧ ∀ r ∈ (s.clearJob j).fabric.reductions, r.job ≠ j := by
  have hfab : (s.clearJob j).fabric = { s.fabric with
      counters := s.fabric.counters.filter fun e => e.1 % 64 ≠ j
      msgs := s.fabric.msgs.filter fun m => m.job ≠ j
      notices := s.fabric.notices.filter fun n => n.job ≠ j
      reductions := s.fabric.reductions.filter fun r => r.job ≠ j
      xwaves := s.fabric.xwaves.filter fun x => x.job ≠ j } := by
    unfold State.clearJob
    exact foldl_keeps State.fabric (fun t m => (t.freeSend_keeps m).1) _ _
  rw [hfab]
  exact ⟨fun m hm => by simpa using (List.mem_filter.mp hm).2, fun m hm => by simpa using (List.mem_filter.mp hm).2,
    fun r hr => by simpa using (List.mem_filter.mp hr).2⟩

theorem killComplete_completes (s : State) (hk : (s.job s.arg.n).kstat = 1) (hc : s.copiesOf s.arg.n = false) :
    ∃ u : State, Settles .killComplete s u ∧
    (u.job s.arg.n).kstat = 2 ∧ 16 * s.arg.n + 2 ∈ u.pkg.msix ∧ (∀ m ∈ u.fabric.msgs, m.job ≠ s.arg.n) ∧
    (∀ m ∈ u.fabric.notices, m.job ≠ s.arg.n) ∧ (∀ r ∈ u.fabric.reductions, r.job ≠ s.arg.n) ∧ (∀ r ∈ u.faults, r.job ≠ s.arg.n) ∧
    ((∀ r ∈ s.faults, r.job ≠ s.arg.n) → u.mem = s.mem) := by
  obtain ⟨hmsgs, hnotices, hreds⟩ := (s.writeRecords s.arg.n).clearJob_fabric s.arg.n
  obtain ⟨hfaults, hmem⟩ := (s.writeRecords s.arg.n).clearJob_keeps s.arg.n
  refine ⟨_, settles_of_event (execKillComplete s) rfl rfl (if_neg (by simp [hk, hc])), ?_, List.mem_cons_self, hmsgs, hnotices, hreds,
    fun r hr => ?_, fun hno => ?_⟩
  · show ((((s.writeRecords s.arg.n).clearJob s.arg.n).modJob s.arg.n fun q => { q with kstat := 2 }).job s.arg.n).kstat = 2
    rw [State.job_modJob_self]
  · have hr : r ∈ s.faults.filter (·.job ≠ s.arg.n) := by
      rw [← State.writeRecords_faults, ← hfaults]
      exact hr
    simpa using (List.mem_filter.mp hr).2
  · have hnone : s.faults.filter (·.job = s.arg.n) = [] := List.filter_eq_nil_iff.mpr fun r hr => by simpa using hno r hr
    refine hmem.trans ?_
    rw [State.writeRecords, hnone]
    rfl

theorem jobCreate_creates (s : State) (j : Nat) (v : Word) (hj : j = s.arg.n) (hv : v = s.arg.v) (hlt : j < 64) (hen : v.getLsbD 0 = true) :
    ((s.job j).active = false → s.pkg.stage = 2 → s.pkg.err = 0 → s.asidTaken j (bits v 16 16) = false →
      Settles .jobCreate s (State.modJob { s with fabric := { s.fabric with counters := s.fabric.counters.filter fun e => e.1 % 64 ≠ j } } j fun _ =>
        { Job.idle with active := true, asid := bits v 16 16, ceil := bits v 8 2, en := true, links := linkTable s.arg.data })) ∧
    ((s.job j).active = true → Settles .jobCreate s (s.modJob j fun q => { q with err := true })) := by
  subst hj hv
  have hgo : (decide (s.arg.n < 64) && s.arg.v.getLsbD 0) = true := by simp [hlt, hen]
  refine ⟨fun ha hs he ht => settles_of_event (execJobCreate s) rfl rfl ((if_pos hgo).trans ?_),
    fun ha => settles_of_event (execJobCreate s) rfl rfl ((if_pos hgo).trans ?_)⟩
  · have hready : s.pkg.ready = true := by simp [Pkg.ready, Pkg.halted, hs, he]
    exact if_neg (by simp [ha, hready, ht])
  · exact if_pos (by simp [ha])

theorem jobTeardown_starts (s : State) (j : Nat) (hj : j = s.arg.n) (hlt : j < 64) (hen : s.arg.v.getLsbD 0 = false)
    (ha : (s.job j).active = true) (ht : (s.job j).tearing = false) :
    (s.jobIdle j = true → Settles .jobTeardown s (s.modJob j fun q => { q with tearing := true, en := false })) ∧
    (s.jobIdle j = false → (s.job j).kstat = 0 →
      Settles .jobTeardown s ((s.modJob j fun q => { q with tearing := true, en := false }).startKill j)) := by
  subst hj
  have hgo : (decide (s.arg.n < 64) && !s.arg.v.getLsbD 0) = true := by rw [hen, decide_eq_true hlt]; rfl
  have hdown : s.tearDown s.arg.n = if s.jobIdle s.arg.n || decide ((s.job s.arg.n).kstat ≠ 0) then
      s.modJob s.arg.n fun q => { q with tearing := true, en := false }
      else (s.modJob s.arg.n fun q => { q with tearing := true, en := false }).startKill s.arg.n := if_neg (by simp [ha, ht])
  refine ⟨fun hi => settles_of_event (execJobTeardown s) rfl rfl ((if_pos hgo).trans (hdown.trans ?_)),
    fun hi hk => settles_of_event (execJobTeardown s) rfl rfl ((if_pos hgo).trans (hdown.trans ?_))⟩
  · exact if_pos (by simp [hi])
  · exact if_neg (by simp [hi, hk])

theorem State.unpin_faults (s : State) (d : Nat) (t : TlbEntry) : (s.unpin d t).faults = s.faults := rfl

theorem State.unpinAll_faults (s : State) (l : List (Nat × TlbEntry)) : (l.foldl (fun s p => s.unpin p.1 p.2) s).faults = s.faults := by
  induction l generalizing s with
  | nil => rfl
  | cons p l ih => rw [List.foldl_cons, ih, State.unpin_faults]

theorem State.dropTlb_faults (s : State) (i : Tlbi) : (s.dropTlb i).faults = s.faults := by
  unfold State.dropTlb
  exact s.unpinAll_faults _

theorem teardownComplete_ends (s : State) (j : Nat) (hj : j = s.arg.n) (ht : (s.job j).tearing = true) (hk : (s.job j).kstat = 2) :
    ∃ u : State, Settles .teardownComplete s u ∧ u.job j = .idle ∧ 16 * j + 2 ∈ u.pkg.msix ∧ ∀ r ∈ u.faults, r.job ≠ j := by
  subst hj
  obtain ⟨hfaults, -⟩ := (s.writeRecords s.arg.n).clearJob_keeps s.arg.n
  have hend : s.finishTearDown s.arg.n = _ := (if_neg (by simp [ht, hk])).trans (if_neg (by simp [hk]))
  refine ⟨_, settles_of_event (execTeardownComplete s) rfl rfl hend, ?_, List.mem_cons_self, fun r hr => ?_⟩
  · show (State.modJob _ s.arg.n fun _ => Job.idle).job s.arg.n = _
    rw [State.job_modJob_self]
  have hr : r ∈ s.faults.filter (·.job ≠ s.arg.n) := by
    rw [← State.writeRecords_faults, ← hfaults]
    exact State.dropTlb_faults _ _ ▸ hr
  simpa using (List.mem_filter.mp hr).2

/-- Settles O48: requests for a bank and for every bank, their landing and release, then kills, creation and teardown. -/
theorem preemptionsAndJobs : Obligations.PreemptionsAndJobs :=
  ⟨⟨requestPreempt_bank, preemptReq_reaches, preemptRel_releases, preq_settles, preemptOverdue_settles⟩, kill_settles, startKill_releases,
    killComplete_completes, jobCreate_creates, jobTeardown_starts, teardownComplete_ends⟩

end Sys2Proof.Machine
end

section
/-! SUPPORT. O49: TLB invalidations, LDM regions and the hot-page tracker. -/
namespace Sys2Proof.Machine

/-! Units changed and read -/

theorem State.modCore_at {s : State} {c : Nat} {f g : Core → Core} (h : f (s.core c) = g (s.core c)) : s.modCore c f = s.modCore c g :=
  congrArg (s.setCore c) h

theorem State.modRegion_at {s : State} {c n : Nat} {f g : Region → Region}
    (h : f ((s.core c).region.get .none n) = g ((s.core c).region.get .none n)) : s.modRegion c n f = s.modRegion c n g :=
  State.modCore_at (congrArg (fun r => { s.core c with region := (s.core c).region.set .none n r }) h)

theorem State.region_modRegion_self (s : State) (c n : Nat) (f : Region → Region) :
    ((s.modRegion c n f).core c).region.get .none n = f ((s.core c).region.get .none n) := by
  unfold State.modRegion
  rw [State.core_modCore_self]
  exact Sparse.get_set_self ..

/-- An entry of a table after one of its values is set is the value set or an entry of before. -/
theorem Sparse.mem_of_mem_set {α : Type} [DecidableEq α] {d v : α} {m : Sparse α} {k : Nat} {e : Nat × α} (h : e ∈ Sparse.set d m k v) :
    e = (k, v) ∨ e ∈ m := by
  unfold Sparse.set at h
  split at h
  · exact .inr (List.mem_filter.mp h).1
  · exact Sparse.mem_put v k m e h

/-- What a table gives for a key stands in it, or is the default. -/
theorem Sparse.get_mem_or {α : Type} (d : α) (m : Sparse α) (k : Nat) : (k, Sparse.get d m k) ∈ m ∨ Sparse.get d m k = d := by
  induction m with
  | nil => exact .inr rfl
  | cons e r ih =>
    rw [Sparse.get_cons]
    split
    · next he => exact .inl (he ▸ List.mem_cons_self)
    · exact ih.imp_left (List.mem_cons_of_mem e)

/-! TLB invalidation (R241) -/

theorem tlbiGo_begins (s : State) (c : Nat) (hu : s.arg.tlbi = .core c) (hc : c < 256) (hb : (s.core c).tlbi.busy = false)
    (hg : s.arg.v.getLsbD 0 = true) : Settles .tlbiGo s (s.modCore c fun k => { k with tlbi := { k.tlbi with
      asid := bits s.arg.v 20 16, size := bits s.arg.v 18 2, busy := true, goVa := k.tlbi.va, goAsid := bits s.arg.v 20 16
      goSize := bits s.arg.v 18 2 } }) := by
  refine settles_of_event (execTlbiGo s) rfl rfl ?_
  rw [hu, if_pos (by simpa [unitExists] using hc)]
  have hset : Tlbi.setCtl s.arg.v (s.core c).tlbi = { (s.core c).tlbi with
        asid := bits s.arg.v 20 16, size := bits s.arg.v 18 2, busy := true, goVa := (s.core c).tlbi.va, goAsid := bits s.arg.v 20 16
        goSize := bits s.arg.v 18 2 } := by
    simp [Tlbi.setCtl, hb, hg]
  unfold State.modTlbi
  refine State.modCore_at ?_
  dsimp only
  rw [hset]

theorem tlbiGo_ignored (s : State) (j : Nat) (hu : s.arg.tlbi = .job j) (hj : j < 64) (hb : (s.job j).tlbi.busy = true)
    (hg : s.arg.v.getLsbD 0 = true) : Settles .tlbiGo s (s.modJob j fun q => q) := by
  refine settles_of_event (execTlbiGo s) rfl rfl ?_
  rw [hu, if_pos (by simpa [unitExists] using hj)]
  have hset : Tlbi.setCtl s.arg.v (s.job j).tlbi = (s.job j).tlbi := if_pos (by rw [hb, hg]; rfl)
  exact congrArg (fun i => { s with jobs := s.jobs.set .idle j { s.job j with tlbi := i } }) hset

/-- No translation of the range stays in a core's or a cluster's TLB. -/
theorem State.dropTlb_drops (s : State) (i : Tlbi) : (∀ e ∈ (s.dropTlb i).cores, ∀ t ∈ e.2.tlb, i.hits t = false) ∧
    ∀ e ∈ (s.dropTlb i).clusters, ∀ t ∈ e.2.tlb, i.hits t = false := by
  unfold State.dropTlb
  refine ⟨fun e he t ht => ?_, fun e he t ht => ?_⟩ <;>
  · obtain ⟨x, -, rfl⟩ := List.mem_map.mp he
    simpa using (List.mem_filter.mp ht).2

theorem tlbiComplete_drops (s : State) (c : Nat) (hu : s.arg.tlbi = .core c) (hb : (s.core c).tlbi.busy = true) (hs : s.anyStuck = false) :
    ∃ u : State, Settles .tlbiComplete s u ∧ (u.core c).tlbi.busy = false ∧
      (∀ e ∈ u.cores, ∀ t ∈ e.2.tlb, (s.core c).tlbi.hits t = false) ∧ ∀ e ∈ u.clusters, ∀ t ∈ e.2.tlb, (s.core c).tlbi.hits t = false := by
  obtain ⟨i, hi⟩ : ∃ i, (s.core c).tlbi = i := ⟨_, rfl⟩
  rw [hi] at hb ⊢
  have hunit : s.tlbiOf s.arg.tlbi = i := by rw [hu]; exact hi
  obtain ⟨hcores, hclusters⟩ : (∀ e ∈ (s.finishTlbi i).cores, ∀ t ∈ e.2.tlb, i.hits t = false) ∧
      ∀ e ∈ (s.finishTlbi i).clusters, ∀ t ∈ e.2.tlb, i.hits t = false := State.dropTlb_drops _ i
  refine ⟨(s.finishTlbi i).modCore c fun k => { k with tlbi := { k.tlbi with busy := false } },
    settles_of_event (execTlbiComplete s) rfl rfl ?_, by rw [State.core_modCore_self], fun e he => ?_, hclusters⟩
  · dsimp only
    rw [hunit, if_neg (by simp [hb, hs]), hu]
    rfl
  · rcases Sparse.mem_of_mem_set he with rfl | he
    · rcases Sparse.get_mem_or .idle (s.finishTlbi i).cores c with hin | hidle
      · exact fun t ht => hcores (c, Sparse.get .idle (s.finishTlbi i).cores c) hin t ht
      · show ∀ t ∈ (Sparse.get .idle (s.finishTlbi i).cores c).tlb, _
        rw [hidle]
        exact fun t ht => absurd ht List.not_mem_nil
    · exact hcores e he

/-! LDM regions bind and unbind (R248) -/

theorem rctl_settles (s : State) (c n : Nat) (v : Word) (o : Region) (hc : c = s.arg.core) (hn : n = s.arg.n) (hv : v = s.arg.v)
    (hcl : c < 256) (hnl : n < 16) (ho : o = (s.core c).region.get .none n) :
    (v.getLsbD 0 = true → o.valid = false → o.busy = false → bits v 20 7 + bits v 32 7 < 128 → (∀ e ∈ (s.core c).region, e.1 = n) →
      Settles .rctlBind s (s.modRegion c n fun _ =>
        ⟨o.rva, bits v 48 16, bits v 32 7, bits v 20 7, false, false, v.getLsbD 1, true, [], []⟩)) ∧
    (v.getLsbD 0 = true → o.valid = true → Settles .rctlBind s (s.modRegion c n fun o => { o with err := true })) ∧
    (v.getLsbD 0 = false → o.valid = true → Settles .rctlUnbind s (s.modRegion c n fun o => { o with valid := false, busy := true })) ∧
    (o.busy = true → (∀ e ∈ o.dirty, e.2 = false) → o.dirty = [] → ∃ u : State, Settles .unbindWritebackDone s u ∧
      ((u.core c).region.get .none n).busy = false ∧ ((u.core c).region.get .none n).filled = []) ∧
    (∀ sec, o.busy = true → o.dirty = [(sec, true)] → Settles .unbindWritebackDone s ((s.writeBack c n sec).modRegion c n fun o =>
      if o.dirty = [] then { o with busy := false, filled := [] } else o)) := by
  subst hc hn hv ho
  have hbind (h0 : s.arg.v.getLsbD 0 = true) {t : State} (h : s.bindRegion s.arg.core s.arg.n s.arg.v = t) : Settles .rctlBind s t :=
    settles_of_event (execRctlBind s) rfl rfl ((if_pos (by simp only [hcl, hnl, h0, decide_true, Bool.and_self])).trans h)
  refine ⟨fun h0 hval hbusy hfit hother => hbind h0 ?_, fun h0 hval => hbind h0 ?_,
    fun h0 hval => settles_of_event (execRctlUnbind s) rfl rfl
      ((if_pos (by simp only [hcl, hnl, h0, decide_true, Bool.not_false, Bool.and_self])).trans ?_),
    fun hbusy _ hdirty => ?_, fun sec hbusy hdirty => settles_of_event (execUnbindWritebackDone s) rfl rfl ?_⟩
  · have hothers : ((s.core s.arg.core).region.filter fun e => e.1 ≠ s.arg.n) = [] :=
      List.filter_eq_nil_iff.mpr fun e he => by simpa using hother e he
    unfold State.bindRegion
    dsimp only
    rw [hothers]
    refine State.modRegion_at (if_neg ?_)
    simpa [hval, hbusy] using hfit
  · unfold State.bindRegion
    refine State.modRegion_at (if_pos ?_)
    rw [hval]
    rfl
  · exact State.modRegion_at (if_pos hval)
  · refine ⟨_, settles_of_event (execUnbindWritebackDone s) rfl rfl (if_neg (by simp [hbusy])), ?_⟩
    have hback : s.writeBackAll s.arg.core s.arg.n = s := by rw [State.writeBackAll, hdirty]; rfl
    rw [hback, State.region_modRegion_self, if_pos (by rw [hdirty]; rfl)]
    exact ⟨rfl, rfl⟩
  · have hback : s.writeBackAll s.arg.core s.arg.n = s.writeBack s.arg.core s.arg.n sec := by rw [State.writeBackAll, hdirty]; rfl
    refine (if_neg (by simp [hbusy])).trans ?_
    rw [hback]
    exact State.modRegion_at (if_congr List.isEmpty_iff rfl rfl)

/-! Sectors fill and go back (R247) -/

/-- The address of a sector of a region. -/
def Region.sectorVa (r : Region) (sec : Nat) : Word :=
  word ((r.page * 16384 + 1024 * sec) % 2 ^ 56 + (if r.page / 2 ^ 41 = 1 then 255 * 2 ^ 56 else 0))

/-- A run copied reads as its source stood. -/
theorem Sparse.get_copyRun_at {α : Type} (d : α) (m : Sparse α) {src dst n i : Nat} (h : i < n) :
    Sparse.get d (Sparse.copyRun m src dst n) (dst + i) = Sparse.get d m (src + i) := by
  rw [Sparse.get_copyRun, if_pos ⟨by omega, by omega⟩]
  congr 1
  omega

/-- What a sector's fill leaves: its LDM bytes zeroed, or copied from what the translation gives. -/
def State.filledFrom (t : State) (g : Agent) (r : Region) (key dst : Nat) : State :=
  if r.zfill then (t.putBytes g.core dst (List.replicate 1024 0)).moveCode fun m => Sparse.splice 0 m dst (List.replicate 1024 0)
  else (t.moveBytes key dst 1024).moveCode fun m => Sparse.copyRun m key dst 1024

theorem State.filledFrom_mem (t : State) (g : Agent) (r : Region) (key dst i : Nat) (hi : i < 1024) :
    (r.zfill = false → Sparse.get 0 (t.filledFrom g r key dst).mem (dst + i) = Sparse.get 0 t.mem (key + i)) ∧
    (r.zfill = true → t.deadLdm dst = false → Sparse.get 0 (t.filledFrom g r key dst).mem (dst + i) = 0) := by
  unfold State.filledFrom
  refine ⟨fun hz => ?_, fun hz hd => ?_⟩
  · rw [hz]
    exact Sparse.get_copyRun_at 0 t.mem hi
  · rw [hz]
    refine (State.get_putBytes t g.core dst (List.replicate 1024 0) false (dst + i)).trans ?_
    rw [if_pos ⟨hd, by omega, by rw [List.length_replicate]; omega⟩]
    exact List.getD_replicate _ (by omega)

theorem fillSector_fills (s t : State) (g : Agent) (n sec key dst : Nat) (r : Region) (va : Word)
    (hva : va = r.sectorVa sec) (hdst : dst = ldmKey g.core (r.ldmbase * 16384 + 1024 * sec)) :
    (s.translate g { homed := true } va 1024 = (.ok key, t) → ∃ u : State, s.fillSector g n r sec = (.ok (), u) ∧
      ((u.core g.core).region.get .none n).filled.get false sec = true ∧
      (r.zfill = false → ∀ i < 1024, Sparse.get 0 u.mem (dst + i) = Sparse.get 0 t.mem (key + i)) ∧
      (r.zfill = true → t.deadLdm dst = false → ∀ i < 1024, Sparse.get 0 u.mem (dst + i) = 0)) ∧
    (∀ f, s.translate g { homed := true } va 1024 = (.error f, t) →
      s.fillSector g n r sec = (.error { f with access := some 12 }, t)) := by
  subst hva hdst
  refine ⟨fun h => ⟨(t.filledFrom g r key (ldmKey g.core (r.ldmbase * 16384 + 1024 * sec))).modRegion g.core n
      fun r => { r with filled := r.filled.set false sec true }, ?_, ?_, fun hz i hi => ?_, fun hz hd i hi => ?_⟩, fun f h => ?_⟩
  · unfold State.fillSector
    dsimp only
    rw [← Region.sectorVa, h]
    rfl
  · rw [State.region_modRegion_self]
    exact Sparse.get_set_self false _ sec true
  · exact (t.filledFrom_mem g r key _ i hi).1 hz
  · exact (t.filledFrom_mem g r key _ i hi).2 hz hd
  · unfold State.fillSector
    dsimp only
    rw [← Region.sectorVa, h]

theorem touchSectors_filled (s : State) (g : Agent) (n sec : Nat) (h : ((s.core g.core).region.get .none n).filled.get false sec = true) :
    s.touchSectors g n false [sec] = (.ok (), s) ∧
    s.touchSectors g n true [sec] = (.ok (), s.modRegion g.core n fun r => { r with dirty := r.dirty.set false sec true }) := by
  constructor
  · exact if_pos h
  · exact if_pos h

theorem find_first {p : Nat → Bool} {n j : Nat} (hj : j < n) (hp : p j = true) (hlt : ∀ i < j, p i = false) :
    (List.range n).find? p = some j := by
  rw [List.find?_range_eq_some]
  exact ⟨hp, List.mem_range.mpr hj, fun i hi => by simp [hlt i hi]⟩

theorem writeBack_goesBack (s t : State) (c n sec job key : Nat) (r : Region) (va : Word) (hr : r = (s.core c).region.get .none n)
    (hva : va = r.sectorVa sec) (ha : (s.job job).active = true) (hid : (s.job job).asid = r.asid) (hj : job < 64)
    (hfirst : ∀ j < job, (s.job j).active = true → (s.job j).asid ≠ r.asid) (hd : r.dirty.get false sec = true) :
    (s.translate ⟨c, r.asid, job, true, false⟩ { write := true, homed := true } va 1024 = (.ok key, t) →
      (∀ i < 1024, Sparse.get 0 (s.writeBack c n sec).mem (key + i) =
        Sparse.get 0 t.mem (ldmKey c (r.ldmbase * 16384 + 1024 * sec) + i)) ∧
      (((s.writeBack c n sec).core c).region.get .none n).dirty.get false sec = false) ∧
    (∀ f, s.translate ⟨c, r.asid, job, true, false⟩ { write := true, homed := true } va 1024 = (.error f, t) →
      (s.writeBack c n sec).mem = t.mem ∧ (((s.writeBack c n sec).core c).region.get .none n).err = true ∧
      ∃ x : FaultRec, (s.writeBack c n sec).faults = t.faults ++ [x] ∧ x.cause = f.cause ∧ x.access = 13 ∧ x.va = va ∧ x.job = job) := by
  subst hr hva
  have hjob : ((List.range 64).find? fun j => (s.job j).active && (s.job j).asid = ((s.core c).region.get .none n).asid) = some job :=
    find_first hj (by simp [ha, hid]) fun i hi => by simpa using hfirst i hi
  refine ⟨fun h => ?_, fun f h => ?_⟩
  · obtain ⟨u, hu, hmem⟩ : ∃ u : State, s.writeBack c n sec = u.modRegion c n (fun r => { r with dirty := r.dirty.set false sec false }) ∧
        u.mem = Sparse.copyRun t.mem (ldmKey c (((s.core c).region.get .none n).ldmbase * 16384 + 1024 * sec)) key 1024 := by
      unfold State.writeBack
      dsimp only
      rw [if_neg (by simp [hd]), hjob, Option.getD_some, ← Region.sectorVa, h]
      refine ⟨_, rfl, ?_⟩
      unfold State.soilPinned
      split <;> rfl
    rw [hu, State.region_modRegion_self]
    refine ⟨fun i hi => ?_, Sparse.get_set_self false _ sec false⟩
    show Sparse.get 0 u.mem _ = _
    rw [hmem]
    exact Sparse.get_copyRun_at 0 t.mem hi
  · obtain ⟨x, hx, hcause, haccess, hxva, hxjob⟩ : ∃ x : FaultRec, s.writeBack c n sec = (t.report x).modRegion c n (fun r => { r with err := true }) ∧
        x.cause = f.cause ∧ x.access = 13 ∧ x.va = ((s.core c).region.get .none n).sectorVa sec ∧ x.job = job := by
      unfold State.writeBack
      dsimp only
      rw [if_neg (by simp [hd]), hjob, Option.getD_some, ← Region.sectorVa, h]
      exact ⟨_, rfl, rfl, rfl, rfl, rfl⟩
    rw [hx, State.region_modRegion_self]
    exact ⟨rfl, rfl, x, rfl, hcause, haccess, hxva, hxjob⟩

/-! The hot-page tracker (R249 to R252) -/

/-- A slice's counter of a frame set to a count. -/
def State.counted (s : State) (d frame n : Nat) : State :=
  s.modCluster d fun cl => { cl with hptCount := (hptRoom cl.hptCount frame).set 0 frame n }

theorem State.hptCountUp_eq (s : State) (d frame : Nat) (p : Bool) {t : State} {n : Nat} (hn : n = (s.cluster d).hptCount.get 0 frame + 1)
    (ht : t = s.counted d frame n) : s.hptCountUp d frame p =
      if n = 16 * max 1 (t.cluster d).hptThresh && !(t.cluster d).hptProposed.contains frame then
        if p then t.modCluster d fun cl => { cl with skip := satInc 32 cl.skip }
        else (t.propose d frame).modCluster d fun cl => { cl with hptProposed := frame :: cl.hptProposed }
      else t := by
  subst ht hn
  rfl

theorem State.cluster_counted (s : State) (d frame n : Nat) : (s.counted d frame n).cluster d =
    { s.cluster d with hptCount := (hptRoom (s.cluster d).hptCount frame).set 0 frame n } := s.cluster_modCluster_self d _

theorem State.offline_counted (s : State) (d frame n c : Nat) : (s.counted d frame n).offline c = s.offline c := by
  unfold State.offline
  rw [State.counted, State.cluster_modCluster_keeps Cluster.offline (by exact fun _ => rfl)]

/-- Where writes land depends on memory and on the LDMs that are offline alone. -/
theorem State.putNum_mem_congr {s t : State} (hm : t.mem = s.mem) (ho : ∀ c, t.offline c = s.offline c) (who key n v : Nat) :
    (t.putNum who key n v).mem = (s.putNum who key n v).mem := by
  have hd : t.deadLdm key = s.deadLdm key := by rw [State.deadLdm, ho]; rfl
  rw [State.putNum, State.putNum, State.putBytes_mem, State.putBytes_mem, hm, hd]

/-- What a write of bytes leaves in every slice. -/
theorem State.cluster_putNum_keeps {α : Type} (rd : Cluster → α) (h : ∀ (k : Cluster) m, rd { k with pinDirty := m } = rd k) (s : State)
    (who key n v d : Nat) : rd ((s.putNum who key n v).cluster d) = rd (s.cluster d) := by
  unfold State.putNum State.putBytes State.soilPinned
  split
  · rfl
  · split
    · rfl
    · exact State.cluster_modCluster_keeps rd (by exact fun k => h k _) _ _ d

/-- A proposal that finds room writes its record; one that does not is dropped. -/
theorem State.propose_proposes (s : State) (d frame at_ : Nat) (hat : at_ = bits (s.cluster d).hptRing 12 40 * 4096 + 16 * (s.cluster d).hptHead) :
    ((s.propose d frame).cluster d).hptCount = (s.cluster d).hptCount ∧
    (((s.cluster d).hptHead + 1) % 256 ≠ (s.cluster d).hptTail % 256 → ((s.propose d frame).cluster d).hptHead = ((s.cluster d).hptHead + 1) % 256 ∧
      (s.propose d frame).mem = ((s.putNum 256 at_ 8 frame).putNum 256 (at_ + 8) 8 ((s.cluster d).hptEpochs % 2 ^ 32)).mem) ∧
    (((s.cluster d).hptHead + 1) % 256 = (s.cluster d).hptTail % 256 →
      ((s.propose d frame).cluster d).propDrop = min ((s.cluster d).propDrop + 1) (2 ^ 16 - 1) ∧ (s.propose d frame).mem = s.mem) := by
  subst hat
  unfold State.propose
  dsimp only
  split
  · next hfull =>
    rw [State.cluster_modCluster_self]
    exact ⟨rfl, fun h => absurd hfull h, fun _ => ⟨rfl, rfl⟩⟩
  · next hroom =>
    rw [State.cluster_modCluster_self]
    refine ⟨?_, fun _ => ⟨?_, rfl⟩, fun h => absurd h hroom⟩
    · show (State.cluster _ d).hptCount = _
      rw [State.cluster_putNum_keeps Cluster.hptCount (by exact fun _ _ => rfl), State.cluster_putNum_keeps Cluster.hptCount (by exact fun _ _ => rfl)]
    · show ((State.cluster _ d).hptHead + 1) % 256 = _
      rw [State.cluster_putNum_keeps Cluster.hptHead (by exact fun _ _ => rfl), State.cluster_putNum_keeps Cluster.hptHead (by exact fun _ _ => rfl)]

theorem hptCountUp_counts (s u : State) (d frame n at_ : Nat) (p : Bool) (cl : Cluster) (hcl : cl = s.cluster d) (hu : u = s.hptCountUp d frame p)
    (hn : n = cl.hptCount.get 0 frame + 1) (hat : at_ = bits cl.hptRing 12 40 * 4096 + 16 * cl.hptHead) :
    (u.cluster d).hptCount.get 0 frame = n ∧
    (n ≠ 16 * max 1 cl.hptThresh ∨ frame ∈ cl.hptProposed → u.mem = s.mem ∧ (u.cluster d).hptHead = cl.hptHead ∧
      (u.cluster d).skip = cl.skip ∧ (u.cluster d).propDrop = cl.propDrop) ∧
    (n = 16 * max 1 cl.hptThresh → frame ∉ cl.hptProposed →
      (p = true → (u.cluster d).skip = min (cl.skip + 1) (2 ^ 32 - 1) ∧ u.mem = s.mem ∧ (u.cluster d).hptHead = cl.hptHead) ∧
      (p = false → frame ∈ (u.cluster d).hptProposed ∧
        ((cl.hptHead + 1) % 256 ≠ cl.hptTail % 256 → (u.cluster d).hptHead = (cl.hptHead + 1) % 256 ∧
          u.mem = ((s.putNum 256 at_ 8 frame).putNum 256 (at_ + 8) 8 (cl.hptEpochs % 2 ^ 32)).mem) ∧
        ((cl.hptHead + 1) % 256 = cl.hptTail % 256 → (u.cluster d).propDrop = min (cl.propDrop + 1) (2 ^ 16 - 1) ∧ u.mem = s.mem))) := by
  subst hcl hat
  obtain ⟨t, ht⟩ : ∃ t, t = s.counted d frame n := ⟨_, rfl⟩
  have hmem : t.mem = s.mem := by rw [ht]; rfl
  have hoff (c : Nat) : t.offline c = s.offline c := by rw [ht, State.offline_counted]
  have hclus : t.cluster d = { s.cluster d with hptCount := (hptRoom (s.cluster d).hptCount frame).set 0 frame n } := by
    rw [ht, State.cluster_counted]
  have hcount : (t.cluster d).hptCount.get 0 frame = n := by
    rw [hclus]
    exact Sparse.get_set_self 0 _ frame n
  rw [s.hptCountUp_eq d frame p hn ht] at hu
  have hthresh : (t.cluster d).hptThresh = (s.cluster d).hptThresh := by rw [hclus]
  have hprop : (t.cluster d).hptProposed = (s.cluster d).hptProposed := by rw [hclus]
  rw [hthresh, hprop] at hu
  by_cases hhit : n = 16 * max 1 (s.cluster d).hptThresh ∧ frame ∉ (s.cluster d).hptProposed
  · obtain ⟨hat, hnew⟩ := hhit
    rw [if_pos (by simp [← hat, hnew])] at hu
    have hno : ¬ (n ≠ 16 * max 1 (s.cluster d).hptThresh ∨ frame ∈ (s.cluster d).hptProposed) := by tauto
    cases p with
    | true =>
      rw [if_pos rfl] at hu
      rw [hu, State.cluster_modCluster_self]
      refine ⟨hcount, fun h => absurd h hno, fun _ _ => ⟨fun _ => ⟨?_, hmem, ?_⟩, nofun⟩⟩
      · rw [hclus]
        rfl
      · rw [hclus]
    | false =>
      rw [if_neg (by decide)] at hu
      obtain ⟨hkeep, hroom, hfull⟩ := t.propose_proposes d frame _ rfl
      have hput := State.putNum_mem_congr (State.putNum_mem_congr hmem hoff 256 (bits (s.cluster d).hptRing 12 40 * 4096 + 16 * (s.cluster d).hptHead) 8 frame)
        (fun c => by rw [State.putNum, State.putNum, State.offline_putBytes, State.offline_putBytes, hoff]) 256
        (bits (s.cluster d).hptRing 12 40 * 4096 + 16 * (s.cluster d).hptHead + 8) 8 ((s.cluster d).hptEpochs % 2 ^ 32)
      rw [hclus] at hroom hfull
      rw [hu, State.cluster_modCluster_self]
      refine ⟨?_, fun h => absurd h hno, fun _ _ => ⟨nofun, fun _ => ⟨List.mem_cons_self, fun h => ?_, fun h => ?_⟩⟩⟩
      · show ((t.propose d frame).cluster d).hptCount.get 0 frame = n
        rw [hkeep, hcount]
      · exact ⟨(hroom h).1, (hroom h).2.trans hput⟩
      · exact ⟨(hfull h).1, (hfull h).2.trans hmem⟩
  · rw [if_neg (by simp only [Bool.and_eq_true, decide_eq_true_eq, Bool.not_eq_true', List.contains_eq_mem, decide_eq_false_iff_not]; exact hhit)] at hu
    subst hu
    refine ⟨hcount, fun _ => ?_, fun h1 h2 => absurd ⟨h1, h2⟩ hhit⟩
    rw [hclus]
    exact ⟨hmem, rfl, rfl, rfl⟩

theorem pinned_pins (s : State) (d pa : Nat) (t : TlbEntry) (cl : Cluster) (hcl : cl = s.cluster d) (ht : t.holds pa = true) :
    ((∃ x ∈ cl.pinned, x.holds pa = true) → s.pinned d t pa = (pinKey d pa, s)) ∧
    ((∀ x ∈ cl.pinned, x.holds pa = false) →
      (pinFrames cl.pinned + t.frames ≤ 64 * min 8 cl.hptPinmib → (s.pinned d t pa).1 = pinKey d pa ∧
        ((s.pinned d t pa).2.cluster d).pinned = cl.pinned ++ [t] ∧ ∀ i < t.frames * 16384,
          Sparse.get 0 (s.pinned d t pa).2.mem (pinKey d (t.frame * 16384) + i) = Sparse.get 0 s.mem (t.frame * 16384 + i)) ∧
      (64 * min 8 cl.hptPinmib < pinFrames cl.pinned + t.frames → (s.pinned d t pa).1 = pa ∧
        (s.pinned d t pa).2 = s.modCluster d fun cl => { cl with pinFull := min (cl.pinFull + 1) (2 ^ 16 - 1) })) := by
  subst hcl
  refine ⟨fun ⟨x, hx, hh⟩ => if_pos (List.any_eq_true.mpr ⟨x, hx, hh⟩), fun hno => ?_⟩
  have hnone : ¬ ((s.cluster d).pinned.any (·.holds pa)) = true := by simpa using hno
  have hthis : ¬ (!t.holds pa) = true := by simp [ht]
  refine ⟨fun hroom => ?_, fun hfull => ?_⟩
  · have hp : s.pinned d t pa = (pinKey d pa, _) := (if_neg hnone).trans ((if_neg hthis).trans (if_pos hroom))
    rw [hp, State.cluster_modCluster_self]
    exact ⟨rfl, rfl, fun i hi => Sparse.get_copyRun_at 0 s.mem hi⟩
  · have hp : s.pinned d t pa = (pa, _) := (if_neg hnone).trans ((if_neg hthis).trans (if_neg (Nat.not_le.mpr hfull)))
    rw [hp]
    exact ⟨rfl, rfl⟩

/-- Pages that fit are none too many. -/
theorem pinOver_fits (ps : List TlbEntry) (room : Nat) (h : pinFrames ps ≤ room) : pinOver room ps = [] := by
  induction ps generalizing room with
  | nil => rfl
  | cons t r ih =>
    have hsum : t.frames + pinFrames r ≤ room := by simpa [pinFrames] using h
    rw [pinOver, if_pos (by omega), ih _ (by omega)]

theorem trimPinned_fits (s : State) (d : Nat) (h : pinFrames (s.cluster d).pinned ≤ 64 * min 8 (s.cluster d).hptPinmib) :
    s.trimPinned d = s := by
  have hnone : pinOver (s.cluster d).pinRoom (s.cluster d).pinned = [] := pinOver_fits _ _ h
  rw [State.trimPinned, hnone]
  rfl

/-- Settles O49: invalidations, then the regions' binding, filling and writing back, then the tracker. -/
theorem translationUnitsWork : Obligations.TranslationUnitsWork :=
  ⟨tlbiGo_begins, tlbiGo_ignored, tlbiComplete_drops, rctl_settles, fillSector_fills, touchSectors_filled, writeBack_goesBack, hptCountUp_counts,
    pinned_pins, fun s h => settles_of_event (execHptEpoch s) rfl rfl (if_neg (by omega)),
    fun s h => settles_of_event (execHptCtlWrite s) rfl rfl (if_pos h), fun s d h => trimPinned_fits s d h⟩

end Sys2Proof.Machine
end

section
/-! SUPPORT. A reduction that is alone on the fabric performs at once, and where its access faults it goes to the orphan log (R274, R396). -/
namespace Sys2Proof.Machine

/-- No earlier reduction, no store and no image of its context holds back a reduction that is alone. -/
theorem State.performReduction_alone {s : State} {r : Reduction} (hf : s.fabric.reductions = [r]) (hst : r.stage = 0)
    (hno : r.fault = none) (hb : ∀ c b, s.bankOf r.ctx = some (c, b) → (s.ctx c b).stores = [] ∧ s.imageRuns c b r.n = []) :
    s.performReduction r.n = s.reduceAt r := by
  have hfind : (s.fabric.reductions.find? fun x => x.n = r.n && (x.stage = 0 || x.stage = 3)) = some r := by simp [hf, hst]
  have hearlier : (s.fabric.reductions.filter fun x => x.n < r.n && x.sibling r && x.stage ≠ 1) = [] := by simp [hf]
  unfold State.performReduction
  rw [hfind]
  dsimp only
  rw [hno, hearlier]
  simp only [List.any_nil, List.isEmpty_nil, Bool.not_true, Bool.and_false, Bool.or_false, Bool.false_and, Bool.false_eq_true, if_false]
  split
  · rfl
  · next c b hbank =>
    obtain ⟨hstores, himages⟩ := hb c b hbank
    simp [hstores, himages, State.imageWaits]

theorem State.mem_msix_signal (s : State) (v : Nat) : v ∈ (s.signal v).pkg.msix := List.mem_cons_self

@[simp] theorem State.job_moveLast (s : State) (r : Reduction) (j : Nat) : (s.moveLast r).job j = s.job j := rfl

@[simp] theorem State.mem_moveLast (s : State) (r : Reduction) : (s.moveLast r).mem = s.mem := rfl

@[simp] theorem State.faults_moveLast (s : State) (r : Reduction) : (s.moveLast r).faults = s.faults := rfl

theorem State.moveLast_alone {s : State} {r : Reduction} (x : Reduction) (hf : s.fabric.reductions = [r]) (hn : x.n = r.n) :
    (s.moveLast x).fabric.reductions = [x] := by
  simp [State.moveLast, hf, hn]

theorem State.faults_putBytes (s : State) (w key : Nat) (data : List Byte) (bad : Bool) : (s.putBytes w key data bad).faults = s.faults :=
  (congrArg State.faults (s.putBytes_package w key data bad) :)

theorem State.job_putBytes (s : State) (w key : Nat) (data : List Byte) (bad : Bool) (j : Nat) : (s.putBytes w key data bad).job j = s.job j :=
  congrArg (Sparse.get Job.idle · j) (s.putBytes_jobs w key data bad)

/-- The record of a reduction that went to the orphan log (R396). -/
def Reduction.logged (r : Reduction) (cause : Nat) (time : Word) : List Byte :=
  leBytes 8 r.va.toNat ++ (leBytes 8 (r.operand.toNat % 2 ^ (8 * r.width)) ++ (leBytes 8 (r.info cause).toNat ++ leBytes 8 time.toNat))

/-- What a reduction with no room in the log leaves: it is held. -/
theorem State.orphan_held {t : State} {r : Reduction} (x : Nat × Word × Word) (hr : (t.job r.job).orRoom = false) :
    t.orphan r x = t.moveLast { r with stage := 3, fault := some x } := if_pos (by simp [hr])

/-- What one with room leaves, but for its fault record: `data` stands in the log. -/
def State.logOrphan (t : State) (r : Reduction) (at_ : Nat) (data : List Byte) : State :=
  (((t.putBytes 256 at_ data).modJob r.job fun q => { q with orhead := q.orhead + 1 }).moveLast
      { r with stage := 2, fault := none }).signal (16 * r.job + 4)

/-- Where the next record of a job's orphan log stands. -/
def Job.orNext (q : Job) : Nat := bits q.orlog 12 40 * 4096 + 32 * (q.orhead.toNat % q.orSize)

theorem State.orphan_room {t : State} {r : Reduction} (x : Nat × Word × Word) (hr : (t.job r.job).orRoom = true) {u : State}
    (hu : u = t.logOrphan r (t.job r.job).orNext (r.logged x.1 t.sidereal)) :
    t.orphan r x = if x.1 = 0 then u else u.reductionRecord r x.1 x.2.1 x.2.2 := by
  have hbytes : leBytes 8 r.va.toNat ++ leBytes 8 (r.operand.toNat % 2 ^ (8 * r.width)) ++ leBytes 8 (r.info x.1).toNat ++
      leBytes 8 t.sidereal.toNat = r.logged x.1 t.sidereal := by simp only [Reduction.logged, List.append_assoc]
  rw [hu]
  unfold State.orphan
  dsimp only
  rw [if_neg (by simp [hr]), hbytes]
  rfl

theorem State.logOrphan_logs {t : State} {r : Reduction} (at_ : Nat) (data : List Byte) (hf : t.fabric.reductions = [r]) :
    (t.logOrphan r at_ data).fabric.reductions = [{ r with stage := 2, fault := none }] ∧
    ((t.logOrphan r at_ data).job r.job).orhead = (t.job r.job).orhead + 1 ∧ 16 * r.job + 4 ∈ (t.logOrphan r at_ data).pkg.msix ∧
    (t.logOrphan r at_ data).faults = t.faults ∧ (t.logOrphan r at_ data).mem = (t.putBytes 256 at_ data).mem := by
  refine ⟨State.moveLast_alone (r := r) _ ?_ rfl, ?_, State.mem_msix_signal .., ?_, ?_⟩
  · rw [State.modJob_fabric, State.putBytes_fabric, hf]
  · rw [State.logOrphan, State.job_signal, State.job_moveLast, State.job_modJob_self, State.job_putBytes]
  · rw [State.logOrphan, State.signal_faults, State.faults_moveLast, State.modJob_faults, State.faults_putBytes]
  · rw [State.logOrphan, State.signal_mem, State.mem_moveLast, State.modJob_mem]

end Sys2Proof.Machine
end

section
/-! SUPPORT. O47: fault records, their rings and notices, orphans and replay. -/
namespace Sys2Proof.Machine

/-! Fault records (R244, R245, R393) -/

theorem find_job {s : State} {r : FaultRec} (h : s.faults.find? (fun r => r.job = s.arg.n) = some r) : r.job = s.arg.n := by
  simpa using List.find?_some h

/-- What a record written leaves: the ring's head, the vector, its bytes, and the notice's service task. -/
theorem State.writeRecord_writes (s : State) (r : FaultRec) : ((s.writeRecord r).job r.job).fqhead = (s.job r.job).fqhead + 1 ∧
    16 * r.job ∈ (s.writeRecord r).pkg.msix ∧
    (s.writeRecord r).mem = (s.putBytes 256 (bits (s.job r.job).fqbase 12 40 * 4096 + 64 * ((s.job r.job).fqhead.toNat % (s.job r.job).fqRecords)) r.bytes).mem ∧
    (r.notice = true → (s.job r.job).active = true → (s.job r.job).kstat = 0 → ∃ a : Arrived,
      ((s.writeRecord r).core s.pkg.svctl).queue = (s.core s.pkg.svctl).queue ++ [a] ∧ a.kind = .service 1 ∧ a.job = r.job ∧ a.prio = 3) := by
  obtain ⟨at_, hat⟩ : ∃ at_, at_ = bits (s.job r.job).fqbase 12 40 * 4096 + 64 * ((s.job r.job).fqhead.toNat % (s.job r.job).fqRecords) := ⟨_, rfl⟩
  obtain ⟨u, hu⟩ : ∃ u, u = ((s.putBytes 256 at_ r.bytes).modJob r.job fun q => { q with fqhead := q.fqhead + 1 }).signal (16 * r.job) := ⟨_, rfl⟩
  have hjob : u.job r.job = { s.job r.job with fqhead := (s.job r.job).fqhead + 1 } := by
    rw [hu, State.job_signal, State.job_modJob_self, State.job_putBytes]
  have hmsix : 16 * r.job ∈ u.pkg.msix := by
    rw [hu]
    exact State.mem_msix_signal ..
  have hmem : u.mem = (s.putBytes 256 at_ r.bytes).mem := by rw [hu]; rfl
  have hqueue (c : Nat) : (u.core c).queue = (s.core c).queue := by
    have hkeeps : AccessKeeps fun s => (s.core c).queue := AccessKeeps.of_core Core.queue c (fun _ _ => rfl) (fun _ _ => rfl) (fun _ _ => rfl)
      fun k w d key n => by unfold Core.struckBy; (repeat' split) <;> rfl
    rw [hu]
    exact hkeeps.putBytes s 256 at_ r.bytes false
  have hw : s.writeRecord r =
      if r.noticed then u.service 1 r.job s.pkg.svctl (contextWord r.core r.bank r.job) (((s.job r.job).fqhead + 1).setWidth 64) else u := by
    rw [hu, hat]
    rfl
  rw [← hat, hw]
  refine ⟨?_, ?_, ?_, fun hn ha hk => ?_⟩
  · split
    · unfold State.service
      split
      · rw [State.job_modCore, hjob]
      · rw [hjob]
    · rw [hjob]
  · split
    · unfold State.service
      split <;> exact hmsix
    · exact hmsix
  · split
    · unfold State.service
      split <;> exact hmem
    · exact hmem
  · rw [if_pos (by simp [FaultRec.noticed, hn]), u.service_live 1 _ _ _ (by rw [hjob]; exact ha) (by rw [hjob]; exact hk),
      State.core_modCore_self, ← hqueue]
    exact ⟨_, rfl, rfl, rfl, rfl⟩

theorem faultRecordWrite_writes (s : State) (r : FaultRec) (h : s.faults.find? (fun r => r.job = s.arg.n) = some r)
    (hk : (s.job s.arg.n).kstat ≠ 2) (hroom : (s.job s.arg.n).fqRoom = true) :
    ∃ u : State, Settles .faultRecordWrite s u ∧ u.faults = s.faults.erase r ∧
      (u.job s.arg.n).fqhead = (s.job s.arg.n).fqhead + 1 ∧ 16 * s.arg.n ∈ u.pkg.msix ∧
      u.mem = (s.putBytes 256 (bits (s.job s.arg.n).fqbase 12 40 * 4096 +
        64 * ((s.job s.arg.n).fqhead.toNat % (s.job s.arg.n).fqRecords)) r.bytes).mem ∧
      (r.notice = true → (s.job s.arg.n).active = true → (s.job s.arg.n).kstat = 0 → ∃ a : Arrived,
        (u.core s.pkg.svctl).queue = (s.core s.pkg.svctl).queue ++ [a] ∧ a.kind = .service 1 ∧ a.job = s.arg.n ∧ a.prio = 3) := by
  obtain ⟨hhead, hmsix, hmem, hnotice⟩ := State.writeRecord_writes { s with faults := s.faults.erase r } r
  rw [find_job h] at hhead hmsix hmem hnotice
  refine ⟨State.writeRecord { s with faults := s.faults.erase r } r, settles_of_event (execFaultRecordWrite s) rfl rfl ?_,
    State.writeRecord_faults _ r, hhead, hmsix, ?_, hnotice⟩
  · rw [h]
    exact (if_neg hk).trans (if_pos hroom)
  · rw [hmem]
    exact State.putBytes_mem_congr (s := s) (t := { s with faults := s.faults.erase r }) rfl rfl _ _ _

theorem faultRecordWrite_waits (s : State) (r : FaultRec) (h : s.faults.find? (fun r => r.job = s.arg.n) = some r) :
    ((s.job s.arg.n).kstat ≠ 2 → (s.job s.arg.n).fqRoom = false → Settles .faultRecordWrite s s) ∧
    ((s.job s.arg.n).kstat = 2 → Settles .faultRecordWrite s { s with faults := s.faults.erase r }) := by
  refine ⟨fun hk hroom => settles_of_event (execFaultRecordWrite s) rfl rfl ?_, fun hk => settles_of_event (execFaultRecordWrite s) rfl rfl ?_⟩
  · rw [h]
    exact (if_neg hk).trans (if_neg (by simp [hroom]))
  · rw [h]
    exact if_pos hk

/-! Orphans (R364, R396, R397) -/

theorem losstail_settles (s : State) (q : Job) (hn : s.arg.n < 64) (hq : q = s.job s.arg.n) :
    ((s.arg.v.setWidth 32 - q.losstail).toNat ≤ (q.losshead - q.losstail).toNat → Settles .losstailWrite s (s.modJob s.arg.n fun q =>
      { q with losstail := s.arg.v.setWidth 32 })) ∧
    ((q.losshead - q.losstail).toNat < (s.arg.v.setWidth 32 - q.losstail).toNat →
      Settles .losstailWrite s (s.modJob s.arg.n fun q => q)) := by
  subst hq
  refine ⟨fun h => settles_of_event (execLosstailWrite s) rfl rfl ((if_pos hn).trans ?_),
    fun h => settles_of_event (execLosstailWrite s) rfl rfl ((if_pos hn).trans ?_)⟩
  · have hset : (s.job s.arg.n).setLosstail s.arg.v = { s.job s.arg.n with losstail := s.arg.v.setWidth 32 } := if_neg (by omega)
    exact congrArg (fun q => { s with jobs := s.jobs.set .idle s.arg.n q }) hset
  · have hset : (s.job s.arg.n).setLosstail s.arg.v = s.job s.arg.n := if_pos h
    exact congrArg (fun q => { s with jobs := s.jobs.set .idle s.arg.n q }) hset

/-- A write of ORTAIL one past the tail handles the one reduction logged. -/
theorem State.orphansTo_one {s : State} {r : Reduction} {j : Nat} {v : Word} (hf : s.fabric.reductions = [r]) (hj : r.job = j)
    (hst : r.stage = 2) (hv : v.setWidth 16 = (s.job j).ortail + 1) (hh : (s.job j).orhead = (s.job j).ortail + 1) : s.orphansTo j v = [r] := by
  have hone : ((s.job j).ortail + 1 - (s.job j).ortail).toNat = 1 := by
    rw [BitVec.add_comm, BitVec.add_sub_cancel]
    rfl
  unfold State.orphansTo
  dsimp only
  rw [hv, hh, hone, if_neg (by omega), hf]
  simp [hj, hst]

theorem ortail_settles (s : State) (r : Reduction) (q : Job) (hq : q = s.job s.arg.n) (hf : s.fabric.reductions = [r]) (hj : r.job = s.arg.n)
    (hst : r.stage = 2) (hv : s.arg.v.setWidth 16 = q.ortail + 1) (hh : q.orhead = q.ortail + 1) :
    Settles .ortailReplay s ((s.modJob s.arg.n fun q => { q with ortail := q.ortail + 1 }).reduceAt r) ∧
    ∃ u : State, Settles .ortailDiscard s u ∧ u.fabric.reductions = [] ∧ (u.job s.arg.n).ortail = q.ortail + 1 ∧ u.mem = s.mem ∧
      (u.counter (clusterOf r.core) s.arg.n).con = (s.counter (clusterOf r.core) s.arg.n).con + 1 := by
  subst hq
  have hone := State.orphansTo_one hf hj hst hv hh
  refine ⟨settles_of_event (execOrtailReplay s) rfl rfl ?_,
    ((State.passOrphan { s with fabric := { s.fabric with reductions := [] } } s.arg.n).consume (clusterOf r.core) s.arg.n),
    settles_of_event (execOrtailDiscard s) rfl rfl ?_, rfl, ?_, rfl, ?_⟩
  · rw [State.replayOrphans, hone]
    rfl
  · rw [State.discardOrphans.eq_def, hone, List.foldl_cons, List.foldl_nil, hf]
    simp
  · rw [State.job_consume, State.passOrphan, State.job_modJob_self]
    rfl
  · exact congrArg Counter.con (Sparse.get_set_self Counter.zero _ _ _)

theorem reductionPerform_orphans (s t : State) (r : Reduction) (x : XFault) (q : Job) (hf : s.fabric.reductions = [r]) (hn : r.n = s.arg.n)
    (hst : r.stage = 0) (hno : r.fault = none)
    (hb : ∀ c b, s.bankOf r.ctx = some (c, b) → (s.ctx c b).stores = [] ∧ s.imageRuns c b r.n = [])
    (hx : s.resolve r.agent { write := true, atomic := true } (pieces r.va r.width) = (.error x, t)) (ht : t.fabric = s.fabric)
    (hq : q = t.job r.job) :
    (q.orRoom = true → ∃ u : State, Settles .reductionPerform s u ∧ u.fabric.reductions = [{ r with stage := 2, fault := none }] ∧
      (u.job r.job).orhead = q.orhead + 1 ∧ 16 * r.job + 4 ∈ u.pkg.msix ∧
      u.mem = (t.putBytes 256 (bits q.orlog 12 40 * 4096 + 32 * (q.orhead.toNat % q.orSize)) (leBytes 8 r.va.toNat ++
        (leBytes 8 (r.operand.toNat % 2 ^ (8 * r.width)) ++ (leBytes 8 (r.info x.cause).toNat ++ leBytes 8 t.sidereal.toNat)))).mem ∧
      (x.cause ≠ 0 → ∃ f : FaultRec, u.faults = t.faults ++ [f] ∧ f.cause = x.cause ∧ f.access = 4 ∧ f.va = x.va ∧ f.job = r.job ∧
        f.async = true ∧ f.core = r.core ∧ f.bank = r.bank)) ∧
    (q.orRoom = false → ∃ u : State, Settles .reductionPerform s u ∧ u.mem = t.mem ∧ u.faults = t.faults ∧
      u.fabric.reductions = [{ r with stage := 3, fault := some (x.cause, x.va, x.detail) }]) := by
  subst hq
  have hsettles : Settles .reductionPerform s (t.orphan r (x.cause, x.va, x.detail)) := by
    refine settles_of_event (execReductionPerform s) rfl rfl ?_
    rw [← hn, State.performReduction_alone hf hst hno hb, State.reduceAt, hx]
  have hred : t.fabric.reductions = [r] := by rw [ht, hf]
  refine ⟨fun hr => ?_, fun hr => ?_⟩
  · obtain ⟨u, hu⟩ : ∃ u, u = t.logOrphan r (t.job r.job).orNext (r.logged x.cause t.sidereal) := ⟨_, rfl⟩
    obtain ⟨hlist, hhead, hmsix, hfaults, hmem⟩ := t.logOrphan_logs (t.job r.job).orNext (r.logged x.cause t.sidereal) hred
    rw [← hu] at hlist hhead hmsix hfaults hmem
    rw [Job.orNext, Reduction.logged] at hmem
    rw [State.orphan_room (x.cause, x.va, x.detail) hr hu] at hsettles
    refine ⟨_, hsettles, ?_⟩
    split
    · next hc => exact ⟨hlist, hhead, hmsix, hmem, fun h => absurd hc h⟩
    · exact ⟨hlist, hhead, hmsix, hmem, fun _ => ⟨_, congrArg (· ++ _) hfaults, rfl, rfl, rfl, rfl, rfl, rfl, rfl⟩⟩
  · rw [State.orphan_held _ hr] at hsettles
    exact ⟨_, hsettles, rfl, rfl, State.moveLast_alone _ hred rfl⟩

/-! Replay (R394) -/

/-- Settles O47: records, their ring's tail, orphans, and the replay of every bank. -/
theorem recordsRingsAndOrphans : Obligations.RecordsRingsAndOrphans := by
  refine ⟨faultRecordWrite_writes, faultRecordWrite_waits, fun r => ?_, fun s hn => settles_of_event (execFqtailWrite s) rfl rfl (if_pos hn),
    losstail_settles, ortail_settles, reductionPerform_orphans, fun s => ⟨_, settles_of_event (execReplay s) rfl rfl rfl, ?_, fun c b hb => ?_⟩⟩
  · simp only [FaultRec.bytes, List.flatMap_cons, List.flatMap_nil, List.append_nil]
    rfl
  · exact State.foldBanks_mem s s.arg.n Ctx.replayed
  · refine (State.foldBanks_ctx s s.arg.n (f := Ctx.replayed) (fun k => ?_) hb).trans ?_
    · unfold Ctx.replayed
      split <;> simp_all
    · unfold Ctx.replayed
      by_cases hp : (s.ctx c b).status = .parked .replay
      · have ho : (s.ctx c b).occupied = true := (Ctx.occupied_iff _).mpr (by rw [hp]; nofun)
        simp [hp, ho]
      · simp [hp]

end Sys2Proof.Machine
end

section
/-! SUPPORT. O40: committed stores, seq_cst accesses and reductions perform; the timer traps. -/
namespace Sys2Proof.Machine

/-! What a store's bytes leave as they land -/

theorem State.putParts_keeps {β : Type} (rd : State → β) (h : ∀ t w key data bad, rd (State.putBytes t w key data bad) = rd t) (s : State)
    (who : Nat) (parts : List (Nat × List Byte)) (bad : Bool) : rd (s.putParts who parts bad) = rd s :=
  foldl_keeps rd (fun t (p : Nat × List Byte) => h t who p.1 p.2 bad) parts s

theorem State.ctx_putParts_keeps {α : Type} (rd : Ctx → α) (h : ∀ k bl, rd { k with blocks := bl } = rd k) (s : State) (who : Nat)
    (parts : List (Nat × List Byte)) (bad : Bool) (c b : Nat) : rd ((s.putParts who parts bad).ctx c b) = rd (s.ctx c b) :=
  State.putParts_keeps (fun t => rd (t.ctx c b)) (fun t w key data bad => State.ctx_putBytes_keeps rd h t w key data bad c b) s who parts bad

/-- The event's bank changed, in a state that the event is about. -/
theorem theCtx_modCtx {s t : State} (ht : t.arg = s.arg) (f : Ctx → Ctx) :
    theCtx (t.modCtx s.arg.core s.arg.bank f) = f (t.ctx s.arg.core s.arg.bank) := by
  rw [theCtx, State.modCtx_arg, ht, State.ctx_modCtx_self]

/-- Bytes of a store of the event's bank land, and its list of stores changes: nothing else of the bank does. -/
theorem landing_leaves {s t : State} (ha : t.arg = s.arg) (hc : t.ctx = s.ctx) (parts : List (Nat × List Byte)) (who : Nat) (bad : Bool)
    (g : List StoreOp → List StoreOp) {u : State}
    (hu : u = (t.putParts who parts bad).modCtx s.arg.core s.arg.bank fun k => { k with stores := g k.stores }) :
    u.mem = (t.putParts who parts bad).mem ∧ u.arg = s.arg ∧ (theCtx u).stores = g (theCtx s).stores ∧ (theCtx u).x = (theCtx s).x ∧
    (theCtx u).pc = (theCtx s).pc := by
  have harg : (t.putParts who parts bad).arg = s.arg := (State.putParts_keeps State.arg State.putBytes_arg t who parts bad).trans ha
  have hread {α : Type} (rd : Ctx → α) (h : ∀ k bl, rd { k with blocks := bl } = rd k) :
      rd ((t.putParts who parts bad).ctx s.arg.core s.arg.bank) = rd (theCtx s) := by
    rw [State.ctx_putParts_keeps rd h, hc]
    rfl
  subst hu
  rw [theCtx_modCtx harg]
  exact ⟨rfl, harg, congrArg g (hread Ctx.stores fun _ _ => rfl), hread Ctx.x fun _ _ => rfl, hread Ctx.pc fun _ _ => rfl⟩

/-! A committed store performs (R340, R341, R343) -/

/-- The oldest store of a bank performs when nothing holds it back. -/
theorem State.performStore_oldest {s : State} {c b : Nat} {st : StoreOp} {r : List StoreOp} (hs : (s.ctx c b).stores = st :: r)
    (hlt : ∀ o ∈ r, st.n < o.n) (hst : st.stamp = none) (him : s.imageWaits c b st.n st.runs = false) (hred : s.fabric.reductions = [])
    (hrel : st.release = true → s.imageRuns c b st.n = []) : s.performStore c b st.n = s.landStore c b st := by
  have hfind : (s.ctx c b).stores.find? (fun o => o.n = st.n) = some st := by simp [hs]
  have hbefore : (s.ctx c b).stores.filter (fun o => o.n < st.n) = [] := by
    rw [hs, List.filter_eq_nil_iff]
    intro o ho
    rcases List.mem_cons.mp ho with rfl | ho
    · simp
    · have := hlt o ho
      simp only [decide_eq_true_eq]
      omega
  have hwaits : s.storeWaits c b st = false := by
    unfold State.storeWaits State.behindReduction
    rw [hst, hred, him]
    cases hr : st.release with
    | false => rfl
    | true => rw [hrel hr]; rfl
  unfold State.performStore
  dsimp only
  rw [hfind]
  dsimp only
  rw [hbefore, hwaits, hred]
  simp

/-- Stores of other numbers stay. -/
theorem filter_other {st : StoreOp} {r : List StoreOp} (h : ∀ o ∈ r, o.n ≠ st.n) : ((st :: r).filter fun o => o.n ≠ st.n) = r := by
  rw [List.filter_cons_of_neg (by simp), List.filter_eq_self]
  exact fun o ho => by simpa using h o ho

/-- Every entry of `nextUnits` is a unit that none before it meets. -/
theorem mem_nextUnits {us : List (Nat × List Byte)} {e : Nat × (Nat × List Byte)} (h : e ∈ nextUnits us) :
    us[e.1]? = some e.2 ∧ ∀ q ∈ us.take e.1, runsMeet (q.1, q.2.length) (e.2.1, e.2.2.length) = false := by
  obtain ⟨hmem, hfree⟩ := List.mem_filter.mp h
  obtain ⟨i, hi, rfl⟩ := List.mem_mapIdx.mp hmem
  exact ⟨List.getElem?_eq_getElem hi, by simpa using hfree⟩

/-- The first unit of a write is met by none before it. -/
theorem nextUnits_ne_nil {us : List (Nat × List Byte)} (h : us ≠ []) : nextUnits us ≠ [] := by
  cases us with
  | nil => exact absurd rfl h
  | cons p r =>
    refine List.ne_nil_of_mem (a := (0, p)) (List.mem_filter.mpr ⟨?_, by simp⟩)
    simp [List.mapIdx_cons]

/-- What is left of the stores of a bank when unit `i` of one of them lands. -/
def storesLeft (st : StoreOp) (us : List (Nat × List Byte)) (i : Nat) (l : List StoreOp) : List StoreOp :=
  if us.length = 1 then l.filter fun o => o.n ≠ st.n else l.map fun o => if o.n = st.n then { o with parts := us.eraseIdx i } else o

theorem storesLeft_oldest {st : StoreOp} {r : List StoreOp} (us : List (Nat × List Byte)) (i : Nat) (h : ∀ o ∈ r, o.n ≠ st.n) :
    storesLeft st us i (st :: r) = if us.length = 1 then r else { st with parts := us.eraseIdx i } :: r := by
  unfold storesLeft
  split
  · exact filter_other h
  · rw [List.map_cons, if_pos rfl]
    exact congrArg (_ :: ·) ((List.map_congr_left fun o ho => if_neg (h o ho)).trans (List.map_id' r))

/-- A store of several units that lands one of them lands one that no earlier unit meets. -/
theorem State.landStore_unit {s : State} {c b : Nat} {st : StoreOp} (h0 : st.unit ≠ 0) (hall : ¬ Config.freeBool s.free = true)
    (hus : unitsOf st.unit st.parts ≠ []) : ∃ (i : Nat) (p : Nat × List Byte), (unitsOf st.unit st.parts)[i]? = some p ∧
      (∀ q ∈ (unitsOf st.unit st.parts).take i, runsMeet (q.1, q.2.length) (p.1, p.2.length) = false) ∧
      s.landStore c b st = (s.useFree.2.putParts c [p] st.bad).modCtx c b fun k =>
        { k with stores := storesLeft st (unitsOf st.unit st.parts) i k.stores } := by
  obtain ⟨us, hus'⟩ : ∃ us, us = unitsOf st.unit st.parts := ⟨_, rfl⟩
  rw [← hus'] at hus ⊢
  have hpos : 0 < (nextUnits us).length := List.length_pos_iff.mpr (nextUnits_ne_nil hus)
  obtain ⟨e, he⟩ : ∃ e, (nextUnits us)[Config.freeNat s.free % (nextUnits us).length]? = some e :=
    ⟨_, List.getElem?_eq_getElem (Nat.mod_lt _ hpos)⟩
  obtain ⟨hunit, hfirst⟩ := mem_nextUnits (List.mem_of_getElem? he)
  have hi : e.1 < us.length := (List.getElem?_eq_some_iff.mp hunit).1
  have hrest : (us.eraseIdx e.1).isEmpty = true ↔ us.length = 1 := by
    rw [List.isEmpty_iff_length_eq_zero, List.length_eraseIdx_of_lt hi]
    omega
  refine ⟨e.1, e.2, hunit, hfirst, (if_neg h0).trans ((if_neg hall).trans ?_)⟩
  dsimp only
  rw [← hus', he, Option.map_some, Option.getD_some, hunit, Option.toList_some]
  unfold storesLeft
  by_cases h1 : us.length = 1
  · simp only [if_pos h1]
    exact if_pos (hrest.mpr h1)
  · simp only [if_neg h1]
    exact if_neg fun h => h1 (hrest.mp h)

theorem storePerform_performs (s : State) (st : StoreOp) (r : List StoreOp) (hs : (theCtx s).stores = st :: r) (hn : st.n = s.arg.n)
    (hlt : ∀ o ∈ r, st.n < o.n) (hst : st.stamp = none) (him : s.imageWaits s.arg.core s.arg.bank st.n st.runs = false)
    (hred : s.fabric.reductions = []) (hrel : st.release = true → s.imageRuns s.arg.core s.arg.bank st.n = []) :
    (st.unit = 0 →
      ∃ u : State, Settles .storePerform s u ∧ u.mem = (s.putParts s.arg.core st.parts st.bad).mem ∧
        u.arg = s.arg ∧ (theCtx u).stores = r ∧ (theCtx u).x = (theCtx s).x ∧ (theCtx u).pc = (theCtx s).pc) ∧
    (st.unit ≠ 0 → unitsOf st.unit st.parts ≠ [] → ∃ u : State, Settles .storePerform s u ∧ u.arg = s.arg ∧
      (theCtx u).x = (theCtx s).x ∧ (theCtx u).pc = (theCtx s).pc ∧
      ((u.mem = (s.useFree.2.putParts s.arg.core st.parts st.bad).mem ∧ (theCtx u).stores = r) ∨
        ∃ (i : Nat) (p : Nat × List Byte), (unitsOf st.unit st.parts)[i]? = some p ∧
          (∀ q ∈ (unitsOf st.unit st.parts).take i, runsMeet (q.1, q.2.length) (p.1, p.2.length) = false) ∧
          u.mem = (s.useFree.2.putParts s.arg.core [p] st.bad).mem ∧
          (theCtx u).stores = if (unitsOf st.unit st.parts).length = 1 then r
            else { st with parts := (unitsOf st.unit st.parts).eraseIdx i } :: r)) := by
  have hne : ∀ o ∈ r, o.n ≠ st.n := fun o ho => by have := hlt o ho; omega
  have hdrop : ((theCtx s).stores.filter fun o => o.n ≠ st.n) = r := by rw [hs, filter_other hne]
  have hland : s.performStore s.arg.core s.arg.bank s.arg.n = s.landStore s.arg.core s.arg.bank st := by
    rw [← hn, State.performStore_oldest hs hlt hst him hred hrel]
  refine ⟨fun h0 => ?_, fun h0 hus => ?_⟩
  · obtain ⟨hmem, harg, hstores, hx, hpc⟩ := landing_leaves (s := s) (t := s) rfl rfl st.parts s.arg.core st.bad
      (fun l => l.filter fun o => o.n ≠ st.n) rfl
    exact ⟨_, settles_of_event (execStorePerform s) rfl rfl (hland.trans (if_pos h0)), hmem, harg, hstores.trans hdrop, hx, hpc⟩
  · by_cases hall : Config.freeBool s.free = true
    · obtain ⟨hmem, harg, hstores, hx, hpc⟩ := landing_leaves (s := s) (t := s.useFree.2) rfl rfl st.parts s.arg.core st.bad
        (fun l => l.filter fun o => o.n ≠ st.n) rfl
      exact ⟨_, settles_of_event (execStorePerform s) rfl rfl (hland.trans ((if_neg h0).trans (if_pos hall))), harg, hx, hpc,
        .inl ⟨hmem, hstores.trans hdrop⟩⟩
    · obtain ⟨i, p, hunit, hfirst, hone⟩ := State.landStore_unit (c := s.arg.core) (b := s.arg.bank) h0 hall hus
      obtain ⟨hmem, harg, hstores, hx, hpc⟩ := landing_leaves (s := s) (t := s.useFree.2) rfl rfl [p] s.arg.core st.bad
        (storesLeft st (unitsOf st.unit st.parts) i) rfl
      exact ⟨_, settles_of_event (execStorePerform s) rfl rfl (hland.trans hone), harg, hx, hpc,
        .inr ⟨i, p, hunit, hfirst, hmem, hstores.trans (hs ▸ storesLeft_oldest _ i hne)⟩⟩

/-! Seq_cst accesses on the slot wheel (R348, R349) -/

theorem scStamp_stamps (s : State) (q : ScWait) (w : Word) (hq : (theCtx s).sc = some q) (hst : q.stamp = none)
    (hrun : (theCtx s).status = .running) (hs : (theCtx s).stores = []) (hred : s.fabric.reductions = [])
    (him : s.imageRuns s.arg.core s.arg.bank s.fabric.nextItem = []) (hlast : (theCore s).scLast = none)
    (hw : w = s.sidereal + word ((s.arg.core + 256 - s.sidereal.toNat % 256) % 256)) :
    ∃ u : State, Settles .scStamp s u ∧ (theCtx u).sc = some { q with stamp := some w } ∧ (theCore u).scLast = some w ∧ u.arg = s.arg ∧
      u.mem = s.mem := by
  have hflush : s.flush s.arg.core s.arg.bank = s.modCtx s.arg.core s.arg.bank fun k => { k with stores := [] } := by
    have hs' : (s.ctx s.arg.core s.arg.bank).stores = [] := hs
    rw [State.flush, hs']
    rfl
  have hno : ¬ (q.stamp.isSome || (theCtx s).status ≠ .running || s.storesStuck s.arg.core s.arg.bank || s.reductionsOut s.arg.core s.arg.bank ||
      !(s.imageRuns s.arg.core s.arg.bank s.fabric.nextItem).isEmpty) = true := by
    have hs' : (s.ctx s.arg.core s.arg.bank).stores = [] := hs
    simp [hst, hrun, State.storesStuck, hs', State.reductionsOut, hred, him]
  refine ⟨((s.modCtx s.arg.core s.arg.bank fun k => { k with stores := [] }).modCtx s.arg.core s.arg.bank fun k =>
    { k with sc := some { q with stamp := some w } }).modCore s.arg.core fun k => { k with scLast := some w },
    settles_of_event (execScStamp s) rfl rfl ?_, ?_, ?_, rfl, rfl⟩
  · have hsc : (s.ctx s.arg.core s.arg.bank).sc = some q := hq
    have hlast' : (s.core s.arg.core).scLast = none := hlast
    unfold State.stamp
    dsimp only
    rw [hsc]
    refine (if_neg hno).trans ?_
    rw [hlast', hflush, hw]
    rfl
  · rw [theCtx, State.ctx]
    refine (State.core_modCore_keeps (fun k => (k.bank s.arg.bank).sc) (by exact fun _ => rfl) _ _ _).trans ?_
    exact congrArg Ctx.sc (State.ctx_modCtx_self ..)
  · exact congrArg Core.scLast (State.core_modCore_self ..)

/-- No access that stands on the wheel is older than a stamp. -/
def State.oldestIs (s : State) (w : Word) : Prop := ∀ e ∈ s.cores, ∀ v, e.2.b0.stamped = some v ∨ e.2.b1.stamped = some v → w ≤ v

/-- Time set. -/
def State.atTime (s : State) (now : Word) : State := { s with sidereal := now }

theorem State.atTime_mem (s : State) (now : Word) : (s.atTime now).mem = s.mem := rfl
theorem State.atTime_arg (s : State) (now : Word) : (s.atTime now).arg = s.arg := rfl
theorem State.atTime_sidereal (s : State) (now : Word) : (s.atTime now).sidereal = now := rfl
theorem theCtx_atTime (s : State) (now : Word) : theCtx (s.atTime now) = theCtx s := rfl

/-- The oldest stamped access of all performs, and time passes its slot. -/
theorem State.performSc_oldest {s s1 : State} {c b : Nat} {w : Word} (hw : (s.ctx c b).stamped = some w) (hold : s.oldestIs w)
    (hl : s.landStamped c b = some s1) : s.performSc c b = s1.atTime (if s1.sidereal < w + 512 then w + 512 else s1.sidereal) := by
  unfold State.performSc
  rw [hw]
  dsimp only
  rw [hl]
  refine if_neg fun hany => ?_
  obtain ⟨e, he, hlt⟩ := List.any_eq_true.mp hany
  obtain ⟨k, hk, hv⟩ := List.any_eq_true.mp hlt
  split at hv
  · next v hks =>
    have hle : w ≤ v := by
      rcases List.mem_pair.mp hk with rfl | rfl
      · exact hold e he v (.inl hks)
      · exact hold e he v (.inr hks)
    exact absurd (of_decide_eq_true hv) (BitVec.not_lt.mpr hle)
  · exact absurd hv (by decide)

theorem scPerform_store (s : State) (st : StoreOp) (r : List StoreOp) (w : Word) (hs : (theCtx s).stores = st :: r)
    (hne : ∀ o ∈ r, o.n ≠ st.n) (hst : st.stamp = some w) (him : s.imageWaits s.arg.core s.arg.bank st.n st.runs = false)
    (hold : ∀ e ∈ s.cores, ∀ v, e.2.b0.stamped = some v ∨ e.2.b1.stamped = some v → w ≤ v) :
    ∃ u : State, Settles .scPerform s u ∧ u.mem = (s.putParts (homeWriter s.arg.core s.arg.bank) st.parts st.bad).mem ∧
      u.sidereal = (if s.sidereal < w + 512 then w + 512 else s.sidereal) ∧ u.arg = s.arg ∧ (theCtx u).stores = r := by
  have hs' : (s.ctx s.arg.core s.arg.bank).stores = st :: r := hs
  have hstamp : (s.ctx s.arg.core s.arg.bank).stamped = some w := by
    unfold Ctx.stamped
    rw [hs', List.findSome?_cons, hst]
  obtain ⟨u, hu⟩ : ∃ u, u = (s.putParts (homeWriter s.arg.core s.arg.bank) st.parts st.bad).modCtx s.arg.core s.arg.bank
    fun k => { k with stores := k.stores.filter fun o => o.n ≠ st.n } := ⟨_, rfl⟩
  have hland : s.landStamped s.arg.core s.arg.bank = some u := by
    unfold State.landStamped
    dsimp only
    rw [hs', List.find?_cons_of_pos (by rw [hst]; rfl)]
    exact (if_neg (by simp [him])).trans (congrArg some hu.symm)
  obtain ⟨hmem, harg, hstores, -, -⟩ := landing_leaves (s := s) (t := s) rfl rfl st.parts (homeWriter s.arg.core s.arg.bank) st.bad
    (fun l => l.filter fun o => o.n ≠ st.n) hu
  have hnow : u.sidereal = s.sidereal := by
    rw [hu, State.modCtx_sidereal]
    exact State.putParts_keeps State.sidereal State.putBytes_sidereal s _ st.parts st.bad
  refine ⟨u.atTime (if u.sidereal < w + 512 then w + 512 else u.sidereal), settles_of_event (execScPerform s) rfl rfl (State.performSc_oldest hstamp hold hland), ?_, ?_, ?_, ?_⟩
  · rw [State.atTime_mem, hmem]
  · rw [State.atTime_sidereal, hnow]
  · rw [State.atTime_arg, harg]
  · rw [theCtx_atTime, hstores, hs]
    exact filter_other hne

theorem State.countUncorr_arg (s : State) (p : Nat × Nat) : (s.countUncorr p).arg = s.arg := by
  unfold State.countUncorr
  split <;> rfl

theorem State.countUncorr_sidereal (s : State) (p : Nat × Nat) : (s.countUncorr p).sidereal = s.sidereal := by
  unfold State.countUncorr
  split <;> rfl

theorem scPerform_load (s : State) (q : ScWait) (w : Word) (a : ScAccess) (hs : (theCtx s).stores = []) (hq : (theCtx s).sc = some q)
    (hst : q.stamp = some w) (hacc : q.acc = [a]) (hres : a.result = none) (hkind : a.kind = .load) (hreg : isReg a.key = false)
    (hold : ∀ e ∈ s.cores, ∀ v, e.2.b0.stamped = some v ∨ e.2.b1.stamped = some v → w ≤ v) :
    ∃ u : State, Settles .scPerform s u ∧ u.mem = s.mem ∧
      u.sidereal = (if s.sidereal < w + 512 then w + 512 else s.sidereal) ∧ u.arg = s.arg ∧
      (theCtx u).sc = some { q with acc :=
        [{ a with old := s.view s.mem [(a.key, a.width)], result := some (ofLeBytes (s.view s.mem [(a.key, a.width)]), viewBad s.bad [(a.key, a.width)]) }] } := by
  have hs' : (s.ctx s.arg.core s.arg.bank).stores = [] := hs
  have hsc : (s.ctx s.arg.core s.arg.bank).sc = some q := hq
  have hstamp : (s.ctx s.arg.core s.arg.bank).stamped = some w := by
    unfold Ctx.stamped
    rw [hs', hsc]
    simp [ScWait.done, hacc, hres, hst]
  obtain ⟨a', ha'⟩ : ∃ a', a' = { a with old := s.view s.mem [(a.key, a.width)], result := some (ofLeBytes (s.view s.mem [(a.key, a.width)]), viewBad s.bad [(a.key, a.width)]) } :=
    ⟨_, rfl⟩
  obtain ⟨u, hu⟩ : ∃ u, u = (s.countUncorr (a.key, a.width)).modCtx s.arg.core s.arg.bank fun k => { k with sc := some { q with acc := [a'] } } := ⟨_, rfl⟩
  have hall : s.scAll (homeWriter s.arg.core s.arg.bank) q.acc = ([a'], s.countUncorr (a.key, a.width)) := by
    simp only [hacc, State.scAll, State.scAccess, hkind, hreg, Bool.false_eq_true, if_false, s.afterRead_one a.width hreg, ha']
  have hland : s.landStamped s.arg.core s.arg.bank = some u := by
    unfold State.landStamped
    dsimp only
    rw [hs', hsc, List.find?_nil]
    dsimp only
    rw [hall, if_neg (by simp [hacc, hkind]), hu]
  refine ⟨u.atTime (if u.sidereal < w + 512 then w + 512 else u.sidereal), settles_of_event (execScPerform s) rfl rfl (State.performSc_oldest hstamp hold hland), ?_, ?_, ?_, ?_⟩
  · rw [State.atTime_mem, hu, State.modCtx_mem, State.countUncorr_mem]
  · rw [State.atTime_sidereal, hu, State.modCtx_sidereal, State.countUncorr_sidereal]
  · rw [State.atTime_arg, hu, State.modCtx_arg, State.countUncorr_arg]
  · rw [← ha', theCtx_atTime, hu, theCtx_modCtx (s.countUncorr_arg _)]

/-! Reductions (R274, R355) -/

theorem State.reduceAt_performs {s t : State} {r : Reduction} {key : Nat}
    (hres : s.resolve r.agent { write := true, atomic := true } (pieces r.va r.width) = (.ok [(key, r.width)], t))
    (hbad : anyBad t.bad key r.width = false) : s.reduceAt r =
      (t.atomicAt (homeWriter r.core r.bank) (reductionOp r.op r.scl) key r.width (r.operand.toNat % 2 ^ (8 * r.width)) 0).2.setReduction
        { r with stage := 1 } := by
  have hview : viewBad t.bad [(key, r.width)] = false := by simpa [viewBad] using hbad
  have hok : (t.atomicAt (homeWriter r.core r.bank) (reductionOp r.op r.scl) key r.width (r.operand.toNat % 2 ^ (8 * r.width)) 0).1.2 = false :=
    congrArg Prod.snd (t.atomicOn_old t.mem t.bad _ _ _ _ _ _ hview)
  unfold State.reduceAt
  rw [hres]
  dsimp only [List.headD_cons]
  exact congrArg (fun u : State => u.setReduction { r with stage := 1 }) (if_neg (by simp [hok]))

theorem reductionPerform_performs (s t : State) (r : Reduction) (key : Nat) (hf : s.fabric.reductions = [r]) (hn : r.n = s.arg.n)
    (hst : r.stage = 0) (hno : r.fault = none)
    (hb : ∀ c b, s.bankOf r.ctx = some (c, b) → (s.ctx c b).stores = [] ∧ s.imageRuns c b r.n = [])
    (hres : s.resolve r.agent { write := true, atomic := true } (pieces r.va r.width) = (.ok [(key, r.width)], t)) (hreg : isReg key = false)
    (hbad : anyBad t.bad key r.width = false) (ht : t.fabric = s.fabric) :
    ∃ u : State, Settles .reductionPerform s u ∧ u.fabric.reductions = [{ r with stage := 1 }] ∧
      (r.op = 0x10 → u.mem = (t.putBytes (homeWriter r.core r.bank) key (leBytes r.width ((t.numAt key r.width + r.operand.toNat % 2 ^ (8 * r.width)) %
        2 ^ (8 * r.width)))).mem) := by
  have hview : viewBad t.bad [(key, r.width)] = false := by simpa [viewBad] using hbad
  have hcount : t.countUncorr (key, r.width) = t := by simp [State.countUncorr, hbad]
  obtain ⟨u, hu⟩ : ∃ u, u = (t.atomicAt (homeWriter r.core r.bank) (reductionOp r.op r.scl) key r.width (r.operand.toNat % 2 ^ (8 * r.width)) 0).2 := ⟨_, rfl⟩
  have hfab : u.fabric.reductions = [r] := by rw [hu, t.atomicAt_fabric _ _ _ _ _ _ hreg hbad, ht, hf]
  refine ⟨u.setReduction { r with stage := 1 }, settles_of_event (execReductionPerform s) rfl rfl ?_, ?_, fun hop => ?_⟩
  · rw [← hn, State.performReduction_alone hf hst hno hb, State.reduceAt_performs hres hbad, hu]
  · simp [State.setReduction, hfab]
  · have hadd : reductionOp r.op r.scl = 0x18 := by rw [hop]; rfl
    show u.mem = _
    rw [hu, hadd, State.atomicAt, State.atomicOn_after _ _ _ _ _ _ _ _ _ hreg hview, hcount]
    simp [newValue, State.view, hreg, State.numAt, State.bytesAt]

theorem reductionAck_confirms (s : State) (r : Reduction) (h : s.fabric.reductions.find? (fun r => r.n = s.arg.n && r.stage = 1) = some r) :
    ∃ u : State, Settles .reductionAck s u ∧ (∀ x ∈ u.fabric.reductions, x.n ≠ r.n) ∧
      (u.counter (clusterOf r.core) r.job).con = (s.counter (clusterOf r.core) r.job).con + 1 ∧ u.cores = s.cores ∧ u.mem = s.mem := by
  refine ⟨State.consume { s with fabric := { s.fabric with reductions := s.fabric.reductions.filter fun x => x.n ≠ r.n } } (clusterOf r.core) r.job,
    settles_of_event (execReductionAck s) rfl rfl ?_, fun x hx => ?_, ?_, rfl, rfl⟩
  · rw [h]
  · simpa using (List.mem_filter.mp hx).2
  · exact congrArg Counter.con (Sparse.get_set_self Counter.zero _ _ _)

/-! The timer (R391) -/

theorem timer_traps (s : State) (n : Nat) (hrun : (theCtx s).status = .running) (hm : (theCtx s).mode = .user) (hsc : (theCtx s).sc = none)
    (hl : (theCtx s).leaving = none) (htr : (theCtx s).trapping = false) (hd : s.drained s.arg.core s.arg.bank = true)
    (hq : (s.job (theCtx s).job).tslice ≠ 0) (hn : n = (theCtx s).cycles.toNat / (s.job (theCtx s).job).tslice) (hlt : (theCtx s).slices < n) :
    ∃ t : State, theCtx t = { theCtx s with timer := false, slices := n } ∧ t.mem = s.mem ∧ t.arg = s.arg ∧ t.jobs = s.jobs ∧
      Settles .timer s (t.takeTrap s.arg.core s.arg.bank ⟨0x40, 0, 0, 0, 0, true, false, (theCtx s).pc⟩) := by
  obtain ⟨u, hu⟩ : ∃ u, u = s.setCtx s.arg.core s.arg.bank { theCtx s with timer := true, slices := n } := ⟨_, rfl⟩
  have hctx : u.ctx s.arg.core s.arg.bank = { theCtx s with timer := true, slices := n } := by rw [hu, State.ctx_setCtx_self]
  have harg : u.arg = s.arg := by rw [hu, State.setCtx_arg]
  have hnote : s.noteTimer s.arg.core s.arg.bank = u := by
    rw [hu, hn]
    refine if_neg ?_
    have hocc : (theCtx s).occupied = true := (Ctx.occupied_iff _).mpr (by rw [hrun]; nofun)
    have hgt : ¬ (theCtx s).cycles.toNat / (s.job (theCtx s).job).tslice ≤ (theCtx s).slices := by omega
    show ¬ (!(theCtx s).occupied || decide ((s.job (theCtx s).job).tslice = 0) ||
      decide ((theCtx s).cycles.toNat / (s.job (theCtx s).job).tslice ≤ (theCtx s).slices)) = true
    simp [hocc, hq, hgt]
  have hdue : (u.ctx s.arg.core s.arg.bank).timerDue = true := by simp [hctx, Ctx.timerDue, hm, hrun, hl, htr, hsc]
  have hdrained : u.drained s.arg.core s.arg.bank = true := by
    have hq : (u.ctx s.arg.core s.arg.bank).queue = (s.ctx s.arg.core s.arg.bank).queue := (congrArg Ctx.queue hctx :)
    have hsplit : u.splitOut s.arg.core s.arg.bank = s.splitOut s.arg.core s.arg.bank := by rw [hu]; rfl
    rw [← hd, State.drained, hq, hsplit, State.drained]
  refine ⟨u.modCtx s.arg.core s.arg.bank fun k => { k with timer := false }, ?_, ?_, ?_, ?_, settles_of_event (execTimer s) rfl rfl ?_⟩
  · rw [theCtx_modCtx harg, hctx]
  · rw [hu]; rfl
  · rw [hu]; rfl
  · rw [hu]; rfl
  · dsimp only
    rw [hnote, harg, if_pos hdue, State.timerOrWait, if_pos hdrained, State.timerTrap, hctx]

/-- Settles O40: stores, the slot wheel, reductions, then the timer. -/
theorem accessesPerform : Obligations.AccessesPerform :=
  ⟨storePerform_performs, scStamp_stamps, scPerform_store, scPerform_load, reductionPerform_performs, reductionAck_confirms, timer_traps⟩

end Sys2Proof.Machine
end

section
/-! SUPPORT. O44: the flash stacks read, relocate and erase; the handle table answers; pages land. -/
namespace Sys2Proof.Machine

/-! A stack's pages (R298 to R303) -/

/-- The blocks that pages stand in depend on the stack's places alone. -/
theorem FlashStack.blockOf_congr {k l : FlashStack} (hm : l.moved = k.moved) (hp : l.place = k.place) (page : Nat) :
    l.blockOf page = k.blockOf page := by
  unfold FlashStack.blockOf
  rw [hm, hp]

theorem FlashStack.decode_keeps (k : FlashStack) (page : Nat) (weak : Bool) : (k.decode page weak).2.blockOf page = k.blockOf page ∧
    (k.decode page weak).2.moving = k.moving ∧ (k.decode page weak).2.reads = k.reads ∧ (k.decode page weak).2.thresh = k.thresh ∧
    (k.decode page weak).2.uncorr = (if (k.decode page weak).1 = true then min (k.uncorr + 1) 0xFFFFFFFF else k.uncorr) :=
  ⟨FlashStack.blockOf_congr rfl rfl page, rfl, rfl, rfl, rfl⟩

theorem FlashStack.decode_bad (k : FlashStack) (page : Nat) (weak : Bool)
    (h : k.lost.contains page = true ∨ (k.arm = true ∧ k.armPage = page) ∨ weak = true) : (k.decode page weak).1 = true := by
  unfold FlashStack.decode
  dsimp only
  rcases h with h | ⟨ha, hp⟩ | h
  · rw [h, Bool.or_true]
  · simp [ha, hp]
  · simp [h]

theorem decode_finds (k : FlashStack) (page : Nat) (weak : Bool) :
    ((k.lost.contains page = true ∨ (k.arm = true ∧ k.armPage = page) ∨ weak = true) →
      (k.decode page weak).1 = true ∧ (k.decode page weak).2.uncorr = min (k.uncorr + 1) 0xFFFFFFFF) ∧
    (k.lost.contains page = false → (k.arm = false ∨ k.armPage ≠ page) → weak = false → k.decode page weak = (false, k)) ∧
    (k.arm = true → k.armPage = page → (k.decode page weak).2.arm = false) := by
  obtain ⟨-, -, -, -, huncorr⟩ := k.decode_keeps page weak
  refine ⟨fun h => ?_, fun hl ha hw => ?_, fun ha hp => ?_⟩
  · have hbad := k.decode_bad page weak h
    exact ⟨hbad, huncorr.trans (if_pos hbad)⟩
  · have harmed : (k.arm && decide (k.armPage = page)) = false := by
      rcases ha with ha | ha <;> simp [ha]
    unfold FlashStack.decode
    dsimp only
    rw [harmed, hw, hl]
    simp
  · simp [FlashStack.decode, ha, hp]

theorem FlashStack.relocate_moving (k : FlashStack) (page : Nat) (weak : Bool) : (k.relocate page weak).moving = k.moving := by
  unfold FlashStack.relocate
  dsimp only
  split <;> rfl

/-- A read of a page counted against its block. -/
def FlashStack.counted (k : FlashStack) (page : Nat) : FlashStack :=
  { k with reads := k.reads.set 0 (k.blockOf page) (k.reads.get 0 (k.blockOf page) + 1) }

theorem FlashStack.counted_reads (k : FlashStack) (page : Nat) :
    (k.counted page).reads.get 0 (k.blockOf page) = k.reads.get 0 (k.blockOf page) + 1 :=
  Sparse.get_set_self 0 k.reads (k.blockOf page) (k.reads.get 0 (k.blockOf page) + 1)

/-- A read of a block that is not being relocated and stays below its threshold is counted. -/
theorem State.countRead_counts {s : State} {k : FlashStack} {page : Nat} (hk : k = s.flashStack (page % 8))
    (hm : k.moving.contains (k.blockOf page) = false) (hlt : k.reads.get 0 (k.blockOf page) + 1 < k.thresh) :
    s.countRead page = s.modFlash (page % 8) fun _ => k.counted page := by
  subst hk
  exact (if_neg (by rw [hm]; exact Bool.false_ne_true)).trans (if_pos hlt)

theorem countRead_relocates (s : State) (k : FlashStack) (page : Nat) (hk : k = s.flashStack (page % 8))
    (hm : k.moving.contains (k.blockOf page) = false) (hge : k.thresh ≤ k.reads.get 0 (k.blockOf page) + 1) :
    ((s.countRead page).flashStack (page % 8)).moving = k.blockOf page :: k.moving := by
  subst hk
  have hfold (ps : List (Nat × Nat)) (k : FlashStack) :
      (ps.foldl (fun k p => k.relocate p.1 (Config.freeBool (s.free + p.2))) k).moving = k.moving :=
    foldl_keeps FlashStack.moving (fun k (p : Nat × Nat) => k.relocate_moving p.1 (Config.freeBool (s.free + p.2))) ps k
  unfold State.countRead
  dsimp only
  rw [if_neg (by simpa using hm), if_neg (Nat.not_lt.mpr hge), State.flashStack_modFlash_self, hfold]

theorem rewrite_places (k : FlashStack) (page : Nat) (hpos : 0 < k.nextBlock) :
    (k.rewrite page).lost = k.lost.filter (· ≠ page) ∧
    (∀ b n, k.fresh = some (b, n) → n < 2048 → b ≠ 0 → (k.rewrite page).blockOf page = b) ∧
    (k.fresh = none ∨ (∃ b n, k.fresh = some (b, n) ∧ 2048 ≤ n) → (k.rewrite page).blockOf page = k.nextBlock) := by
  have hplaced {l : FlashStack} {b : Nat} (hb : b ≠ 0) (hm : l.moved = k.moved.set 0 page b) : l.blockOf page = b := by
    have hget : l.moved.get 0 page = b := by rw [hm, Sparse.get_set_self]
    unfold FlashStack.blockOf
    rw [hget]
    exact if_neg hb
  refine ⟨rfl, fun b n hf hn hb => hplaced hb ?_, fun h => hplaced (by omega) ?_⟩
  · unfold FlashStack.rewrite
    rw [hf]
    dsimp only
    rw [if_pos hn]
  · unfold FlashStack.rewrite
    rcases h with hf | ⟨b, n, hf, hn⟩
    · rw [hf]
    · rw [hf]
      dsimp only
      rw [if_neg (by omega)]

/-! The stacks' events (R298, R302) -/

/-- The only read of a stack is the one that it serves next. -/
theorem State.nextFlashRead_alone {s : State} {r : FlashRead} (hr : s.reads = [r]) (hg : r.got = none) (hh : r.held = false) :
    s.nextFlashRead r.n = some r := by
  simp [State.nextFlashRead, hr, hg, hh, FlashRead.before]

/-- What the read of a handle's page leaves. -/
def State.afterPageRead (s : State) (r : FlashRead) (h : Nat) (bad : Bool) (l : FlashStack) : State :=
  let t := ((s.useFree.2.modFlash (r.page % 8) fun _ => l).modFlash (r.page % 8) fun _ => l.counted r.page).modJob (s.handle h).job fun q =>
    { q with flashBytes := q.flashBytes + 16384 }
  { t with reads := t.reads.map fun (o : FlashRead) => if o.n = r.n then { o with got := some bad } else o }

theorem State.afterPageRead_job (s : State) (r : FlashRead) (h : Nat) (bad : Bool) (l : FlashStack) :
    (s.afterPageRead r h bad l).job (s.handle h).job = { s.job (s.handle h).job with flashBytes := (s.job (s.handle h).job).flashBytes + 16384 } := by
  unfold State.afterPageRead
  exact State.job_modJob_self _ (s.handle h).job fun q => { q with flashBytes := q.flashBytes + 16384 }

theorem flashPageRead_settles (s : State) (r : FlashRead) (k l : FlashStack) (bad : Bool) (h i : Nat) (hr : s.reads = [r]) (hn : r.n = s.arg.n)
    (hg : r.got = none) (hh : r.held = false) (hrd : r.reader = .handle h i) (hk : k = s.flashStack (r.page % 8))
    (hl : k.decode r.page (Config.freeBool s.free) = (bad, l)) (hm : l.moving.contains (l.blockOf r.page) = false)
    (hlt : l.reads.get 0 (l.blockOf r.page) + 1 < l.thresh) : Settles .flashPageRead s (s.afterPageRead r h bad l) := by
  have hcount := State.countRead_counts (State.flashStack_modFlash_self s.useFree.2 (r.page % 8) fun _ => l).symm hm hlt
  refine settles_of_event (execFlashPageRead s) rfl rfl ?_
  rw [← hn, State.nextFlashRead_alone hr hg hh]
  dsimp only
  rw [← hk, hl]
  dsimp only
  rw [hcount, hrd]
  unfold State.deliver
  rw [hrd]
  rfl

theorem flashPageRead_reads (s : State) (r : FlashRead) (k : FlashStack) (h i : Nat) (hr : s.reads = [r]) (hn : r.n = s.arg.n)
    (hg : r.got = none) (hh : r.held = false) (hrd : r.reader = .handle h i) (hk : k = s.flashStack (r.page % 8))
    (hm : k.moving.contains (k.blockOf r.page) = false) (hlt : k.reads.get 0 (k.blockOf r.page) + 1 < k.thresh) :
    ∃ (u : State) (bad : Bool), Settles .flashPageRead s u ∧ u.reads = [{ r with got := some bad }] ∧
      (k.lost.contains r.page = true ∨ (k.arm = true ∧ k.armPage = r.page) → bad = true) ∧
      (u.flashStack (r.page % 8)).reads.get 0 (k.blockOf r.page) = k.reads.get 0 (k.blockOf r.page) + 1 ∧
      (u.flashStack (r.page % 8)).uncorr = (if bad = true then min (k.uncorr + 1) 0xFFFFFFFF else k.uncorr) ∧
      (u.flashStack (r.page % 8)).moving = k.moving ∧ (u.job (s.handle h).job).flashBytes = (s.job (s.handle h).job).flashBytes + 16384 ∧
      u.mem = s.mem ∧ u.cores = s.cores := by
  obtain ⟨hblock, hmoving, hreads, hthresh, huncorr⟩ := k.decode_keeps r.page (Config.freeBool s.free)
  have hbad := k.decode_bad r.page (Config.freeBool s.free)
  obtain ⟨⟨bad, l⟩, hl⟩ : ∃ x, k.decode r.page (Config.freeBool s.free) = x := ⟨_, rfl⟩
  rw [hl] at hblock hmoving hreads hthresh huncorr hbad
  have hstack : (s.afterPageRead r h bad l).flashStack (r.page % 8) = l.counted r.page :=
    State.flashStack_modFlash_self (s.useFree.2.modFlash (r.page % 8) fun _ => l) (r.page % 8) fun _ => l.counted r.page
  refine ⟨s.afterPageRead r h bad l, bad, flashPageRead_settles s r k l bad h i hr hn hg hh hrd hk hl ?_ ?_, ?_, fun hb => ?_, ?_, ?_, ?_, ?_, rfl, rfl⟩
  · rw [hmoving, hblock, hm]
  · rw [hreads, hblock, hthresh]
    exact hlt
  · show List.map _ s.reads = _
    rw [hr]
    simp
  · exact hbad (hb.imp_right .inl)
  · rw [hstack, ← hblock, l.counted_reads, hreads]
  · rw [hstack]
    exact huncorr
  · rw [hstack]
    exact hmoving
  · rw [s.afterPageRead_job]

theorem relocationRemap_remaps (s : State) (hm : (s.flashStack s.arg.n).moving.contains s.arg.m = true) (hr : s.readsAt s.arg.n s.arg.m = false) :
    ∃ u : State, Settles .relocationRemap s u ∧
    (u.flashStack s.arg.n).reads.get 0 s.arg.m = 0 ∧ s.arg.m ∉ (u.flashStack s.arg.n).moving ∧
    s.arg.m ∈ (u.flashStack s.arg.n).erasing ∧ (u.flashStack s.arg.n).reloc = min ((s.flashStack s.arg.n).reloc + 1) 0xFFFFFFFF ∧
    u.mem = s.mem ∧ (∀ r ∈ u.reads, r.page % 8 = s.arg.n → ((s.flashStack s.arg.n).blockOf r.page = s.arg.m ∨
      (s.flashStack s.arg.n).blockOf r.page ∉ (s.flashStack s.arg.n).moving) → r.held = false) := by
  refine ⟨State.modFlash { s with reads := s.reads.map fun (r : FlashRead) => r.remapped (s.flashStack s.arg.n) s.arg.n s.arg.m } s.arg.n
    fun k => k.remap s.arg.n s.arg.m, settles_of_event (execRelocationRemap s) rfl rfl ?_, ?_⟩
  · exact if_neg (by simpa [hr] using hm)
  · rw [State.flashStack_modFlash_self]
    refine ⟨Sparse.get_set_self 0 (s.flashStack s.arg.n).reads s.arg.m 0, ?_, List.mem_cons_self, rfl, rfl, fun r hmem hpage hgo => ?_⟩
    · simp [FlashStack.remap]
    · obtain ⟨o, -, rfl⟩ := List.mem_map.mp hmem
      unfold FlashRead.remapped at hpage hgo ⊢
      split
      · rfl
      · next hno =>
        rw [if_neg hno] at hpage hgo
        exact absurd (by simpa [hpage] using hgo) hno

theorem blockErase_ends (s : State) (f : Bool) (hm : (s.flashStack s.arg.n).erasing.contains s.arg.m = true) (hf : s.arg.flag = f) : ∃ u : State,
    Settles .blockEraseComplete s u ∧ (u.flashStack s.arg.n).erasing = (s.flashStack s.arg.n).erasing.erase s.arg.m ∧
    (f = true → (u.flashStack s.arg.n).badBlocks = min ((s.flashStack s.arg.n).badBlocks + 1) 0xFFFFFFFF ∧
      (u.flashStack s.arg.n).spare = (s.flashStack s.arg.n).spare) ∧
    (f = false → (u.flashStack s.arg.n).spare = min ((s.flashStack s.arg.n).spare + 1) 0xFFFFFFFF) := by
  subst hf
  refine ⟨_, settles_of_event (execBlockEraseComplete s) rfl rfl (if_neg (by simpa using hm)), ?_⟩
  rw [State.flashStack_modFlash_self]
  unfold FlashStack.erased
  cases s.arg.flag with
  | true => exact ⟨rfl, fun _ => ⟨rfl, rfl⟩, nofun⟩
  | false => exact ⟨rfl, nofun, fun _ => rfl⟩

/-! The handle table (R296, R297, R312 to R315) -/

theorem nextAsk_first (s : State) (r : HReq) (n : Nat) (h : s.nextAsk n = some r) : r ∈ s.hreqs ∧ r.n = n ∧
    ∀ o ∈ s.hreqs, o.core = r.core → o.bank = r.bank → n ≤ o.n := by
  refine ⟨List.mem_of_find?_eq_some h, ?_⟩
  have hp := List.find?_some h
  simp only [Bool.and_eq_true, decide_eq_true_eq, Bool.not_eq_true', List.any_eq_false] at hp
  exact ⟨hp.1, fun o ho hc hb => by have := hp.2 o ho; simp [hc, hb] at this; exact this⟩

theorem upgrade_settles (s : State) (r : HReq) (h : Nat) (hr : s.nextAsk s.arg.n = some r) (hk : r.kind = .upgrade h) :
    (s.handleState r.job h = .free → Settles .handleTableAnswer s (s.answer r (word (2 ^ 63 + 6)))) ∧
    (∀ f : FlashRead → FlashRead, s.handleState r.job h = .pending → (∀ o i, o.reader = .handle h i → f o = { o with demand := true }) →
      (∀ o, (∀ i, o.reader ≠ .handle h i) → f o = o) →
      Settles .handleTableAnswer s ((State.modHandle { s with reads := s.reads.map f } h fun k => { k with demand := true }).answer r (word h))) ∧
    (s.handleState r.job h = .ready → Settles .handleTableAnswer s (s.answer r (word h))) ∧
    (s.handleState r.job h = .error → Settles .handleTableAnswer s (s.answer r (word h))) := by
  have hsettles {t : State} (ht : s.answerUpgrade r h = t) : Settles .handleTableAnswer s t := by
    refine settles_of_event (execHandleTableAnswer s) rfl rfl ?_
    rw [hr]
    dsimp only
    rw [hk]
    exact ht
  refine ⟨fun hs => hsettles ?_, fun f hs hmine hother => hsettles ?_, fun hs => hsettles ?_, fun hs => hsettles ?_⟩
  · rw [State.answerUpgrade, hs]
    rfl
  · rw [State.answerUpgrade, hs]
    dsimp only
    congr 4
    funext o
    by_cases hreads : ∃ i, o.reader = .handle h i
    · obtain ⟨i, hi⟩ := hreads
      rw [hmine o i hi]
      refine if_pos ?_
      rw [hi]
      exact decide_eq_true rfl
    · rw [hother o fun i hi => hreads ⟨i, hi⟩]
      refine if_neg fun hm => hreads ?_
      split at hm
      · next g i hrd => exact ⟨i, by rw [hrd, of_decide_eq_true hm]⟩
      · cases hm
  · rw [State.answerUpgrade, hs]
  · rw [State.answerUpgrade, hs]

theorem refusal_eq (code : Nat) : refusal code = word (2 ^ 63 + code) := rfl

theorem not_all {count : Nat} {p : Nat → Bool} (hp : ∀ i < count, p i = true) : ¬ (!(List.range count).all p) = true := by
  rw [List.all_eq_true.mpr fun i hi => hp i (List.mem_range.mp hi)]
  exact Bool.false_ne_true

theorem some_not {count i : Nat} {p : Nat → Bool} (hi : i < count) (hp : p i = false) : (!(List.range count).all p) = true := by
  rw [List.all_eq_false.mpr ⟨i, List.mem_range.mpr hi, by rw [hp]; exact Bool.false_ne_true⟩]
  rfl

theorem request_settles (s : State) (r : HReq) (first count : Nat) (dest : Word) (demand below : Bool) (hr : s.nextAsk s.arg.n = some r)
    (hk : r.kind = .request first count dest demand below) :
    (s.freeHandle = none → Settles .handleTableAnswer s (s.answer r (word (2 ^ 63 + 1)))) ∧
    (∀ h i, s.freeHandle = some h → i < count → s.destOk r (dest + word (16384 * i)) = false →
      Settles .handleTableAnswer s (s.answer r (word (2 ^ 63 + 2)))) ∧
    (∀ h i, s.freeHandle = some h → (∀ i < count, s.destOk r (dest + word (16384 * i)) = true) → i < count →
      (s.job r.job).granted (first + i) false = false → Settles .handleTableAnswer s (s.answer r (word (2 ^ 63 + 3)))) ∧
    (∀ h, s.freeHandle = some h → (∀ i < count, s.destOk r (dest + word (16384 * i)) = true) →
      (∀ i < count, (s.job r.job).granted (first + i) false = true) → below = true →
      Settles .handleTableAnswer s (s.answer r (word (2 ^ 63 + 4)))) ∧
    (∀ h, s.freeHandle = some h → (∀ i < count, s.destOk r (dest + word (16384 * i)) = true) →
      (∀ i < count, (s.job r.job).granted (first + i) false = true) → below = false →
      Settles .handleTableAnswer s (((List.range count).foldl (fun s i => s.readFlash (first + i) (.handle h i) demand)
        (s.modHandle h fun _ => ⟨.pending, r.job, r.asid, first, count, dest, demand, [], false, false⟩)).answer r (word h))) := by
  have hsettles {t : State} (ht : s.answerRequest r first count dest demand below = t) : Settles .handleTableAnswer s t := by
    refine settles_of_event (execHandleTableAnswer s) rfl rfl ?_
    rw [hr]
    dsimp only
    rw [hk]
    exact ht
  obtain ⟨ok, hok⟩ : ∃ ok : Nat → Bool, ok = fun i => s.destOk r (dest + word (16384 * i)) := ⟨_, rfl⟩
  obtain ⟨may, hmay⟩ : ∃ may : Nat → Bool, may = fun i => (s.job r.job).granted (first + i) false := ⟨_, rfl⟩
  have hcalc (h : Nat) (hf : s.freeHandle = some h) : s.answerRequest r first count dest demand below =
      if !(List.range count).all ok then s.answer r (refusal 2)
      else if !(List.range count).all may then s.answer r (refusal 3)
      else if below then s.answer r (refusal 4)
      else ((List.range count).foldl (fun s i => s.readFlash (first + i) (.handle h i) demand)
        (s.modHandle h fun _ => ⟨.pending, r.job, r.asid, first, count, dest, demand, [], false, false⟩)).answer r (word h) := by
    unfold State.answerRequest
    rewrite [hf, hok, hmay]
    rfl
  refine ⟨fun hf => hsettles ?_, fun h i hf hi hd => hsettles ((hcalc h hf).trans ?_), fun h i hf hd hi hg => hsettles ((hcalc h hf).trans ?_),
    fun h hf hd hg hb => hsettles ((hcalc h hf).trans ?_), fun h hf hd hg hb => hsettles ((hcalc h hf).trans ?_)⟩
  · unfold State.answerRequest
    rewrite [hf]
    exact congrArg (s.answer r) (refusal_eq 1)
  · have hno : ok i = false := by rw [hok]; exact hd
    exact if_pos (some_not hi hno)
  · have hok' : ∀ i < count, ok i = true := by rw [hok]; exact hd
    have hno : may i = false := by rw [hmay]; exact hg
    exact (if_neg (not_all hok')).trans (if_pos (some_not hi hno))
  · have hok' : ∀ i < count, ok i = true := by rw [hok]; exact hd
    have hmay' : ∀ i < count, may i = true := by rw [hmay]; exact hg
    exact (if_neg (not_all hok')).trans ((if_neg (not_all hmay')).trans (if_pos hb))
  · have hok' : ∀ i < count, ok i = true := by rw [hok]; exact hd
    have hmay' : ∀ i < count, may i = true := by rw [hmay]; exact hg
    exact (if_neg (not_all hok')).trans ((if_neg (not_all hmay')).trans (if_neg (by simp [hb])))

theorem handlePageLand_lands (s : State) (r : FlashRead) (bad : Bool)
    (hr : s.reads.find? (fun r => r.reader = .handle s.arg.n s.arg.m && r.got.isSome) = some r) (hg : r.got = some bad) (hl : r.land = none)
    (hf : s.arg.flag = false) :
    Settles .handlePageLand s (State.landPage { s with reads := s.reads.filter fun o => o.n ≠ r.n } s.arg.n s.arg.m r.page bad) := by
  refine settles_of_event (execHandlePageLand s) rfl rfl ?_
  dsimp only
  rw [hr]
  dsimp only
  rw [hl, hg, hf]
  rfl

theorem State.modHandle_at {s : State} {h : Nat} {f g : Handle → Handle} (hfg : f (s.handle h) = g (s.handle h)) :
    s.modHandle h f = s.modHandle h g := congrArg (fun k => (s.setHandle h k).regate) hfg

theorem handle_becomes (s : State) (k : Handle) (hk : k = s.handle s.arg.n) (hs : k.state = .pending) (hl : k.landed.length = k.count) :
    (k.err = false → k.mark = false → Settles .handleReady s (s.modHandle s.arg.n fun k => { k with state := .ready })) ∧
    (k.err = true → k.mark = false → Settles .handleError s (s.modHandle s.arg.n fun k => { k with state := .error })) ∧
    (k.mark = true → Settles .handleReleaseFree s (s.modHandle s.arg.n fun _ => .free)) := by
  subst hk
  have hall : (s.handle s.arg.n).all = true := by simp [Handle.all, hs, hl]
  refine ⟨fun he hm => settles_of_event (execHandleReady s) rfl rfl (State.modHandle_at (if_pos ?_)),
    fun he hm => settles_of_event (execHandleError s) rfl rfl (State.modHandle_at (if_pos ?_)),
    fun hm => settles_of_event (execHandleReleaseFree s) rfl rfl (State.modHandle_at (if_pos ?_))⟩
  · rw [hall, he, hm]; rfl
  · rw [hall, he, hm]; rfl
  · rw [hall, hm]; rfl

/-- Settles O44: the stacks' reads, relocations and erases, then the table's answers and the pages that land. -/
theorem flashAndHandlesWork : Obligations.FlashAndHandlesWork :=
  ⟨flashPageRead_reads, countRead_relocates, decode_finds, rewrite_places,
    fun s _ hr => settles_of_event (execRelocationRemap s) rfl rfl (if_pos (by simp [hr])), relocationRemap_remaps, blockErase_ends, nextAsk_first,
    upgrade_settles, request_settles, handlePageLand_lands, handle_becomes⟩

end Sys2Proof.Machine
end

section
/-! SUPPORT. O45: messages move and arrive, notices come in, the port repeats, ends and abandons packets, link bytes arrive. -/
namespace Sys2Proof.Machine

/-! A message on its way (R316, R318, R319, R356) -/

section
variable {s : State} {m : Msg}

theorem find_message (hm : s.fabric.msgs = [m]) (hn : m.n = s.arg.n) : s.fabric.msgs.find? (fun m => m.n = s.arg.n) = some m := by
  simp [hm, hn]

theorem State.sendWaits_none (h : s.bankOf m.ctx = none) : s.sendWaits m = false := by
  unfold State.sendWaits
  rw [h]

/-- A store of its sender before a message holds it back. -/
theorem State.sendWaits_store {c b : Nat} {st : StoreOp} (h : s.bankOf m.ctx = some (c, b)) (hst : st ∈ (s.ctx c b).stores) (hn : st.n < m.n) :
    s.sendWaits m = true := by
  have hany : ((s.ctx c b).stores.any fun st => st.n < m.n) = true := List.any_eq_true.mpr ⟨st, hst, decide_eq_true hn⟩
  unfold State.sendWaits
  rw [h]
  dsimp only
  rw [hany, Bool.true_or]

theorem State.freeSend_none (h : m.entryHeld = false) : s.freeSend m = s := if_neg (by rw [h]; exact Bool.false_ne_true)

theorem State.dropMsg_alone (hm : s.fabric.msgs = [m]) : s.dropMsg m.n = { s with fabric := { s.fabric with msgs := [] } } := by
  simp [State.dropMsg, hm]

end

/-- What an arrival finds at its core (R318). -/
theorem State.arrive_queues {s : State} {core : Nat} {a : Arrived} (hc : core < 256) (ho : s.offline core = false) (hq : (s.core core).held < 64)
    (hw : (s.job a.job).overflow = []) : s.arrive core a = s.modCore core fun k => { k with queue := k.queue ++ [a] } := by
  refine (if_neg ?_).trans (if_pos ?_)
  · simp [ho, hc]
  · simp [hq, hw]

theorem messageArrival_arrives (s : State) (m : Msg) (hm : s.fabric.msgs = [m]) (hn : m.n = s.arg.n) (hr : m.route = []) (he : m.entryHeld = false)
    (hb : s.bankOf m.ctx = none) (ht : m.target < 256) (ha : (s.job m.job).active = true) (hk : (s.job m.job).kstat = 0)
    (ho : s.offline m.target = false) (hw : (s.job m.job).overflow = []) (hq : (s.core m.target).held < 64) :
    Settles .messageArrival s (State.modCore { s with fabric := { s.fabric with msgs := [] } } m.target fun k => { k with queue := k.queue ++
      [{ kind := .handler, job := m.job, entry := m.entry, payload := m.payload, x5 := m.sender, x6 := 0, x7 := 0, x8 := 0, wid := m.wid
         widths := m.widths, prio := min (s.job m.job).ceil m.prio, holder := some m.holder, time := s.sidereal }] }) := by
  have hlive : (s.job m.job).live = true := by simp [Job.live, ha, hk]
  have hgo : ¬ (!m.route.isEmpty || s.sendWaits m || s.fabric.msgs.any m.follows) = true := by
    simp [hr, State.sendWaits_none hb, hm, Msg.follows]
  refine settles_of_event (execMessageArrival s) rfl rfl ?_
  rw [find_message hm hn]
  dsimp only
  rw [if_neg hgo, State.freeSend_none he, State.dropMsg_alone hm, if_pos hlive]
  exact State.arrive_queues ht ho hq hw

theorem State.dropArrival_drops (s : State) (core cause : Nat) (a : Arrived) : ∃ r : FaultRec, (s.dropArrival core cause a).faults = s.faults ++ [r] ∧
    r.cause = cause ∧ ∀ i, a.holder = some i → ((s.dropArrival core cause a).counter i a.job).con = (s.counter i a.job).con + 1 := by
  unfold State.dropArrival
  dsimp only
  split
  · next i hi =>
    refine ⟨_, rfl, rfl, fun i' hi' => ?_⟩
    obtain rfl : i = i' := Option.some.inj (hi.symm.trans hi')
    rw [State.counter_consume_self]
    rfl
  · next hno => exact ⟨_, rfl, rfl, fun i hi => absurd (hno.symm.trans hi) (by simp)⟩

theorem arrive_overflows (s : State) (core : Nat) (a : Arrived) (hc : core < 256) (ho : s.offline core = false) (hq : 64 ≤ (s.core core).held) :
    ((s.job a.job).overflow.length < (s.job a.job).overflowRoom →
      ((s.arrive core a).job a.job).overflow = (s.job a.job).overflow ++ [(core, a)] ∧ (s.arrive core a).faults = s.faults ∧
      (s.arrive core a).fabric = s.fabric ∧ ((s.arrive core a).core core).queue = (s.core core).queue) ∧
    ((s.job a.job).overflowRoom ≤ (s.job a.job).overflow.length → ∃ r : FaultRec, (s.arrive core a).faults = s.faults ++ [r] ∧ r.cause = 0x2B ∧
      ∀ i, a.holder = some i → ((s.arrive core a).counter i a.job).con = (s.counter i a.job).con + 1) := by
  have hon : ¬ (decide (256 ≤ core) || s.offline core) = true := by simp [ho, hc]
  have hfull (w : Bool) : ¬ (decide ((s.core core).held < 64) && w) = true := by
    rw [decide_eq_false (Nat.not_lt.mpr hq), Bool.false_and]
    exact Bool.false_ne_true
  refine ⟨fun h => ?_, fun h => ?_⟩
  · have harr : s.arrive core a = s.overflow core a := (if_neg hon).trans ((if_neg (hfull _)).trans (if_pos h))
    obtain ⟨key, data, hover⟩ : ∃ key data, s.overflow core a =
        (s.useFree.2.putBytes 256 key data).modJob a.job fun q => { q with overflow := q.overflow ++ [(core, a)] } := ⟨_, _, rfl⟩
    have hqueue : AccessKeeps fun s => (s.core core).queue := AccessKeeps.of_core Core.queue core (fun _ _ => rfl) (fun _ _ => rfl) (fun _ _ => rfl)
      fun k w d key n => by unfold Core.struckBy; (repeat' split) <;> rfl
    rw [harr, hover, State.job_modJob_self, State.job_putBytes, State.modJob_faults, State.faults_putBytes, State.modJob_fabric, State.putBytes_fabric,
      State.core_modJob]
    exact ⟨rfl, rfl, rfl, hqueue.putBytes s.useFree.2 256 key data false⟩
  · have harr : s.arrive core a = s.dropArrival core 0x2B a := (if_neg hon).trans ((if_neg (hfull _)).trans (if_neg (Nat.not_lt.mpr h)))
    rw [harr]
    exact s.dropArrival_drops core 0x2B a

/-! Handing over (R356) -/

theorem messageHandover_moves (s : State) (m : Msg) (h : Nat) (r : List Nat) (hm : s.fabric.msgs = [m]) (hn : m.n = s.arg.n) (hr : m.route = h :: r)
    (hh : h ≠ 48) (he : m.entryHeld = false) (hb : s.bankOf m.ctx = none) :
    ∃ u : State, Settles .messageHandover s u ∧ u.fabric.msgs = [{ m with holder := h, route := r, entryHeld := false }] ∧
      (u.counter h m.job).inj = (s.counter h m.job).inj + 1 ∧ ∃ n : Notice, u.fabric.notices = s.fabric.notices ++ [n] ∧
        n.kind = .handover ∧ n.iface = m.holder ∧ n.job = m.job := by
  obtain ⟨t, ht⟩ : ∃ t, t = (s.inject h m.job).sendNotice .handover m.holder m.job := ⟨_, rfl⟩
  refine ⟨{ t with fabric := { t.fabric with msgs := t.fabric.msgs.map fun x => if x.n = m.n then { m with holder := h, route := r, entryHeld := false } else x } },
    settles_of_event (execMessageHandover s) rfl rfl ?_, ?_, ?_, ?_⟩
  · rw [find_message hm hn]
    dsimp only
    rw [hr]
    dsimp only
    rw [State.sendWaits_none hb, if_neg Bool.false_ne_true]
    unfold State.handOver
    dsimp only
    rw [State.freeSend_none he, ht]
    exact if_neg hh
  · have hmsgs : t.fabric.msgs = [m] := by rw [ht]; exact hm
    rw [hmsgs]
    simp
  · have hcount : t.counter h m.job = (s.inject h m.job).counter h m.job := by rw [ht]; rfl
    show (t.counter h m.job).inj = _
    rw [hcount, State.counter_inject_self]
  · rw [ht]
    exact ⟨_, rfl, rfl, rfl, rfl⟩

theorem messageHandover_transmits (s : State) (m : Msg) (r : List Nat) (hm : s.fabric.msgs = [m]) (hn : m.n = s.arg.n) (hr : m.route = 48 :: r)
    (he : m.entryHeld = false) (hb : s.bankOf m.ctx = none) :
    ∃ u : State, Settles .messageHandover s u ∧ u.fabric.msgs = [] ∧ ∃ p : Packet, u.port.packets = s.port.packets ++ [p] ∧
      p.sent = 1 ∧ p.last = s.sidereal ∧ p.cargo = .message { m with holder := 48, route := r, entryHeld := false } := by
  obtain ⟨t, ht⟩ : ∃ t, t = ((s.inject 48 m.job).sendNotice .handover m.holder m.job).dropMsg m.n := ⟨_, rfl⟩
  have htime : t.sidereal = s.sidereal := by rw [ht]; rfl
  have hport : t.port = s.port := by rw [ht]; rfl
  have hmsgs : t.fabric.msgs = [] := by
    rw [ht]
    show List.filter _ s.fabric.msgs = []
    rw [hm]
    simp
  refine ⟨t.transmit (.message { m with holder := 48, route := r, entryHeld := false }), settles_of_event (execMessageHandover s) rfl rfl ?_, hmsgs,
    _, congrArg (fun p : Port => p.packets ++ _) hport, rfl, htime, rfl⟩
  rw [find_message hm hn]
  dsimp only
  rw [hr]
  dsimp only
  rw [State.sendWaits_none hb, if_neg Bool.false_ne_true]
  unfold State.handOver
  dsimp only
  rw [State.freeSend_none he, ht]
  exact if_pos rfl

theorem message_waits (s : State) (m : Msg) (h c b : Nat) (r : List Nat) (st : StoreOp) (hm : s.fabric.msgs = [m]) (hn : m.n = s.arg.n)
    (hb : s.bankOf m.ctx = some (c, b)) (hst : st ∈ (s.ctx c b).stores) (hlt : st.n < m.n) :
    (m.route = h :: r → Settles .messageHandover s s) ∧ (m.route = [] → Settles .messageArrival s s) := by
  have hwaits := State.sendWaits_store hb hst hlt
  refine ⟨fun hr => settles_of_event (execMessageHandover s) rfl rfl ?_, fun _ => settles_of_event (execMessageArrival s) rfl rfl ?_⟩
  · rw [find_message hm hn]
    dsimp only
    rw [hr]
    exact if_pos hwaits
  · rw [find_message hm hn]
    exact if_pos (by rw [hwaits]; simp)

/-! Notices (R355) -/

theorem State.noticeArrives_confirms {s : State} {kind : NoticeKind} {x : Notice}
    (hx : s.fabric.notices.find? (fun x => x.n = s.arg.n && x.kind = kind) = some x) :
    ∃ u : State, s.noticeArrives kind s.arg.n = u ∧ u.fabric.notices = s.fabric.notices.filter (fun y => y.n ≠ s.arg.n) ∧
      (u.counter x.iface x.job).con = (s.counter x.iface x.job).con + 1 ∧ (u.counter x.iface x.job).act = true ∧
      (u.counter x.iface x.job).inj = (s.counter x.iface x.job).inj ∧ u.cores = s.cores ∧ u.mem = s.mem := by
  refine ⟨State.consume { s with fabric := { s.fabric with notices := s.fabric.notices.filter fun y => y.n ≠ s.arg.n } } x.iface x.job, ?_, rfl, ?_⟩
  · unfold State.noticeArrives
    rw [hx]
  · rw [State.counter_consume_self]
    exact ⟨rfl, rfl, rfl, rfl, rfl⟩

theorem notice_settles (s : State) (i : Instr) (kind : NoticeKind) (x : Notice)
    (hi : i = .handoverAck ∧ kind = .handover ∨ i = .retirementNotice ∧ kind = .retirement)
    (hx : s.fabric.notices.find? (fun x => x.n = s.arg.n && x.kind = kind) = some x) :
    ∃ u : State, Settles i s u ∧ u.fabric.notices = s.fabric.notices.filter (fun y => y.n ≠ s.arg.n) ∧
      (u.counter x.iface x.job).con = (s.counter x.iface x.job).con + 1 ∧ (u.counter x.iface x.job).act = true ∧
      (u.counter x.iface x.job).inj = (s.counter x.iface x.job).inj ∧ u.cores = s.cores ∧ u.mem = s.mem := by
  obtain ⟨u, hu, hrest⟩ := State.noticeArrives_confirms hx
  rcases hi with ⟨rfl, rfl⟩ | ⟨rfl, rfl⟩
  · exact ⟨u, settles_of_event (execHandoverAck s) rfl rfl hu, hrest⟩
  · exact ⟨u, settles_of_event (execRetirementNotice s) rfl rfl hu, hrest⟩

/-! The port (R317, R363 to R366) -/

theorem remoteMessage_enters (s : State) (w : WireMsg) (hw : s.arg.msg = some w) (hup : s.port.up = true) (hs : w.slot < 64)
    (ha : (s.job w.slot).active = true) (hk : (s.job w.slot).kstat = 0) (hp : s.isPeer w.slot w.chip = true)
    (he : (s.peer w.slot w.chip).1 = w.endpoint) :
    ∃ (u : State) (m : Msg), Settles .remoteMessageReceive s u ∧ u.fabric.msgs = s.fabric.msgs ++ [m] ∧ m.job = w.slot ∧ m.entry = w.entry ∧
      m.payload = w.payload ∧ m.target = w.target % 256 ∧ m.wid = w.wid ∧ m.holder = 48 ∧
      (u.counter 48 w.slot).inj = (s.counter 48 w.slot).inj + 1 := by
  have hgo : ¬ (!s.port.up || decide (64 ≤ w.slot) || !(s.job w.slot).live || !s.isPeer w.slot w.chip ||
      decide ((s.peer w.slot w.chip).1 ≠ w.endpoint)) = true := by
    simp [hup, hs, Job.live, ha, hk, hp, he]
  have hset : Settles .remoteMessageReceive s _ := settles_of_event (execRemoteMessageReceive s) rfl rfl rfl
  rw [hw] at hset
  dsimp only at hset
  rw [if_neg hgo] at hset
  refine ⟨_, _, hset, rfl, rfl, rfl, rfl, rfl, rfl, rfl, ?_⟩
  exact congrArg Counter.inj (State.counter_inject_self _ 48 w.slot)

theorem State.rtoOver_of {s : State} {p : Packet} (h : 1200 * p.rto ≤ (s.sidereal - p.last).toNat) : s.rtoOver p = true := decide_eq_true h

theorem ueRetransmit_repeats (s : State) (p : Packet) (hp : s.port.packets = [p]) (hn : p.n = s.arg.n) (hs : p.sent < p.retry)
    (ht : 1200 * p.rto ≤ (s.sidereal - p.last).toNat) :
    Settles .ueRetransmit s { s with port := { s.port with packets := [{ p with sent := p.sent + 1, last := s.sidereal }] } } := by
  have hagain : s.again p = { p with sent := p.sent + 1, last := s.sidereal } := if_pos (by rw [State.rtoOver_of ht, decide_eq_true hs]; rfl)
  refine settles_of_event (execUeRetransmit s) rfl rfl ?_
  rw [hp, List.map_cons, List.map_nil, if_pos hn, hagain]

section
variable {s : State} {p : Packet}

theorem find_packet (hp : s.port.packets = [p]) (hn : p.n = s.arg.n) : s.port.packets.find? (fun p => p.n = s.arg.n) = some p := by
  simp [hp, hn]

theorem State.dropPacket_alone (hp : s.port.packets = [p]) : (s.dropPacket p.n).port.packets = [] := by
  simp [State.dropPacket, hp]

end

theorem ueAck_confirms (s : State) (p : Packet) (m : Msg) (hp : s.port.packets = [p]) (hn : p.n = s.arg.n) (hc : p.cargo = .message m) :
    ∃ u : State, Settles .ueAckReceive s u ∧ u.port.packets = [] ∧ (u.counter 48 m.job).con = (s.counter 48 m.job).con + 1 ∧
      u.cores = s.cores := by
  refine ⟨(s.dropPacket p.n).consume 48 m.job, settles_of_event (execUeAckReceive s) rfl rfl ?_, State.dropPacket_alone hp, ?_, rfl⟩
  · rw [find_packet hp hn]
    dsimp only
    rw [hc]
    rfl
  · rw [State.counter_consume_self]
    rfl

/-- An arrival leaves the port and the loss log's head. -/
theorem State.arrive_leaves (s : State) (core : Nat) (a : Arrived) (j : Nat) : (s.arrive core a).port = s.port ∧
    ((s.arrive core a).job j).losshead = (s.job j).losshead := by
  have hdrop (cause : Nat) : (s.dropArrival core cause a).port = s.port ∧ ((s.dropArrival core cause a).job j).losshead = (s.job j).losshead := by
    unfold State.dropArrival
    dsimp only
    split <;> exact ⟨rfl, rfl⟩
  have hover : (s.overflow core a).port = s.port ∧ ((s.overflow core a).job j).losshead = (s.job j).losshead := by
    unfold State.overflow
    dsimp only
    refine ⟨(congrArg State.port (State.putBytes_package s.useFree.2 _ _ _ _) :), ?_⟩
    by_cases hj : j = a.job
    · rw [hj, State.job_modJob_self, State.job_putBytes]
      rfl
    · rw [State.job_modJob_ne _ _ _ _ hj, State.job_putBytes]
      rfl
  unfold State.arrive
  dsimp only
  split
  · exact hdrop _
  · split
    · exact ⟨rfl, rfl⟩
    · split
      · exact hover
      · exact hdrop _

theorem State.lose_logs (s : State) (now : Word) (l : Loss) : (s.lose now l).port = s.port ∧
    ((s.lose now l).job l.job).losshead = (s.job l.job).losshead + 1 := by
  obtain ⟨t, core, a, hlose, hport, hhead⟩ : ∃ (t : State) (core : Nat) (a : Arrived), s.lose now l = t.arrive core a ∧ t.port = s.port ∧
      (t.job l.job).losshead = (s.job l.job).losshead + 1 := by
    refine ⟨_, _, _, rfl, (congrArg State.port (State.putBytes_package s _ _ _ _) :), ?_⟩
    rw [State.job_inject, State.job_signal, State.job_modJob_self, State.job_putBytes]
  obtain ⟨hkport, hkhead⟩ := t.arrive_leaves core a l.job
  rw [hlose]
  exact ⟨hkport.trans hport, hkhead.trans hhead⟩

theorem Msg.loss_job (m : Msg) : m.loss.job = m.job := by
  unfold Msg.loss
  split <;> rfl

theorem ueAbandon_gives (s : State) (p : Packet) (m : Msg) (hp : s.port.packets = [p]) (hn : p.n = s.arg.n) (hc : p.cargo = .message m)
    (hs : p.retry ≤ p.sent) (ht : 1200 * p.rto ≤ (s.sidereal - p.last).toNat) (ha : (s.job m.job).active = true) (hk : (s.job m.job).kstat = 0) :
    ((s.job m.job).lossRoom = false → Settles .ueAbandon s s) ∧
    ((s.job m.job).lossRoom = true → ∃ u : State, Settles .ueAbandon s u ∧ u.port.packets = [] ∧
      (u.job m.job).losshead = (s.job m.job).losshead + 1) := by
  have hlive : ¬ (!(s.job m.job).live) = true := by simp [Job.live, ha, hk]
  have hdue : ¬ (decide (p.sent < p.retry) || !s.rtoOver p) = true := by
    rw [State.rtoOver_of ht, decide_eq_false (Nat.not_lt.mpr hs)]
    decide
  have hsettles {t : State} (h : s.abandonMessage p m = t) : Settles .ueAbandon s t := by
    refine settles_of_event (execUeAbandon s) rfl rfl ?_
    rw [find_packet hp hn]
    dsimp only
    rw [if_neg hdue, hc]
    exact h
  refine ⟨fun hr => hsettles ((if_neg hlive).trans (if_pos (by simp [hr]))), fun hr => ?_⟩
  obtain ⟨t, ht⟩ : ∃ t, t = (s.dropPacket p.n).count portIface m.job fun c => { c with inj := c.inj - 1 } := ⟨_, rfl⟩
  obtain ⟨hport, hhead⟩ := t.lose_logs p.abandoned m.loss
  rw [m.loss_job] at hhead
  have hjob : t.job m.job = s.job m.job := by rw [ht]; rfl
  refine ⟨t.lose p.abandoned m.loss, hsettles ((if_neg hlive).trans ((if_neg (by simp [hr])).trans (by rw [ht]))), ?_, by rw [hhead, hjob]⟩
  rw [hport, ht]
  exact State.dropPacket_alone hp

theorem linkArrival_joins (s : State) (q : Job) (key first held : Nat) (hq : q = s.job s.arg.n) (hkey : key = 16 * s.arg.m + s.arg.k)
    (hup : s.port.up = true) (hn : s.arg.n < 64) (ha : q.active = true) (hk : q.kstat = 0) (hl : q.links.contains (s.arg.m, s.arg.k, true) = true)
    (hst : q.stream.get (0, 0) key = (first, held)) :
    (held + s.arg.data.length ≤ 65536 → Settles .linkArrival s ((s.putParts 256 (cutData (q.linkParts key (first + held) s.arg.data.length)
      s.arg.data)).modJob s.arg.n fun q => { q with stream := q.stream.set (0, 0) key (first, held + s.arg.data.length) })) ∧
    (65536 < held + s.arg.data.length → ∃ u : State, Settles .linkArrival s u ∧ u.mem = s.mem ∧
      (u.job s.arg.n).broken.get false key = true ∧ ∃ r : FaultRec, u.faults = s.faults ++ [r] ∧ r.cause = 0x12 ∧ r.job = s.arg.n) := by
  subst hq hkey
  have hgo : ¬ (!s.port.up || decide (64 ≤ s.arg.n) || !(s.job s.arg.n).live || !(s.job s.arg.n).links.contains (s.arg.m, s.arg.k, true)) = true := by
    rw [hup, hl, Job.live, ha, hk, decide_eq_false (Nat.not_le.mpr hn)]
    decide
  refine ⟨fun h => settles_of_event (execLinkArrival s) rfl rfl ((if_neg hgo).trans ?_),
    fun h => ⟨((s.modJob s.arg.n fun q => { q with broken := q.broken.set false (16 * s.arg.m + s.arg.k) true }).report (faultBare s s.arg.n 0x12 0 0)),
      settles_of_event (execLinkArrival s) rfl rfl ((if_neg hgo).trans ?_), rfl, ?_, _, rfl, rfl, rfl⟩⟩
  · rw [hst, if_neg (Nat.not_lt.mpr h)]
  · rw [hst, if_pos h]
  · rw [State.job_report, State.job_modJob_self]
    exact Sparse.get_set_self false _ _ true

/-- Settles O45: messages, notices, then the port's packets and link bytes. -/
theorem messagesAndPacketsMove : Obligations.MessagesAndPacketsMove :=
  ⟨messageArrival_arrives, arrive_overflows, messageHandover_moves, messageHandover_transmits, message_waits, notice_settles, remoteMessage_enters,
    ueRetransmit_repeats, ueAck_confirms, ueAbandon_gives, linkArrival_joins⟩

end Sys2Proof.Machine
end

section
/-! SUPPORT. O46: the two passes of the meridian sweep and its verdict; waves of a job on many packages. -/
namespace Sys2Proof.Machine

/-! The local wave (R358 to R361) -/

theorem sweep_starts (s : State) (h0 : s.arg.m = 0) (hw : s.fabric.wave = none) (hen : s.pkg.sweepEn = true) (ht : s.sidereal ≠ 0)
    (hlast : ∀ t, s.fabric.lastWave = some t → max 1024 s.fabric.period ≤ (s.sidereal - t).toNat) :
    ∃ u : State, Settles .sweepWaveStart s u ∧ u.fabric.lastWave = some s.sidereal ∧ u.fabric.period = s.pkg.period ∧ u.cores = s.cores ∧
      u.mem = s.mem ∧ u.fabric.counters = s.fabric.counters ∧ ∃ w : Wave, u.fabric.wave = some w ∧ w.start = s.sidereal ∧
        w.jobs = s.waveJobs ∧ w.second = false ∧ w.read = [] := by
  obtain ⟨w, hw'⟩ : ∃ w : Wave, w = ⟨s.sidereal, s.waveJobs, false, [], s.waveJobs.map fun _ => (0, 0, false), s.waveJobs.map fun _ => (0, 0, false)⟩ :=
    ⟨_, rfl⟩
  have hstart : s.startWave = { s with fabric := { s.fabric with wave := some w, lastWave := some s.sidereal, period := s.pkg.period } } := by
    rw [hw']
    refine if_neg ?_
    rw [hen, decide_eq_false ht]
    cases hl : s.fabric.lastWave with
    | none => exact Bool.false_ne_true
    | some t =>
      have hlate : ¬ (s.sidereal - t).toNat < s.fabric.wavePeriod := Nat.not_lt.mpr (hlast t hl)
      dsimp only
      rw [decide_eq_false hlate]
      exact Bool.false_ne_true
  refine ⟨{ s with fabric := { s.fabric with wave := some w, lastWave := some s.sidereal, period := s.pkg.period } },
    settles_of_event (execSweepWaveStart s) rfl rfl ?_, rfl, rfl, rfl, rfl, rfl, w, rfl, by rw [hw'], by rw [hw'], by rw [hw'], by rw [hw']⟩
  rw [if_neg (by simp [h0]), hw]
  exact hstart

/-- A wave that serves one single-package job serves it still. -/
theorem Wave.served_one {s : State} {w : Wave} {j : Nat} (hj : w.jobs = [j]) (ha : (s.job j).active = true) (hn : (s.job j).nm1 = 0) :
    w.served s = w := if_pos (by simp [hj, ha, hn])

/-- A job on many packages is served no more. -/
theorem Wave.served_none {s : State} {w : Wave} {j : Nat} (hj : w.jobs = [j]) (hn : (s.job j).nm1 ≠ 0) :
    w.served s = { w with jobs := [], sums1 := [], sums2 := [] } := by
  have hnone : (w.jobs.zip (w.sums1.zip w.sums2)).filter (fun e => (s.job e.1).active && decide ((s.job e.1).nm1 = 0)) = [] := by
    rw [List.filter_eq_nil_iff]
    intro e he
    have hej : e.1 = j := by simpa [hj] using (List.of_mem_zip he).1
    simp [hej, hn]
  refine (if_neg (by simp [hj, hn])).trans ?_
  dsimp only
  rw [hnone]
  rfl

/-- The reading of a job's counters at an interface joins a sum. -/
theorem State.addReading_reading (s : State) (i c : Word) (a : Bool) (n j : Nat) : addReading (i, c, a) (s.reading n j) =
    (i + (s.counter n j).inj, c + ((s.counter n j).con + word (s.counter n j).qw), a || (s.counter n j).act) := rfl

theorem sweep_reads1 (s : State) (w : Wave) (j : Nat) (i c : Word) (a : Bool) (h0 : s.arg.m = 0) (hw : s.fabric.wave = some w)
    (hs : w.second = false) (hj : w.jobs = [j]) (hsum : w.sums1 = [(i, c, a)]) (hnext : waveNext w.read s.arg.n = true)
    (ha : (s.job j).active = true) (hn : (s.job j).nm1 = 0) : ∃ u : State, Settles .sweepWaveStart s u ∧
      u.fabric.wave = some { w with read := s.arg.n :: w.read, sums1 := [(i + (s.counter s.arg.n j).inj,
        c + ((s.counter s.arg.n j).con + word (s.counter s.arg.n j).qw), a || (s.counter s.arg.n j).act)] } ∧
      u.counter s.arg.n j = { s.counter s.arg.n j with act := false } ∧ (∀ n, n ≠ s.arg.n → u.counter n j = s.counter n j) ∧
      u.cores = s.cores ∧ u.mem = s.mem := by
  have hclear : (s.clearAct s.arg.n j).fabric.counters =
    s.fabric.counters.set .zero (64 * s.arg.n + j) { s.counter s.arg.n j with act := false } := rfl
  refine ⟨{ s.clearAct s.arg.n j with fabric := { (s.clearAct s.arg.n j).fabric with wave := some { w with
      read := s.arg.n :: w.read, sums1 := [addReading (i, c, a) (s.reading s.arg.n j)] } } },
    settles_of_event (execSweepWaveStart s) rfl rfl ?_, rfl, ?_, fun n hne => ?_, rfl, rfl⟩
  · rw [if_neg (by simp [h0]), hw]
    dsimp only
    rw [hs, if_neg Bool.false_ne_true]
    unfold State.readWave
    rw [if_neg (by simp [hnext]), Wave.served_one hj ha hn]
    dsimp only
    rw [hs, hj, hsum]
    rfl
  · exact Sparse.get_set_self Counter.zero s.fabric.counters (64 * s.arg.n + j) _
  · exact Sparse.get_set_ne Counter.zero s.fabric.counters (64 * s.arg.n + j) (64 * n + j) _ (by omega)

theorem sweep_reads2 (s : State) (w : Wave) (j : Nat) (i c : Word) (a : Bool) (h0 : s.arg.m = 0) (hw : s.fabric.wave = some w)
    (hs : w.second = true) (hj : w.jobs = [j]) (hsum : w.sums2 = [(i, c, a)]) (hnext : waveNext w.read s.arg.n = true)
    (ha : (s.job j).active = true) (hn : (s.job j).nm1 = 0) :
      Settles .sweepPass2 s { s with fabric := { s.fabric with
      wave := some { w with read := s.arg.n :: w.read, sums2 := [(i + (s.counter s.arg.n j).inj,
        c + ((s.counter s.arg.n j).con + word (s.counter s.arg.n j).qw), a || (s.counter s.arg.n j).act)] } } } := by
  refine settles_of_event (execSweepPass2 s) rfl rfl ?_
  rw [if_neg (by simp [h0]), hw]
  dsimp only
  rw [if_pos hs]
  unfold State.readWave
  rw [if_neg (by simp [hnext]), Wave.served_one hj ha hn]
  dsimp only
  rw [hs, hj, hsum]
  rfl

theorem sweep_leaves (s : State) (w : Wave) (j : Nat) (h0 : s.arg.m = 0) (hw : s.fabric.wave = some w) (hs : w.second = false)
    (hj : w.jobs = [j]) (hnext : waveNext w.read s.arg.n = true) (hn : (s.job j).nm1 ≠ 0) :
    Settles .sweepWaveStart s { s with fabric := { s.fabric with
      wave := some { w with read := s.arg.n :: w.read, jobs := [], sums1 := [], sums2 := [] } } } := by
  refine settles_of_event (execSweepWaveStart s) rfl rfl ?_
  rw [if_neg (by simp [h0]), hw]
  dsimp only
  rw [hs, if_neg Bool.false_ne_true]
  unfold State.readWave
  rw [if_neg (by simp [hnext]), Wave.served_none hj hn]
  dsimp only
  rw [hs]
  rfl

theorem sweep_waits (s : State) (w : Wave) (h0 : s.arg.m = 0) (hw : s.fabric.wave = some w) (hs : w.second = false) (hl : w.read.length < 50) :
    Settles .sweepPass2 s s := by
  have hread : waveRead w.read = false := decide_eq_false (by rw [interfaces]; omega)
  refine settles_of_event (execSweepPass2 s) rfl rfl ?_
  rw [if_neg (by simp [h0]), hw]
  dsimp only
  rw [hs, hread]
  rfl

theorem sweep_verdict (s : State) (w : Wave) (j : Nat) (i1 c1 i2 c2 : Word) (a1 act : Bool) (hw : s.fabric.wave = some w) (hs : w.second = true)
    (hl : w.read.length = 50) (hj : w.jobs = [j]) (h1 : w.sums1 = [(i1, c1, a1)]) (h2 : w.sums2 = [(i2, c2, act)])
    (ha : (s.job j).active = true) (hn : (s.job j).nm1 = 0) :
    ∃ u : State, Settles .sweepVerdict s u ∧ u.fabric.wave = none ∧ (u.job j).qsumI = i2 ∧ (u.job j).qsumC = c2 ∧
      ((i1 = i2 ∧ c1 = c2 ∧ i2 = c2 ∧ act = false) → (u.job j).qstat = w.start <<< 1 ||| 1) ∧
      (¬(i1 = i2 ∧ c1 = c2 ∧ i2 = c2 ∧ act = false) → (u.job j).qstat = w.start <<< 1) := by
  obtain ⟨quiet, hq⟩ : ∃ quiet, quiet = verdictOf i1 c1 i2 c2 act := ⟨_, rfl⟩
  have hquiet : quiet = true ↔ i1 = i2 ∧ c1 = c2 ∧ i2 = c2 ∧ act = false := by
    rw [hq, verdictOf]
    simp only [Bool.and_eq_true, decide_eq_true_eq, Bool.not_eq_true', and_assoc]
  refine ⟨State.modJob { s with fabric := { s.fabric with wave := none } } j fun q => { q.verdict quiet w.start with qsumI := i2, qsumC := c2 },
    settles_of_event (execSweepVerdict s) rfl rfl ?_, rfl, ?_⟩
  · have hready : ¬ (!w.second || !waveRead w.read) = true := by
      rw [hs, waveRead, hl]
      decide
    rw [hw]
    dsimp only
    rw [if_neg hready, hj, h1, h2]
    dsimp only [List.zip_cons_cons, List.zip_nil_left, List.foldl_cons, List.foldl_nil]
    rw [← hq]
    exact if_pos (by simp only [Bool.and_eq_true, decide_eq_true_eq]; exact ⟨ha, hn⟩)
  · rw [State.job_modJob_self]
    refine ⟨rfl, rfl, fun h => ?_, fun h => ?_⟩
    · show w.start <<< 1 ||| (if quiet then 1 else 0) = _
      rw [if_pos (hquiet.mpr h)]
    · show w.start <<< 1 ||| (if quiet then 1 else 0) = _
      rw [if_neg fun hy => h (hquiet.mp hy)]
      exact BitVec.or_zero

/-! Waves over many packages (R362) -/

theorem State.readX_reads {s : State} {x : XWave} {j : Nat} {i c : Word} {a : Bool} (second : Bool) (hx : s.xwave j = some x)
    (ho : x.own = some (i, c, a)) (hs : x.second = second) (hnext : waveNext x.read s.arg.n = true) : s.readX j second s.arg.n =
      ((if second then s else s.clearAct s.arg.n j).setXwave j (some { x with
        own := some (addReading (i, c, a) (s.reading s.arg.n j)), read := s.arg.n :: x.read })).passOn j := by
  unfold State.readX
  rw [hx]
  dsimp only
  rw [ho]
  exact if_neg (by simp [hs, hnext])

theorem xwave_reads (s : State) (x : XWave) (j : Nat) (i c : Word) (a : Bool) (hm : s.arg.m = j + 1) (hx : s.xwave j = some x)
    (ho : x.own = some (i, c, a)) (hnext : waveNext x.read s.arg.n = true) :
    (x.second = false → Settles .sweepWaveStart s (((s.clearAct s.arg.n j).setXwave j (some { x with
      own := some (addReading (i, c, a) (s.reading s.arg.n j)), read := s.arg.n :: x.read })).passOn j)) ∧
    (x.second = true → Settles .sweepPass2 s ((s.setXwave j (some { x with
      own := some (addReading (i, c, a) (s.reading s.arg.n j)), read := s.arg.n :: x.read })).passOn j)) := by
  have hj : s.arg.m - 1 = j := by omega
  have hcross : s.arg.m ≠ 0 := by omega
  refine ⟨fun hs => settles_of_event (execSweepWaveStart s) rfl rfl ((if_pos hcross).trans ?_),
    fun hs => settles_of_event (execSweepPass2 s) rfl rfl ((if_pos hcross).trans ?_)⟩
  · rw [hj, State.readX_reads false hx ho hs hnext]
    rfl
  · rw [hj, State.readX_reads true hx ho hs hnext]
    rfl

theorem xwave_starts (s : State) (j : Nat) (hj : j = s.arg.n) (hlt : j < 64) (ha : (s.job j).active = true) (hk : (s.job j).kstat = 0)
    (hn : (s.job j).nm1 ≠ 0) (hen : s.pkg.sweepEn = true) (hr : s.isRoot j = true) (hx : s.xwave j = none) (hl : (s.job j).xlast = none) :
    Settles .xwaveStart s (((State.modJob { s with fabric := { s.fabric with nextXwave := s.fabric.nextXwave + 1 } } j fun q =>
      { q with xlast := some s.sidereal, xperiod := s.pkg.xperiod }).startPass
        ⟨j, s.fabric.nextXwave, false, s.sidereal, s.sidereal, s.sidereal, none, [], none, [], false⟩).passOn j) := by
  subst hj
  have hlive : (s.job s.arg.n).live = true := by simp [Job.live, ha, hk]
  refine settles_of_event (execXwaveStart s) rfl rfl ?_
  dsimp only
  rw [hl]
  exact if_neg (by simp [hlt, hlive, hn, hen, hr, hx])

theorem xwave_older (s : State) (h : s.olderWave s.arg.n s.arg.m = true) : Settles .xwaveRequestReceive s s ∧ Settles .xwaveVerdictReceive s s :=
  ⟨settles_of_event (execXwaveRequestReceive s) rfl rfl (if_pos (by simp [h])),
    settles_of_event (execXwaveVerdictReceive s) rfl rfl (if_pos (by simp [h]))⟩

theorem xwave_takes (s : State) (j : Nat) (hj : j = s.arg.n) (hlt : j < 64) (ha : (s.job j).active = true) (hk : (s.job j).kstat = 0)
    (hn : (s.job j).nm1 ≠ 0) (hr : s.isRoot j = false) (ho : s.olderWave j s.arg.m = false) :
    (s.arg.flag = false → Settles .xwaveRequestReceive s
      ((s.startPass ⟨j, s.arg.m, false, 0, s.sidereal, s.sidereal, none, [], none, [], false⟩).passOn j)) ∧
    (∀ x, s.arg.flag = true → s.xwave j = some x → x.wave = s.arg.m → x.second = false → Settles .xwaveRequestReceive s
      ((s.startPass { x with second := true }).passOn j)) ∧
    (∀ x, s.xwave j = some x → x.wave = s.arg.m → Settles .xwaveVerdictReceive s
      (((s.modJob x.job fun q => { q with
        qstat := s.arg.v <<< 1 ||| (if s.arg.flag then 1 else 0), qreached := x.reached }).tellChildren x.job x.wave
          (.verdict s.arg.flag s.arg.v)).setXwave x.job none)) ∧
    (s.xwave j = none → (s.job j).xwave = some s.arg.m → Settles .xwaveVerdictReceive s s) := by
  subst hj
  have hgo : ¬ (decide (64 ≤ s.arg.n) || !(s.job s.arg.n).live || decide ((s.job s.arg.n).nm1 = 0) || s.isRoot s.arg.n ||
      s.olderWave s.arg.n s.arg.m) = true := by
    simp [hlt, Job.live, ha, hk, hn, hr, ho]
  refine ⟨fun hf => settles_of_event (execXwaveRequestReceive s) rfl rfl ((if_neg hgo).trans (if_neg (by simp [hf]))),
    fun x hf hx hm hs => settles_of_event (execXwaveRequestReceive s) rfl rfl ((if_neg hgo).trans ((if_pos hf).trans ?_)),
    fun x hx hm => settles_of_event (execXwaveVerdictReceive s) rfl rfl ((if_neg hgo).trans ?_),
    fun hx hm => settles_of_event (execXwaveVerdictReceive s) rfl rfl ((if_neg hgo).trans ?_)⟩
  · rw [hx]
    exact if_pos (by simp [hm, hs])
  · rw [hx]
    exact if_pos hm
  · rw [hx]
    exact if_pos hm

/-- A reply of the running pass from a child that has not replied joins the replies. -/
theorem State.takeReply_joins {s : State} {r : WaveReply} {x : XWave} {j : Nat} (hx : s.xwave j = some x) (ho : x.own ≠ none)
    (hw : r.wave = x.wave) (hs : r.second = x.second) (hc : r.child ∈ s.children j) (hnew : ∀ o ∈ x.replies, o.child ≠ r.child) :
    s.takeReply j r = (s.setXwave j (some { x with replies := x.replies ++ [r], failed := x.failed || r.failed })).passOn j := by
  have hown : x.own.isNone = false := by
    cases hsum : x.own with
    | none => exact absurd hsum ho
    | some _ => rfl
  unfold State.takeReply
  rw [hx]
  exact if_neg (by simpa [hown, hw, hs, hc] using hnew)

theorem xwave_replies (s : State) (r : WaveReply) (x : XWave) (hr : s.arg.reply = some r) (hx : s.xwave s.arg.n = some x) (ho : x.own ≠ none)
    (hw : r.wave = x.wave) (hs : r.second = x.second) (hc : r.child ∈ s.children s.arg.n) (hnew : ∀ o ∈ x.replies, o.child ≠ r.child) :
    Settles .xwaveReplyReceive s
      ((s.setXwave s.arg.n (some { x with replies := x.replies ++ [r], failed := x.failed || r.failed })).passOn s.arg.n) := by
  refine settles_of_event (execXwaveReplyReceive s) rfl rfl ?_
  rw [hr]
  exact State.takeReply_joins hx ho hw hs hc hnew

theorem xwave_timesOut (s : State) (x : XWave) (hx : s.xwave s.arg.n = some x) (ho : x.own ≠ none) (hc : s.arg.m ∈ s.children s.arg.n)
    (hnew : ∀ o ∈ x.replies, o.child ≠ s.arg.m) (ht : 1200 * (2 * s.port.retry * s.port.rto) ≤ (s.sidereal - x.asked).toNat) :
    Settles .xwaveReplyTimeout s ((s.setXwave s.arg.n (some { x with
      replies := x.replies ++ [⟨s.arg.m, x.wave, x.second, true, 0, 0, false⟩], failed := true })).passOn s.arg.n) := by
  refine settles_of_event (execXwaveReplyTimeout s) rfl rfl ?_
  rw [hx]
  refine (if_pos ht).trans ?_
  unfold State.failChild
  rw [hx]
  dsimp only
  rw [State.takeReply_joins hx ho rfl rfl hc hnew, Bool.or_true]

theorem rootPass_decides (s : State) (x : XWave) (i1 c1 i c : Word) (act : Bool) (ht : x.total = (i, c, act)) :
    (x.failed = true → s.rootPass x = s.takeVerdict x false x.start) ∧
    (x.failed = false → x.pass1 = none → s.rootPass x = s.startPass { x with second := true, pass1 := some (i, c) }) ∧
    (x.failed = false → x.pass1 = some (i1, c1) → s.rootPass x = (s.modJob x.job fun q => { q with qsumI := i, qsumC := c }).takeVerdict x
      (decide (i1 = i) && decide (c1 = c) && decide (i = c) && !act) x.start) := by
  refine ⟨fun hf => ?_, fun hf hp => ?_, fun hf hp => ?_⟩
  all_goals
    unfold State.rootPass
    rw [ht]
  · exact if_pos hf
  · refine (if_neg (by simp [hf])).trans ?_
    rw [hp]
  · refine (if_neg (by simp [hf])).trans ?_
    rw [hp]
    rfl

/-- Settles O46: the local wave's passes and verdict, then the waves over many packages. -/
theorem sweepsReachTheirVerdicts : Obligations.SweepsReachTheirVerdicts :=
  ⟨sweep_starts, sweep_reads1, sweep_reads2, sweep_leaves, sweep_waits, sweep_verdict, xwave_reads, xwave_starts, xwave_older, xwave_takes,
    xwave_replies, xwave_timesOut, rootPass_decides⟩

end Sys2Proof.Machine
end
